-- ==== Sys2Proof/Word.lean ====
section
/-!
DEFINITION. The words of the machine: bytes, 32-bit register words, 64-bit pairs, and their plainest arithmetic.
-/
namespace Sys2Proof

/-- One byte of storage. -/
abbrev Byte := BitVec 8

/-- A register word: a vector register of one lane, a uniform register, a tile word (R100). -/
abbrev Word := BitVec 32

/-- A 64-bit value: a pair of registers, an address operand, a D9 instruction word (R117, R120). -/
abbrev DWord := BitVec 64

/-- Bits `hi` down to `lo` of a word, as a number. -/
def bits (w hi lo : Nat) : Nat := (w >>> lo) % 2 ^ (hi + 1 - lo)

/-- One bit of a word. -/
def bit (w i : Nat) : Bool := (w >>> i) % 2 == 1

/-- A Bool as the number 0 or 1. -/
def b2n (b : Bool) : Nat := if b then 1 else 0

/-- The pair whose low register is `lo` and high register is `hi` (R120). -/
def pairOf (lo hi : Word) : DWord := hi ++ lo

/-- Register n of a pair: bits [31:0]. -/
def loWord (d : DWord) : Word := d.setWidth 32

/-- Register n + 1 of a pair: bits [63:32]. -/
def hiWord (d : DWord) : Word := (d >>> 32).setWidth 32

end Sys2Proof
end

