-- ==== Sys2Proof/Config.lean ====
section
/-!
DEFINITION. What the spec leaves free: opaque constants with no body, so that no proof can see their values.
-/
namespace Sys2Proof.Config

/-- Core cycles beyond the least that R136 allows; the n-th draw of the model's counter (log 7, DEDUCED). -/
opaque slack : Nat → Nat

/-- A byte the spec leaves open: overlapping sides of one job (R81), an opaque message body (log 12, log 15, DESIGN CHOICE). -/
opaque freeByte : Nat → Byte

/-- A 32-bit value the spec does not state, the n-th draw of the model's counter (log 12, DESIGN CHOICE). -/
opaque freeWord : Nat → Word

/-- Free choice among the results R208 and R209 allow: given the operation (its opcode) and the operand's bits without
sign, a number that selects one admissible result (log 9, DESIGN CHOICE). -/
opaque approx : Nat → Nat → Nat

/-- The I/O die whose ATS cache serves a compute die, modulo 2: R9 and R32 give each I/O die one and do not say which serves which (log 13,
DESIGN CHOICE). -/
opaque ioDie : Nat → Nat

/-- SHA-384 of a list of bytes (R429): a standard outside the spec (log 15, DESIGN CHOICE). -/
opaque sha384 : List Byte → BitVec 384

/-- The digest of a firmware image (R429, R433): 0 and 1 boot firmware in slots A and B, 2 and 3 Plien in slots A and B, 4 the
security configuration (log 15, DESIGN CHOICE). -/
opaque image : Nat → BitVec 384

/-- The CRC-32 of bytes 0 to 123 of a copy of the start record (R434, log 15, DESIGN CHOICE). -/
opaque crc32 : List Byte → BitVec 32

/-- The body of the SPDM response to a request of the given code with the given bytes, from what the security complex holds that the response
reports (R429, R430, log 15, DESIGN CHOICE). -/
opaque spdmBody : Nat → List Byte → List Byte → List Byte

/-- What fuses give the security complex (R429): 0 the RSA-3072 key pair, 1 the SLH-DSA-SHA2-192s key pair, 2 and 3 the certificate chains of
slots 0 and 1 (log 15, DESIGN CHOICE). -/
opaque identity : Nat → List Byte

/-- Whether an SPDM request of the given code with the given bytes is well formed and acceptable (R430, log 15, DESIGN CHOICE). -/
opaque spdmAccepts : Nat → List Byte → Bool

/-- The elements of a reduce-scatter's result that a rank receives where the members do not divide NELEM: first element and number
(R422, log 29, DESIGN CHOICE). -/
opaque collShare : Nat → Nat → Nat → Nat × Nat

end Sys2Proof.Config
end

