-- ==== Sys2Proof/Machine/Numeric.lean ====
section
/-!
DEFINITION. The number formats: exact values, decoding (R45, R48, R49), rounding (R57 to R61) and conversion.
-/
namespace Sys2Proof.Machine

/-- An exact value: a NaN, an infinity, or (−1)^neg × m × 2^e. -/
inductive Val where
  | nan
  | inf (neg : Bool)
  | fin (neg : Bool) (m : Nat) (e : Int)
  deriving DecidableEq, Repr

/-- A floating-point format (R45): width, mantissa bits, bias, the bits of the largest finite magnitude, whether it has
infinities, and its canonical NaN (R47). -/
structure FloatFormat where
  width : Nat
  man : Nat
  bias : Nat
  largest : Nat
  hasInf : Bool
  nan : Nat
  deriving DecidableEq, Repr

/-- F32 (R45). -/
def f32 : FloatFormat := ⟨32, 23, 127, 0x7F7FFFFF, true, 0x7FC00000⟩
/-- BF16 (R45). -/
def bf16 : FloatFormat := ⟨16, 7, 127, 0x7F7F, true, 0x7FC0⟩
/-- F16 (R45). -/
def f16 : FloatFormat := ⟨16, 10, 15, 0x7BFF, true, 0x7E00⟩
/-- E4M3 (R45). -/
def e4m3 : FloatFormat := ⟨8, 3, 7, 0x7E, false, 0x7F⟩
/-- E5M2 (R45). -/
def e5m2 : FloatFormat := ⟨8, 2, 15, 0x7B, true, 0x7E⟩

/-- An integer or W format: its width and whether it is signed (R48). -/
structure IntFormat where
  width : Nat
  signed : Bool
  deriving DecidableEq, Repr

/-- The largest value of an integer format (R48). -/
def IntFormat.top (f : IntFormat) : Nat := if f.signed then 2 ^ (f.width - 1) - 1 else 2 ^ f.width - 1

/-- The smallest value of an integer format (R48). -/
def IntFormat.bottom (f : IntFormat) : Int := if f.signed then -2 ^ (f.width - 1) else 0

/-- A number format. -/
inductive Format where
  | float (f : FloatFormat)
  | int (f : IntFormat)
  deriving DecidableEq, Repr

/-- Bits of an element (R44). -/
def Format.width : Format → Nat
  | .float f => f.width
  | .int f => f.width

/-- The conversion formats of a control field, by code (R125). -/
def convFormat : Nat → Option Format
  | 0 => some (.float f32)
  | 1 => some (.float bf16)
  | 2 => some (.float f16)
  | 3 => some (.float e4m3)
  | 4 => some (.float e5m2)
  | 5 => some (.int ⟨8, true⟩)
  | 6 => some (.int ⟨8, false⟩)
  | 7 => some (.int ⟨16, true⟩)
  | 8 => some (.int ⟨16, false⟩)
  | 9 => some (.int ⟨32, true⟩)
  | 10 => some (.int ⟨32, false⟩)
  | 11 => some (.int ⟨3, true⟩)
  | 12 => some (.int ⟨4, true⟩)
  | 13 => some (.int ⟨6, true⟩)
  | _ => none

/-- The format of a FMT code (R44); FMT 0, raw bytes, decodes as none. -/
def fmtFormat : Nat → Option Format
  | 1 => some (.float f32)
  | 2 => some (.float bf16)
  | 3 => some (.float f16)
  | 4 => some (.float e4m3)
  | 5 => some (.float e5m2)
  | 6 => some (.int ⟨8, true⟩)
  | 7 => some (.int ⟨8, false⟩)
  | 8 => some (.int ⟨32, true⟩)
  | 9 => some (.int ⟨3, true⟩)
  | 10 => some (.int ⟨4, true⟩)
  | 11 => some (.int ⟨6, true⟩)
  | _ => none

/-- The element format a float type code names: 0 F32, 1 BF16, 2 F16 (R142). -/
def floatType : Nat → FloatFormat
  | 0 => f32
  | 1 => bf16
  | _ => f16

/-- The exact value of an encoding of a float format (R45). -/
def FloatFormat.decode (f : FloatFormat) (w : Nat) : Val :=
  let neg := bit w (f.width - 1)
  let mag := w % 2 ^ (f.width - 1)
  if mag ≤ f.largest then
    let ex := mag / 2 ^ f.man
    let m := mag % 2 ^ f.man
    let base : Int := 1 - f.bias - f.man
    if ex = 0 then .fin neg m base else .fin neg (2 ^ f.man + m) (base + (ex : Int) - 1)
  else if f.hasInf ∧ mag = f.largest + 1 then .inf neg
  else .nan

/-- The value of an element of an integer format (R48). -/
def IntFormat.decode (f : IntFormat) (w : Nat) : Val :=
  let v := w % 2 ^ f.width
  if f.signed ∧ bit v (f.width - 1) then .fin true (2 ^ f.width - v) 0 else .fin false v 0

/-- The exact value of an element, read from the low bits of a word (R216). -/
def Format.decode : Format → Nat → Val
  | .float f, w => f.decode w
  | .int f, w => f.decode w

/-- A value times a power of two. -/
def Val.scale : Val → Int → Val
  | .fin n m e, k => .fin n m (e + k)
  | v, _ => v

/-- Whether a value is nonzero and finite. -/
def Val.nonzeroFinite : Val → Bool
  | .fin _ m _ => m != 0
  | _ => false

/-- Rounding modes (R57). -/
inductive Mode where
  | rne | rtz | rdn | rup | sr
  deriving DecidableEq, Repr

/-- The mode of a code below 5 (R57). -/
def modeOf : Nat → Mode
  | 1 => .rtz
  | 2 => .rdn
  | 3 => .rup
  | 4 => .sr
  | _ => .rne

/-- Round m × 2^e at the unit 2^u: the integer number of units, by mode (R57); `r` are the bits drawn for SR (R61). -/
def roundAt (mode : Mode) (neg : Bool) (m : Nat) (e u : Int) (r : Nat) : Nat :=
  if u ≤ e then m * 2 ^ (e - u).toNat
  else
    let sh := (u - e).toNat
    let q := m / 2 ^ sh
    let rem := m % 2 ^ sh
    let up : Bool := match mode with
      | .rne => decide (2 ^ sh < 2 * rem) || (decide (2 ^ sh = 2 * rem) && q % 2 == 1)
      | .rtz => false
      | .rdn => neg && rem != 0
      | .rup => !neg && rem != 0
      | .sr => decide (2 ^ (sh + 16) ≤ rem * 2 ^ 16 + r * 2 ^ sh)
    if up then q + 1 else q

/-- How a conversion treats a magnitude beyond the largest finite one (R58). -/
inductive Overflow where
  | default | saturate | toNan
  deriving DecidableEq, Repr

/-- The magnitude bits of a rounded nonzero value m × 2^e of a float format, as if exponents were unbounded above (R58). -/
def FloatFormat.roundMag (f : FloatFormat) (mode : Mode) (neg : Bool) (m : Nat) (e : Int) (r : Nat) : Nat :=
  let base : Int := 1 - f.bias - f.man
  let u := max ((Nat.log2 m : Int) + e - f.man) base
  (u - base).toNat * 2 ^ f.man + roundAt mode neg m e u r

/-- An encoding from its sign and magnitude bits. -/
def FloatFormat.pack (f : FloatFormat) (neg : Bool) (mag : Nat) : Nat := (if neg then 2 ^ (f.width - 1) else 0) + mag

/-- What stands in place of a magnitude beyond the largest finite one (R58). -/
def FloatFormat.overflow (f : FloatFormat) (mode : Mode) (ovf : Overflow) (neg : Bool) : Nat :=
  match ovf with
  | .toNan => f.nan
  | .saturate => f.pack neg f.largest
  | .default =>
    if !f.hasInf then f.pack neg f.largest
    else
      let toInf := match mode with | .rne => true | .sr => true | .rtz => false | .rdn => neg | .rup => !neg
      f.pack neg (if toInf then f.largest + 1 else f.largest)

/-- Convert an exact value into a float format (R58, R61). -/
def FloatFormat.encode (f : FloatFormat) (mode : Mode) (ovf : Overflow) (r : Nat) : Val → Nat
  | .nan => f.nan
  | .inf neg => match ovf with
    | .toNan => f.nan
    | .saturate => f.pack neg f.largest
    | .default => f.pack neg (if f.hasInf then f.largest + 1 else f.largest)
  | .fin neg m e =>
    if m = 0 then f.pack neg 0
    else
      let beyond : Bool := match f.decode f.largest with
        | .fin _ lm le => decide (lm * 2 ^ (le - min e le).toNat < m * 2 ^ (e - min e le).toNat)
        | _ => false
      let mode := if mode = .sr ∧ beyond then .rne else mode
      let mag := f.roundMag mode neg m e r
      if f.largest < mag then f.overflow mode ovf neg else f.pack neg mag

/-- Convert an exact value into an integer or W format (R59, R61): the element as a word of its width. -/
def IntFormat.encode (f : IntFormat) (mode : Mode) (r : Nat) : Val → Nat
  | .nan => 0
  | .inf neg => if neg then (f.bottom % 2 ^ f.width).toNat else f.top
  | .fin neg m e =>
    let beyond : Bool := decide (f.top * 2 ^ (0 - min e 0).toNat < m * 2 ^ (e - min e 0).toNat)
    let mode := if mode = .sr ∧ beyond then .rne else mode
    let q := roundAt mode neg m e 0 r
    let v : Int := if neg then -q else q
    ((max f.bottom (min f.top v)) % 2 ^ f.width).toNat

/-- Convert an exact value into a format; the element as a number of its width (R58, R59). -/
def Format.encode : Format → Mode → Overflow → Nat → Val → Nat
  | .float f, mode, ovf, r, v => f.encode mode ovf r v
  | .int f, mode, _, r, v => f.encode mode r v

/-- Round an exact value with RNE into a float format (R58). -/
def FloatFormat.rne (f : FloatFormat) (v : Val) : Nat := f.encode .rne .default 0 v

/-! ### Exact arithmetic -/

/-- The sign inverted. -/
def Val.neg : Val → Val
  | .nan => .nan
  | .inf n => .inf (!n)
  | .fin n m e => .fin (!n) m e

/-- A signed multiple of a power of two. -/
def ofSigned (v : Int) (e : Int) : Val := .fin (decide (v < 0)) v.natAbs e

/-- The signed numerator of a finite value at exponent `e0`, which is at most its own. -/
def signedAt (n : Bool) (m : Nat) (e e0 : Int) : Int := (if n then -1 else 1) * (m * 2 ^ (e - e0).toNat : Nat)

/-- The exact sum, with the special cases and the sign of a zero of R205. -/
def Val.add : Val → Val → Val
  | .nan, _ => .nan
  | _, .nan => .nan
  | .inf a, .inf b => if a = b then .inf a else .nan
  | .inf a, _ => .inf a
  | _, .inf b => .inf b
  | .fin a m e, .fin b n f =>
    let e0 := min e f
    let v := signedAt a m e e0 + signedAt b n f e0
    if v = 0 then .fin (m = 0 ∧ n = 0 ∧ a ∧ b) 0 e0 else ofSigned v e0

/-- The exact product (R205). -/
def Val.mul : Val → Val → Val
  | .nan, _ => .nan
  | _, .nan => .nan
  | .inf a, .inf b => .inf (a != b)
  | .inf a, .fin b m _ => if m = 0 then .nan else .inf (a != b)
  | .fin a m _, .inf b => if m = 0 then .nan else .inf (a != b)
  | .fin a m e, .fin b n f => .fin (a != b) (m * n) (e + f)

/-- Whether one value is less than another, neither being a NaN, by value (R207). -/
def Val.lt : Val → Val → Bool
  | .nan, _ => false
  | _, .nan => false
  | .inf a, .inf b => a && !b
  | .inf a, _ => a
  | _, .inf b => !b
  | .fin a m e, .fin b n f => decide (signedAt a m e (min e f) < signedAt b n f (min e f))

/-- Whether two values are equal by value, so −0 equals +0 (R207); NaNs equal nothing. -/
def Val.eqv : Val → Val → Bool
  | .nan, _ => false
  | _, .nan => false
  | a, b => !a.lt b && !b.lt a

/-- The next state of a lane's stochastic-rounding state (R60). -/
def srStep (x : Word) : Word :=
  let x := x ^^^ (x <<< 13)
  let x := x ^^^ (x >>> 17)
  x ^^^ (x <<< 5)

/-- The bits drawn: the top 16 of the new state (R60). -/
def srBits (x : Word) : Nat := x.toNat / 65536

/-- The seed of a lane's state (R60). -/
def srSeed (seed : Word) (lane : Nat) : Word :=
  let s := seed ^^^ (BitVec.ofNat 32 (lane + 1) * 0x9E3779B9#32)
  if s = 0#32 then 1#32 else s

/-- The smaller or larger of two encodings under the total order of R168 and R206: −0 is less than +0, a NaN operand is
ignored, and two NaNs give the canonical NaN. -/
def FloatFormat.pickOf (f : FloatFormat) (larger : Bool) (a b : Nat) : Nat :=
  match f.decode a, f.decode b with
  | .nan, .nan => f.nan
  | .nan, _ => b
  | _, .nan => a
  | x, y =>
    let less := x.lt y || (x.eqv y && bit a (f.width - 1) && !bit b (f.width - 1))
    if less != larger then a else b

/-! ### Roots, reciprocals and the approximated functions (R208) -/

/-- The square root of a number rounded down, bit by bit from bit `k`. -/
def isqrtFrom (n : Nat) : Nat → Nat → Nat
  | 0, r => r
  | k + 1, r => let t := r + 2 ^ k; isqrtFrom n k (if t * t ≤ n then t else r)

/-- The square root rounded down, of a number below 2^1024. -/
def isqrt (n : Nat) : Nat := isqrtFrom n (Nat.log2 n / 2 + 1) 0

/-- An exact reciprocal for rounding: 96 fraction bits beyond the operand and a sticky bit. -/
def recipOf (neg : Bool) (m : Nat) (e : Int) : Val :=
  let n := 2 ^ (96 + Nat.log2 m)
  .fin neg (2 * (n / m) + b2n (n % m != 0)) (-(96 + Nat.log2 m : Int) - 1 - e)

/-- An exact square root for rounding: 64 bits beyond the operand and a sticky bit. -/
def sqrtOf (m : Nat) (e : Int) : Val :=
  let odd : Nat := (e % 2).toNat
  let n := m * 2 ^ (odd + 128)
  let s := isqrt n
  .fin false (2 * s + b2n (s * s != n)) ((e - odd) / 2 - 65)

/-- Fraction bits of the fixed-point values below. -/
def fxBits : Nat := 320

/-- A product of fixed-point values. -/
def fxMul (a b : Int) : Int := a * b / 2 ^ fxBits

/-- A Taylor sum: term n + 1 from term n by `next`, `k` terms from term `n` on. -/
def fxSeries (next : Nat → Int → Int) : Nat → Nat → Int → Int
  | 0, _, _ => 0
  | k + 1, n, t => t + fxSeries next k (n + 1) (next n t)

/-- atanh of 1 / q, or atan with alternating signs, in fixed point. -/
def fxInvSeries (q : Nat) (alternate : Bool) : Int :=
  fxSeries (fun n t => let p := t * (2 * n + 1) / (q * q * (2 * n + 3)); if alternate then -p else p) 220 0 (2 ^ fxBits / q)

/-- ln 2 in fixed point. -/
def fxLn2 : Int := 2 * fxInvSeries 3 false

/-- π in fixed point. -/
def fxPi : Int := 16 * fxInvSeries 5 true - 4 * fxInvSeries 239 true

/-- e^x in fixed point, for x below 41. -/
def fxExp (x : Int) : Int := fxSeries (fun n t => fxMul t x / (n + 1)) 320 0 (2 ^ fxBits)

/-- sin x in fixed point, for x below 2π. -/
def fxSin (x : Int) : Int := fxSeries (fun n t => -(fxMul (fxMul t x) x / ((2 * n + 2) * (2 * n + 3)))) 70 0 x

/-- cos x in fixed point, for x below 2π. -/
def fxCos (x : Int) : Int := fxSeries (fun n t => -(fxMul (fxMul t x) x / ((2 * n + 1) * (2 * n + 2)))) 70 0 (2 ^ fxBits)

/-- ln of a fixed-point number from 1 to 2. -/
def fxLn (x : Int) : Int :=
  let z := (x - 2 ^ fxBits) * 2 ^ fxBits / (x + 2 ^ fxBits)
  2 * fxSeries (fun n t => fxMul (fxMul t z) z * (2 * n + 1) / (2 * n + 3)) 220 0 z

/-- erf of a fixed-point number below 6. -/
def fxErf (x : Int) : Int :=
  let s := fxSeries (fun n t => -(fxMul (fxMul t x) x * (2 * n + 1) / ((n + 1) * (2 * n + 3)))) 260 0 x
  2 * s * 2 ^ fxBits / (isqrt (fxPi.toNat * 2 ^ fxBits) : Int)

/-- A finite magnitude in fixed point (log 9, DESIGN CHOICE). -/
def fxOf (m : Nat) (e : Int) : Int :=
  let k := e + fxBits
  if 0 ≤ k then m * 2 ^ k.toNat else m / 2 ^ (-k).toNat

/-- A fixed-point value within the magnitude limit of R208. -/
def fxCap (v : Int) : Int := max (-2 ^ fxBits) (min (2 ^ fxBits) v)

/-- The exact value of an approximated function at a positive finite operand, to far more bits than R208's bounds need: op is the opcode
of R143. Where tanh or erf is nearer to 1 than that, the value stays below 1 (log 9, DESIGN CHOICE). -/
def trueValue (op m : Nat) (neg : Bool) (e : Int) : Val :=
  let x := fxOf m e
  let one : Int := 2 ^ fxBits
  match op with
  | 0x48 =>
    let p : Nat := (e % 2).toNat
    ofSigned (isqrt (2 ^ (400 + p) / m)) ((-400 - p - e) / 2)
  | 0x4A =>
    let x := if neg then -x else x
    ofSigned (fxExp (fxMul (x % one) fxLn2)) (x / one - fxBits)
  | 0x4B => ofSigned (fxLn (fxOf m (-(Nat.log2 m : Int))) * one / fxLn2 + ((Nat.log2 m : Int) + e) * one) (-fxBits)
  | 0x4C =>
    if 20 * one ≤ x then ofSigned (one - 1) (-fxBits)
    else let y := fxExp (2 * x); ofSigned (fxCap ((y - one) * one / (y + one))) (-fxBits)
  | 0x4D => if 6 * one ≤ x then ofSigned (one - 1) (-fxBits) else ofSigned (fxCap (fxErf x)) (-fxBits)
  | 0x4E => ofSigned (fxCap (fxSin (x % (2 * fxPi)))) (-fxBits)
  | _ => ofSigned (fxCap (fxCos (x % (2 * fxPi)))) (-fxBits)

/-- The exponent of one ulp of a finite value (R208). -/
def ulpExp : Val → Int
  | .fin _ m e => if m = 0 then -149 else max (-149) ((Nat.log2 m : Int) + e - 23)
  | _ => -149

/-- Whether a zero of a sign may be the result of an exact value: it has the value's sign, and no value in the range of the subnormals is
flushed to zero (R46). -/
def zeroServes (neg : Bool) : Val → Bool
  | .fin b n f =>
    let v := Val.fin false n f
    neg == b && (v.lt (.fin false 1 (-149)) || !v.lt (.fin false 1 (-126)))
  | _ => false

/-- Whether a finite F32 encoding lies within a distance of an exact value (R208): `ulps` ulps or, where that is larger,
2^−24; a slack of 2^−140 of the bound covers the evaluation (log 9, DESIGN CHOICE). -/
def within (w ulps : Nat) (floor24 : Bool) (y : Val) : Bool :=
  match f32.decode w, y with
  | .fin a m e, .fin b n f =>
    let u := ulpExp y
    let e0 := min (min e f) (u - 300)
    let d := (signedAt a m e e0 - signedAt b n f e0).natAbs
    let bound := max (ulps * 2 ^ (u - e0).toNat) (if floor24 then 2 ^ (-24 - e0).toNat else 0)
    decide (d ≤ bound + bound / 2 ^ 140) && (m != 0 || zeroServes a y)
  | _, _ => false

end Sys2Proof.Machine
end

