-- ==== Sys2Proof/Syntax.lean ====
section
/-!
DEFINITION. The instructions, requests, packets, chain entries and hardware events of the HN9: one constructor for each
row of spec/opcode_table.json, and the fields an instruction word carries (R117, R126).
-/
namespace Sys2Proof

/-- The decoder that reads a word: D9, L9, or a legacy decoder of a DCORE (R402). -/
inductive Enc where
  | d9 | l9 | d8 | d7
  deriving DecidableEq, Repr

/-- An operand field: class bit, peek bit and number (R117, R119). DST has no peek bit. -/
structure Opnd where
  cls : Bool
  peek : Bool
  num : BitVec 8
  deriving DecidableEq, Repr

/-- The fields of an instruction word beside its opcode (R117, R126). `ext` is L9's EXT; `immx` is the low part of the L9
immediate and 0 in D9; `stall` is 0 in L9. -/
structure Fields where
  enc : Enc
  ext : Bool
  rb : Bool
  stall : BitVec 4
  fn : BitVec 4
  pred : BitVec 4
  dst : Opnd
  sa : Opnd
  sb : Opnd
  sc : Opnd
  hint : BitVec 2
  rsv : BitVec 2
  immx : BitVec 11
  deriving DecidableEq, Repr

/-- The instruction set and the other steps of the machine: one constructor for each row of spec/opcode_table.json.
Instructions carry the fields of their word; an `L9` constructor carries the fields of its base word (R126, R127). A
hardware event, request, packet or chain entry carries nothing: what it is about stands in the state (log 4, DESIGN CHOICE). -/
inductive Instr where
  /-- Terminator committing the passing lanes and making them pending at one successor. (R266) -/
  | endTrace (f : Fields)
  /-- Terminator committing and sending each lane to one of two successors by its predicate. (R266) -/
  | endSel (f : Fields)
  /-- Terminator committing and sending each lane to the successor its register pair names. (R266) -/
  | endInd (f : Fields)
  /-- L9 base-word form of END.IND. (R266) -/
  | endIndL9 (a : BitVec 6) (r : BitVec 1)
  /-- Terminator committing and retiring every passing lane. (R266) -/
  | retire (f : Fields)
  /-- L9 base-word form of RETIRE. (R266) -/
  | retireL9 (r : BitVec 1)
  /-- Lanes whose condition fails leave the trace at once for the alternative, discarding their effects. (R255) -/
  | guard (f : Fields)
  /-- Acting lanes leave the trace at once for the alternative, discarding their effects. (R255) -/
  | abortTrace (f : Fields)
  /-- Does nothing. (R266) -/
  | nop (f : Fields)
  /-- L9 base-word form of NOP. (R266) -/
  | nopL9 (r : BitVec 1)
  /-- Integer add fitted to 32 bits by type. (R180) -/
  | add (f : Fields)
  /-- L9 base-word register form of ADD. (R180) -/
  | addL9 (f : BitVec 3) (d : BitVec 6) (a : BitVec 6) (b : BitVec 6) (r : BitVec 1)
  /-- Integer subtract fitted to 32 bits by type. (R180) -/
  | sub (f : Fields)
  /-- L9 base-word register form of SUB. (R180) -/
  | subL9 (f : BitVec 3) (d : BitVec 6) (a : BitVec 6) (b : BitVec 6) (r : BitVec 1)
  /-- Low 32 bits of the integer product. (R180) -/
  | mullo (f : Fields)
  /-- L9 base-word register form of MULLO. (R180) -/
  | mulloL9 (d : BitVec 6) (a : BitVec 6) (b : BitVec 6) (r : BitVec 1)
  /-- High 32 bits of the signed or unsigned product. (R180) -/
  | mulhi (f : Fields)
  /-- L9 base-word register form of MULHI. (R180) -/
  | mulhiL9 (f : BitVec 1) (d : BitVec 6) (a : BitVec 6) (b : BitVec 6) (r : BitVec 1)
  /-- Multiply-add modulo 2^32. (R180) -/
  | mad (f : Fields)
  /-- Signed or unsigned minimum. (R180) -/
  | min (f : Fields)
  /-- L9 base-word register form of MIN. (R180) -/
  | minL9 (f : BitVec 1) (d : BitVec 6) (a : BitVec 6) (b : BitVec 6) (r : BitVec 1)
  /-- Signed or unsigned maximum. (R180) -/
  | max (f : Fields)
  /-- L9 base-word register form of MAX. (R180) -/
  | maxL9 (f : BitVec 1) (d : BitVec 6) (a : BitVec 6) (b : BitVec 6) (r : BitVec 1)
  /-- Saturating signed absolute value. (R180) -/
  | abs (f : Fields)
  /-- L9 base-word form of ABS. (R180) -/
  | absL9 (d : BitVec 6) (a : BitVec 6) (r : BitVec 1)
  /-- Negation, saturating for .S32 or wrapping for .B32. (R180) -/
  | neg (f : Fields)
  /-- L9 base-word form of NEG. (R180) -/
  | negL9 (f : BitVec 2) (d : BitVec 6) (a : BitVec 6) (r : BitVec 1)
  /-- 64-bit address add of a sign-extended offset, wrapping. (R182) -/
  | aadd (f : Fields)
  /-- L9 base-word register form of AADD. (R182) -/
  | aaddL9 (d : BitVec 6) (a : BitVec 6) (b : BitVec 6) (r : BitVec 1)
  /-- 64-bit address plus an exact 32-bit product, wrapping. (R182) -/
  | amad (f : Fields)
  /-- Bitwise and. (R185) -/
  | and (f : Fields)
  /-- L9 base-word register form of AND. (R185) -/
  | andL9 (d : BitVec 6) (a : BitVec 6) (b : BitVec 6) (r : BitVec 1)
  /-- Bitwise or. (R185) -/
  | or (f : Fields)
  /-- L9 base-word register form of OR. (R185) -/
  | orL9 (d : BitVec 6) (a : BitVec 6) (b : BitVec 6) (r : BitVec 1)
  /-- Bitwise exclusive or. (R185) -/
  | xor (f : Fields)
  /-- L9 base-word register form of XOR. (R185) -/
  | xorL9 (d : BitVec 6) (a : BitVec 6) (b : BitVec 6) (r : BitVec 1)
  /-- Bitwise and with the complement of the second source. (R185) -/
  | andn (f : Fields)
  /-- L9 base-word register form of ANDN. (R185) -/
  | andnL9 (d : BitVec 6) (a : BitVec 6) (b : BitVec 6) (r : BitVec 1)
  /-- Bitwise complement. (R185) -/
  | not (f : Fields)
  /-- L9 base-word form of NOT. (R185) -/
  | notL9 (d : BitVec 6) (a : BitVec 6) (r : BitVec 1)
  /-- Shift left, giving 0 for counts of 32 or more. (R185) -/
  | shl (f : Fields)
  /-- L9 base-word register form of SHL. (R185) -/
  | shlL9 (d : BitVec 6) (a : BitVec 6) (b : BitVec 6) (r : BitVec 1)
  /-- Arithmetic or logical shift right. (R185) -/
  | shr (f : Fields)
  /-- L9 base-word register form of SHR. (R185) -/
  | shrL9 (f : BitVec 1) (d : BitVec 6) (a : BitVec 6) (b : BitVec 6) (r : BitVec 1)
  /-- Rotate left by bits [4:0]. (R185) -/
  | rot (f : Fields)
  /-- L9 base-word register form of ROT. (R185) -/
  | rotL9 (d : BitVec 6) (a : BitVec 6) (b : BitVec 6) (r : BitVec 1)
  /-- Bit-field extract, sign- or zero-extended. (R185) -/
  | bfx (f : Fields)
  /-- L9 base-word register form of BFX. (R185) -/
  | bfxL9 (f : BitVec 1) (d : BitVec 6) (a : BitVec 6) (b : BitVec 6) (r : BitVec 1)
  /-- Bit-field insert. (R185) -/
  | bfi (f : Fields)
  /-- Population count. (R185) -/
  | popc (f : Fields)
  /-- L9 base-word form of POPC. (R185) -/
  | popcL9 (d : BitVec 6) (a : BitVec 6) (r : BitVec 1)
  /-- Count leading zeros. (R185) -/
  | clz (f : Fields)
  /-- L9 base-word form of CLZ. (R185) -/
  | clzL9 (d : BitVec 6) (a : BitVec 6) (r : BitVec 1)
  /-- Count trailing zeros. (R185) -/
  | ctz (f : Fields)
  /-- L9 base-word form of CTZ. (R185) -/
  | ctzL9 (d : BitVec 6) (a : BitVec 6) (r : BitVec 1)
  /-- Bit reversal. (R185) -/
  | brev (f : Fields)
  /-- L9 base-word form of BREV. (R185) -/
  | brevL9 (d : BitVec 6) (a : BitVec 6) (r : BitVec 1)
  /-- Signed or unsigned integer compare into a per-lane predicate. (R187) -/
  | icmp (n32 : Bool) (f : Fields)
  /-- L9 base-word register form of ICMP, the OP's low bit selecting .S32 or .N32. (R187) -/
  | icmpL9 (s : BitVec 1) (c : BitVec 3) (d : BitVec 6) (a : BitVec 6) (b : BitVec 6) (r : BitVec 1)
  /-- Per-lane select by a predicate. (R188) -/
  | sel (f : Fields)
  /-- Register move. (R189) -/
  | mov (f : Fields)
  /-- L9 base-word form of MOV. (R189) -/
  | movL9 (d : BitVec 6) (a : BitVec 6) (r : BitVec 1)
  /-- Move a sign-extended immediate. (R189) -/
  | movi (f : Fields)
  /-- Replace the high 16 bits with an immediate. (R189) -/
  | movh (f : Fields)
  /-- Each lane moves from the register number it computes. (R190) -/
  | movx (f : Fields)
  /-- L9 base-word form of MOVX. (R190) -/
  | movxL9 (d : BitVec 6) (a : BitVec 6) (r : BitVec 1)
  /-- Reads a special register such as LANE, GROUP, TEAM or WIDTH. (R191) -/
  | sreg (f : Fields)
  /-- Copies one uniform register to another on the scalar pipe. (R192) -/
  | umov (f : Fields)
  /-- Predicate and. (R193) -/
  | pand (f : Fields)
  /-- L9 base-word form of PAND. (R193) -/
  | pandL9 (d : BitVec 6) (a : BitVec 6) (b : BitVec 6) (r : BitVec 1)
  /-- Predicate or. (R193) -/
  | por (f : Fields)
  /-- L9 base-word form of POR. (R193) -/
  | porL9 (d : BitVec 6) (a : BitVec 6) (b : BitVec 6) (r : BitVec 1)
  /-- Predicate exclusive or. (R193) -/
  | pxor (f : Fields)
  /-- L9 base-word form of PXOR. (R193) -/
  | pxorL9 (d : BitVec 6) (a : BitVec 6) (b : BitVec 6) (r : BitVec 1)
  /-- Predicate complement. (R193) -/
  | pnot (f : Fields)
  /-- L9 base-word form of PNOT. (R193) -/
  | pnotL9 (d : BitVec 6) (a : BitVec 6) (r : BitVec 1)
  /-- ALL, ANY, EQ or BALLOT vote over the acting lanes. (R196) -/
  | vote (f : Fields)
  /-- L9 base-word form of VOTE. (R196) -/
  | voteL9 (f : BitVec 2) (d : BitVec 6) (a : BitVec 6) (r : BitVec 1)
  /-- Sets the predicate in the lowest acting lane only. (R197) -/
  | elect (f : Fields)
  /-- L9 base-word form of ELECT. (R197) -/
  | electL9 (d : BitVec 6) (r : BitVec 1)
  /-- Reads one lane's value for the whole group, possibly into a k register. (R198) -/
  | readlane (f : Fields)
  /-- L9 base-word register form of READLANE. (R198) -/
  | readlaneL9 (d : BitVec 6) (a : BitVec 6) (b : BitVec 6) (r : BitVec 1)
  /-- Each acting lane takes a source lane's value by index, up, down or xor. (R199) -/
  | shfl (f : Fields)
  /-- L9 base-word register form of SHFL. (R199) -/
  | shflL9 (f : BitVec 2) (d : BitVec 6) (a : BitVec 6) (b : BitVec 6) (r : BitVec 1)
  /-- Float add rounded once with RNE. (R205) -/
  | fadd (f : Fields)
  /-- L9 base-word register form of FADD. (R205) -/
  | faddL9 (f : BitVec 3) (d : BitVec 6) (a : BitVec 6) (b : BitVec 6) (r : BitVec 1)
  /-- Float subtract rounded once with RNE. (R205) -/
  | fsub (f : Fields)
  /-- L9 base-word register form of FSUB. (R205) -/
  | fsubL9 (f : BitVec 3) (d : BitVec 6) (a : BitVec 6) (b : BitVec 6) (r : BitVec 1)
  /-- Float multiply rounded once with RNE. (R205) -/
  | fmul (f : Fields)
  /-- L9 base-word register form of FMUL. (R205) -/
  | fmulL9 (f : BitVec 3) (d : BitVec 6) (a : BitVec 6) (b : BitVec 6) (r : BitVec 1)
  /-- Fused multiply-add rounded once. (R205) -/
  | fma (f : Fields)
  /-- Float minimum ignoring a single NaN. (R206) -/
  | fmin (f : Fields)
  /-- L9 base-word register form of FMIN. (R206) -/
  | fminL9 (f : BitVec 3) (d : BitVec 6) (a : BitVec 6) (b : BitVec 6) (r : BitVec 1)
  /-- Float maximum ignoring a single NaN. (R206) -/
  | fmax (f : Fields)
  /-- L9 base-word register form of FMAX. (R206) -/
  | fmaxL9 (f : BitVec 3) (d : BitVec 6) (a : BitVec 6) (b : BitVec 6) (r : BitVec 1)
  /-- F32 compare into a per-lane predicate. (R207) -/
  | fcmp (f : Fields)
  /-- L9 base-word register form of FCMP. (R207) -/
  | fcmpL9 (c : BitVec 3) (d : BitVec 6) (a : BitVec 6) (b : BitVec 6) (r : BitVec 1)
  /-- Correctly rounded reciprocal. (R208) -/
  | frcp (f : Fields)
  /-- L9 base-word form of FRCP. (R208) -/
  | frcpL9 (d : BitVec 6) (a : BitVec 6) (r : BitVec 1)
  /-- Reciprocal square root within 1 ulp. (R208) -/
  | frsq (f : Fields)
  /-- L9 base-word form of FRSQ. (R208) -/
  | frsqL9 (d : BitVec 6) (a : BitVec 6) (r : BitVec 1)
  /-- Correctly rounded square root. (R208) -/
  | fsqrt (f : Fields)
  /-- L9 base-word form of FSQRT. (R208) -/
  | fsqrtL9 (d : BitVec 6) (a : BitVec 6) (r : BitVec 1)
  /-- Base-2 exponential within 1 ulp. (R208) -/
  | fexp2 (f : Fields)
  /-- L9 base-word form of FEXP2. (R208) -/
  | fexp2L9 (d : BitVec 6) (a : BitVec 6) (r : BitVec 1)
  /-- Base-2 logarithm. (R208) -/
  | flog2 (f : Fields)
  /-- L9 base-word form of FLOG2. (R208) -/
  | flog2L9 (d : BitVec 6) (a : BitVec 6) (r : BitVec 1)
  /-- Hyperbolic tangent. (R208) -/
  | ftanh (f : Fields)
  /-- L9 base-word form of FTANH. (R208) -/
  | ftanhL9 (d : BitVec 6) (a : BitVec 6) (r : BitVec 1)
  /-- Error function. (R208) -/
  | ferf (f : Fields)
  /-- L9 base-word form of FERF. (R208) -/
  | ferfL9 (d : BitVec 6) (a : BitVec 6) (r : BitVec 1)
  /-- Sine with exact argument reduction. (R208) -/
  | fsin (f : Fields)
  /-- L9 base-word form of FSIN. (R208) -/
  | fsinL9 (d : BitVec 6) (a : BitVec 6) (r : BitVec 1)
  /-- Cosine with exact argument reduction. (R208) -/
  | fcos (f : Fields)
  /-- L9 base-word form of FCOS. (R208) -/
  | fcosL9 (d : BitVec 6) (a : BitVec 6) (r : BitVec 1)
  /-- Multiplies by a power of two, rounded with RNE. (R210) -/
  | ldexp (f : Fields)
  /-- L9 base-word register form of LDEXP. (R210) -/
  | ldexpL9 (d : BitVec 6) (a : BitVec 6) (b : BitVec 6) (r : BitVec 1)
  /-- Rounds to an integer value by the named mode. (R210) -/
  | frnd (f : Fields)
  /-- L9 base-word form of FRND. (R210) -/
  | frndL9 (m : BitVec 3) (d : BitVec 6) (a : BitVec 6) (r : BitVec 1)
  /-- Fractional part, exact. (R210) -/
  | frac (f : Fields)
  /-- L9 base-word form of FRAC. (R210) -/
  | fracL9 (d : BitVec 6) (a : BitVec 6) (r : BitVec 1)
  /-- Sums F32 values of the acting lanes over the fixed tree. (R212) -/
  | fred (f : Fields)
  /-- L9 base-word form of FRED. (R212) -/
  | fredL9 (d : BitVec 6) (a : BitVec 6) (r : BitVec 1)
  /-- Largest absolute element over the acting lanes. (R213) -/
  | famax (f : Fields)
  /-- L9 base-word form of FAMAX. (R213) -/
  | famaxL9 (f : BitVec 3) (d : BitVec 6) (a : BitVec 6) (r : BitVec 1)
  /-- Smallest SC8 scale under which an absolute maximum fits the target format. (R214) -/
  | scale (f : Fields)
  /-- L9 base-word form of SCALE. (R214) -/
  | scaleL9 (f : BitVec 3) (d : BitVec 6) (a : BitVec 6) (r : BitVec 1)
  /-- Converts one element between formats, optionally through a scale. (R218) -/
  | cvt (f : Fields)
  /-- Shifts packed W slots down and inserts a new value in the top slot. (R220) -/
  | packw (f : Fields)
  /-- L9 base-word form of PACKW. (R220) -/
  | packwL9 (f : BitVec 3) (d : BitVec 6) (a : BitVec 6) (b : BitVec 6) (r : BitVec 1)
  /-- Extracts and sign-extends one packed W slot. (R220) -/
  | unpkw (f : Fields)
  /-- L9 base-word form of UNPKW. (R220) -/
  | unpkwL9 (f : BitVec 3) (d : BitVec 6) (a : BitVec 6) (b : BitVec 6) (r : BitVec 1)
  /-- Loads from a tile at fixed latency through the lane's view. (R149) -/
  | ld (f : Fields)
  /-- L9 base-word register form of LD. (R149) -/
  | ldL9 (f : BitVec 3) (d : BitVec 6) (a : BitVec 6) (b : BitVec 6) (r : BitVec 1)
  /-- Buffers a store to a tile, performed at commit. (R149) -/
  | st (f : Fields)
  /-- L9 base-word register form of ST. (R149) -/
  | stL9 (f : BitVec 3) (d : BitVec 6) (a : BitVec 6) (b : BitVec 6) (r : BitVec 1)
  /-- Loads a tile element by element index. (R149) -/
  | ldx (f : Fields)
  /-- L9 base-word form of LDX. (R149) -/
  | ldxL9 (f : BitVec 3) (d : BitVec 6) (a : BitVec 6) (b : BitVec 6) (r : BitVec 1)
  /-- Decodes a tile element by the tile's format into F32 or a BF16 pair. (R154) -/
  | ldf (f : Fields)
  /-- L9 base-word register form of LDF. (R154) -/
  | ldfL9 (f : BitVec 1) (d : BitVec 6) (a : BitVec 6) (b : BitVec 6) (r : BitVec 1)
  /-- Converts an F32 value to the tile's format and buffers a store of its element. (R155) -/
  | stf (f : Fields)
  /-- L9 base-word register form of STF. (R155) -/
  | stfL9 (m : BitVec 3) (d : BitVec 6) (a : BitVec 6) (b : BitVec 6) (r : BitVec 1)
  /-- Defines a tile's place and form at commit. (R158) -/
  | tdef (f : Fields)
  /-- L9 base-word form of TDEF. (R158) -/
  | tdefL9 (d : BitVec 6) (a : BitVec 6) (b : BitVec 6) (r : BitVec 1)
  /-- Releases a tile to EMPTY at commit, or sets RELP. (R159) -/
  | trel (f : Fields)
  /-- L9 base-word form of TREL. (R159) -/
  | trelL9 (d : BitVec 6) (r : BitVec 1)
  /-- Marks a READY tile for publication at the next boundary. (R159) -/
  | tpost (f : Fields)
  /-- L9 base-word form of TPOST. (R159) -/
  | tpostL9 (d : BitVec 6) (r : BitVec 1)
  /-- Requests an OPEN tile's return to READY once its readers complete. (R98) -/
  | treclaim (f : Fields)
  /-- L9 base-word form of TRECLAIM. (R98) -/
  | treclaimL9 (d : BitVec 6) (r : BitVec 1)
  /-- Reads a word of a tile descriptor as at the trace head. (R160) -/
  | tstat (f : Fields)
  /-- Buffers a far atomic without return, sent at commit. (R169) -/
  | atom (f : Fields)
  /-- Buffers a far atomic whose old value returns between traces. (R169) -/
  | atomr (f : Fields)
  /-- Buffers a far compare-and-swap whose old value returns between traces. (R169) -/
  | cas (f : Fields)
  /-- Passes a phase boundary of the scope after every other commit step. (R172) -/
  | phase (f : Fields)
  /-- L9 base-word form of PHASE. (R172) -/
  | phaseL9 (s : BitVec 3) (r : BitVec 1)
  /-- Writes KEYPERM at the register step of the commit. (R173) -/
  | keyset (f : Fields)
  /-- L9 base-word form of KEYSET. (R173) -/
  | keysetL9 (a : BitVec 6) (r : BitVec 1)
  /-- Reads KEYPERM as in force at the trace head. (R174) -/
  | keyget (f : Fields)
  /-- L9 base-word form of KEYGET. (R174) -/
  | keygetL9 (d : BitVec 6) (r : BitVec 1)
  /-- Drops code-cache lines of a range from the core's and die's code caches at commit. (R175) -/
  | icinv (f : Fields)
  /-- L9 base-word form of ICINV. (R175) -/
  | icinvL9 (a : BitVec 6) (b : BitVec 6) (r : BitVec 1)
  /-- Counts the group's arrival on a barrier without waiting. (R285) -/
  | barArrive (f : Fields)
  /-- L9 base-word register form of BAR.ARRIVE. (R285) -/
  | barArriveL9 (d : BitVec 6) (a : BitVec 6) (r : BitVec 1)
  /-- Arrives on a barrier and makes the next execution wait for the turn. (R285) -/
  | barSync (f : Fields)
  /-- L9 base-word register form of BAR.SYNC. (R285) -/
  | barSyncL9 (d : BitVec 6) (a : BitVec 6) (r : BitVec 1)
  /-- Sets a barrier's expected arrival count. (R285) -/
  | barInit (f : Fields)
  /-- L9 base-word register form of BAR.INIT. (R285) -/
  | barInitL9 (d : BitVec 6) (a : BitVec 6) (r : BitVec 1)
  /-- Pops or peeks a whole channel item into registers. (R308) -/
  | get (f : Fields)
  /-- Buffers one item per acting lane into a channel, put at commit. (R308) -/
  | put (f : Fields)
  /-- Reads a channel's status word as at the trace head. (R310) -/
  | chstat (f : Fields)
  /-- Appends a record from a tile to the team's task queue at commit. (R349) -/
  | taskadd (f : Fields)
  /-- L9 base-word form of TASKADD. (R349) -/
  | taskaddL9 (a : BitVec 6) (b : BitVec 6) (r : BitVec 1)
  /-- Completes the group's current record, decrementing its successor counter. (R350) -/
  | taskdone (f : Fields)
  /-- L9 base-word form of TASKDONE. (R350) -/
  | taskdoneL9 (r : BitVec 1)
  /-- Writes a port's RTAIL, starting pulls from the outbox. (R351) -/
  | qtail (f : Fields)
  /-- L9 base-word form of QTAIL. (R351) -/
  | qtailL9 (a : BitVec 6) (b : BitVec 6) (r : BitVec 1)
  /-- Queries a team task queue's room, returned between traces. (R353) -/
  | qroom (f : Fields)
  /-- L9 base-word form of QROOM. (R353) -/
  | qroomL9 (d : BitVec 6) (a : BitVec 6) (r : BitVec 1)
  /-- Optionally closes a queue and wakes every group asleep on it. (R352) -/
  | wake (f : Fields)
  /-- L9 base-word form of WAKE. (R352) -/
  | wakeL9 (a : BitVec 6) (r : BitVec 1)
  /-- Checks a job card held in a tile and releases it to the Truss at commit, returning a handle. (R161) -/
  | job (f : Fields)
  /-- L9 base-word form of JOB. (R161) -/
  | jobL9 (d : BitVec 6) (a : BitVec 6) (b : BitVec 6) (r : BitVec 1)
  /-- Queries a job's state and mask, returned between traces. (R164) -/
  | jobq (f : Fields)
  /-- L9 base-word form of JOBQ. (R164) -/
  | jobqL9 (d : BitVec 6) (a : BitVec 6) (r : BitVec 1)
  /-- Cancels a waiting or running job at commit. (R165) -/
  | jcancel (f : Fields)
  /-- L9 base-word form of JCANCEL. (R165) -/
  | jcancelL9 (a : BitVec 6) (r : BitVec 1)
  /-- Starts the matrix sequencer on a command chain at commit. (R223) -/
  | mxgo (f : Fields)
  /-- Reads the sequencer's status word as at the trace head. (R236) -/
  | mxstat (f : Fields)
  /-- Stops the owner team's running chain at its next interrupt point. (R236) -/
  | mxstop (f : Fields)
  /-- Reads an accumulator element. (R237) -/
  | accrd (f : Fields)
  /-- Buffers a tile word into an accumulator element, written at commit. (R237) -/
  | accwr (f : Fields)
  /-- Terminator that commits and parks the group for migration to the other core kind, or sends it to alt on refusal. (R291) -/
  | migrate (f : Fields)
  /-- Latches a fold request for the group's chain at commit. (R323) -/
  | chainFold (f : Fields)
  /-- L9 base-word form of CHAIN.FOLD. (R323) -/
  | chainFoldL9 (r : BitVec 1)
  /-- Latches a spread request for the group's chain at commit. (R323) -/
  | chainSpread (f : Fields)
  /-- L9 base-word form of CHAIN.SPREAD. (R323) -/
  | chainSpreadL9 (r : BitVec 1)
  /-- Reads the group's migration and chain status word as at the trace head. (R311) -/
  | epq (f : Fields)
  /-- L9 base-word form of EPQ. (R311) -/
  | epqL9 (d : BitVec 6) (r : BitVec 1)
  /-- Traps with TRAP_USER(n) when a lane acts. (R366) -/
  | trap (f : Fields)
  /-- Ends handler mode, replaying the queue and resuming the trapped trace. (R368) -/
  | rett (f : Fields)
  /-- L9 base-word form of RETT. (R368) -/
  | rettL9 (r : BitVec 1)
  /-- Ends handler mode, discarding the trapped execution and restarting its lanes. (R368) -/
  | rettAbort (f : Fields)
  /-- L9 base-word form of RETT.ABORT without a trace reference. (R368) -/
  | rettAbortL9 (r : BitVec 1)
  /-- Reads a control and status register word as at the trace head. (R374) -/
  | csrr (f : Fields)
  /-- CSRW to TSTAT clears the team sticky bits written as 1. (R374) -/
  | csrwTstat (f : Fields)
  /-- CSRW to SRSEED reseeds every lane's stochastic-rounding state at commit. (R60) -/
  | csrwSrseed (f : Fields)
  /-- CSRW to MODE sets the checking scoreboard and single-step bits. (R371) -/
  | csrwMode (f : Fields)
  /-- CSRW to KEYPERM changes protection-key permissions for the context. (R173) -/
  | csrwKeyperm (f : Fields)
  /-- CSRW to TRAPBASE sets the context's handler entry and enable. (R372) -/
  | csrwTrapbase (f : Fields)
  /-- CSRW to MIGPOL sets the scheduler's migration policy. (R297) -/
  | csrwMigpol (f : Fields)
  /-- Privileged CSRW to GANGWAIT sets the gang reservation and starvation deadlines. (R337) -/
  | csrwGangwait (f : Fields)
  /-- CSRW to BRKn arms or disarms a breakpoint. (R372) -/
  | csrwBrk (f : Fields)
  /-- Opens a containment region with a handler trace at commit. (R412) -/
  | containOpen (f : Fields)
  /-- Closes the containment region at commit. (R412) -/
  | containClose (f : Fields)
  /-- L9 base-word form of CONTAIN.CLOSE. (R412) -/
  | containCloseL9 (r : BitVec 1)
  /-- Halts the group after the commit until the debugger resumes it. (R377) -/
  | halt (f : Fields)
  /-- L9 base-word form of HALT. (R377) -/
  | haltL9 (r : BitVec 1)
  /-- An instruction word whose OP is unassigned, reserved or 0x01 inside a body reaches issue and traps with ILLEGAL_OPCODE or TRACE_MALFORMED. (R140) -/
  | illegalOpcode (op : BitVec 8) (f : Fields)
  /-- A trace is fetched whole into the group's trace buffer, with its pages checked under R25 and its header checked under R132, before any instruction of it issues. (R38) -/
  | traceFetch
  /-- When a group has no execution, the scheduler picks the longest-pending trace whose start conditions all hold and starts an execution with every lane pending there. (R251) -/
  | traceDispatch
  /-- A .REL write to a registered bind-table range notifies all four dies, which requeue every lane waiting on that entry. (R42) -/
  | bindNotify
  /-- A lane that found the bind-wait queue full requeues at the same head after 1,024 of its core's cycles and reads STATE again. (R42) -/
  | bindRetryTimer
  /-- When the cause that holds a rolled-back lane clears (item arrives, room frees, slot frees, hold ends, retry), the lane becomes pending again at the trace head. (R256) -/
  | requeueRelease
  /-- After 65,536 core cycles without a retry, a lane held for a non-resident page at atomic commit or trace fetch becomes pending again. (R256) -/
  | requeueTimer
  /-- Each 1,024 cycles that a ready group waits without winning a slot raises its priority class by one, up to 3. (R249) -/
  | priorityAging
  /-- A far atomic sent at commit is performed indivisibly at its home, after the release boundary for .REL and .AR, recording the scope tag. (R169) -/
  | atomicPerform
  /-- The old value of an ATOMR, CAS or JOBQ reply is applied to its lane's destination once the lane stands between traces, in program order. (R170) -/
  | atomicReturn
  /-- A lane held at its successor for an incomplete .ACQ or .AR atomic is released once the atomic is performed and its acquire boundary complete. (R169) -/
  | acquireComplete
  /-- A group's phase boundary completes once its sent atomics are performed and, for CORE or wider, every TPOST-marked tile has become DRAINING and OPEN. (R273) -/
  | phaseBoundaryComplete
  /-- When every atomic of the commits that completed a barrier phase has been performed, PH is inverted and TP cleared, releasing waiters. (R284) -/
  | barrierTurn
  /-- A group's put is performed into the channel only after every atomic sent by its same or earlier commits has been performed. (R280) -/
  | channelPutPerform
  /-- A consumer in another team returns one credit through the Lath to the REMOTE producer entry for each item it pops. (R303) -/
  | creditReturn
  /-- The die's Truss accepts a released job card, assigns a handle and records footprint edges to earlier uncompleted jobs of the same stream. (R73) -/
  | trussAccept
  /-- A job whose edges are all resolved starts its first element, checking, claiming and counting every other team's tile its SP 1 regions overlap. (R91) -/
  | jobStart
  /-- An element of a FILL card copies one 64 KiB span from memory or a slice into the destination tile, or is left unfinished with a fault record. (R76) -/
  | fillElem
  /-- An element of a STORE card writes one 64 KiB span of a tile to memory or a slice, or is left unfinished with a fault record. (R76) -/
  | storeElem
  /-- An element of a COPY card copies one 64 KiB part of a tile into another tile. (R76) -/
  | copyElem
  /-- An element of a MOVE card copies one 64 KiB part of a tile to another tile, the source being released at completion. (R76) -/
  | moveElem
  /-- An element of a GATHER card reads the element named by index n of the index tile into the destination tile. (R76) -/
  | gatherElem
  /-- An element of a SCATTER card writes element n of its list to the address named by operand field n. (R76) -/
  | scatterElem
  /-- An element of a near-memory job computes a group of output columns of A times B in the stack's base die, summing granules per bank in ascending order. (R243) -/
  | nmv
  /-- The near-memory unit stops for pre-emption after each 1 MiB of B read and resumes with the same bits. (R243) -/
  | nmvPreemptStop
  /-- A job whose elements are all performed completes: writes at homes, tile transitions, completion action, then status DONE. (R80) -/
  | jobComplete
  /-- A job's completion channel put that found the channel full is performed once the channel has room. (R80) -/
  | completionPutWait
  /-- A Plien replay command makes the engine perform again every element of a PARTIAL job whose mask bit is clear, or redo its completion action. (R78) -/
  | replayCommand
  /-- Firmware completes a job FAULTED: tile transitions as for DONE, no completion action, TSTAT.JFAULT set and JOB_FAULTED at the releaser's next head. (R79) -/
  | jobFaultComplete
  /-- Plien answers a fault record by mapping the page and replaying or retrying, completing the job FAULTED, or trapping the group, and scans PARTIAL jobs after FRQOVF. (R359) -/
  | faultRecordAnswer
  /-- A retry for a (context, page) pair makes every lane and every non-job engine work held on that page try again at once. (R359) -/
  | pageRetry
  /-- A translation miss walks the four-level tables, making the ordered checks and reporting the first that fails. (R25) -/
  | translationWalk
  /-- A returning walk gives its result to every requester merged into its pending-translation entry and frees the entry for a waiting miss. (R31) -/
  | walkComplete
  /-- A translation invalidation drops cached entries in the range, marks in-flight walks stale and completes once dropped-entry accesses are performed. (R29) -/
  | translationInvalidate
  /-- A host ATS Invalidation Request drops matching ATS cache entries, and its completion is sent after every request issued with them has completed. (R32) -/
  | atsInvalidation
  /-- A PRI response of Success replays the job, and Invalid Request or Response Failure completes it FAULTED with HOST_PAGE. (R33) -/
  | priResponse
  /-- An ATS request without completion after 1 ms leaves the engine element unfinished with cause ATS_TIMEOUT. (R464) -/
  | atsTimeout
  /-- A tile transition to EMPTY deferred because HELD was nonzero takes place once HELD reaches 0. (R89) -/
  | tileDeferredEmpty
  /-- A MUL chain entry multiplies A and B exactly, sums each granule exactly and adds it to the FP32 accumulator with one RNE rounding. (R232) -/
  | mul
  /-- A LOOP chain entry increments its counter and jumps back BACK entries until COUNT body runs are done. (R233) -/
  | loop
  /-- A COND chain entry compares a ring counter or flag word with VALUE and jumps by DELTA if the test holds. (R233) -/
  | cond
  /-- A RINGWAIT chain entry releases the ring's held slot to OUTQ, waits for and pops an INQ token, and holds the next slot. (R234) -/
  | ringwait
  /-- A ZERO chain entry sets every element of the masked accumulators to +0. (R233) -/
  | zero
  /-- A SCALEA chain entry loads the per-row A scales from a tile, or resets them to 0x7F. (R233) -/
  | scalea
  /-- A DRAIN chain entry waits for the destination tile's HELD count to reach 0 and converts the accumulator into it, optionally zeroing it. (R233) -/
  | drain
  /-- A BYPASS chain entry converts an accumulator, with per-row scales, into the bypass buffer as a future A operand. (R233) -/
  | bypass
  /-- A SIGNAL chain entry performs a .REL counter add in an ATOMIC tile or puts VAL into a team channel, waiting while needed. (R233) -/
  | signal
  /-- An END chain entry ends the chain: the sequencer goes IDLE, CHAINS is incremented and held ring slots are released. (R225) -/
  | endEntry
  /-- A STOPPING sequencer reaches its next interrupt point and becomes STOPPED, releasing ring slots. (R240) -/
  | mxStopPoint
  /-- A COLL card makes its collective engine carry out the operation its descriptor names across the communicator's members. (R421) -/
  | coll
  /-- The collective engine sends a 256 KiB chunk with its checksum trailer on an Eave link or into a SENDQ ring with an adapter doorbell. (R423) -/
  | collChunkSend
  /-- A hop checks an incoming chunk's trailer against its recomputed sum before combining it. (R424) -/
  | collChunkReceive
  /-- The collective engine writes the result, mask, STATUS, NCONTRIB and EPOCH into the descriptor when an operation ends. (R422) -/
  | collComplete
  /-- While an operation is in flight, the engine reads each RECVQ's TAIL every 1 µs of IO0 local time. (R420) -/
  | recvqPoll
  /-- Link hardware sends a keep-alive to each peer every 10 µs. (R427) -/
  | keepaliveSend
  /-- A member that hears nothing from a peer for SUSPECT_TIME reports it to the root. (R427) -/
  | memberSuspect
  /-- A root broadcasts a new epoch and member mask that members apply from EFFSEQ onward, higher epochs winning conflicts. (R427) -/
  | membershipBroadcast
  /-- A spare sends JOIN to a live neighbour, replays its journal receive-only, and is admitted by a later epoch. (R428) -/
  | spareJoin
  /-- Once a parked group's target core qualifies and its returns and jobs are complete, the group's tiles, registers, channels and accumulators are moved to a new team there. (R294) -/
  | migrationMove
  /-- When no qualifying target core is found within MIGPOL's park limit, the migration is refused with MIGREF 6 and the lanes go to alt. (R293) -/
  | parkLimit
  /-- At an EP trace, the scheduler migrates a group whose mean lane count crosses LOW or HIGH, as if MIGRATE had committed. (R298) -/
  | schedMigrate
  /-- With a fold latched, a group stage parks once all its live lanes are pending at one EP and lower stages have parked or ended. (R319) -/
  | stagePark
  /-- When every group stage has parked or ended, items move into hand-over slots and stage registers relocate into the thread, or the fold is refused. (R319) -/
  | chainFoldPerform
  /-- When the thread has no execution and every continuation is an EP, registers, lanes and slot items return to the stage groups. (R321) -/
  | chainSpreadPerform
  /-- A host write to a queue's DB accepts a new TAIL if it advances, and stops the queue with QOVER if it overruns SLOTS. (R440) -/
  | doorbell
  /-- A Plien agent claims the next unclaimed slot of a mapped COMMAND queue by an atomic increment of its ticket and serves the packet. (R333) -/
  | packetClaim
  /-- A LAUNCH packet creates its grid's teams in ascending linear number with groups at trace 0, optionally in gangs. (R335) -/
  | launch
  /-- A FEED packet appends COUNT records to one team task queue of a resident grid. (R330) -/
  | feed
  /-- The serving agent's transfer engine appends a FEED record to its queue when room allows and wakes sleeping groups. (R345) -/
  | feedAppend
  /-- A NOP packet starts and completes at once. (R331) -/
  | nopPacket
  /-- At packet completion STATUS is written, SIGNAL is incremented with SYSTEM release and HEAD advances past completed packets. (R331) -/
  | packetComplete
  /-- The scheduler admits a new team to a core when its prologue fits and the admission rule holds, defining and filling its argument tile and task queues. (R247) -/
  | teamAdmit
  /-- A gang of teams is admitted all at once on a free rectangle of one die's cores, choosing the best-scoring rectangle. (R336) -/
  | gangAdmit
  /-- After a gang has waited RESV units, the die reserves the best-scoring rectangle against new admissions. (R337) -/
  | gangReserve
  /-- A reserved rectangle still not free STARVE units after the reservation raises GANG_STARVED to Plien. (R337) -/
  | gangStarved
  /-- A team's shortfall request is granted oldest first once free, giving its groups their full vector, tile and accumulator budgets. (R247) -/
  | acquireGrant
  /-- After its last group retires and every job it released has completed, a team frees and zeroes its window, trap tiles, queue storage and accumulators. (R106) -/
  | teamEnd
  /-- A record of a TASK hardware queue creates a team of GANG groups starting at its TARGET trace, or is dropped with TASK_TARGET. (R346) -/
  | taskRecordCreate
  /-- A port's transfer engine reads outbox record PULLED, appends it to the team task queue and increments PULLED. (R344) -/
  | portPull
  /-- The core's transfer engine decrements a completed record's successor counter with PACK release. (R350) -/
  | successorDecrement
  /-- When the successor counter reaches 0, the engine reads the successor record and appends it to the delivering queue, waiting while full. (R350) -/
  | successorAppend
  /-- At the end of a process's quantum, Plien maps the next process's queues, unmaps the previous and pre-empts and restores teams. (R334) -/
  | quantumExpiry
  /-- Every 1 ms of IO0 local time each bucket gains RATE up to CAP, resuming the context when every enabled LEVEL reaches RESUME. (R356) -/
  | bucketRefill
  /-- Charges reach a bucket's LEVEL, and a context whose enabled LEVEL falls to 0 or below is descheduled. (R356) -/
  | bucketCharge
  /-- Plien's agents of a die increment its heartbeat word at least every 10 µs. (R452) -/
  | hbIncrement
  /-- When a die's heartbeat stands still for 100 µs, its fallback scheduler begins serving mapped queues round robin. (R357) -/
  | fallbackBegin
  /-- When the heartbeat advances again, the fallback scheduler claims no further packet. (R357) -/
  | fallbackEnd
  /-- When a heartbeat stands still for 1 ms, the boot engine reloads Plien, which resumes from its state in HBM. (R452) -/
  | plienReload
  /-- Plien posts pre-emption requests to the Gutters, whose cores and engines stop at their granules and save state. (R382) -/
  | preempt
  /-- When a Gutter holds every acknowledgement, the die reports completion and the transfer engines save the slice windows and trap tiles. (R382) -/
  | preemptComplete
  /-- A group in handler mode that has not committed RETT within 65,536 cycles of a pre-emption request has its trapped execution discarded and ABORTED set. (R383) -/
  | handlerTimeout
  /-- A restored team returns to its core, or is moved to another with references rewritten, and its slice image and lanes are reloaded. (R387) -/
  | contextRestore
  /-- When the shadow reaches its terminator, the pair's CRC-64 signatures are compared, releasing the held commit or discarding and rerunning both. (R408) -/
  | shadowCompare
  /-- An agent that reads a poisoned granule either carries the poison or consumes it, raising UE_CONSUMED. (R405) -/
  | ueConsume
  /-- A detected storage error is corrected and counted or poisons its granule, updating its error bank. (R418) -/
  | eccError
  /-- The patrol scrubber reads a granule, correcting CEs and poisoning UEs, and tracks BEHIND against the pass deadline. (R419) -/
  | scrubAccess
  /-- At power-on the boot engine runs the start steps in order under their policies, recording outcomes in the start record. (R433) -/
  | packageStart
  /-- An Eave link going up or down posts a LINK event and moves in-flight peer accesses to another plane. (R449) -/
  | linkChange
  /-- A received Eave packet whose GCM tag fails is resent, and after 8 failures in a row the link goes down. (R431) -/
  | linkPacketReceive
  /-- A peer performs an incoming access through an exported window of its context's tables, returning causes or PEER_NOT_PRESENT. (R451) -/
  | peerAccess
  /-- Management request creating a context with its grant table, queue limit and quantum, returning the lowest free context number. (R444) -/
  | ctxCreate
  /-- Management request ending a context: queues, teams, jobs, communicators, exports, objects and keys are torn down in order. (R446) -/
  | ctxDestroy
  /-- Management request resuming a stopped context. (R360) -/
  | ctxResume
  /-- Management request writing valid leaves for a range under the tenant's grant, after checking the template. (R442) -/
  | map
  /-- Management request removing the leaves of a range under the invalidation sequence of R29. (R442) -/
  | unmap
  /-- Management request creating a hardware queue and writing its descriptor. (R326) -/
  | qCreate
  /-- Management request removing a queue once its started packets complete. (R442) -/
  | qDestroy
  /-- Management request checking a code object in order, placing it in code pages and returning a handle or a failure status. (R392) -/
  | load
  /-- Management request unloading a code object once nothing uses it. (R394) -/
  | unload
  /-- Management request exporting a virtual window of a context to an importing package and context. (R451) -/
  | exportWindow
  /-- Debug request halting a group at its next trace boundary. (R378) -/
  | debugHalt
  /-- Debug request resuming a halted group, acting as RETT where its frame stands. (R379) -/
  | debugResume
  /-- Debug request stepping one execution of a group and halting it again. (R378) -/
  | debugStep
  /-- Debug request reading 8 bytes of a group's trap tile. (R444) -/
  | debugReadFrame
  /-- Debug request writing 8 bytes of a group's trap tile. (R444) -/
  | debugWriteFrame
  /-- Debug request reading a BRKn register. (R444) -/
  | debugReadBrk
  /-- Debug request writing a BRKn register. (R444) -/
  | debugWriteBrk
  /-- Debug request reading a group's MODE register. (R444) -/
  | debugReadMode
  /-- Debug request writing a group's MODE register. (R444) -/
  | debugWriteMode
  /-- Management request returning a core's CORECAPS. (R444) -/
  | coreInfo
  /-- Management request clearing the start record's alternate and disabled modes and a stopped start. (R435) -/
  | startClear
  /-- Management request setting a bucket's CAP, RATE and RESUME. (R356) -/
  | bucket
  /-- Management request creating a communicator on the package from its member table. (R420) -/
  | commCreate
  /-- Management request destroying a communicator once no operation is in flight. (R420) -/
  | commDestroy
  /-- Writing 1 to ERRSTAT.V clears the whole error bank, before any error arriving in the same cycle. (R417) -/
  | errstatClear
  /-- Writing 1 to EVLOST.OVF clears the whole event-loss register. (R437) -/
  | evlostClear
  /-- A write to a BAR0 management register without behaviour of its own, such as MRBASE, MRSIZE, EVBASE, EVHEAD or SCRUBCFG. (R437) -/
  | registerWrite
  /-- SPDM request returning the supported versions. (R430) -/
  | getVersion
  /-- SPDM request returning the responder's capabilities. (R430) -/
  | getCapabilities
  /-- SPDM request negotiating the algorithms. (R430) -/
  | negotiateAlgorithms
  /-- SPDM request returning certificate chain digests. (R430) -/
  | getDigests
  /-- SPDM request returning a certificate chain. (R430) -/
  | getCertificate
  /-- SPDM request returning a dual-signed challenge response. (R430) -/
  | challenge
  /-- SPDM request returning dual-signed measurements. (R430) -/
  | getMeasurements
  /-- SPDM request starting a secure session key exchange. (R430) -/
  | keyExchange
  /-- SPDM request finishing session establishment. (R430) -/
  | finish
  /-- SPDM heartbeat message keeping a session alive. (R430) -/
  | heartbeat
  /-- SPDM request updating session keys. (R430) -/
  | keyUpdate
  /-- SPDM request ending a session. (R430) -/
  | endSession
  /-- Loss of power to the package, which may interrupt the write of a start-record copy and leave the older copy in force. (R434) -/
  | powerLoss
  /-- An ATS completion from the host IOMMU arrives at the I/O die, filling the ATS translation cache and letting the waiting TIER 2 access proceed or fail HOST_PAGE. (R32) -/
  | atsTranslationCompletion
  /-- A management request whose OP names no operation completes with STATUS BADREQ and MRHEAD advances. (R443) -/
  | badreq
  /-- After 2^32 packets on an Eave link the HN9 updates the link's session keys. (R431) -/
  | linkKeyUpdate
  /-- The scheduler latches a fold or spread request for a chain by itself, with the same effect as CHAIN.FOLD or CHAIN.SPREAD. (R323) -/
  | schedulerChainLatch
  deriving DecidableEq, Repr

end Sys2Proof
end

