-- ==== Sys2Proof/WellFormed.lean ====
section
/-!
DEFINITION. When a term of the syntax is an instruction that a word can carry: the widths of its fields under its
encoding (R117, R126, R127), and the choice of constructor where two could carry one word.
-/
namespace Sys2Proof

/-- Why a term is no instruction of its encoding. -/
inductive WfError where
  | extOutsideL9      -- an extension word, or its low immediate, outside L9
  | dstPeek           -- a peek bit on DST, which has none (R117)
  | stallInL9         -- a stall count in L9 (R139)
  | numberTooWide     -- an L9 number of more than six bits (R126)
  | needsExtension    -- a field of the extension word used without it (R127)
  | baseRow           -- an L9 base word that its own row names
  | csrNumber         -- a CSRW constructor whose IMM names another register (R373)
  | opcodeAssigned    -- an opcode of the map under the constructor for opcodes that are not (R143)
  deriving DecidableEq, Repr

/-- The 20-bit immediate of D9 (R123), or the 17-bit immediate of L9 (R127), as the field holds it. -/
def immField (f : Fields) : Nat :=
  match f.enc with
  | .l9 => f.sb.num.toNat % 64 * 2048 + f.immx.toNat
  | _ => (b2n f.sb.cls * 512 + b2n f.sb.peek * 256 + f.sb.num.toNat) * 1024
      + (b2n f.sc.cls * 512 + b2n f.sc.peek * 256 + f.sc.num.toNat)

/-- The CSRW of the register that IMM[7:0] names (R370, R373). A number that names no writable register goes with TSTAT,
whose meaning makes the checks of R375 for it. -/
def csrwOf (f : Fields) : Instr :=
  match immField f % 256 with
  | 0x02 => .csrwMode f
  | 0x09 => .csrwKeyperm f
  | 0x0A => .csrwTrapbase f
  | 0x0C => .csrwSrseed f
  | 0x0D => .csrwMigpol f
  | 0x0F => .csrwGangwait f
  | 0x10 => .csrwBrk f
  | 0x11 => .csrwBrk f
  | 0x12 => .csrwBrk f
  | 0x13 => .csrwBrk f
  | _ => .csrwTstat f

/-- The operand of a base word: class and peek 0 (R127). -/
def opndOf (n : BitVec 6) : Opnd := ⟨false, false, n.setWidth 8⟩

/-- The opcode and fields of an L9 base word: class and peek bits 0, PRED 0b0111, no SC and no immediate (R127). -/
def baseFields (op : BitVec 8) (fn : BitVec 4) (d a b : BitVec 6) (r : BitVec 1) : BitVec 8 × Fields :=
  (op, { enc := .l9, ext := false, rb := r == 1#1, stall := 0#4, fn := fn, pred := 7#4, dst := opndOf d, sa := opndOf a,
         sb := opndOf b, sc := ⟨false, false, 0#8⟩, hint := 0#2, rsv := 0#2, immx := 0#11 })

/-- The instruction an opcode names (R141, R143); CSRW is one opcode with a constructor for each register (R370). -/
def ofOp (op : BitVec 8) (f : Fields) : Instr :=
  match op.toNat with
  | 0x02 => .endTrace f
  | 0x03 => .endSel f
  | 0x04 => .endInd f
  | 0x05 => .retire f
  | 0x06 => .guard f
  | 0x07 => .abortTrace f
  | 0x08 => .nop f
  | 0x10 => .add f
  | 0x11 => .sub f
  | 0x12 => .mullo f
  | 0x13 => .mulhi f
  | 0x14 => .mad f
  | 0x15 => .min f
  | 0x16 => .max f
  | 0x17 => .abs f
  | 0x18 => .neg f
  | 0x19 => .aadd f
  | 0x1A => .amad f
  | 0x20 => .and f
  | 0x21 => .or f
  | 0x22 => .xor f
  | 0x23 => .andn f
  | 0x24 => .not f
  | 0x25 => .shl f
  | 0x26 => .shr f
  | 0x27 => .rot f
  | 0x28 => .bfx f
  | 0x29 => .bfi f
  | 0x2A => .popc f
  | 0x2B => .clz f
  | 0x2C => .ctz f
  | 0x2D => .brev f
  | 0x2E => .icmp false f
  | 0x2F => .icmp true f
  | 0x30 => .sel f
  | 0x31 => .mov f
  | 0x32 => .movi f
  | 0x33 => .movh f
  | 0x34 => .movx f
  | 0x35 => .sreg f
  | 0x88 => .umov f
  | 0x80 => .pand f
  | 0x81 => .por f
  | 0x82 => .pxor f
  | 0x83 => .pnot f
  | 0x84 => .vote f
  | 0x85 => .elect f
  | 0x86 => .readlane f
  | 0x87 => .shfl f
  | 0x40 => .fadd f
  | 0x41 => .fsub f
  | 0x42 => .fmul f
  | 0x43 => .fma f
  | 0x44 => .fmin f
  | 0x45 => .fmax f
  | 0x46 => .fcmp f
  | 0x47 => .frcp f
  | 0x48 => .frsq f
  | 0x49 => .fsqrt f
  | 0x4A => .fexp2 f
  | 0x4B => .flog2 f
  | 0x4C => .ftanh f
  | 0x4D => .ferf f
  | 0x4E => .fsin f
  | 0x4F => .fcos f
  | 0x50 => .ldexp f
  | 0x51 => .frnd f
  | 0x52 => .frac f
  | 0x53 => .fred f
  | 0x54 => .famax f
  | 0x55 => .scale f
  | 0x70 => .cvt f
  | 0x71 => .packw f
  | 0x72 => .unpkw f
  | 0xA0 => .ld f
  | 0xA1 => .st f
  | 0xA2 => .ldx f
  | 0xA3 => .ldf f
  | 0xA4 => .stf f
  | 0xA5 => .tdef f
  | 0xA6 => .trel f
  | 0xA7 => .tpost f
  | 0xA8 => .treclaim f
  | 0xA9 => .tstat f
  | 0xB0 => .atom f
  | 0xB1 => .atomr f
  | 0xB2 => .cas f
  | 0xB3 => .phase f
  | 0xB4 => .keyset f
  | 0xB5 => .keyget f
  | 0xB6 => .icinv f
  | 0xC0 => .barArrive f
  | 0xC1 => .barSync f
  | 0xC2 => .barInit f
  | 0xC3 => .get f
  | 0xC4 => .put f
  | 0xC5 => .chstat f
  | 0xC6 => .taskadd f
  | 0xC7 => .taskdone f
  | 0xC8 => .qtail f
  | 0xC9 => .qroom f
  | 0xCA => .wake f
  | 0xD0 => .job f
  | 0xD1 => .jobq f
  | 0xD2 => .jcancel f
  | 0xD3 => .mxgo f
  | 0xD4 => .mxstat f
  | 0xD5 => .mxstop f
  | 0xD6 => .accrd f
  | 0xD7 => .accwr f
  | 0xD8 => .migrate f
  | 0xD9 => .chainFold f
  | 0xDA => .chainSpread f
  | 0xDB => .epq f
  | 0xE0 => .trap f
  | 0xE1 => .rett f
  | 0xE2 => .rettAbort f
  | 0xE3 => .csrr f
  | 0xE5 => .containOpen f
  | 0xE6 => .containClose f
  | 0xE7 => .halt f
  | 0xE4 => csrwOf f
  | _ => .illegalOpcode op f

/-- The opcode and fields of an instruction; none for a step that has no word (R117, R126). -/
def wordOf : Instr → Option (BitVec 8 × Fields)
  | .traceFetch => none
  | .traceDispatch => none
  | .bindNotify => none
  | .bindRetryTimer => none
  | .requeueRelease => none
  | .requeueTimer => none
  | .priorityAging => none
  | .atomicPerform => none
  | .atomicReturn => none
  | .acquireComplete => none
  | .phaseBoundaryComplete => none
  | .barrierTurn => none
  | .channelPutPerform => none
  | .creditReturn => none
  | .trussAccept => none
  | .jobStart => none
  | .fillElem => none
  | .storeElem => none
  | .copyElem => none
  | .moveElem => none
  | .gatherElem => none
  | .scatterElem => none
  | .nmv => none
  | .nmvPreemptStop => none
  | .jobComplete => none
  | .completionPutWait => none
  | .replayCommand => none
  | .jobFaultComplete => none
  | .faultRecordAnswer => none
  | .pageRetry => none
  | .translationWalk => none
  | .walkComplete => none
  | .translationInvalidate => none
  | .atsInvalidation => none
  | .priResponse => none
  | .atsTimeout => none
  | .tileDeferredEmpty => none
  | .mul => none
  | .loop => none
  | .cond => none
  | .ringwait => none
  | .zero => none
  | .scalea => none
  | .drain => none
  | .bypass => none
  | .signal => none
  | .endEntry => none
  | .mxStopPoint => none
  | .coll => none
  | .collChunkSend => none
  | .collChunkReceive => none
  | .collComplete => none
  | .recvqPoll => none
  | .keepaliveSend => none
  | .memberSuspect => none
  | .membershipBroadcast => none
  | .spareJoin => none
  | .migrationMove => none
  | .parkLimit => none
  | .schedMigrate => none
  | .stagePark => none
  | .chainFoldPerform => none
  | .chainSpreadPerform => none
  | .doorbell => none
  | .packetClaim => none
  | .launch => none
  | .feed => none
  | .feedAppend => none
  | .nopPacket => none
  | .packetComplete => none
  | .teamAdmit => none
  | .gangAdmit => none
  | .gangReserve => none
  | .gangStarved => none
  | .acquireGrant => none
  | .teamEnd => none
  | .taskRecordCreate => none
  | .portPull => none
  | .successorDecrement => none
  | .successorAppend => none
  | .quantumExpiry => none
  | .bucketRefill => none
  | .bucketCharge => none
  | .hbIncrement => none
  | .fallbackBegin => none
  | .fallbackEnd => none
  | .plienReload => none
  | .preempt => none
  | .preemptComplete => none
  | .handlerTimeout => none
  | .contextRestore => none
  | .shadowCompare => none
  | .ueConsume => none
  | .eccError => none
  | .scrubAccess => none
  | .packageStart => none
  | .linkChange => none
  | .linkPacketReceive => none
  | .peerAccess => none
  | .ctxCreate => none
  | .ctxDestroy => none
  | .ctxResume => none
  | .map => none
  | .unmap => none
  | .qCreate => none
  | .qDestroy => none
  | .load => none
  | .unload => none
  | .exportWindow => none
  | .debugHalt => none
  | .debugResume => none
  | .debugStep => none
  | .debugReadFrame => none
  | .debugWriteFrame => none
  | .debugReadBrk => none
  | .debugWriteBrk => none
  | .debugReadMode => none
  | .debugWriteMode => none
  | .coreInfo => none
  | .startClear => none
  | .bucket => none
  | .commCreate => none
  | .commDestroy => none
  | .errstatClear => none
  | .evlostClear => none
  | .registerWrite => none
  | .getVersion => none
  | .getCapabilities => none
  | .negotiateAlgorithms => none
  | .getDigests => none
  | .getCertificate => none
  | .challenge => none
  | .getMeasurements => none
  | .keyExchange => none
  | .finish => none
  | .heartbeat => none
  | .keyUpdate => none
  | .endSession => none
  | .endTrace f => some (0x02#8, f)
  | .endSel f => some (0x03#8, f)
  | .endInd f => some (0x04#8, f)
  | .retire f => some (0x05#8, f)
  | .guard f => some (0x06#8, f)
  | .abortTrace f => some (0x07#8, f)
  | .nop f => some (0x08#8, f)
  | .add f => some (0x10#8, f)
  | .sub f => some (0x11#8, f)
  | .mullo f => some (0x12#8, f)
  | .mulhi f => some (0x13#8, f)
  | .mad f => some (0x14#8, f)
  | .min f => some (0x15#8, f)
  | .max f => some (0x16#8, f)
  | .abs f => some (0x17#8, f)
  | .neg f => some (0x18#8, f)
  | .aadd f => some (0x19#8, f)
  | .amad f => some (0x1A#8, f)
  | .and f => some (0x20#8, f)
  | .or f => some (0x21#8, f)
  | .xor f => some (0x22#8, f)
  | .andn f => some (0x23#8, f)
  | .not f => some (0x24#8, f)
  | .shl f => some (0x25#8, f)
  | .shr f => some (0x26#8, f)
  | .rot f => some (0x27#8, f)
  | .bfx f => some (0x28#8, f)
  | .bfi f => some (0x29#8, f)
  | .popc f => some (0x2A#8, f)
  | .clz f => some (0x2B#8, f)
  | .ctz f => some (0x2C#8, f)
  | .brev f => some (0x2D#8, f)
  | .icmp n32 f => some (if n32 then 0x2F#8 else 0x2E#8, f)
  | .sel f => some (0x30#8, f)
  | .mov f => some (0x31#8, f)
  | .movi f => some (0x32#8, f)
  | .movh f => some (0x33#8, f)
  | .movx f => some (0x34#8, f)
  | .sreg f => some (0x35#8, f)
  | .umov f => some (0x88#8, f)
  | .pand f => some (0x80#8, f)
  | .por f => some (0x81#8, f)
  | .pxor f => some (0x82#8, f)
  | .pnot f => some (0x83#8, f)
  | .vote f => some (0x84#8, f)
  | .elect f => some (0x85#8, f)
  | .readlane f => some (0x86#8, f)
  | .shfl f => some (0x87#8, f)
  | .fadd f => some (0x40#8, f)
  | .fsub f => some (0x41#8, f)
  | .fmul f => some (0x42#8, f)
  | .fma f => some (0x43#8, f)
  | .fmin f => some (0x44#8, f)
  | .fmax f => some (0x45#8, f)
  | .fcmp f => some (0x46#8, f)
  | .frcp f => some (0x47#8, f)
  | .frsq f => some (0x48#8, f)
  | .fsqrt f => some (0x49#8, f)
  | .fexp2 f => some (0x4A#8, f)
  | .flog2 f => some (0x4B#8, f)
  | .ftanh f => some (0x4C#8, f)
  | .ferf f => some (0x4D#8, f)
  | .fsin f => some (0x4E#8, f)
  | .fcos f => some (0x4F#8, f)
  | .ldexp f => some (0x50#8, f)
  | .frnd f => some (0x51#8, f)
  | .frac f => some (0x52#8, f)
  | .fred f => some (0x53#8, f)
  | .famax f => some (0x54#8, f)
  | .scale f => some (0x55#8, f)
  | .cvt f => some (0x70#8, f)
  | .packw f => some (0x71#8, f)
  | .unpkw f => some (0x72#8, f)
  | .ld f => some (0xA0#8, f)
  | .st f => some (0xA1#8, f)
  | .ldx f => some (0xA2#8, f)
  | .ldf f => some (0xA3#8, f)
  | .stf f => some (0xA4#8, f)
  | .tdef f => some (0xA5#8, f)
  | .trel f => some (0xA6#8, f)
  | .tpost f => some (0xA7#8, f)
  | .treclaim f => some (0xA8#8, f)
  | .tstat f => some (0xA9#8, f)
  | .atom f => some (0xB0#8, f)
  | .atomr f => some (0xB1#8, f)
  | .cas f => some (0xB2#8, f)
  | .phase f => some (0xB3#8, f)
  | .keyset f => some (0xB4#8, f)
  | .keyget f => some (0xB5#8, f)
  | .icinv f => some (0xB6#8, f)
  | .barArrive f => some (0xC0#8, f)
  | .barSync f => some (0xC1#8, f)
  | .barInit f => some (0xC2#8, f)
  | .get f => some (0xC3#8, f)
  | .put f => some (0xC4#8, f)
  | .chstat f => some (0xC5#8, f)
  | .taskadd f => some (0xC6#8, f)
  | .taskdone f => some (0xC7#8, f)
  | .qtail f => some (0xC8#8, f)
  | .qroom f => some (0xC9#8, f)
  | .wake f => some (0xCA#8, f)
  | .job f => some (0xD0#8, f)
  | .jobq f => some (0xD1#8, f)
  | .jcancel f => some (0xD2#8, f)
  | .mxgo f => some (0xD3#8, f)
  | .mxstat f => some (0xD4#8, f)
  | .mxstop f => some (0xD5#8, f)
  | .accrd f => some (0xD6#8, f)
  | .accwr f => some (0xD7#8, f)
  | .migrate f => some (0xD8#8, f)
  | .chainFold f => some (0xD9#8, f)
  | .chainSpread f => some (0xDA#8, f)
  | .epq f => some (0xDB#8, f)
  | .trap f => some (0xE0#8, f)
  | .rett f => some (0xE1#8, f)
  | .rettAbort f => some (0xE2#8, f)
  | .csrr f => some (0xE3#8, f)
  | .csrwTstat f => some (0xE4#8, f)
  | .csrwSrseed f => some (0xE4#8, f)
  | .csrwMode f => some (0xE4#8, f)
  | .csrwKeyperm f => some (0xE4#8, f)
  | .csrwTrapbase f => some (0xE4#8, f)
  | .csrwMigpol f => some (0xE4#8, f)
  | .csrwGangwait f => some (0xE4#8, f)
  | .csrwBrk f => some (0xE4#8, f)
  | .containOpen f => some (0xE5#8, f)
  | .containClose f => some (0xE6#8, f)
  | .halt f => some (0xE7#8, f)
  | .powerLoss => none
  | .atsTranslationCompletion => none
  | .illegalOpcode op f => some (op, f)
  | .badreq => none
  | .linkKeyUpdate => none
  | .schedulerChainLatch => none
  | .endIndL9 a r => some (baseFields 0x04#8 0#4 0#6 a 0#6 r)
  | .retireL9 r => some (baseFields 0x05#8 0#4 0#6 0#6 0#6 r)
  | .nopL9 r => some (baseFields 0x08#8 0#4 0#6 0#6 0#6 r)
  | .addL9 f d a b r => some (baseFields 0x10#8 (0#1 ++ f) d a b r)
  | .subL9 f d a b r => some (baseFields 0x11#8 (0#1 ++ f) d a b r)
  | .mulloL9 d a b r => some (baseFields 0x12#8 6#4 d a b r)
  | .mulhiL9 f d a b r => some (baseFields 0x13#8 (0#3 ++ f) d a b r)
  | .minL9 f d a b r => some (baseFields 0x15#8 (0#3 ++ f) d a b r)
  | .maxL9 f d a b r => some (baseFields 0x16#8 (0#3 ++ f) d a b r)
  | .absL9 d a r => some (baseFields 0x17#8 0#4 d a 0#6 r)
  | .negL9 f d a r => some (baseFields 0x18#8 (0#1 ++ f ++ 0#1) d a 0#6 r)
  | .aaddL9 d a b r => some (baseFields 0x19#8 7#4 d a b r)
  | .andL9 d a b r => some (baseFields 0x20#8 6#4 d a b r)
  | .orL9 d a b r => some (baseFields 0x21#8 6#4 d a b r)
  | .xorL9 d a b r => some (baseFields 0x22#8 6#4 d a b r)
  | .andnL9 d a b r => some (baseFields 0x23#8 6#4 d a b r)
  | .notL9 d a r => some (baseFields 0x24#8 6#4 d a 0#6 r)
  | .shlL9 d a b r => some (baseFields 0x25#8 6#4 d a b r)
  | .shrL9 f d a b r => some (baseFields 0x26#8 (0#3 ++ f) d a b r)
  | .rotL9 d a b r => some (baseFields 0x27#8 6#4 d a b r)
  | .bfxL9 f d a b r => some (baseFields 0x28#8 (0#3 ++ f) d a b r)
  | .popcL9 d a r => some (baseFields 0x2A#8 6#4 d a 0#6 r)
  | .clzL9 d a r => some (baseFields 0x2B#8 6#4 d a 0#6 r)
  | .ctzL9 d a r => some (baseFields 0x2C#8 6#4 d a 0#6 r)
  | .brevL9 d a r => some (baseFields 0x2D#8 6#4 d a 0#6 r)
  | .icmpL9 s c d a b r => some (baseFields (0x17#7 ++ s) (0#1 ++ c) d a b r)
  | .movL9 d a r => some (baseFields 0x31#8 6#4 d a 0#6 r)
  | .movxL9 d a r => some (baseFields 0x34#8 6#4 d a 0#6 r)
  | .pandL9 d a b r => some (baseFields 0x80#8 0#4 d a b r)
  | .porL9 d a b r => some (baseFields 0x81#8 0#4 d a b r)
  | .pxorL9 d a b r => some (baseFields 0x82#8 0#4 d a b r)
  | .pnotL9 d a r => some (baseFields 0x83#8 0#4 d a 0#6 r)
  | .voteL9 f d a r => some (baseFields 0x84#8 (0#2 ++ f) d a 0#6 r)
  | .electL9 d r => some (baseFields 0x85#8 0#4 d 0#6 0#6 r)
  | .readlaneL9 d a b r => some (baseFields 0x86#8 6#4 d a b r)
  | .shflL9 f d a b r => some (baseFields 0x87#8 (0#2 ++ f) d a b r)
  | .faddL9 f d a b r => some (baseFields 0x40#8 (0#1 ++ f) d a b r)
  | .fsubL9 f d a b r => some (baseFields 0x41#8 (0#1 ++ f) d a b r)
  | .fmulL9 f d a b r => some (baseFields 0x42#8 (0#1 ++ f) d a b r)
  | .fminL9 f d a b r => some (baseFields 0x44#8 (0#1 ++ f) d a b r)
  | .fmaxL9 f d a b r => some (baseFields 0x45#8 (0#1 ++ f) d a b r)
  | .fcmpL9 c d a b r => some (baseFields 0x46#8 (0#1 ++ c) d a b r)
  | .frcpL9 d a r => some (baseFields 0x47#8 0#4 d a 0#6 r)
  | .frsqL9 d a r => some (baseFields 0x48#8 0#4 d a 0#6 r)
  | .fsqrtL9 d a r => some (baseFields 0x49#8 0#4 d a 0#6 r)
  | .fexp2L9 d a r => some (baseFields 0x4A#8 0#4 d a 0#6 r)
  | .flog2L9 d a r => some (baseFields 0x4B#8 0#4 d a 0#6 r)
  | .ftanhL9 d a r => some (baseFields 0x4C#8 0#4 d a 0#6 r)
  | .ferfL9 d a r => some (baseFields 0x4D#8 0#4 d a 0#6 r)
  | .fsinL9 d a r => some (baseFields 0x4E#8 0#4 d a 0#6 r)
  | .fcosL9 d a r => some (baseFields 0x4F#8 0#4 d a 0#6 r)
  | .ldexpL9 d a b r => some (baseFields 0x50#8 0#4 d a b r)
  | .frndL9 m d a r => some (baseFields 0x51#8 (0#1 ++ m) d a 0#6 r)
  | .fracL9 d a r => some (baseFields 0x52#8 0#4 d a 0#6 r)
  | .fredL9 d a r => some (baseFields 0x53#8 0#4 d a 0#6 r)
  | .famaxL9 f d a r => some (baseFields 0x54#8 (0#1 ++ f) d a 0#6 r)
  | .scaleL9 f d a r => some (baseFields 0x55#8 (0#1 ++ f) d a 0#6 r)
  | .packwL9 f d a b r => some (baseFields 0x71#8 (0#1 ++ f) d a b r)
  | .unpkwL9 f d a b r => some (baseFields 0x72#8 (0#1 ++ f) d a b r)
  | .ldL9 f d a b r => some (baseFields 0xA0#8 (0#1 ++ f) d a b r)
  | .stL9 f d a b r => some (baseFields 0xA1#8 (0#1 ++ f) d a b r)
  | .ldxL9 f d a b r => some (baseFields 0xA2#8 (0#1 ++ f) d a b r)
  | .ldfL9 f d a b r => some (baseFields 0xA3#8 (0#3 ++ f) d a b r)
  | .stfL9 m d a b r => some (baseFields 0xA4#8 (0#1 ++ m) d a b r)
  | .tdefL9 d a b r => some (baseFields 0xA5#8 0#4 d a b r)
  | .trelL9 d r => some (baseFields 0xA6#8 0#4 d 0#6 0#6 r)
  | .tpostL9 d r => some (baseFields 0xA7#8 0#4 d 0#6 0#6 r)
  | .treclaimL9 d r => some (baseFields 0xA8#8 0#4 d 0#6 0#6 r)
  | .phaseL9 s r => some (baseFields 0xB3#8 (0#1 ++ s) 0#6 0#6 0#6 r)
  | .keysetL9 a r => some (baseFields 0xB4#8 0#4 0#6 a 0#6 r)
  | .keygetL9 d r => some (baseFields 0xB5#8 0#4 d 0#6 0#6 r)
  | .icinvL9 a b r => some (baseFields 0xB6#8 0#4 0#6 a b r)
  | .barArriveL9 d a r => some (baseFields 0xC0#8 0#4 d a 0#6 r)
  | .barSyncL9 d a r => some (baseFields 0xC1#8 0#4 d a 0#6 r)
  | .barInitL9 d a r => some (baseFields 0xC2#8 0#4 d a 0#6 r)
  | .taskaddL9 a b r => some (baseFields 0xC6#8 0#4 0#6 a b r)
  | .taskdoneL9 r => some (baseFields 0xC7#8 0#4 0#6 0#6 0#6 r)
  | .qtailL9 a b r => some (baseFields 0xC8#8 0#4 0#6 a b r)
  | .qroomL9 d a r => some (baseFields 0xC9#8 0#4 d a 0#6 r)
  | .wakeL9 a r => some (baseFields 0xCA#8 0#4 0#6 a 0#6 r)
  | .jobL9 d a b r => some (baseFields 0xD0#8 0#4 d a b r)
  | .jobqL9 d a r => some (baseFields 0xD1#8 0#4 d a 0#6 r)
  | .jcancelL9 a r => some (baseFields 0xD2#8 0#4 0#6 a 0#6 r)
  | .chainFoldL9 r => some (baseFields 0xD9#8 0#4 0#6 0#6 0#6 r)
  | .chainSpreadL9 r => some (baseFields 0xDA#8 0#4 0#6 0#6 0#6 r)
  | .epqL9 d r => some (baseFields 0xDB#8 0#4 d 0#6 0#6 r)
  | .rettL9 r => some (baseFields 0xE1#8 0#4 0#6 0#6 0#6 r)
  | .rettAbortL9 r => some (baseFields 0xE2#8 0#4 0#6 0#6 0#6 r)
  | .containCloseL9 r => some (baseFields 0xE6#8 0#4 0#6 0#6 0#6 r)
  | .haltL9 r => some (baseFields 0xE7#8 0#4 0#6 0#6 0#6 r)

/-- The row of the table of L9 base words that a base word belongs to, if any (R126, R127). -/
def l9Row (op : BitVec 8) (fn : BitVec 4) (d a b : BitVec 6) (r : BitVec 1) : Option Instr :=
  match op.toNat with
  | 0x04 => if fn = 0#4 ∧ d = 0#6 ∧ b = 0#6 then some (.endIndL9 a r) else none
  | 0x05 => if fn = 0#4 ∧ d = 0#6 ∧ a = 0#6 ∧ b = 0#6 then some (.retireL9 r) else none
  | 0x08 => if fn = 0#4 ∧ d = 0#6 ∧ a = 0#6 ∧ b = 0#6 then some (.nopL9 r) else none
  | 0x10 => if fn &&& 8#4 = 0#4 then some (.addL9 (fn.extractLsb' 0 3) d a b r) else none
  | 0x11 => if fn &&& 8#4 = 0#4 then some (.subL9 (fn.extractLsb' 0 3) d a b r) else none
  | 0x12 => if fn = 6#4 then some (.mulloL9 d a b r) else none
  | 0x13 => if fn &&& 14#4 = 0#4 then some (.mulhiL9 (fn.extractLsb' 0 1) d a b r) else none
  | 0x15 => if fn &&& 14#4 = 0#4 then some (.minL9 (fn.extractLsb' 0 1) d a b r) else none
  | 0x16 => if fn &&& 14#4 = 0#4 then some (.maxL9 (fn.extractLsb' 0 1) d a b r) else none
  | 0x17 => if fn = 0#4 ∧ b = 0#6 then some (.absL9 d a r) else none
  | 0x18 => if fn &&& 9#4 = 0#4 ∧ b = 0#6 then some (.negL9 (fn.extractLsb' 1 2) d a r) else none
  | 0x19 => if fn = 7#4 then some (.aaddL9 d a b r) else none
  | 0x20 => if fn = 6#4 then some (.andL9 d a b r) else none
  | 0x21 => if fn = 6#4 then some (.orL9 d a b r) else none
  | 0x22 => if fn = 6#4 then some (.xorL9 d a b r) else none
  | 0x23 => if fn = 6#4 then some (.andnL9 d a b r) else none
  | 0x24 => if fn = 6#4 ∧ b = 0#6 then some (.notL9 d a r) else none
  | 0x25 => if fn = 6#4 then some (.shlL9 d a b r) else none
  | 0x26 => if fn &&& 14#4 = 0#4 then some (.shrL9 (fn.extractLsb' 0 1) d a b r) else none
  | 0x27 => if fn = 6#4 then some (.rotL9 d a b r) else none
  | 0x28 => if fn &&& 14#4 = 0#4 then some (.bfxL9 (fn.extractLsb' 0 1) d a b r) else none
  | 0x2A => if fn = 6#4 ∧ b = 0#6 then some (.popcL9 d a r) else none
  | 0x2B => if fn = 6#4 ∧ b = 0#6 then some (.clzL9 d a r) else none
  | 0x2C => if fn = 6#4 ∧ b = 0#6 then some (.ctzL9 d a r) else none
  | 0x2D => if fn = 6#4 ∧ b = 0#6 then some (.brevL9 d a r) else none
  | 0x2E => if fn &&& 8#4 = 0#4 then some (.icmpL9 (op.setWidth 1) (fn.extractLsb' 0 3) d a b r) else none
  | 0x2F => if fn &&& 8#4 = 0#4 then some (.icmpL9 (op.setWidth 1) (fn.extractLsb' 0 3) d a b r) else none
  | 0x31 => if fn = 6#4 ∧ b = 0#6 then some (.movL9 d a r) else none
  | 0x34 => if fn = 6#4 ∧ b = 0#6 then some (.movxL9 d a r) else none
  | 0x40 => if fn &&& 8#4 = 0#4 then some (.faddL9 (fn.extractLsb' 0 3) d a b r) else none
  | 0x41 => if fn &&& 8#4 = 0#4 then some (.fsubL9 (fn.extractLsb' 0 3) d a b r) else none
  | 0x42 => if fn &&& 8#4 = 0#4 then some (.fmulL9 (fn.extractLsb' 0 3) d a b r) else none
  | 0x44 => if fn &&& 8#4 = 0#4 then some (.fminL9 (fn.extractLsb' 0 3) d a b r) else none
  | 0x45 => if fn &&& 8#4 = 0#4 then some (.fmaxL9 (fn.extractLsb' 0 3) d a b r) else none
  | 0x46 => if fn &&& 8#4 = 0#4 then some (.fcmpL9 (fn.extractLsb' 0 3) d a b r) else none
  | 0x47 => if fn = 0#4 ∧ b = 0#6 then some (.frcpL9 d a r) else none
  | 0x48 => if fn = 0#4 ∧ b = 0#6 then some (.frsqL9 d a r) else none
  | 0x49 => if fn = 0#4 ∧ b = 0#6 then some (.fsqrtL9 d a r) else none
  | 0x4A => if fn = 0#4 ∧ b = 0#6 then some (.fexp2L9 d a r) else none
  | 0x4B => if fn = 0#4 ∧ b = 0#6 then some (.flog2L9 d a r) else none
  | 0x4C => if fn = 0#4 ∧ b = 0#6 then some (.ftanhL9 d a r) else none
  | 0x4D => if fn = 0#4 ∧ b = 0#6 then some (.ferfL9 d a r) else none
  | 0x4E => if fn = 0#4 ∧ b = 0#6 then some (.fsinL9 d a r) else none
  | 0x4F => if fn = 0#4 ∧ b = 0#6 then some (.fcosL9 d a r) else none
  | 0x50 => if fn = 0#4 then some (.ldexpL9 d a b r) else none
  | 0x51 => if fn &&& 8#4 = 0#4 ∧ b = 0#6 then some (.frndL9 (fn.extractLsb' 0 3) d a r) else none
  | 0x52 => if fn = 0#4 ∧ b = 0#6 then some (.fracL9 d a r) else none
  | 0x53 => if fn = 0#4 ∧ b = 0#6 then some (.fredL9 d a r) else none
  | 0x54 => if fn &&& 8#4 = 0#4 ∧ b = 0#6 then some (.famaxL9 (fn.extractLsb' 0 3) d a r) else none
  | 0x55 => if fn &&& 8#4 = 0#4 ∧ b = 0#6 then some (.scaleL9 (fn.extractLsb' 0 3) d a r) else none
  | 0x71 => if fn &&& 8#4 = 0#4 then some (.packwL9 (fn.extractLsb' 0 3) d a b r) else none
  | 0x72 => if fn &&& 8#4 = 0#4 then some (.unpkwL9 (fn.extractLsb' 0 3) d a b r) else none
  | 0x80 => if fn = 0#4 then some (.pandL9 d a b r) else none
  | 0x81 => if fn = 0#4 then some (.porL9 d a b r) else none
  | 0x82 => if fn = 0#4 then some (.pxorL9 d a b r) else none
  | 0x83 => if fn = 0#4 ∧ b = 0#6 then some (.pnotL9 d a r) else none
  | 0x84 => if fn &&& 12#4 = 0#4 ∧ b = 0#6 then some (.voteL9 (fn.extractLsb' 0 2) d a r) else none
  | 0x85 => if fn = 0#4 ∧ a = 0#6 ∧ b = 0#6 then some (.electL9 d r) else none
  | 0x86 => if fn = 6#4 then some (.readlaneL9 d a b r) else none
  | 0x87 => if fn &&& 12#4 = 0#4 then some (.shflL9 (fn.extractLsb' 0 2) d a b r) else none
  | 0xA0 => if fn &&& 8#4 = 0#4 then some (.ldL9 (fn.extractLsb' 0 3) d a b r) else none
  | 0xA1 => if fn &&& 8#4 = 0#4 then some (.stL9 (fn.extractLsb' 0 3) d a b r) else none
  | 0xA2 => if fn &&& 8#4 = 0#4 then some (.ldxL9 (fn.extractLsb' 0 3) d a b r) else none
  | 0xA3 => if fn &&& 14#4 = 0#4 then some (.ldfL9 (fn.extractLsb' 0 1) d a b r) else none
  | 0xA4 => if fn &&& 8#4 = 0#4 then some (.stfL9 (fn.extractLsb' 0 3) d a b r) else none
  | 0xA5 => if fn = 0#4 then some (.tdefL9 d a b r) else none
  | 0xA6 => if fn = 0#4 ∧ a = 0#6 ∧ b = 0#6 then some (.trelL9 d r) else none
  | 0xA7 => if fn = 0#4 ∧ a = 0#6 ∧ b = 0#6 then some (.tpostL9 d r) else none
  | 0xA8 => if fn = 0#4 ∧ a = 0#6 ∧ b = 0#6 then some (.treclaimL9 d r) else none
  | 0xB3 => if fn &&& 8#4 = 0#4 ∧ d = 0#6 ∧ a = 0#6 ∧ b = 0#6 then some (.phaseL9 (fn.extractLsb' 0 3) r) else none
  | 0xB4 => if fn = 0#4 ∧ d = 0#6 ∧ b = 0#6 then some (.keysetL9 a r) else none
  | 0xB5 => if fn = 0#4 ∧ a = 0#6 ∧ b = 0#6 then some (.keygetL9 d r) else none
  | 0xB6 => if fn = 0#4 ∧ d = 0#6 then some (.icinvL9 a b r) else none
  | 0xC0 => if fn = 0#4 ∧ b = 0#6 then some (.barArriveL9 d a r) else none
  | 0xC1 => if fn = 0#4 ∧ b = 0#6 then some (.barSyncL9 d a r) else none
  | 0xC2 => if fn = 0#4 ∧ b = 0#6 then some (.barInitL9 d a r) else none
  | 0xC6 => if fn = 0#4 ∧ d = 0#6 then some (.taskaddL9 a b r) else none
  | 0xC7 => if fn = 0#4 ∧ d = 0#6 ∧ a = 0#6 ∧ b = 0#6 then some (.taskdoneL9 r) else none
  | 0xC8 => if fn = 0#4 ∧ d = 0#6 then some (.qtailL9 a b r) else none
  | 0xC9 => if fn = 0#4 ∧ b = 0#6 then some (.qroomL9 d a r) else none
  | 0xCA => if fn = 0#4 ∧ d = 0#6 ∧ b = 0#6 then some (.wakeL9 a r) else none
  | 0xD0 => if fn = 0#4 then some (.jobL9 d a b r) else none
  | 0xD1 => if fn = 0#4 ∧ b = 0#6 then some (.jobqL9 d a r) else none
  | 0xD2 => if fn = 0#4 ∧ d = 0#6 ∧ b = 0#6 then some (.jcancelL9 a r) else none
  | 0xD9 => if fn = 0#4 ∧ d = 0#6 ∧ a = 0#6 ∧ b = 0#6 then some (.chainFoldL9 r) else none
  | 0xDA => if fn = 0#4 ∧ d = 0#6 ∧ a = 0#6 ∧ b = 0#6 then some (.chainSpreadL9 r) else none
  | 0xDB => if fn = 0#4 ∧ a = 0#6 ∧ b = 0#6 then some (.epqL9 d r) else none
  | 0xE1 => if fn = 0#4 ∧ d = 0#6 ∧ a = 0#6 ∧ b = 0#6 then some (.rettL9 r) else none
  | 0xE2 => if fn = 0#4 ∧ d = 0#6 ∧ a = 0#6 ∧ b = 0#6 then some (.rettAbortL9 r) else none
  | 0xE6 => if fn = 0#4 ∧ d = 0#6 ∧ a = 0#6 ∧ b = 0#6 then some (.containCloseL9 r) else none
  | 0xE7 => if fn = 0#4 ∧ d = 0#6 ∧ a = 0#6 ∧ b = 0#6 then some (.haltL9 r) else none
  | _ => none

/-- The first field check that fails, if any (R117, R126, R127). -/
def fieldsError (f : Fields) : Option WfError :=
  match f.enc with
  | .l9 =>
    if f.dst.peek then some .dstPeek
    else if f.stall ≠ 0#4 then some .stallInL9
    else if 64 ≤ f.dst.num.toNat ∨ 64 ≤ f.sa.num.toNat ∨ 64 ≤ f.sb.num.toNat ∨ 64 ≤ f.sc.num.toNat then some .numberTooWide
    else if f.ext then none
    else if f.dst.cls ∨ f.sa.cls ∨ f.sb.cls ∨ f.sc.cls ∨ f.sa.peek ∨ f.sb.peek ∨ f.sc.peek ∨ f.sc.num ≠ 0#8
      ∨ f.pred ≠ 7#4 ∨ f.hint ≠ 0#2 ∨ f.rsv ≠ 0#2 ∨ f.immx ≠ 0#11 then some .needsExtension
    else none
  | _ =>
    if f.ext ∨ f.immx ≠ 0#11 then some .extOutsideL9
    else if f.dst.peek then some .dstPeek
    else none

/-- Whether an L9 word without extension belongs to a row of base words. -/
def isBaseRow (op : BitVec 8) (f : Fields) : Bool :=
  f.enc == .l9 && !f.ext &&
    (l9Row op f.fn (f.dst.num.setWidth 6) (f.sa.num.setWidth 6) (f.sb.num.setWidth 6) (BitVec.ofBool f.rb)).isSome

/-- Whether a term is an instruction whose word its own fields give; the first check that fails otherwise. Steps that
have no word pass. -/
def wellFormed (i : Instr) : Option WfError :=
  match wordOf i with
  | none => none
  | some (op, f) =>
    match fieldsError f with
    | some e => some e
    | none =>
      if op = 0xE4#8 ∧ ofOp op f ≠ i then some .csrNumber
      else if isBaseRow op f ∧ l9Row op f.fn (f.dst.num.setWidth 6) (f.sa.num.setWidth 6) (f.sb.num.setWidth 6)
        (BitVec.ofBool f.rb) ≠ some i then some .baseRow
      else if ofOp op f ≠ i ∧ ¬ isBaseRow op f then some .opcodeAssigned
      else none

end Sys2Proof
end

