-- ==== Sys2Proof/Decode.lean ====
section
/-!
DEFINITION. The decoder of the instruction words, total on any bytes, and after it the encoder, both written from the
layouts of R117 and R126 and the opcode map of R143.
-/
namespace Sys2Proof

/-- Why a list of bytes holds no instruction: it ends before the word does (R117, R126). -/
inductive DecodeError where
  | truncated
  deriving DecidableEq, Repr

/-- Bits of a word as an operand field (R117): class, peek, number. -/
def opndAt (w : DWord) (lo : Nat) : Opnd :=
  ⟨w.getLsbD (lo + 9), w.getLsbD (lo + 8), w.extractLsb' lo 8⟩

/-- The opcode and fields of a D9 word (R117). D8 and D7 words have the same layout (R402). -/
def unpackD9 (e : Enc) (w : DWord) : BitVec 8 × Fields :=
  (w.extractLsb' 51 8,
   { enc := e, ext := false, rb := w.getLsbD 63, stall := w.extractLsb' 59 4, fn := w.extractLsb' 47 4,
     pred := w.extractLsb' 43 4, dst := ⟨w.getLsbD 42, false, w.extractLsb' 34 8⟩, sa := opndAt w 24, sb := opndAt w 14,
     sc := opndAt w 4, hint := w.extractLsb' 2 2, rsv := w.extractLsb' 0 2, immx := 0#11 })

/-- The opcode and fields of an L9 instruction with its extension word (R126). -/
def unpackL9 (base ext : Word) : BitVec 8 × Fields :=
  (base.extractLsb' 23 8,
   { enc := .l9, ext := true, rb := base.getLsbD 0, stall := 0#4, fn := base.extractLsb' 19 4, pred := ext.extractLsb' 15 4,
     dst := ⟨ext.getLsbD 25, false, (base.extractLsb' 13 6).setWidth 8⟩,
     sa := ⟨ext.getLsbD 24, ext.getLsbD 21, (base.extractLsb' 7 6).setWidth 8⟩,
     sb := ⟨ext.getLsbD 23, ext.getLsbD 20, (base.extractLsb' 1 6).setWidth 8⟩,
     sc := ⟨ext.getLsbD 22, ext.getLsbD 19, (ext.extractLsb' 26 6).setWidth 8⟩,
     hint := ext.extractLsb' 13 2, rsv := ext.extractLsb' 11 2, immx := ext.extractLsb' 0 11 })

/-- The opcode and fields of an L9 base word without extension (R127). -/
def unpackBase (base : Word) : BitVec 8 × Fields :=
  baseFields (base.extractLsb' 23 8) (base.extractLsb' 19 4) (base.extractLsb' 13 6) (base.extractLsb' 7 6)
    (base.extractLsb' 1 6) (base.extractLsb' 0 1)

/-- The instruction of an L9 base word without extension: its row of base words, or the generic form, whose checks at
issue find what R127 refuses. -/
def decodeBase (base : Word) : Instr :=
  match l9Row (base.extractLsb' 23 8) (base.extractLsb' 19 4) (base.extractLsb' 13 6) (base.extractLsb' 7 6)
      (base.extractLsb' 1 6) (base.extractLsb' 0 1) with
  | some i => i
  | none => ofOp (unpackBase base).1 (unpackBase base).2

/-- The instruction of one word: a D9 word, or an L9 base word in bits [31:0] with its extension in bits [63:32] (as the
replay entry of R364 holds it) (log 51, DEDUCED). -/
def decodeWord (e : Enc) (w : DWord) : Instr :=
  match e with
  | .l9 =>
    if w.getLsbD 31 then ofOp (unpackL9 (loWord w) (hiWord w)).1 (unpackL9 (loWord w) (hiWord w)).2
    else decodeBase (loWord w)
  | e => ofOp (unpackD9 e w).1 (unpackD9 e w).2

/-- Bytes, least significant first, as a number (R5). -/
def ofBytesLE : List Byte → Nat
  | [] => 0
  | b :: bs => b.toNat + 256 * ofBytesLE bs

/-- The `n` least significant bytes of a number, least significant first (R5). -/
def toBytesLE : Nat → Nat → List Byte
  | 0, _ => []
  | n + 1, w => BitVec.ofNat 8 w :: toBytesLE n (w / 256)

/-- How many bytes the instruction at the head of `bytes` takes: 8 in D9, D8 and D7; 4 in L9, 8 where EXT is 1 (R126). -/
def wordLength (e : Enc) (bytes : List Byte) : Nat :=
  match e with
  | .l9 => if bit (ofBytesLE (bytes.take 4)) 31 then 8 else 4
  | _ => 8

/-- The instruction at the head of a list of bytes, and the rest of the list. Every word decodes: an opcode that the map
does not list decodes to the step that traps with ILLEGAL_OPCODE (R140, R141). -/
def decode (e : Enc) (bytes : List Byte) : Except DecodeError (Instr × List Byte) :=
  let n := wordLength e bytes
  if bytes.length < n then .error .truncated
  else .ok (decodeWord e (BitVec.ofNat 64 (ofBytesLE (bytes.take n))), bytes.drop n)

/-- The D9 word of an opcode and its fields (R117). -/
def packD9 (op : BitVec 8) (f : Fields) : DWord :=
  BitVec.ofBool f.rb ++ f.stall ++ op ++ f.fn ++ f.pred ++ BitVec.ofBool f.dst.cls ++ f.dst.num
    ++ BitVec.ofBool f.sa.cls ++ BitVec.ofBool f.sa.peek ++ f.sa.num
    ++ BitVec.ofBool f.sb.cls ++ BitVec.ofBool f.sb.peek ++ f.sb.num
    ++ BitVec.ofBool f.sc.cls ++ BitVec.ofBool f.sc.peek ++ f.sc.num ++ f.hint ++ f.rsv

/-- The L9 base word of an opcode and its fields (R126). -/
def packBase (op : BitVec 8) (f : Fields) : Word :=
  BitVec.ofBool f.ext ++ op ++ f.fn ++ f.dst.num.setWidth 6 ++ f.sa.num.setWidth 6 ++ f.sb.num.setWidth 6
    ++ BitVec.ofBool f.rb

/-- The L9 extension word of an instruction's fields (R126). -/
def packExt (f : Fields) : Word :=
  f.sc.num.setWidth 6 ++ BitVec.ofBool f.dst.cls ++ BitVec.ofBool f.sa.cls ++ BitVec.ofBool f.sb.cls
    ++ BitVec.ofBool f.sc.cls ++ BitVec.ofBool f.sa.peek ++ BitVec.ofBool f.sb.peek ++ BitVec.ofBool f.sc.peek
    ++ f.pred ++ f.hint ++ f.rsv ++ f.immx

/-- The word of an instruction, laid out as `decodeWord` reads it; 0 for a step that has no word. -/
def encodeWord (i : Instr) : DWord :=
  match wordOf i with
  | none => 0#64
  | some (op, f) =>
    match f.enc with
    | .l9 => (if f.ext then packExt f else 0#32) ++ packBase op f
    | _ => packD9 op f

/-- The encoding an instruction belongs to; none for a step that has no word. -/
def encOf (i : Instr) : Option Enc := (wordOf i).map (fun p => p.2.enc)

/-- The bytes of a well-formed instruction, as a trace holds them (R117, R126). -/
def encode (i : Instr) : List Byte :=
  match wordOf i with
  | none => []
  | some (_, f) => toBytesLE (if f.enc = .l9 ∧ ¬ f.ext then 4 else 8) (encodeWord i).toNat

/-- What the decoder reads from an instruction whose bits are `w`, as spec/opcode_table.json numbers them: rows of 32 bits
are L9 base words (an L9 word with EXT set has its extension above them), wider ones D9 words. -/
def decodeTableWord (nbits w : Nat) : Option Instr :=
  let e : Enc := if nbits ≤ 32 then .l9 else .d9
  match decode e (toBytesLE 8 (w % 2 ^ 64)) with
  | .ok (i, _) => some i
  | .error _ => none

end Sys2Proof
end

