-- ==== Sys2Proof/Machine/State.lean ====
section
/-!
DEFINITION. The state of the HN9 package, as plain data: every piece of state the spec names, and the model's own few
fields (log 4, 5), the reasons a step can stop, and the state after reset.
-/
namespace Sys2Proof.Machine

/-- Why the machine stops. -/
inductive Fault where
  /-- Raised by the meaning of an instruction when no execution stands for it to issue in (`focus` names no group, or its
  group has no execution). The step function never runs an instruction there, so a run never meets it. Safe. -/
  | noExecution
  deriving DecidableEq, Repr

/-- Why a step has no meaning. -/
inductive Refusal where
  /-- Raised by an arm of `exec` whose instruction has no meaning yet. Safe. -/
  | notModelled (mnemonic : String)
  deriving DecidableEq, Repr

/-- Bit vectors by key, in one canonical form: keys strictly rising, no entry equal to zero, so an unlisted key reads 0. -/
abbrev SMap (n : Nat) := List (Nat × BitVec n)

/-- Items by number, keys strictly rising. -/
abbrev Table (α : Type) := List (Nat × α)

/-- Memory: bytes by key, keys strictly rising, no entry equal to what an unlisted byte reads as (`Memory.unlisted`, log 2, DESIGN CHOICE).
A key names a space and an address in it (`memKey`, log 3, DESIGN CHOICE). -/
abbrev Memory := List Host.Cell

/-- What a byte that nothing has written reads as (log 2, DESIGN CHOICE). A slice reads zero (R432). -/
def Memory.unlisted : Byte := 0#8

/-- Keys strictly above `k` and strictly rising, and no entry equal to an unlisted byte. -/
def Memory.wfAbove : Nat → Memory → Bool
  | _, [] => true
  | k, (a, b) :: m => decide (k ≤ a) && b != Memory.unlisted && Memory.wfAbove (a + 1) m

/-- The canonical form of memory: equal memories are equal lists. -/
def Memory.wf (m : Memory) : Bool := Memory.wfAbove 0 m

/-! ### Names -/

/-- A group of lanes: its core (die-local number + 512 × die, as COREID R370), its team's slot and its number (R244). -/
structure GRef where
  core : Nat
  slot : Nat
  grp : Nat
  deriving DecidableEq, Repr

/-- A trace: the code object and kernel that hold it and its index in that kernel's trace table (R265, log 20, DEDUCED). -/
structure TRef where
  handle : Nat
  kern : Nat
  idx : Nat
  deriving DecidableEq, Repr

/-- A committed register of one lane or group: vector, temporary (R107), uniform, predicate, stochastic-rounding state. -/
inductive Reg where
  | v (n : Nat)
  | t (n : Nat)
  | k (n : Nat)
  | p (n : Nat)
  | sr
  deriving DecidableEq, Repr

/-- Where a register result of an execution stands: a lane's register, or the group's (a k register, lane 0). -/
structure Place where
  lane : Nat
  reg : Reg
  deriving DecidableEq, Repr

/-- What raised a trap: its cause code (R459), the lanes whose check failed, and INFO0 and INFO1 (R362, R363). -/
structure Trap where
  cause : Nat
  flanes : List Nat
  info0 : Nat
  info1 : Nat
  deriving DecidableEq, Repr

/-! ### Tiles, barriers, channels, queues of a team -/

/-- The state of a tile (R86). -/
inductive TileState where
  | undef | empty | filling | ready | draining
  deriving DecidableEq, Repr

/-- A tile descriptor (R86). `doneFill` is the model's own: the fill has completed and the move to EMPTY waits for HELD to
reach 0 (R89). -/
structure Tile where
  base : BitVec 13 := 0#13
  len : BitVec 14 := 0#14
  fmt : BitVec 5 := 0#5
  geom : BitVec 4 := 0#4
  state : TileState := .undef
  shared : Bool := false
  atomic : Bool := false
  post : Bool := false
  opened : Bool := false
  pscope : BitVec 3 := 0#3
  recl : Bool := false
  relp : Bool := false
  pend : Nat := 0
  held : Nat := 0
  doneFill : Bool := false
  deriving DecidableEq, Repr

/-- A barrier (R282), with the atomics its turn waits for: those of the commits that arrived in the completed phase, and
those of the commits that have arrived in the current one (R284). -/
structure Barrier where
  exp : Nat := 0
  cnt : Nat := 0
  ph : Bool := false
  tp : Bool := false
  turnWaits : List Nat := []
  arrived : List Nat := []
  deriving DecidableEq, Repr

/-- A channel entry (R302), with the credits that the consumer has still to return to a REMOTE producer, and of a REMOTE entry the number of the
team that holds the queue (R303). -/
structure Chan where
  mode : Nat := 0
  size : Nat := 0
  depth : Nat := 0
  pgrp : Nat := 0
  peng : Bool := false
  cgrp : Nat := 0
  ceng : Bool := false
  remote : Bool := false
  frozen : Bool := false
  count : Nat := 0
  qaddr : Nat := 0
  head : Nat := 0
  credit : Nat := 0
  pq : Nat := 0
  pslot : Nat := 0
  puid : Nat := 0
  owed : Nat := 0
  deriving DecidableEq, Repr

/-- Items that a group's commit puts into a channel, by lane: performed once the atomics listed have been performed (R280) (log 36, DEDUCED). -/
structure PendingPut where
  grp : Nat
  chan : Nat
  items : List (Nat × Nat)
  waits : List Nat
  deriving DecidableEq, Repr

/-- A port of a team task queue: the offset of its outbox slots and their number (R340, R344). -/
structure Port where
  off : Nat
  slots : Nat
  deriving DecidableEq, Repr

/-- A declared team task queue (R340): the tile that holds it, its number of slots, its ports, the groups that a wake has
still to serve (R342), and the ports stopped by a failed pull, with the page each waits for (R344). -/
structure TaskQueue where
  tile : Nat
  slots : Nat
  ports : List Port
  woken : List Nat := []
  stopped : Table Nat := []
  deriving DecidableEq, Repr

/-! ### Traces and executions -/

/-- A trace header (R129, R130). -/
structure Header where
  op : Nat
  len : Nat
  head : Nat
  arg : Nat
  ep : Bool
  flash : Nat
  wset : Nat
  stw : Nat
  atom : Nat
  puts : Nat
  jobs : Nat
  arr : Nat
  rsv : Nat
  deriving DecidableEq, Repr

/-- A trace in a trace buffer: its header and its instructions, each as one word (an L9 extension in bits [63:32]). -/
structure Fetched where
  tr : TRef
  hdr : Header
  words : List DWord
  deriving DecidableEq, Repr

/-- A far atomic as buffered or sent (R166 to R169). `op` is FN, or 7 for CAS; `space` is SPACE of the address operand. -/
structure Atomic where
  op : Nat
  typ : Nat
  scope : Nat
  order : Nat
  addr : Nat
  space : Nat
  value : Nat
  cmp : Nat
  dst : Option Nat
  deriving DecidableEq, Repr

/-- A group effect with its operand values, read from the leading lane when it issued (R145, R146). Those of the task
instructions are each acting lane's own (R348): lane, tile, offset and queue of TASKADD; lane, name and tail of QTAIL; lane and
name of QROOM and WAKE. -/
inductive GroupEff where
  | keyset (v : Nat)
  | csrw (num : Nat) (hi : Bool) (v : Nat)
  | tdef (tile place form : Nat)
  | trel (tile : Nat)
  | tpost (tile : Nat)
  | treclaim (tile : Nat)
  | job (card : List Byte) (dst : Nat)
  | jobq (handle dst : Nat)
  | jcancel (handle : Nat)
  | icinv (addr len : Nat)
  | mxgo (tile off : Nat)
  | mxstop
  | taskadd (locs : List (Nat × Nat × Nat × Nat))
  | taskdone
  | qtail (ops : List (Nat × Nat × Nat))
  | qroom (ops : List (Nat × Nat)) (dst : Nat)
  | wake (ops : List (Nat × Nat))
  | barArrive (b c : Nat)
  | barSync (b c : Nat)
  | barInit (b c : Nat)
  | phase (scope : Nat)
  | migrate (ep alt : TRef) (lcore : Bool)
  | chainFold
  | chainSpread
  | rett (abort : Bool) (ref : Option TRef)
  | containOpen (handler : Nat)
  | containClose
  | halt
  deriving DecidableEq, Repr

/-- Task instructions of a commit that wait for the atomics listed (R347): the group, its lanes that pass and act, the
effect, the records with their queues (of TASKADD, and the finished one of TASKDONE), and the returns of QROOM (log 36, DEDUCED). -/
structure PendingTask where
  grp : Nat
  lanes : List Nat
  eff : GroupEff
  records : List (Nat × List Byte)
  ids : List Nat
  waits : List Nat
  deriving DecidableEq, Repr

/-- A buffered effect of a trace (R145, R257). -/
inductive Effect where
  /-- Bytes of a store under a bit mask, at a slice offset (R149, R155). -/
  | store (lane tile at_ : Nat) (data mask : List Byte)
  /-- One accumulator element (R237). -/
  | accwr (lane acc idx : Nat) (v : Word)
  /-- A far atomic (R169). -/
  | atom (lane : Nat) (a : Atomic)
  /-- A lane's pop of the item at a position of the execution (R304). -/
  | pop (lane chan pos : Nat)
  /-- A put: one item a lane (R305). -/
  | put (chan : Nat) (items : List (Nat × Nat))
  /-- A group effect and the lanes that act for it (R146). -/
  | group (acting : List Nat) (e : GroupEff)
  deriving DecidableEq, Repr

/-- A buffered effect and the offset of the instruction that buffered it. -/
structure Buffered where
  off : Nat
  eff : Effect
  deriving DecidableEq, Repr

/-- An instruction that has begun issue in the execution (R107, R136, R364): `lat` counts from its start to its result, `all` to the result of
its last beat. -/
structure Issued where
  off : Nat
  word : DWord
  start : Nat
  lat : Nat
  beats : Nat
  mask : List Nat
  srcs : Table (List Word)
  writes : List (Place × Word)
  all : Nat := 1
  deriving DecidableEq, Repr

/-- What instructions read as it stood at the trace head (R160, R174, R236, R237, R310, R311, R374): descriptors, registers by number,
CHSTAT words, items of each channel, MXSTAT, EPQ, and the accumulators as committed before the trace. -/
structure HeadView where
  tiles : Table Tile := []
  csr : List Nat := []
  chans : List Nat := []
  counts : List Nat := []
  mxstat : Nat := 0
  epq : Nat := 0
  acc : Table (SMap 32) := []
  deriving DecidableEq, Repr

/-- An execution: one start of one trace by a set of lanes (R251); `compared` says that a shadow has agreed with it (R408), `run` how many
instructions its present run has issued (R135; 0 between runs), `second` that its last instruction shared an LCORE's cycle with the one
before (R139), `closing` that no lane is left and it goes to its commit (R248). -/
structure Exec where
  tr : TRef
  hdr : Header
  words : List DWord
  mask : Nat
  started : List Nat
  here : List Nat
  left : List Nat
  off : Nat
  diverged : Bool
  ready : Nat
  issued : List Issued
  buf : List Buffered
  uses : List (Nat × Nat)
  view : HeadView
  skipBreak : Bool
  gotTask : Bool
  compared : Bool := false
  run : Nat := 0
  second : Bool := false
  closing : Bool := false
  deriving DecidableEq, Repr

/-- Why a lane is held at its trace (R256, R386): the HCAUSE code, and the object it waits for: a page, a tile, a channel, a barrier, an
entry; for a full Truss the completions counted when it was held; for a full task queue its number + 16 × the records it must take. -/
structure Held where
  cause : Nat
  obj : Nat
  deriving DecidableEq, Repr

/-- A lane of a group (R244, R251, R253, R256). -/
structure Lane where
  live : Bool := false
  tr : TRef := ⟨0, 0, 0⟩
  since : Nat := 0
  held : Option Held := none
  bindCall : Option Nat := none
  jobs : List Nat := []
  acquires : List Nat := []
  deriving DecidableEq, Repr

/-- A return outstanding (R170): the lane, the register that takes it, whether a pair, the atomic or query it answers, and
its offset of its instruction, its value once known, the error bank that poisons it (R405), and whether a handler's trace caused it. -/
structure Return where
  lane : Nat
  dst : Nat
  wide : Bool
  id : Nat
  off : Nat
  value : Option DWord
  bank : Option Nat := none
  inHandler : Bool := false
  deriving DecidableEq, Repr

/-- A phase boundary a group is passing (R273): its scope, whether it publishes tiles, the atomics it waits for, and whether
it is only that of a .REL or .AR atomic (R273). -/
structure Boundary where
  scope : Nat
  publishes : Bool
  waits : List Nat
  rel : Bool := false
  deriving DecidableEq, Repr

/-- Why a group is halted (R386). -/
inductive Halt where
  | none | request | instruction | step | breakpoint
  deriving DecidableEq, Repr

/-- A parked group (R295): the EP and alternative traces, the kind wanted, and when it parked. -/
structure Park where
  ep : TRef
  alt : TRef
  lcore : Bool
  since : Nat
  deriving DecidableEq, Repr

/-- The group's containment region (R410). -/
structure Contain where
  opened : Bool := false
  htrace : TRef := ⟨0, 0, 0⟩
  cause : Nat := 0
  unw : Bool := false
  deriving DecidableEq, Repr

/-- A group of lanes (R244, R386). `timedOut` says that its handler has used up its time under a pre-emption
(R383), `stepping` that a DEBUG step halts it after its next commit (R444), `stays` the trace at which a migration by the scheduler met its park
limit, so that the trace starts in place (R298), `doubled` that its handler has trapped, so that it starts nothing more before the host resumes its context (R360), `taskQueue` is 16 where a TASK hardware queue delivered its record (R346), `uid` its own number among all groups ever created (R278), `shadow` that it leads a shadow group, and `trail` is that group's execution of the same trace,
with its own results and buffer (R406). -/
structure Group where
  width : Nat
  num : Nat
  role : Nat
  cls : Nat
  waited : Nat := 0
  vallot : Nat := 16
  regs : SMap 32 := []
  preds : SMap 1 := []
  uregs : SMap 32 := []
  sr : SMap 32 := []
  lanes : List Lane
  mode : BitVec 32 := 0#32
  srseed : BitVec 32 := 0#32
  contain : Contain := {}
  hm : Bool := false
  handler : Nat := 0
  priv : Bool := false
  epb : List Bool := List.replicate 16 false
  wait : Option Nat := none
  task : Option (List Byte) := none
  taskQueue : Nat := 0
  taskAccepted : Bool := false
  migHist : List Nat := []
  migref : Nat := 0
  halt : Halt := .none
  haltAsked : Bool := false
  park : Option Park := none
  frame : Bool := false
  trapped : Option Exec := none
  handlerLanes : List Nat := []
  boundary : Option Boundary := none
  passed : Option Nat := none
  returns : List Return := []
  buffers : List Fetched := []
  exec : Option Exec := none
  trail : Option Exec := none
  owed : List Trap := []
  sent : List Nat := []
  reruns : Nat := 0
  timedOut : Bool := false
  stepping : Bool := false
  shadow : Bool := false
  stays : Option TRef := none
  doubled : Bool := false
  uid : Nat := 0
  deriving DecidableEq, Repr

/-- The fold record of a chain's thread (R314, R315, R325): `cont` and the banks hold the stages other than the current one,
by stage × 128 + lane and stage × 32 + number; a stage's lane that is not live has ended. `groups` are the groups that were
folded (GMASK), `sites` where each stage's group stands, `last` the stage of the thread's last execution (R311), `owed` the traps addressed to
dormant stages (R324). -/
structure Fold where
  thread : Nat := 0
  stage : Nat := 0
  cont : Table Lane := []
  vbase : List Nat := []
  vcount : List Nat := []
  kbank : SMap 32 := []
  pbank : SMap 8 := []
  sbank : SMap 32 := []
  slots : SMap 128 := []
  full : SMap 1 := []
  groups : List Nat := []
  last : Nat := 0
  sites : Table GRef := []
  owed : List (Nat × Trap) := []
  deriving DecidableEq, Repr

/-- A poisoned granule of storage (R404): its first key and its bytes, the error bank, and which of its bytes have been
overwritten since. -/
structure Poison where
  key : Nat
  size : Nat
  bank : Nat
  gone : List Nat := []
  deriving DecidableEq, Repr

/-- A team (R244, R385). `migrated` marks the team that a migration created, `away` the groups that have migrated away from
this one (R294). `accPoison` are the poisoned words of its accumulators, by accumulator × 2^16 + byte (R404), `uid` its own number among all teams ever created (R278). -/
structure Team where
  ctx : Nat
  handle : Nat
  kernel : Nat
  teamno : Nat := 0
  gx : Nat := 0
  gy : Nat := 0
  gz : Nat := 0
  lqueue : Nat := 0
  lslot : Nat := 0
  fromTask : Bool := false
  prio : Nat := 0
  window : Nat := 0
  wlen : Nat := 0
  trapt : Nat := 0
  storage : Nat := 0
  slen : Nat := 0
  tileAllot : Nat := 4
  accAllot : Nat := 0
  granted : Bool := false
  grantAsked : Option Nat := none
  tstat : BitVec 32 := 0#32
  tiles : Table Tile := []
  bars : Table Barrier := []
  chans : Table Chan := []
  puts : List PendingPut := []
  queues : Table TaskQueue := []
  tasks : List PendingTask := []
  foldLatched : Bool := false
  spreadLatched : Bool := false
  folded : Bool := false
  chref : Nat := 0
  stages : List Nat := []
  parkedStages : List Nat := []
  fold : Option Fold := none
  mxChains : Nat := 0
  acc : Table (SMap 32) := []
  accHold : List Nat := []
  accPoison : List Poison := []
  jobs : List Nat := []
  ending : Bool := false
  migrated : Bool := false
  away : List Nat := []
  uid : Nat := 0
  groups : List Group
  deriving DecidableEq, Repr

/-! ### The matrix sequencer of a DCORE -/

/-- The state of a sequencer (R225). -/
inductive MxState where
  | idle | running | waiting | stopping | stopped | fault
  deriving DecidableEq, Repr

/-- A ring of the sequencer (R233, R234, R241). -/
structure Ring where
  base : Nat := 0
  ns : Nat := 0
  inq : Nat := 0
  outq : Nat := 0
  defined : Bool := false
  holds : Bool := false
  slot : Nat := 0
  c : Nat := 0
  deriving DecidableEq, Repr

/-- A matrix sequencer (R223, R225, R233, R236, R241). -/
structure Sequencer where
  state : MxState := .idle
  cause : Nat := 0
  entry : Nat := 0
  owner : Option Nat := none
  issuer : Option GRef := none
  tc : Nat := 0
  off : Nat := 0
  loops : Table Nat := []
  rings : List Ring := List.replicate 4 {}
  ascale : List (BitVec 8) := List.replicate 128 127#8
  srstate : SMap 32 := []
  bypass : SMap 32 := []
  bypassFmt : Nat := 0
  bypassFull : Bool := false
  keyperm : BitVec 64 := 0#64
  waitsFor : Nat := 0
  held : List Nat := []
  region : Bool := false
  deriving DecidableEq, Repr

/-! ### Cores and dies -/

/-- A cached translation (R30): one page of a context, its leaf, and the HBM address of the leaf's entry, where A is set (R27). -/
structure TlbEntry where
  ctx : Nat
  page : Nat
  size : Nat
  leaf : DWord
  entry : Nat := 0
  deriving DecidableEq, Repr

/-- A pointer entry of level 3 or 2 in a die's walk cache (R30): the context, the level, the index of the range it covers (the address over
2^39 or 2^30), and the table it points to. -/
structure WalkPointer where
  ctx : Nat
  level : Nat
  range : Nat
  table : Nat
  deriving DecidableEq, Repr

/-- A cached code line (R39): the context, its virtual address and its bytes. -/
structure CodeLine where
  ctx : Nat
  va : Nat
  bytes : List Byte
  deriving DecidableEq, Repr

/-- Successor work of TASKDONE in the core's transfer engine (R350); `queue` is 16 for a record of a TASK hardware queue. -/
structure Successor where
  slot : Nat
  grp : Nat
  ctx : Nat
  counter : Nat
  record : Nat
  queue : Nat
  decremented : Bool := false
  zero : Bool := false
  bytes : Option (List Byte) := none
  parkedPage : Option Nat := none
  deriving DecidableEq, Repr

/-- An entry of a core's load-value queue (R407): the leading group, and what an instruction of it delivered to registers, or as an item to a
channel. -/
structure LoadValue where
  g : GRef
  values : List (Place × Word)
  items : List Effect := []
  deriving DecidableEq, Repr

/-- A core (R9, R10): its translation and code caches, its clock, its teams by slot, and its sequencer. -/
structure Core where
  cycles : Nat := 0
  teams : Table Team := []
  tlb : List TlbEntry := []
  code : List CodeLine := []
  seqr : Sequencer := {}
  succs : List Successor := []
  ldq : List LoadValue := []
  disabled : Bool := false
  deriving DecidableEq, Repr

/-- A pending translation (R31): its key, the requesters merged into it (each a core and who asks in it), and whether an invalidation made
it stale. -/
structure PendingWalk where
  ctx : Nat
  page : Nat
  requesters : List (Nat × Nat)
  stale : Bool := false
  result : Nat × DWord × Nat × Nat × Nat := (0, 0#64, 0, 0, 0)
  deriving DecidableEq, Repr

/-- The result of a completed walk that a requester has not yet used (R31): the requester, the context, the 4 KiB frame
of the address, and the result: a cause or 0, the leaf, its entry's address, the page's first address and its size. -/
structure Delivered where
  asker : Nat × Nat
  ctx : Nat
  page : Nat
  result : Nat × DWord × Nat × Nat × Nat
  deriving DecidableEq, Repr

/-- The state of a job (R75). -/
inductive JobState where
  | waiting | running | partialDone | done | faulted | cancelled | absent
  deriving DecidableEq, Repr

/-- A job in a Truss slot (R67, R74 to R80): its generation and card, its state, its releaser, the KEYPERM of its release, its
elements, the order of its release, the elements performed and those attempted in the present pass, the slots of the
jobs it waits for, whether it has started, its unit is absent, its team is shadowed, it is a region job (R410), the records
unanswered, for each page the passes counted (R43) and whether the present pass faulted on it or passed it, the other teams'
tiles it claimed and counted (R91: core, and slot × 64 + tile), its place in the order made ready (R66), whether it is cancelled (R165), the cause of each unfinished element, the format its
destination takes (R36), whether the Truss has accepted it (R73), its tiles have made their transitions (R80), and whether its completion put waits for room (R80). -/
structure Job where
  gen : Nat
  card : List Byte
  state : JobState
  ctx : Nat
  core : Nat
  slot : Nat
  grp : Option Nat
  keyperm : BitVec 64
  elems : Nat
  order : Nat
  ready : Nat := 0
  cancelled : Bool := false
  mask : Nat := 0
  tried : Nat := 0
  edges : List Nat := []
  started : Bool := false
  absent : Bool := false
  shadowed : Bool := false
  region : Bool := false
  records : Nat := 0
  passes : Table Nat := []
  faulted : List Nat := []
  passed : List (Nat × Nat) := []
  claimed : List (Nat × Nat) := []
  counted : List (Nat × Nat) := []
  causes : Table Nat := []
  fmt : Option (Nat × Nat) := none
  accepted : Bool := false
  moved : Bool := false
  putWaits : Bool := false
  deriving DecidableEq, Repr

/-- A fault record of 64 bytes (R77). -/
structure FaultRecord where
  cause : Nat := 0
  srck : Nat := 0
  ctx : Nat := 0
  job : Nat := 0
  va : Nat := 0
  elem : Nat := 0
  acc : Nat := 0
  tier : Nat := 0
  refault : Nat := 0
  core : Nat := 0
  group : Nat := 0
  slot : Nat := 0
  d9pc : Nat := 0
  l9pc : Nat := 0
  trace : Nat := 0
  off : Nat := 0
  lane : Nat := 0
  deriving DecidableEq, Repr

/-- A pre-emption listed in a die's Gutter (R382): the context, and the cores and engines whose acknowledgement is due. -/
structure Gutter where
  ctx : Nat
  due : List Nat
  done : Bool
  deriving DecidableEq, Repr

/-- A lane in a die's bind-wait queue (R42). -/
structure BindWait where
  g : GRef
  lane : Nat
  handle : Nat
  entry : Nat
  deriving DecidableEq, Repr

/-- A compute die (R9): `fbQueues` are the queues that its fallback scheduler serves and `fbLast` the one it served last (R357). It holds Truss, caches, pending translations, fault records, Gutter and scheduler. -/
structure Die where
  truss : Table Job := []
  order : Nat := 0
  readied : Nat := 0
  code : List CodeLine := []
  tlb : List TlbEntry := []
  pointers : List WalkPointer := []
  walked : List Delivered := []
  ptt : List PendingWalk := []
  frq : List FaultRecord := []
  frqovf : Bool := false
  gutter : List Gutter := []
  bindWait : List BindWait := []
  reserved : Option (Nat × List Nat) := none
  fallback : Bool := false
  fbQueues : List Nat := []
  fbLast : Nat := 65536
  hbSeen : Nat := 0
  raised : List Nat := []
  deriving DecidableEq, Repr

/-! ### Code objects and contexts -/

/-- An entry of a kernel's trace table (R396), with EP and FLASH of the trace's header as the loader found them (R287). -/
structure TraceEntry where
  d9off : Nat
  l9off : Nat
  tmask : Nat
  req : Nat
  freq : Nat
  acct : Bool
  stage : Nat
  staged : Bool
  ep : Bool := false
  flash : Nat := 0
  deriving DecidableEq, Repr

/-- A role record of a kernel (R103, R395). -/
structure Role where
  groups : Nat := 0
  vregd : Nat := 0
  vregl : Nat := 0
  tgran : Nat := 0
  acc : Nat := 0
  slice : Nat := 0
  deriving DecidableEq, Repr

/-- A channel of a chain descriptor (R400). -/
structure ChainChan where
  qn : Nat
  size : Nat
  depth : Nat
  pstage : Nat
  peng : Bool
  cstage : Nat
  deriving DecidableEq, Repr

/-- A chain descriptor (R312, R400): entry trace and engine bit of each stage, channels, FOLDOK. -/
structure Chain where
  stages : List (Nat × Bool)
  chans : List ChainChan
  foldok : Bool
  deriving DecidableEq, Repr

/-- A flashing table (R288): accumulator mask, fold maps, location pairs. -/
structure Flash where
  acc : Nat := 0
  dvbase : Nat := 0
  dvcount : Nat := 0
  lvbase : Nat := 0
  lvcount : Nat := 0
  pairs : List (Nat × Nat) := []
  deriving DecidableEq, Repr

/-- A task-queue declaration (R395, R340). -/
structure TqDecl where
  tile : Nat
  queue : Nat
  bytes : Nat
  ports : List (Nat × Nat)
  deriving DecidableEq, Repr

/-- A kernel of a code object (R395). -/
structure Kernel where
  d9 : Bool
  l9 : Bool
  dsel : Nat
  wave : Nat
  roles : Bool
  shadow : Bool
  argu : Nat
  feat : Nat
  role0 : Role
  role1 : Role := {}
  chain : Option Chain := none
  tqs : List TqDecl := []
  traces : List TraceEntry
  deriving DecidableEq, Repr

/-- A loaded code object (R389 to R400): where its code sections and bind table are placed (R398). -/
structure CodeObject where
  kernels : List Kernel
  flashes : List Flash := []
  nbind : Nat := 0
  bindVa : Nat := 0
  bckern : Nat := 0
  bctrace : Nat := 0
  d9va : Nat := 0
  l9va : Nat := 0
  placed : List (Nat × Nat) := []
  forced : Bool := false
  deriving DecidableEq, Repr

/-- A grant of a context (R445). -/
structure Grant where
  tier : Nat
  perm : Nat
  pack : Nat
  base : Nat
  len : Nat
  deriving DecidableEq, Repr

/-- A token bucket (R356), with the charge that has still to reach LEVEL. -/
structure Bucket where
  level : Int := 0
  cap : Nat := 0
  rate : Nat := 0
  resume : Int := 0
  due : Nat := 0
  deriving DecidableEq, Repr

/-- A poisoned register of one lane (R404): the committed one, or, where `trs` is not 0, the result in the TRS of the instruction at offset
`trs` − 1 of the group's execution, of its trapped one where 1,000 is added. -/
structure RegPoison where
  g : GRef
  place : Place
  bank : Nat
  trs : Nat := 0
  deriving DecidableEq, Repr

/-- A team saved by pre-emption (R384, log 21, DESIGN CHOICE): its core and slot, its record, its slice window, trap tiles and queue storage,
the state of its sequencer where it owned it (R241), and the poison of its slice, by slice offset, and of its registers (R404). -/
structure SavedTeam where
  core : Nat
  slot : Nat
  team : Team
  image : List (Nat × List Byte)
  seqr : Option Sequencer := none
  poison : List Poison := []
  regPoison : List RegPoison := []
  deriving DecidableEq, Repr

/-- A context (R20, R34, R356, R370, R384, R429, R444). `movedFrom` are the cores that its teams left for others while they were saved
(R388), `saveAt` the HBM offset of its save area (R384). -/
structure Ctx where
  root : Nat := 0
  keyperm : BitVec 64 := 0#64
  trapbase : BitVec 64 := 0#64
  migpol : BitVec 32 := 0x07D80000#32
  gangwait : BitVec 32 := 0x0FA003E8#32
  brk : List (BitVec 64) := List.replicate 4 0#64
  objects : Table CodeObject := []
  nextHandle : Nat := 1
  grants : List Grant := []
  qmax : Nat := 0
  quantum : Nat := 20
  conf : Bool := false
  debug : Bool := false
  buckets : List Bucket := List.replicate 3 {}
  measure : BitVec 384 := 0#384
  keyGen : Nat := 0
  stopped : Option Nat := none
  descheduled : Bool := false
  preempted : Bool := false
  saved : List SavedTeam := []
  saveAt : Nat := 0
  movedFrom : List Nat := []
  deriving DecidableEq, Repr

/-- A packet of a COMMAND queue, or a record of a TASK queue, that an agent has claimed (R331, R333): its index, its bytes,
whether it has started and its STATUS (0 while it runs), the grid it created (teams created, ended, and in all), records
appended by a FEED, the die that serves it, the page it waits for, with the address and the ELEM of its record, whether its STATUS could not be written, whether
its SIGNAL cannot be added (R331), and, of a LAUNCH with GANG, since when its next gang waits (R337). -/
structure Packet where
  idx : Nat
  bytes : List Byte
  started : Bool := false
  status : Nat := 0
  completed : Bool := false
  teams : Nat := 0
  created : Nat := 0
  ended : List Nat := []
  appended : Nat := 0
  die : Nat := 0
  page : Option Nat := none
  va : Nat := 0
  elem : Nat := 0
  failed : Bool := false
  unsignalled : Bool := false
  since : Nat := 0
  deriving DecidableEq, Repr

/-- A hardware queue (R326, R327, R333, R440): its descriptor, whether it exists, is mapped and has overflowed, the ticket of
its next unclaimed slot, and its claimed packets that HEAD has not passed. -/
structure HwQueue where
  base : Nat
  slots : Nat
  kind : Nat
  prio : Nat
  ctx : Nat
  head : Nat := 0
  tail : Nat := 0
  mapped : Bool := true
  qover : Bool := false
  next : Nat := 0
  packets : List Packet := []
  removing : Bool := false
  deriving DecidableEq, Repr

/-- A queue operation that the I/O die holds (R341, R355): its issuer, the grid and team it names, and the operation: 0 QTAIL,
1 QROOM, 2 WAKE, 3 a FEED record; its value; and, for QROOM, the returns it owes. -/
structure HeldOp where
  ctx : Nat
  g : GRef
  lane : Nat
  queue : Nat
  slot : Nat
  team : Nat
  name : Nat
  op : Nat
  value : Nat
  id : Nat := 0
  deriving DecidableEq, Repr

/-- A collective operation in flight (R421 to R425, R428): the job, by die and Truss slot (none where a spare replays it), its
descriptor, this member's contribution, the partial chunks received (rank, chunk, payload, trailer), the chunks of the result
received (rank of an allgather's part, chunk, payload), with the trailers of those of a reduction (chunk, trailer), the ranges of keys of its contribution (R81), the ranks left out of this operation, the chunks asked for again, and the page a spare's result waits for
(log 29, DESIGN CHOICE). -/
structure CollOp where
  job : Option (Nat × Nat)
  desc : List Byte
  own : List Byte := []
  received : List (Nat × Nat × List Byte × List Byte) := []
  results : List (Nat × Nat × List Byte) := []
  sums : Table (List Byte) := []
  read : List (Nat × Nat) := []
  excluded : List Nat := []
  retried : List (Nat × Nat) := []
  parked : Option Nat := none
  deriving DecidableEq, Repr

/-- A communicator of the package (R420, R427, R428): the engine's copy of its member table; its membership, EPOCH and EFFSEQ, the
members before EFFSEQ, and the root that named them; its peers that are suspected; its journal; the operation in flight; the
operations that a spare has still to replay; and whether its join has ended with JOURNAL_GAP (log 29, DESIGN CHOICE). -/
structure Comm where
  ctx : Nat
  num : Nat
  eng : Nat
  rank : Nat
  nmemb : Nat
  suspect : Nat
  table : List Byte
  epoch : Nat := 0
  live : List Nat
  before : List Nat
  effseq : Nat := 0
  lastSeq : Nat := 0
  root : Nat := 0
  suspected : List Nat := []
  journal : List (List Byte × Nat) := []
  op : Option CollOp := none
  replay : List (List Byte × Nat) := []
  gap : Bool := false
  deriving DecidableEq, Repr

/-- A window this package exports (R451). -/
structure ExportWindow where
  ctx : Nat
  va : Nat
  len : Nat
  pack : Nat
  ictx : Nat
  deriving DecidableEq, Repr

/-- An entry of the start record (R434). -/
structure StartEntry where
  outcome : Nat := 0
  mode : Nat := 0
  tries : Nat := 0
  reason : Nat := 0
  deriving DecidableEq, Repr

/-- One copy of the start record (R434): GEN, the entries of steps 1 to 24, and whether its CRC holds. -/
structure StartCopy where
  gen : Nat := 0
  entries : List StartEntry := List.replicate 24 {}
  good : Bool := true
  deriving DecidableEq, Repr

/-- The boot engine (R433 to R435): the two copies, the step to run next (0 to read the record and apply its
policies, 25 when the start is over), whether the start is stopped, failed Plien reloads of this start, whether boot firmware came
from slot B, whether the first heartbeat has still to report a degraded start, and a reloaded Plien that has not yet beaten. -/
structure Boot where
  copies : List StartCopy := [{}, {}]
  step : Nat := 0
  halted : Bool := false
  reloads : Nat := 0
  slotB : Bool := false
  degraded : Bool := false
  reloaded : Option Nat := none
  deriving DecidableEq, Repr

/-- The SPDM responder (R430, log 15, DESIGN CHOICE): connection state reached, an open session and the generation of its keys. -/
structure Spdm where
  stage : Nat := 0
  session : Bool := false
  handshaking : Bool := false
  keyGen : Nat := 0
  deriving DecidableEq, Repr

/-- The identity keys of the security complex, with the certificate chains of slots 0 and 1 (R429, log 15, DESIGN CHOICE). -/
structure Identity where
  rsa : List Byte := []
  slh : List Byte := []
  chains : List (List Byte) := [[], []]
  deriving DecidableEq, Repr

/-- A context key slot (R429, R431): the XTS key pair and the GCM key. -/
structure KeySlot where
  xts : BitVec 512
  gcm : BitVec 256
  deriving DecidableEq, Repr

/-- An error bank (R417). -/
structure ErrorBank where
  stat : BitVec 64 := 0#64
  addr : BitVec 64 := 0#64
  deriving DecidableEq, Repr

/-- What leaves the package (log 14, DESIGN CHOICE): its destination class (0 ATS or PRI message, 1 Eave packet, 2 adapter doorbell, 3 SPDM
response, 4 interrupt or report to the host), a number and bytes. -/
structure Sent where
  kind : Nat
  dest : Nat
  bytes : List Byte := []
  deriving DecidableEq, Repr

/-- A far atomic sent at a commit and not yet performed (R169): its sender, with the numbers of the sender's team and group (R278), and the
atomics it must follow (log 52, DEDUCED). -/
structure SentAtomic where
  ctx : Nat
  g : GRef
  lane : Nat
  a : Atomic
  home : Nat
  frame : Nat
  after : List Nat
  team : Nat := 0
  guid : Nat := 0
  deriving DecidableEq, Repr

/-- The scope tag of a 64-byte block (R278): scope and origin of the last release atomic: its core, and of a lane the numbers of its team and
group, which no other team or group ever takes. -/
structure ScopeTag where
  scope : Nat
  core : Nat
  team : Nat
  grp : Nat
  lane : Nat
  engine : Nat
  deriving DecidableEq, Repr

/-- What the present turn of a hardware event is about: the group, lane, trace, numbers, flag and bytes its meaning reads
(log 4, DESIGN CHOICE). Each meaning says which of them it uses. -/
structure Subject where
  g : GRef := ⟨0, 0, 0⟩
  t : TRef := ⟨0, 0, 0⟩
  a : Nat := 0
  b : Nat := 0
  c : Nat := 0
  d : Nat := 0
  ok : Bool := false
  bytes : List Byte := []
  deriving DecidableEq, Repr

/-- What happens next (log 4, DESIGN CHOICE): a hardware event about a subject, or the next step of a group. -/
inductive Turn where
  | event (i : Instr) (about : Subject)
  | group (g : GRef)
  deriving DecidableEq, Repr

/-- Registers of BAR0 with no home elsewhere (R437), and the requests completed that MRHEAD has not passed (R441). -/
structure Bar0 where
  hb : List (BitVec 64) := List.replicate 4 0#64
  mrbase : BitVec 64 := 0#64
  mrsize : BitVec 32 := 0#32
  mrtail : BitVec 32 := 0#32
  mrhead : BitVec 32 := 0#32
  done : List Nat := []
  evbase : BitVec 64 := 0#64
  evsize : BitVec 32 := 0#32
  evhead : BitVec 32 := 0#32
  evtail : BitVec 32 := 0#32
  evlost : BitVec 32 := 0#32
  scrubcfg : BitVec 32 := 0x000102D0#32
  deriving DecidableEq, Repr

/-- An ATS translation held in an I/O die (R9, R32): 0 IO0 or 1 IO1, context, 4 KiB page of the I/O virtual address, read and write permission. -/
structure AtsEntry where
  io : Nat
  ctx : Nat
  page : Nat
  r : Bool
  w : Bool
  deriving DecidableEq, Repr

/-- A request of a compute die for a host page (R31, R32, R33, R464): the 4 KiB frame of its pending entry, the page of the I/O virtual
address, and the requesters merged into it; `cause` is 0 until it is refused or times out, `given` holds R and W where the host translated a
request that is not cached; the requesters listed have still to receive the result. -/
structure AtsWait where
  die : Nat
  ctx : Nat
  frame : Nat
  page : Nat
  requesters : List (Nat × Nat)
  cause : Nat := 0
  given : Option (Bool × Bool) := none
  deriving DecidableEq, Repr

/-- An ATS invalidation whose completion has still to be sent (R32): context, first page, pages, and the sent atomics that hold a
translation it dropped. -/
structure AtsInvalidation where
  ctx : Nat
  page : Nat
  pages : Nat
  uses : List Nat
  deriving DecidableEq, Repr

/-- A PRI Page Request outstanding, or held until a place is free (R33, R436): context, 4 KiB page of the I/O virtual address, and
the die and the record that asked. -/
structure PriRequest where
  ctx : Nat
  page : Nat
  die : Nat
  record : FaultRecord
  deriving DecidableEq, Repr

/-- A range of HBM (tier 0) or tier-2 memory (tier 1) that is mapped to a context, or was mapped to it last: the context and the generation
of its key, under which its bytes are encrypted (R431). -/
structure FrameKey where
  tier : Nat
  base : Nat
  len : Nat
  ctx : Nat
  gen : Nat
  deriving DecidableEq, Repr

/-- A window a peer package, a member of the load-store domain, has exported to a context of this one (R451), as the peer would answer (log 14, DESIGN CHOICE): its bytes, and
the 4 KiB pages of it that answer with a cause. -/
structure PeerWindow where
  pack : Nat
  ctx : Nat
  bytes : Nat
  causes : List (Nat × Nat)
  deriving DecidableEq, Repr

/-- An Eave link, a plane of the fabric (R431, R449, R450): whether it is up, the peers that it reaches, those of them whose SPDM session it
carries, packets since the last key update, failures in a row, and the generation of its session keys. -/
structure Link where
  up : Bool := false
  reach : List Nat := []
  peers : List Nat := []
  packets : Nat := 0
  failures : Nat := 0
  keyGen : Nat := 0
  deriving DecidableEq, Repr

/-- The machine. -/
structure State where
  mem : Memory
  poison : List Poison
  regPoison : List RegPoison
  ats : List AtsEntry
  atsWaits : List AtsWait
  atsEnabled : Bool
  atsInvs : List AtsInvalidation
  domain : List Nat
  windows : List PeerWindow
  tier2Bytes : Nat
  links : List Link
  tags : Table ScopeTag
  dies : Table Die
  cores : Table Core
  ctxs : Table Ctx
  sent : Table SentAtomic
  nextAtomic : Nat
  queues : Table HwQueue
  held : List HeldOp
  comms : List Comm
  exports : List ExportWindow
  keys : List FrameKey
  runNext : Nat
  waits : Nat
  boot : Boot
  spdm : Spdm
  identity : Identity
  keySlots : Table KeySlot
  mrs : List (BitVec 384)
  banks : List ErrorBank
  scrub : Nat
  scrubTime : Nat
  priOut : List PriRequest
  out : List Sent
  fwNext : Nat
  part : Nat
  lcores : Bool
  bar0 : Bar0
  featmask : BitVec 32
  packid : BitVec 32
  focus : Option GRef
  agenda : List Turn
  subject : Subject
  picks : List Nat
  free : Nat
  deriving DecidableEq, Repr

/-- The machine right after reset: every field at the value the spec gives, or the value a log entry names. -/
def State.reset : State :=
  { mem := [], poison := [], regPoison := [], ats := [], atsWaits := [], atsEnabled := true, atsInvs := [], domain := [], windows := [], tier2Bytes := 0, links := List.replicate 36 {},
    tags := [], dies := [], cores := [], ctxs := [], sent := [], nextAtomic := 1,
    queues := [], held := [], comms := [], exports := [], keys := [], runNext := 0, waits := 0, boot := {}, spdm := {}, identity := {}, keySlots := [],
    mrs := List.replicate 16 0#384, banks := List.replicate 16 {}, scrub := 0, scrubTime := 0, priOut := [], out := [],
    fwNext := 0, part := 0, lcores := true, bar0 := {}, featmask := 0#32, packid := 0#32,
    focus := none, agenda := [], subject := {}, picks := [], free := 0 }

end Sys2Proof.Machine
end

