-- ==== Sys2Proof/Machine/Ops.lean ====
section
/-!
DEFINITION. The named operations over memory, tables and registers, the choices of the machine, and taking an exception:
one shared operation for every trap (R360 to R365). A byte has one home and no copy (R16, R270), and the steps of the machine are the single
order of R272: what a step writes, every later step reads.
-/
namespace Sys2Proof.Machine

/-! ### Tables and bit-vector maps -/

/-- The item at a key. -/
def tget {α : Type} : Table α → Nat → Option α
  | [], _ => none
  | (k, x) :: t, n => if k = n then some x else if n < k then none else tget t n

/-- Put an item at a key, keeping the keys rising. -/
def tput {α : Type} : Table α → Nat → α → Table α
  | [], n, y => [(n, y)]
  | (k, x) :: t, n, y => if n < k then (n, y) :: (k, x) :: t else if n = k then (n, y) :: t else (k, x) :: tput t n y

/-- Remove a key. -/
def tdel {α : Type} : Table α → Nat → Table α
  | [], _ => []
  | (k, x) :: t, n => if n = k then t else if n < k then (k, x) :: t else (k, x) :: tdel t n

/-- The value at a key; 0 where none is listed. -/
def sget {n : Nat} : SMap n → Nat → BitVec n
  | [], _ => 0#n
  | (k, x) :: t, a => if k = a then x else if a < k then 0#n else sget t a

/-- Set the value at a key, keeping the canonical form: 0 is not listed. -/
def sput {n : Nat} : SMap n → Nat → BitVec n → SMap n
  | [], a, v => if v = 0#n then [] else [(a, v)]
  | (k, x) :: t, a, v =>
    if a < k then (if v = 0#n then (k, x) :: t else (a, v) :: (k, x) :: t)
    else if a = k then (if v = 0#n then t else (a, v) :: t)
    else (k, x) :: sput t a v

/-- The numbers from 0 to n − 1. -/
def upto (n : Nat) : List Nat := List.range n

/-- Item `i` of a list, or a default. -/
def nth {α : Type} (l : List α) (i : Nat) (d : α) : α := (l[i]?).getD d

/-! ### Memory -/

/-- The spaces of memory keys: HBM, tier-2, host (an I/O virtual address), peer windows, slices (log 3, DESIGN CHOICE). -/
inductive Space where
  | hbm | tier2 | host | peer | slice
  deriving DecidableEq, Repr

/-- The number of a space in a memory key (log 3, DESIGN CHOICE). -/
def Space.code : Space → Nat
  | .hbm => 0 | .tier2 => 1 | .host => 2 | .peer => 3 | .slice => 4

/-- The memory key of an address in a space (log 3, DESIGN CHOICE). -/
def memKey (sp : Space) (a : Nat) : Nat := sp.code * 2 ^ 48 + a

/-- The memory key of a host address: an I/O virtual address (log 3, log 13, DESIGN CHOICE). -/
def hostKey (a : Nat) : Nat := memKey .host (a % 2 ^ 48)

/-- The memory key of a byte of a core's slice: its global slice address (R83). -/
def sliceKey (core off : Nat) : Nat := memKey .slice (core * 2 ^ 21 + off)

/-- The byte at a key. -/
def Memory.read : Memory → Nat → Byte
  | [], _ => Memory.unlisted
  | (k, b) :: m, a => if k = a then b else if a < k then Memory.unlisted else Memory.read m a

/-- Put a byte before a list whose keys all lie above it, unless it is what an unlisted byte reads as. -/
def Memory.cons (a : Nat) (b : Byte) (m : Memory) : Memory := if b = Memory.unlisted then m else (a, b) :: m

/-- Write one byte, keeping the canonical form. -/
def Memory.write : Memory → Nat → Byte → Memory
  | [], a, v => Memory.cons a v []
  | (k, b) :: m, a, v =>
    if a < k then Memory.cons a v ((k, b) :: m)
    else if a = k then Memory.cons a v m
    else (k, b) :: Memory.write m a v

/-- Write bytes at rising keys. -/
def Memory.writeBytes : Memory → Nat → List Byte → Memory
  | m, _, [] => m
  | m, a, b :: bs => (m.write a b).writeBytes (a + 1) bs

/-- Read `n` bytes at rising keys. -/
def Memory.readBytes (m : Memory) (a : Nat) : Nat → List Byte
  | 0 => []
  | n + 1 => m.read a :: m.readBytes (a + 1) n

/-- A little-endian number of `n` bytes in memory (R5). -/
def Memory.readLE (m : Memory) (a n : Nat) : Nat := ofBytesLE (m.readBytes a n)

/-- Write a number as `n` bytes, least significant first (R5). -/
def Memory.writeLE (m : Memory) (a n v : Nat) : Memory := m.writeBytes a (toBytesLE n v)

/-- Zero `n` bytes (R432): every listed byte of the range is dropped, since an unlisted byte reads zero. -/
def Memory.clear (m : Memory) (a n : Nat) : Memory := m.filter (fun c => decide (c.1 < a ∨ a + n ≤ c.1))

/-- Write under a bit mask: a bit whose mask is 0 keeps its value (R155). -/
def Memory.writeMasked : Memory → Nat → List Byte → List Byte → Memory
  | m, a, d :: ds, k :: ks => (m.write a ((m.read a &&& ~~~k) ||| (d &&& k))).writeMasked (a + 1) ds ks
  | m, _, _, _ => m

/-- Poison after bytes have been overwritten (R404): a granule all of whose bytes have been overwritten is no longer
poisoned. -/
def Poison.after (p : Poison) (a n : Nat) : Option Poison :=
  let gone := (upto p.size).filter (fun j => p.gone.contains j || (decide (a ≤ p.key + j) && decide (p.key + j < a + n)))
  if gone.length = p.size then none else some { p with gone := gone }

/-! ### The parts of the machine -/

/-- A core by COREID; a core that holds nothing is not listed. -/
def State.core (s : State) (c : Nat) : Core := (tget s.cores c).getD {}

/-- Change a core. -/
def State.modCore (s : State) (c : Nat) (f : Core → Core) : State := { s with cores := tput s.cores c (f (s.core c)) }

/-- A compute die. -/
def State.die (s : State) (d : Nat) : Die := (tget s.dies d).getD {}

/-- Change a compute die. -/
def State.modDie (s : State) (d : Nat) (f : Die → Die) : State := { s with dies := tput s.dies d (f (s.die d)) }

/-- The compute die of a core (log 30, DEDUCED). -/
def dieOf (core : Nat) : Nat := core / 512

/-- The die-local number of a core, 18 × y + x (R10) (log 30, DEDUCED). -/
def localOf (core : Nat) : Nat := core % 512

/-- Whether a core is an LCORE: the cores of columns 0 and 17 (R10) (log 30, DEDUCED). -/
def isLcore (core : Nat) : Bool := localOf core % 18 == 0 || localOf core % 18 == 17

/-- Whether the device has a core of this COREID: a node of one of its four compute dies (R10) (log 30, DEDUCED). -/
def hasCore (core : Nat) : Bool := decide (localOf core < 288) && decide (dieOf core < 4)

/-- Whether a core is present and enabled: no LCORE of a device whose LCOREs are absent is (R2, R14, R439). -/
def State.coreEnabled (s : State) (core : Nat) : Bool :=
  hasCore core && !(s.core core).disabled && (s.lcores || !isLcore core)

/-- The compute cores of a die by die-local number (R10) (log 30, DEDUCED). -/
def dieCores (d : Nat) : List Nat := (upto 288).map (fun n => 512 * d + n)

/-- Whether some core of a kind is present and enabled (R2, R292, R438). -/
def State.anyCore (s : State) (lcore : Bool) : Bool := (upto 4).any (fun d => (dieCores d).any (fun c => isLcore c == lcore && s.coreEnabled c))

/-- CORECAPS (R299, R439): the core's kind and whether it is present and enabled (log 30, DEDUCED). -/
def State.coreCaps (s : State) (core : Nat) : Nat :=
  b2n (!isLcore core) + b2n (isLcore core) * 2 ^ 16 + b2n (s.coreEnabled core) * 2 ^ 17

/-- The bytes of a core's slice (R82) (log 30, DEDUCED). -/
def sliceBytes (core : Nat) : Nat := if isLcore core then 2 ^ 21 else 2 ^ 20

/-- Lanes of a beat (R248). -/
def beatWidth (core : Nat) : Nat := if isLcore core then 8 else 16

/-- A context. -/
def State.ctx? (s : State) (c : Nat) : Option Ctx := tget s.ctxs c

/-- Change a context. -/
def State.modCtx (s : State) (c : Nat) (f : Ctx → Ctx) : State :=
  match tget s.ctxs c with
  | none => s
  | some x => { s with ctxs := tput s.ctxs c (f x) }

/-- A team. -/
def State.team? (s : State) (c slot : Nat) : Option Team := tget (s.core c).teams slot

/-- Replace a team. -/
def State.setTeam (s : State) (c slot : Nat) (t : Team) : State :=
  s.modCore c (fun k => { k with teams := tput k.teams slot t })

/-- Change a team, if it is there. -/
def State.modTeam (s : State) (c slot : Nat) (f : Team → Team) : State :=
  match s.team? c slot with
  | none => s
  | some t => s.setTeam c slot (f t)

/-- A group. -/
def State.group? (s : State) (g : GRef) : Option Group :=
  match s.team? g.core g.slot with
  | none => none
  | some t => t.groups[g.grp]?

/-- Change a group, if it is there. -/
def State.modGroup (s : State) (g : GRef) (f : Group → Group) : State :=
  s.modTeam g.core g.slot (fun t => { t with groups := t.groups.modify g.grp f })

/-- Change the lanes of a group that are listed. -/
def Group.modLanes (g : Group) (ls : List Nat) (f : Lane → Lane) : Group :=
  { g with lanes := g.lanes.mapIdx (fun i l => if ls.contains i then f l else l) }

/-- A lane of a group. -/
def Group.lane (g : Group) (l : Nat) : Lane := nth g.lanes l {}

/-- The live lanes of a group, in ascending order. -/
def Group.live (g : Group) : List Nat := (upto g.width).filter (fun l => (g.lane l).live)

/-- The lanes of a folded thread in the stages that it does not execute, each with its number (R315). -/
def Team.banked (t : Team) (grp : Nat) : List (Nat × Lane) :=
  match t.folded, t.fold with
  | true, some fo => if fo.thread = grp then (fo.cont.filter (fun p => p.1 / 128 != fo.stage)).map (fun p => (p.1 % 128, p.2)) else []
  | _, _ => []

/-- Whether a lane of a group has not retired; a folded thread's lane retires only when every stage has ended for it (R317). -/
def Team.laneLives (t : Team) (g : Group) (lane : Nat) : Bool := (g.lane lane).live || (t.banked g.num).any (fun p => p.1 == lane && p.2.live)

/-- Whether a lane of a group has not retired. -/
def State.laneLives (s : State) (g : GRef) (lane : Nat) : Bool :=
  match s.team? g.core g.slot, s.group? g with
  | some t, some x => t.laneLives x lane
  | _, _ => false

/-- A sticky bit of TSTAT (R371). -/
inductive Sticky where
  | udisc | xscope | jfault | mxfault | qdrop | moved
  deriving DecidableEq, Repr

/-- The place of a sticky bit in TSTAT (R371). -/
def Sticky.place : Sticky → Nat
  | .udisc => 0 | .xscope => 1 | .jfault => 2 | .mxfault => 3 | .qdrop => 4 | .moved => 5

/-- Set a sticky bit of a team. -/
def Team.setSticky (t : Team) (b : Sticky) : Team := { t with tstat := t.tstat ||| (1#32 <<< b.place) }

/-- A tile of a team (R86); one not listed is UNDEF. -/
def Team.tile (t : Team) (n : Nat) : Tile := (tget t.tiles n).getD {}

/-- Change a tile. -/
def Team.modTile (t : Team) (n : Nat) (f : Tile → Tile) : Team := { t with tiles := tput t.tiles n (f (t.tile n)) }

/-- A barrier of a team (R282). -/
def Team.bar (t : Team) (n : Nat) : Barrier := (tget t.bars n).getD {}

/-- A channel entry of a team (R302); one not listed has MODE 0. -/
def Team.chan (t : Team) (n : Nat) : Chan := (tget t.chans n).getD {}

/-- Change a channel entry. -/
def Team.modChan (t : Team) (n : Nat) (f : Chan → Chan) : Team := { t with chans := tput t.chans n (f (t.chan n)) }

/-- The code object of a handle in a context; handle 0 names `own`. -/
def State.object? (s : State) (ctx own handle : Nat) : Option CodeObject :=
  match s.ctx? ctx with
  | none => none
  | some c => tget c.objects (if handle = 0 then own else handle)

/-- The kernel that holds a trace. -/
def State.kernel? (s : State) (ctx : Nat) (t : TRef) : Option Kernel :=
  match s.object? ctx t.handle t.handle with
  | none => none
  | some o => o.kernels[t.kern]?

/-- The trace-table entry of a trace. -/
def State.trace? (s : State) (ctx : Nat) (t : TRef) : Option TraceEntry :=
  match s.kernel? ctx t with
  | none => none
  | some k => k.traces[t.idx]?

/-- The kernel a team runs. -/
def State.teamKernel? (s : State) (t : Team) : Option Kernel := s.kernel? t.ctx ⟨t.handle, t.kernel, 0⟩

/-- The encoding a core runs a kernel in (R14, R402). -/
def encOn (core : Nat) (k : Option Kernel) : Enc :=
  if isLcore core then .l9
  else match k with
    | some k => if k.dsel = 1 then .d8 else if k.dsel = 2 then .d7 else .d9
    | none => .d9

/-- The encoding that a trace has on a core: by the kernel that holds it (R402). -/
def State.traceEnc (s : State) (core ctx : Nat) (t : TRef) : Enc := encOn core (s.kernel? ctx t)

/-- The trace that a group runs, or else the one that a trap has frozen. -/
def Group.running (g : Group) : Option TRef := (g.exec.or g.trapped).map (·.tr)

/-- The encoding a group runs in: that of the trace it runs, else of its team's kernel. -/
def State.encOf (s : State) (g : GRef) : Enc :=
  match s.team? g.core g.slot with
  | none => encOn g.core none
  | some t => match (t.groups[g.grp]?).bind Group.running with
    | some x => s.traceEnc g.core t.ctx x
    | none => encOn g.core (s.teamKernel? t)

/-- Bytes performed for a context at a home in HBM, tier 2 or a peer are charged to its bandwidth bucket, if that is enabled (R356). -/
def State.charge (s : State) (ctx key n : Nat) : State :=
  if key / 2 ^ 48 = 2 ∨ 4 ≤ key / 2 ^ 48 then s
  else s.modCtx ctx (fun c => { c with buckets := c.buckets.modify 1 (fun b => if b.cap = 0 then b else { b with due := b.due + n }) })

/-! ### Choices and free values (log 4, log 12, DESIGN CHOICE) -/

/-- Take the next choice among `n`: the head of `picks`, or the first alternative when none is listed (log 17, DESIGN CHOICE). -/
def State.pick (s : State) (n : Nat) : Nat × State :=
  match s.picks with
  | [] => (0, s)
  | p :: ps => (if n = 0 then 0 else p % n, { s with picks := ps })

/-- Put an event at the head of what happens next. -/
def State.raiseTurn (s : State) (i : Instr) (about : Subject) : State := { s with agenda := .event i about :: s.agenda }

/-! ### Cause codes (R459 to R467) -/

/-- The decoder's number in an encoding cause (R460). -/
def decoderNo : Enc → Nat
  | .d9 => 0 | .l9 => 1 | .d8 => 2 | .d7 => 3

/-- Encoding causes (R460): code 16d + k. -/
def encCause (e : Enc) (k : Nat) : Nat := 16 * decoderNo e + k

/-- Firmware causes (R467): code 320 + 16d + k, raised to the Plien agents of die `d` (log 42, DEDUCED). -/
def State.raisePlien (s : State) (d k : Nat) : State :=
  s.modDie d (fun x => { x with raised := x.raised ++ [320 + 16 * d + k] })

/-- Lanes as a 128-bit mask (R362). -/
def laneMask (ls : List Nat) : Nat := ls.foldl (fun m l => m ||| (1 <<< l)) 0

/-- The lanes of a mask, in ascending order. -/
def maskLanes (m : Nat) : List Nat := (upto 128).filter (fun l => bit m l)

/-! ### Error banks (R416 to R418) -/

/-- A bank after a new error (R418): `uc` says that it is uncorrectable, `scrub` that scrub found it (R419). -/
def ErrorBank.add (b : ErrorBank) (kind addr : Nat) (uc scrub : Bool) : ErrorBank :=
  let st := b.stat.toNat
  let held := bit st 0
  let heldUc := bit st 1
  let ce := bits st 31 16
  let ce' := if uc then ce else min 65535 (ce + 1)
  let record := 1 + 2 * b2n uc + kind * 8 + 128 * b2n scrub + 65536 * ce'
  if !held then { stat := BitVec.ofNat 64 record, addr := BitVec.ofNat 64 addr }
  else if uc ∧ !heldUc then { stat := BitVec.ofNat 64 (record + bits st 51 32 * 2 ^ 32), addr := BitVec.ofNat 64 addr }
  else
    let low := bits st 15 0
    let ucs := if uc then min 255 (bits st 39 32 + 1) else bits st 39 32
    { b with stat := BitVec.ofNat 64 ((if uc ∧ !bit low 2 then low + 4 else low) + 65536 * ce' + ucs * 2 ^ 32 + bits st 51 40 * 2 ^ 40) }

/-- Record an error in a bank (R418). -/
def State.recordError (s : State) (b kind addr : Nat) (uc scrub : Bool) : State :=
  { s with banks := s.banks.modify b (fun k => k.add kind addr uc scrub) }

/-- Name the consuming context in a bank that holds a record (R417). -/
def State.consumedBy (s : State) (b ctx : Nat) : State :=
  { s with banks := s.banks.modify b (fun k => if k.stat.getLsbD 0 then
      { k with stat := BitVec.ofNat 64 (bits k.stat.toNat 39 0 + ctx % 4096 * 2 ^ 40) } else k) }

/-! ### Events to the host (R447, R448) -/

/-- Post an event record: its type, context, and detail bytes from byte 8 on. When the ring is full the event is dropped
and counted, and OVF is set (R447): as it is while EVSIZE is 0, and while it is another value that stops the ring (R437; log 56, DESIGN CHOICE). -/
def State.postEvent (s : State) (typ ctx : Nat) (details : List Byte) : State :=
  let b := s.bar0
  let size := b.evsize.toNat
  if size < 2 ∨ 4096 < size ∨ size &&& (size - 1) ≠ 0 ∨ (b.evtail - b.evhead).toNat = size then
    let lost := b.evlost.toNat % 65536
    { s with bar0 := { b with evlost := BitVec.ofNat 32 (2 ^ 31 + min 65535 (lost + 1)) } }
  else
    let rec32 := toBytesLE 1 typ ++ [0#8] ++ toBytesLE 2 ctx ++ List.replicate 4 0#8
      ++ (details ++ List.replicate 24 0#8).take 24
    { s with mem := s.mem.writeBytes (hostKey (b.evbase.toNat + 32 * (b.evtail.toNat % size))) rec32,
             bar0 := { b with evtail := b.evtail + 1#32 } }

/-! ### Taking a trap (R360 to R365) -/

/-- Bytes of a group's trap tile: F(w) = 256 + 8 × (32 + 16w) (R361). -/
def trapBytes (w : Nat) : Nat := 256 + 8 * (32 + 16 * w)

/-- The slice offset of the trap tile of the group at a place of a team: the team's first one, then one a group in ascending number (R361, R385). -/
def trapOffset (t : Team) (grp w : Nat) : Nat := t.trapt * 256 + grp * trapBytes w

/-- The place in its team of the group that has a number: they differ only for a group that has migrated, which is alone in its team (R294). -/
def Team.placeOf (t : Team) (num : Nat) : Nat := (t.groups.findIdx? (fun g => g.num == num)).getD num

/-- The D9 and L9 addresses of a trace's header; all ones where the kernel lacks the encoding (R301, R398). -/
def State.tracePcs (s : State) (ctx : Nat) (t : TRef) : Nat × Nat :=
  let none64 := 2 ^ 64 - 1
  match s.object? ctx t.handle t.handle, s.kernel? ctx t, s.trace? ctx t with
  | some o, some k, some e =>
    (if k.d9 then o.d9va + e.d9off else none64, if k.l9 then o.l9va + e.l9off else none64)
  | _, _, _ => (none64, none64)

/-- An instruction in flight that goes into the replay queue: it writes a register, its latency exceeds 1, and its result
is not yet available (R360, R364). -/
def Issued.inFlight (i : Issued) (now : Nat) : Bool := !i.writes.isEmpty && decide (1 < i.lat) && decide (now < i.start + i.lat)

/-- One replay entry as bytes (R364). -/
def replayBytes (w : Nat) (i : Issued) : List Byte :=
  let nsrc := (i.srcs.map (fun p => p.2.length)).foldl max 0
  toBytesLE 8 i.word.toNat ++ toBytesLE 1 i.off ++ toBytesLE 1 nsrc ++ List.replicate 6 0#8 ++ toBytesLE 16 (laneMask i.mask)
    ++ (upto w).flatMap (fun l => (upto 4).flatMap (fun j => toBytesLE 4 (nth ((tget i.srcs l).getD []) j 0#32).toNat))

/-- The counts of the frame header's bytes 0x1C to 0x1F (R362). A register takes its entry at its first write (R109): results in
flight, which the replay queue repeats, have written nothing (log 33, DEDUCED). The effects of lanes that have left are discarded (R255): they count
in no budget but PUTN, which counts issued instructions. -/
def frameCounts (e : Enc) (x : Exec) : Nat :=
  let regs := ((x.issued.flatMap (fun i => i.writes)).filterMap
    (fun p => match p.1.reg with | .v n => some n | _ => none)).eraseDups.length
  let most (f : Effect → Option (Nat × Nat)) : Nat :=
    (x.here.map (fun l => (x.buf.filterMap (fun b => f b.eff)).foldl (fun n p => if p.1 = l then n + p.2 else n) 0)).foldl max 0
  let stw := most (fun e => match e with
    | .store l _ _ d _ => some (l, if d.length = 8 then 2 else 1)
    | .accwr l .. => some (l, 1)
    | _ => none)
  let atom := most (fun e => match e with | .atom l _ => some (l, 1) | _ => none)
  let jobs := (x.buf.filter (fun b => match b.eff with
    | .group ls e => ls.any x.here.contains && (match e with | .job .. => true | .taskadd .. => true | .qtail .. => true | _ => false)
    | _ => false)).length
  let puts := (x.issued.filter (fun i => match wordOf (decodeWord e i.word) with | some (_, f) => f.dst.cls | none => false)).length
  let arr := x.buf.any (fun b => match b.eff with
    | .group ls e => ls.any x.here.contains && (match e with | .barArrive .. => true | .barSync .. => true | _ => false)
    | _ => false)
  (regs % 64) + stw % 32 * 64 + atom % 8 * 2048 + puts % 8 * 16384 + jobs % 4 * 131072 + b2n arr * 524288

/-- The frame header (R362) (log 33, DEDUCED). -/
def frameHeader (tr : Trap) (off : Nat) (restart skip l9 aborted : Bool) (nrep : Nat) (t : TRef) (pcs : Nat × Nat)
    (counts : Nat) (lanes : List Nat) : List Byte :=
  toBytesLE 2 tr.cause ++ toBytesLE 1 off
    ++ toBytesLE 1 (b2n restart + 2 * b2n skip + 4 * b2n l9 + 8 * b2n aborted + 16 * nrep)
    ++ toBytesLE 4 (t.idx % 2 ^ 17) ++ toBytesLE 8 pcs.1 ++ toBytesLE 8 pcs.2 ++ toBytesLE 4 t.handle ++ toBytesLE 4 counts
    ++ toBytesLE 16 (laneMask lanes) ++ toBytesLE 16 (laneMask tr.flanes) ++ toBytesLE 8 tr.info0 ++ toBytesLE 8 tr.info1
    ++ List.replicate 176 0#8

/-- Write bytes into a group's trap tile. -/
def State.writeTrapTile (s : State) (g : GRef) (at_ : Nat) (bs : List Byte) : State :=
  match s.team? g.core g.slot with
  | none => s
  | some t =>
    let w := (t.groups[g.grp]?).elim 16 (fun x => x.width)
    let key := sliceKey g.core (trapOffset t g.grp w + at_)
    { s with mem := s.mem.writeBytes key bs, poison := s.poison.filterMap (fun p => p.after key bs.length) }

/-- Read bytes of a group's trap tile. -/
def State.readTrapTile (s : State) (g : GRef) (at_ n : Nat) : List Byte :=
  match s.team? g.core g.slot with
  | none => []
  | some t =>
    let w := (t.groups[g.grp]?).elim 16 (fun x => x.width)
    s.mem.readBytes (sliceKey g.core (trapOffset t g.grp w + at_)) n

/-- Stop a context (R360): its teams are pre-empted, it runs nothing until the host resumes or destroys it, and Plien reports CTX_STOPPED. -/
def State.stopContext (s : State) (ctx : Nat) (g : GRef) (tr : Trap) (t : TRef) (off : Nat) : State :=
  ((s.modCtx ctx (fun c => { c with stopped := some tr.cause })).raiseTurn .preempt { a := ctx }).postEvent 1 ctx
    (toBytesLE 2 tr.cause ++ toBytesLE 2 g.core ++ toBytesLE 1 g.slot ++ toBytesLE 1 g.grp ++ [0#8, 0#8]
      ++ toBytesLE 4 t.idx ++ toBytesLE 1 off)

/-- The handler's first trace: TRACE and HANDLE of TRAPBASE; HANDLE 0 names the trapping group's own object (R372). -/
def handlerTrace (own : Nat) (kern : Nat) (tb : BitVec 64) : TRef :=
  let h := bits tb.toNat 62 32
  ⟨if h = 0 then own else h, if h = 0 ∨ h = own then kern else 0, bits tb.toNat 31 0⟩

/-- Lanes become pending at a trace (R251); a lane already pending there keeps nothing of its wait. -/
def Group.pendAt (g : Group) (ls : List Nat) (t : TRef) (now : Nat) : Group :=
  g.modLanes ls (fun l => { l with tr := t, since := now, held := none, bindCall := none })

/-- The code of a tile in a trace's mask (R93). -/
def maskCode (mask n : Nat) : Nat := bits mask (2 * n + 1) (2 * n)

/-- Whether a trace's mask makes its group hold a tile (R94): HELD counts groups, so a tile that the group holds already by `keep`, the mask
of its trapped trace, is not held twice; in handler mode t63 is the trap tile (R361). -/
def takesHold (hm : Bool) (keep mask n : Nat) : Bool := maskCode mask n != 0 && maskCode keep n == 0 && !(hm && n == 63)

/-- Release a group's holds on the tiles its trace's mask names (R94). -/
def Team.release (t : Team) (hm : Bool) (keep mask : Nat) : Team :=
  (upto 64).foldl (fun t n => if takesHold hm keep mask n then t.modTile n (fun x => { x with held := x.held - 1 }) else t) t

/-- The mask by which a group's trapped trace still holds tiles (R94, R365). -/
def Group.keptMask (g : Group) : Nat := (g.trapped.map (·.mask)).getD 0

/-- The holds that a group's trapped trace keeps on a tile: one or none (R94, R365). -/
def Group.keptHold (g : Group) (n : Nat) : Nat := if maskCode g.keptMask n = 0 then 0 else 1

/-- The tiles that a sequencer holds (R227): also the one whose HELD count a DRAIN waits for. -/
def Sequencer.holds (q : Sequencer) : List Nat := if q.waitsFor = 0 then q.held else (q.waitsFor - 1) :: q.held

/-- Whether a lane's frozen trace holds a return (R170): one that a handler's trace caused is applied between the handler's traces (log 52,
DEDUCED). -/
def Group.frozenFor (x : Group) (r : Return) : Bool :=
  !r.inHandler && (match x.trapped with | some e => e.here.contains r.lane | none => false)

/-- The place of a lane's oldest return that may be applied while the lane stands where it does (R170). -/
def Group.nextReturn (x : Group) (lane : Nat) : Option Nat :=
  if (match x.exec with | some e => e.here.contains lane | none => false) then none
  else x.returns.findIdx? (fun r => r.lane == lane && !x.frozenFor r)

/-- Whether a place is a uniform register. -/
def Place.isK (p : Place) : Bool := match p.reg with | .k _ => true | _ => false

/-- The register writes of an execution, oldest first. -/
def allWrites (x : Exec) : List (Place × Word) := x.issued.reverse.flatMap (fun i => i.writes)

/-- The entries of a core's load-value queue that a test keeps (R407). -/
def State.keepValues (s : State) (core : Nat) (keep : LoadValue → Bool) : State :=
  if (s.core core).ldq.isEmpty then s else s.modCore core (fun k => { k with ldq := k.ldq.filter keep })

/-- Change what a group's poisoned results in the TRS are; the other poisoned registers stay (R404). -/
def State.modTrs (s : State) (g : GRef) (f : RegPoison → Option RegPoison) : State :=
  if s.regPoison.isEmpty then s else { s with regPoison := s.regPoison.filterMap (fun p => if p.g = g ∧ 0 < p.trs then f p else some p) }

/-- Results in a group's TRS end with their execution, and their poison with them (R404). -/
def State.dropTrs (s : State) (g : GRef) : State :=
  s.modTrs g (fun p => if p.trs < 1000 then none else some p)

/-- The results of a group's execution that a trap freezes stay poisoned in the TRS (R365, R404). -/
def State.freezeTrs (s : State) (g : GRef) (fr : Option Exec) : State :=
  s.modTrs g (fun p => if 1000 ≤ p.trs then some p else match fr with
    | some x => if x.issued.any (fun i => i.off + 1 == p.trs) then some { p with trs := p.trs + 1000 } else none
    | none => none)

/-- End a group's execution: it holds no tile any longer (R94), nor the accumulators (R238), and its shadow's ends with it (R409) (log 33,
DEDUCED). -/
def State.endExec (s : State) (g : GRef) : State :=
  match s.group? g with
  | none => s
  | some grp =>
    match grp.exec with
    | none => s
    | some x =>
      (((s.dropTrs g).keepValues g.core (fun v => v.g != g)).modGroup g (fun y => { y with exec := none, trail := none })).modTeam g.core g.slot (fun t =>
        { t.release grp.hm grp.keptMask x.mask with accHold := t.accHold.erase g.grp })

/-- Drop a group's execution, whose effects are gone: where it buffered a uniform write, that is discarded with UDISC (R114)
(log 33, DEDUCED). -/
def State.dropExec (s : State) (g : GRef) : State :=
  match (s.group? g).bind (fun grp => grp.exec) with
  | none => s
  | some x =>
    (if (allWrites x).any (fun w => w.1.isK) then s.modTeam g.core g.slot (fun t => t.setSticky .udisc) else s).endExec g

/-- Drop a group's trapped execution and what it holds (R94, R365, R368). -/
def State.dropTrapped (s : State) (g : GRef) : State :=
  match (s.group? g).bind (fun grp => grp.trapped) with
  | none => s
  | some x =>
    let s := if (allWrites x).any (fun w => w.1.isK) then s.modTeam g.core g.slot (fun t => t.setSticky .udisc) else s
    ((s.modTrs g (fun p => if p.trs < 1000 then some p else none)).modGroup g (fun y => { y with trapped := none })).modTeam g.core g.slot (fun t =>
      { t.release false 0 x.mask with accHold := t.accHold.erase g.grp })

/-- Route a trap whose frame is written (R360). `lanes` are those of the trapped execution or head; `fr` is the frozen
execution, or none where no execution remains. -/
def State.routeTrap (s : State) (g : GRef) (tr : Trap) (t : TRef) (off : Nat) (lanes : List Nat) (fr : Option Exec) : State :=
  match s.team? g.core g.slot, s.group? g with
  | some tm, some grp =>
    let ctx := (s.ctx? tm.ctx).getD {}
    let brk : Bool := decide (108 ≤ tr.cause ∧ tr.cause < 112)
    let now := (s.core g.core).cycles
    let en := ctx.trapbase.getLsbD 63
    if grp.hm then
      let s := (s.dropExec g).modGroup g (fun x => { x with frame := true, doubled := true })
      (s.raisePlien (dieOf g.core) 1).stopContext tm.ctx g { tr with cause := 320 + 16 * dieOf g.core + 1 } t off
    else if brk ∧ ¬ en then
      (s.freezeTrs g fr).modGroup g (fun x => { x with exec := none, trail := none, trapped := fr, frame := true, hm := true, handler := tm.handle, handlerLanes := lanes, halt := .breakpoint })
    else if ¬ en then
      ((s.dropExec g).modGroup g (fun x => { x.pendAt lanes t now with frame := true })).stopContext tm.ctx g tr t off
    else
      (if fr.isNone then s.dropExec g else s.freezeTrs g fr).modGroup g (fun x =>
        { x.pendAt lanes (handlerTrace tm.handle tm.kernel ctx.trapbase) now with
          exec := none, trail := none, trapped := fr, frame := true, hm := true, doubled := false,
          handler := (handlerTrace tm.handle tm.kernel ctx.trapbase).handle, handlerLanes := lanes })
  | _, _ => s

/-- The core's clock reaches a cycle. -/
def State.clockTo (s : State) (core now : Nat) : State := s.modCore core (fun k => { k with cycles := now })

/-- Take a trap of a group's execution at an instruction whose issue the clock has reached (R360): the execution stops, results in flight go into the replay
queue and write nothing, the frame is written, and the trap is routed. `restart` is set for a trap at commit preparation,
whose replay queue is empty and whose execution is rolled back (R147) (log 33, DEDUCED). -/
def State.takeTrap (s : State) (g : GRef) (tr : Trap) (off : Nat) (skip restart : Bool) : State :=
  match s.team? g.core g.slot, s.group? g with
  | some tm, some grp =>
    match grp.exec with
    | none => s
    | some x =>
      let now := (s.core g.core).cycles
      let replay := if restart then [] else (x.issued.filter (fun i => i.inFlight now)).reverse.take 8
      let x' := { x with issued := x.issued.filter (fun i => !i.inFlight now), off := off }
      let e := s.encOf g
      let hdr := frameHeader tr off restart skip (e == .l9) false replay.length x.tr (s.tracePcs tm.ctx x.tr)
        (frameCounts e x') x.here
      let s := s.writeTrapTile g 0 (hdr ++ replay.flatMap (replayBytes grp.width))
      s.routeTrap g tr x.tr off x.here (if restart then none else some x')
  | _, _ => s

/-- Take a trap at a trace head: no execution starts, OFFSET is 0xFF, RESTART is 1, the replay queue is empty (R254, R358,
R362) (log 33, DEDUCED). -/
def State.takeHeadTrap (s : State) (g : GRef) (tr : Trap) (t : TRef) (lanes : List Nat) : State :=
  match s.team? g.core g.slot with
  | some tm =>
    let hdr := frameHeader tr 255 true false (s.encOf g == .l9) false 0 t (s.tracePcs tm.ctx t) 0 lanes
    (s.writeTrapTile g 0 hdr).routeTrap g tr t 255 lanes none
  | none => s

end Sys2Proof.Machine
end

