-- ==== Sys2Proof/Machine/Translate.lean ====
section
/-!
DEFINITION. Translation (R20 to R36): the walk and its checks in order, the caches, the pending-translation table, host
pages; and the writes that keep memory, poison and scope tags together.
-/
namespace Sys2Proof.Machine

/-! ### Writes at a home -/

/-- The bank of a poisoned accumulator word that some bytes of an accumulator meet (R404). -/
def Team.accHit (t : Team) (a e n : Nat) : Option Nat :=
  (t.accPoison.find? (fun p => decide (p.key < a * 65536 + e + n ∧ a * 65536 + e < p.key + p.size))).map (·.bank)

/-- Poison after bytes of an accumulator have been overwritten (R404). -/
def Team.accClean (t : Team) (a e n : Nat) : Team := { t with accPoison := t.accPoison.filterMap (fun p => p.after (a * 65536 + e) n) }

/-- Remove the scope tags of the 64-byte blocks that a write overlaps (R278). -/
def State.untag (s : State) (a n : Nat) : State :=
  { s with tags := s.tags.filter (fun t => decide (t.1 + 64 ≤ a ∨ a + n ≤ t.1)) }

/-- Write bytes at their home: a non-atomic write clears the scope tags it meets (R278). -/
def State.store (s : State) (a : Nat) (bs : List Byte) : State :=
  { (s.untag a bs.length) with mem := s.mem.writeBytes a bs, poison := s.poison.filterMap (fun p => p.after a bs.length) }

/-- The bytes of a little-endian number written at their home. -/
def State.storeLE (s : State) (a n v : Nat) : State := s.store a (toBytesLE n v)

/-- The poisoned granule that overlaps a range, if any (R404). -/
def State.poisonAt (s : State) (a n : Nat) : Option Poison :=
  s.poison.find? (fun p => decide (p.key < a + n ∧ a < p.key + p.size))

/-- Poison the granule of a key (R404). -/
def State.setPoison (s : State) (key size bank : Nat) : State :=
  { s with poison := { key := key, size := size, bank := bank } :: s.poison.filter (fun p => p.key != key) }

/-! ### The walk (R21 to R25) -/

/-- Bytes of one HBM stack (R24, log 6, DEDUCED). -/
def stackBytes : Nat := 64 * 10 ^ 9

/-- A 64-bit table entry of HBM. -/
def State.entry (s : State) (a : Nat) : Nat := s.mem.readLE (memKey .hbm a) 8

/-- Check 2 of R25 for a pointer entry at a level (R22). -/
def pointerFault (level e : Nat) : Option Nat :=
  if bits e 3 1 ≠ 0 ∨ bits e 11 5 ≠ 0 ∨ bits e 63 48 ≠ 0 ∨ (bit e 4 ∧ level ≠ 1) then some 129 else none

/-- Check 2 of R25 for a leaf of a page size (R23). -/
def leafFault (size e : Nat) : Option Nat :=
  if (bit e 2 ∧ ¬ bit e 1) ∨ bits e 11 9 ≠ 0 ∨ bit e 63 then some 129
  else if bits e 47 12 * 4096 % size ≠ 0 then some 130
  else if 4 ≤ bits e 8 6 then some 131
  else if 6 ≤ bits e 51 48 then some 132
  else if 12 ≤ bits e 56 52 then some 133
  else none

/-- The result of a walk: a cause or 0, the leaf that it reached, its entry's HBM address, the page's first address, its size. -/
abbrev WalkResult := Nat × DWord × Nat × Nat × Nat

/-- A walk that fails before it reaches a leaf. -/
def walkFail (cause : Nat) : WalkResult := (cause, 0#64, 0, 0, 0)

/-- The table address and shift of the walk's level. -/
structure WalkAt where
  level : Nat
  table : Nat
  gran : Bool
  deriving DecidableEq, Repr

/-- Walk from a table down (R21, R22), with checks 2 and 3 of R25; `fuel` levels at most. A poisoned entry fails check 2
with WALK_POISON (R464). A walk that fails at a leaf names the leaf and its page, of which a leaf with V = 0 says nothing (R23, R77). An entry
with V = 0 at level 3, 2 or 1 gives NOT_PRESENT too, whatever its other bits (log 56, DESIGN CHOICE). -/
def State.walkFrom (s : State) (va : Nat) : Nat → WalkAt → WalkResult
  | 0, _ => walkFail 129
  | fuel + 1, w =>
    let (idx, size) := match w.level with
      | 3 => (bits va 48 39, 2 ^ 39)
      | 2 => (bits va 38 30, 2 ^ 30)
      | 1 => (bits va 29 21, 2 ^ 21)
      | _ => if w.gran then (bits va 20 16, 2 ^ 16) else (bits va 20 12, 2 ^ 12)
    let at_ := w.table + 8 * idx
    if (s.poisonAt (memKey .hbm at_) 8).isSome then walkFail 156
    else
      let e := s.entry at_
      if !bit e 0 then (if w.level = 0 then (134, 0#64, at_, va / size * size, size) else walkFail 134)
      else if w.level = 3 ∨ (1 ≤ w.level ∧ bits e 3 1 = 0) then
        match pointerFault w.level e with
        | some c => walkFail c
        | none => s.walkFrom va fuel ⟨w.level - 1, bits e 47 12 * 4096, bit e 4⟩
      else match leafFault size e with
        | some c => (c, BitVec.ofNat 64 e, at_, va / size * size, size)
        | none => (0, BitVec.ofNat 64 e, at_, va / size * size, size)

/-- Walk a context's tables for an address (R21). -/
def State.walk (s : State) (ctx va : Nat) : WalkResult :=
  s.walkFrom va 4 ⟨3, ((s.ctx? ctx).getD {}).root, false⟩

/-- The page of an address, resident or not: its first address and its size. An address for which the walk reaches no leaf is taken as in
a page of 4 KiB (log 56, DESIGN CHOICE). -/
def State.pageAt (s : State) (ctx va : Nat) : Nat × Nat :=
  let (_, _, _, base, size) := s.walk ctx va
  if size = 0 then (va / 4096 * 4096, 4096) else (base, size)

/-! ### Accesses -/

/-- Who asks for a translation at a core (R31), as a number: `kind` is 0 for the fetch of a group, 1 for a lane's bind-table entry, 2 for a
lane's far atomic, 3 for an element of a job, 4 for successor work, 5 for a port of a team task queue, 6 for the packet of a hardware queue, 7
for a peer; `a` and `b` say which. -/
def asks (kind a b : Nat) : Nat := kind + 8 * a + 2 ^ 40 * b

/-- An access to translate: the core it belongs to and who asks in it, its context, its address, 0 read, 1 write, 2 atomic, 3 fetch (R77), the
KEYPERM that holds for it (R35), and whether its team is shadowed (R406). -/
structure Access where
  core : Nat
  who : Nat := 0
  ctx : Nat
  va : Nat
  acc : Nat
  keyperm : BitVec 64
  shadowed : Bool := false
  deriving DecidableEq, Repr

/-- What translating gives: the memory key and the leaf; a cause with the leaf's tier; or a wait, for a walk in flight, for an
ATS completion or for room in the pending-translation table. -/
inductive Translated where
  | ok (key : Nat) (leaf : DWord)
  | fail (cause tier : Nat)
  | wait (full : Bool)
  deriving DecidableEq, Repr

/-- The requester of an access (R31). -/
def Access.asker (a : Access) : Nat × Nat := (a.core, a.who)

/-- Whether an access writes (R25). -/
def Access.writes (a : Access) : Bool := a.acc == 1 || a.acc == 2

/-- TIER, GEOM, FMT and PK of a leaf (R23). -/
def leafTier (l : DWord) : Nat := bits l.toNat 8 6
/-- GEOM of a leaf (R23). -/
def leafGeom (l : DWord) : Nat := bits l.toNat 51 48
/-- FMT of a leaf (R23). -/
def leafFmt (l : DWord) : Nat := bits l.toNat 56 52

/-- Check 4 of R25 (R24), for the address itself. Which packages are in the load-store domain is State's `domain`. -/
def State.tierFault (s : State) (leaf : DWord) (addr : Nat) : Option Nat :=
  match leafTier leaf with
  | 0 => if bits addr 47 39 ≠ 0 ∨ stackBytes ≤ bits addr 35 0 then some 136 else none
  | 1 => if !s.featmask.getLsbD 1 then some 135 else if s.tier2Bytes ≤ addr then some 136 else none
  | 3 => if 143 < bits addr 47 40 ∨ !s.domain.contains (bits addr 47 40) then some 137 else none
  | _ => none

/-- Checks 5 and 6 of R25, and R26 and R406. R26 puts ATOM_GEOM at check 5 beside WRITE_PERM and gives the two no order: WRITE_PERM is
reported first (log 56, DESIGN CHOICE). R23's refusal of a NOSHADOW page has no place in R25's order: it comes after check 6 (log 56,
DESIGN CHOICE). -/
def Access.fault (a : Access) (leaf : DWord) : Option Nat :=
  let e := leaf.toNat
  let pk := bits e 61 57
  if a.acc = 0 ∧ ¬ bit e 1 then some 138
  else if a.writes ∧ ¬ bit e 2 then some 139
  else if a.acc = 2 ∧ leafGeom leaf ≠ 0 then some 142
  else if a.acc = 3 ∧ (¬ bit e 3 ∨ leafTier leaf ≠ 0) then some 140
  else if a.acc ≠ 3 ∧ a.keyperm.getLsbD (2 * pk) then some (160 + pk)
  else if a.writes ∧ a.keyperm.getLsbD (2 * pk + 1) then some 141
  else if a.shadowed ∧ bit e 62 ∧ a.acc ≠ 3 then some 152
  else none

/-- The place of an address in the page of a leaf (R23, R24). -/
def placeIn (leaf : DWord) (base va : Nat) : Nat := bits leaf.toNat 47 12 * 4096 + (va - base)

/-- The memory key of an address through its leaf (R24, log 3, log 13, DESIGN CHOICE). -/
def leafKey (leaf : DWord) (addr : Nat) : Nat :=
  match leafTier leaf with
  | 0 => memKey .hbm addr
  | 1 => memKey .tier2 addr
  | 2 => memKey .host addr
  | _ => memKey .peer addr

/-- The I/O die whose ATS cache serves a compute die: 0 IO0, 1 IO1 (R9, R32) (log 13, DESIGN CHOICE). -/
def ioDie (d : Nat) : Nat := Config.ioDie d % 2

/-- Whether a request for a host page is that of an access: one per compute die, context and 4 KiB frame (R31). -/
def AtsWait.matches_ (t : AtsWait) (a : Access) : Bool := t.die == dieOf a.core && t.ctx == a.ctx && t.frame == a.va / 4096

/-- Whether a request has no answer yet. -/
def AtsWait.open_ (t : AtsWait) : Bool := t.cause == 0 && t.given.isNone

/-- A requester joins a request that is outstanding (R31). -/
def AtsWait.joined (t : AtsWait) (who : Nat × Nat) : AtsWait := if t.requesters.contains who then t else { t with requesters := t.requesters ++ [who] }

/-- The requests that a requester no longer waits for: one that is answered and that nobody waits for is gone. -/
def State.leaveWaits (s : State) (which : AtsWait → Bool) (who : Nat × Nat) : State :=
  let less (t : AtsWait) : AtsWait := { t with requesters := t.requesters.filter (fun c => c != who) }
  { s with atsWaits := (s.atsWaits.map (fun t => if which t then less t else t)).filter (fun t => t.open_ || !t.requesters.isEmpty) }

/-- Entries of a die's pending-translation table in use (R31): a walk's, and that of a miss whose ATS request is outstanding. -/
def State.pending (s : State) (d : Nat) : Nat := (s.die d).ptt.length + (s.atsWaits.filter (fun t => t.die == d && t.open_)).length

/-- The ATS translation of a host page that an I/O die holds (R32): none where the host has disabled ATS. -/
def State.atsHeld (s : State) (d ctx page : Nat) : Option AtsEntry :=
  if s.atsEnabled then s.ats.find? (fun t => t.io == ioDie d && t.ctx == ctx && t.page == page) else none

/-- A message to the host (R32, R33, log 14, DESIGN CHOICE). -/
def State.tellHost (s : State) (dest : Nat) (bytes : List Byte) : State := { s with out := s.out ++ [⟨0, dest, bytes⟩] }

/-- Ask the host for a page, once for a pending entry and its requesters (R31, R32): an ATS request, or, where the host has disabled ATS, an
untranslated one. -/
def State.sendAts (s : State) (w : AtsWait) : State :=
  State.tellHost { s with atsWaits := s.atsWaits ++ [w] } 0 (toBytesLE 2 w.ctx ++ toBytesLE 8 w.page ++ toBytesLE 1 (b2n s.atsEnabled))

/-- An access waits for a host page: it joins the request of its entry that is outstanding, or takes an entry and sends one (R31, R32). -/
def State.askHost (s : State) (a : Access) (page : Nat) : Translated × State :=
  let mine (t : AtsWait) : Bool := t.matches_ a && t.open_
  if s.atsWaits.any mine then (.wait false, { s with atsWaits := s.atsWaits.map (fun t => if mine t then t.joined a.asker else t) })
  else if 256 ≤ s.pending (dieOf a.core) then (.wait true, s)
  else (.wait false, s.sendAts { die := dieOf a.core, ctx := a.ctx, frame := a.va / 4096, page := page, requesters := [a.asker] })

/-- What a host or peer answers beyond the walk: the ATS translation of a host page, or the host's own of an untranslated request, which
goes to every requester merged into it (R31, R32, R33); the peer's own checks and the state of its links (R450, R451, R464). -/
def State.beyondWalk (s : State) (a : Access) (leaf : DWord) (addr : Nat) : Translated × State :=
  let ok : Translated := .ok (leafKey leaf addr) leaf
  match leafTier leaf with
  | 2 =>
    let page := addr / 4096
    match s.atsHeld (dieOf a.core) a.ctx page with
    | some t => if (if a.writes then t.w else t.r) then (ok, s) else (.fail 143 2, s)
    | none =>
      let answered (t : AtsWait) : Bool := t.matches_ a && t.page == page && !t.open_ && t.requesters.contains a.asker
      match s.atsWaits.find? answered with
      | some t =>
        let s := s.leaveWaits answered a.asker
        match t.given with
        | some (r, w) => if (if a.writes then w else r) then (ok, s) else (.fail 143 2, s)
        | none => (.fail t.cause 2, s)
      | none => s.askHost a page
  | 3 =>
    let pk := bits addr 47 40
    if !s.links.any (fun l => l.up && (l.reach.contains pk || l.peers.contains pk)) then (.fail 150 3, s)
    else if !s.links.any (fun l => l.up && l.peers.contains pk) then (.fail 159 3, s)
    else
      match s.windows.find? (fun w => w.pack == pk && w.ctx == a.ctx) with
      | none => (.fail 137 3, s)
      | some w =>
        let off := bits addr 39 0
        if w.bytes ≤ off then (.fail 137 3, s)
        else match w.causes.find? (fun c => c.1 == off / 4096) with
          | some c => (.fail (if c.2 = 134 then 151 else c.2) 3, s)
          | none => (ok, s)
  | _ => (ok, s)

/-- Set A, and D for a write, by an OR into the leaf's entry as it stands at its home, before the access (R27). -/
def State.setAD (s : State) (a : Access) (at_ : Nat) : State :=
  let old := s.entry at_
  let new := old ||| 16 ||| (if a.writes then 32 else 0)
  if new = old then s else { s with mem := s.mem.writeLE (memKey .hbm at_) 8 new }

/-- Put a translation into a cache of a number of entries; the oldest is evicted when it is full (R30) (log 49, DEDUCED). -/
def cachePut (room : Nat) (e : TlbEntry) (l : List TlbEntry) : List TlbEntry :=
  (e :: l.filter (fun x => !(x.ctx == e.ctx && x.page == e.page))).take room

/-- The cached translation that serves an access (R27, R30). -/
def cached (a : Access) (l : List TlbEntry) : Option TlbEntry :=
  l.find? (fun e => e.ctx == a.ctx && decide (e.page ≤ a.va ∧ a.va < e.page + e.size) && (!a.writes || e.leaf.getLsbD 5))

/-- Use a walk's result for an access: checks 4 to 6 of R25, A and D, the caches, then the host or the peer. R27 sets D for a write that is
performed, and before it: the model sets A and D as soon as checks 4 to 6 have passed, also where the host, the peer or a later check then
stops the write (log 56, DESIGN CHOICE). A requester whose access fails waits for no host page. -/
def State.useWalk (s : State) (a : Access) (r : WalkResult) : Translated × State :=
  let (cause, leaf, at_, base, size) := r
  if cause ≠ 0 then (.fail cause (leafTier leaf), s.leaveWaits (fun t => t.matches_ a) a.asker)
  else
    let addr := placeIn leaf base a.va
    match (s.tierFault leaf addr).or (a.fault leaf) with
    | some c => (.fail c (leafTier leaf), s.leaveWaits (fun t => t.matches_ a) a.asker)
    | none =>
      let s := s.setAD a at_
      let leaf' : DWord := leaf ||| 16#64 ||| (if a.writes then 32#64 else 0#64)
      let e : TlbEntry := ⟨a.ctx, base, size, leaf', at_⟩
      let s := (s.modCore a.core (fun k => { k with tlb := cachePut 256 e k.tlb })).modDie (dieOf a.core)
        (fun d => { d with tlb := cachePut 16384 e d.tlb })
      s.beyondWalk a leaf' addr

/-- Use a cached translation for an access (R25, R27, R30): its own core's cache takes it; one that has not been used sets A. -/
def State.useCached (s : State) (a : Access) (e : TlbEntry) : Translated × State :=
  if !e.leaf.getLsbD 4 then s.useWalk a (0, e.leaf, e.entry, e.page, e.size)
  else
    let s := if (s.core a.core).tlb.contains e then s else s.modCore a.core (fun k => { k with tlb := cachePut 256 e k.tlb })
    s.beyondWalk a e.leaf (placeIn e.leaf e.page a.va)

/-- Whether a cached translation passes checks 4 to 6 of R25. One that does not is walked again: no failed check is cached, so a leaf that
has been loosened needs no invalidation (R29) (log 49, DEDUCED). -/
def State.passes (s : State) (a : Access) (e : TlbEntry) : Bool :=
  ((s.tierFault e.leaf (placeIn e.leaf e.page a.va)).or (a.fault e.leaf)).isNone

/-- The table that a pointer entry of level 3 or 2 names: none where the entry is no valid, well-formed pointer (R22). -/
def State.tableAt (s : State) (level at_ : Nat) : Option Nat :=
  let e := s.entry at_
  if (s.poisonAt (memKey .hbm at_) 8).isNone && bit e 0 && (level == 3 || bits e 3 1 == 0) && (pointerFault level e).isNone
  then some (bits e 47 12 * 4096) else none

/-- The level-2 pointer that a walk of a context from a level-2 table reads and may cache (R30). -/
def State.pointerBelow (s : State) (ctx va t2 : Nat) : List WalkPointer :=
  match s.tableAt 2 (t2 + 8 * bits va 38 30) with
  | some t1 => [⟨ctx, 2, va / 2 ^ 30, t1⟩]
  | none => []

/-- The pointers of levels 3 and 2 that a walk of a context from the root reads and may cache (R30). -/
def State.pointersOf (s : State) (ctx va : Nat) : List WalkPointer :=
  match s.tableAt 3 (((s.ctx? ctx).getD {}).root + 8 * bits va 48 39) with
  | some t2 => ⟨ctx, 3, va / 2 ^ 39, t2⟩ :: s.pointerBelow ctx va t2
  | none => []

/-- A die's walk cache takes pointers in; its 16,384 entries hold the newest (R30). -/
def Die.keepPointers (d : Die) (l : List WalkPointer) : Die := { d with pointers := (l ++ d.pointers).take 16384 }

/-- The pointer of a level that a die's walk cache holds for an address (R30). -/
def Die.pointer (d : Die) (ctx va level : Nat) : Option WalkPointer :=
  d.pointers.find? (fun p => p.ctx == ctx && p.level == level && p.range == va / (if level = 3 then 2 ^ 39 else 2 ^ 30))

/-- A die walks a context's tables for an address (R21, R30): from the lowest pointer that its walk cache holds, else from the root; the
pointers it reads are cached. -/
def State.dieWalk (s : State) (d ctx va : Nat) : WalkResult × State :=
  match (s.die d).pointer ctx va 2 with
  | some p => (s.walkFrom va 2 ⟨1, p.table, false⟩, s)
  | none => match (s.die d).pointer ctx va 3 with
    | some p => (s.walkFrom va 3 ⟨2, p.table, false⟩, s.modDie d (fun x => x.keepPointers (s.pointerBelow ctx va p.table)))
    | none => (s.walk ctx va, s.modDie d (fun x => x.keepPointers (s.pointersOf ctx va)))

/-- A requester joins a walk in flight (R31). -/
def PendingWalk.joined (p : PendingWalk) (who : Nat × Nat) : PendingWalk :=
  if p.requesters.contains who then p else { p with requesters := p.requesters ++ [who] }

/-- An access that no cached translation serves (R25, R31): a result delivered to its requester, an entry that it matches, of a walk in
flight or of a host page asked for, or a walk of its own, which takes an entry of the pending-translation table and frees it. -/
def State.translateMiss (s : State) (a : Access) : Translated × State :=
  let d := s.die (dieOf a.core)
  let frame := a.va / 4096
  match d.walked.find? (fun w => w.asker == a.asker && w.ctx == a.ctx && w.page == frame) with
  | some w => (s.modDie (dieOf a.core) (fun d => { d with walked := d.walked.filter (fun x => x != w) })).useWalk a w.result
  | none =>
    if d.ptt.any (fun p => p.ctx == a.ctx && p.page == frame) then
      (.wait false, s.modDie (dieOf a.core) (fun d => { d with ptt := d.ptt.map (fun p =>
        if p.ctx = a.ctx ∧ p.page = frame then p.joined a.asker else p) }))
    else if s.atsWaits.any (fun t => t.matches_ a && t.open_) then
      (.wait false, { s with atsWaits := s.atsWaits.map (fun t => if t.matches_ a && t.open_ then t.joined a.asker else t) })
    else if 256 ≤ s.pending (dieOf a.core) then (.wait true, s)
    else let (r, s) := s.dieWalk (dieOf a.core) a.ctx a.va; s.useWalk a r

/-- Translate an access (R25, R30, R31): its own core's cache, its die's, or a miss. -/
def State.translate (s : State) (a : Access) : Translated × State :=
  if 2 ^ 49 ≤ a.va then (.fail 128 0, s)
  else match (cached a (s.core a.core).tlb).or (cached a (s.die (dieOf a.core)).tlb) with
    | some e => if s.passes a e then s.useCached a e else s.translateMiss a
    | none => s.translateMiss a

/-! ### Fault records (R77) -/

/-- Post a fault record to a die's queue: a full ring drops it and sets FRQOVF, which raises FRQ_OVERFLOW (R77, R467). -/
def State.postRecord (s : State) (d : Nat) (r : FaultRecord) : State :=
  if 4096 ≤ (s.die d).frq.length then (s.modDie d (fun x => { x with frqovf := true })).raisePlien d 2
  else s.modDie d (fun x => { x with frq := x.frq ++ [r] })

/-- 1 while a die's queue has room for a record, which Plien will answer (R77). -/
def State.recordRoom (s : State) (d : Nat) : Nat := if (s.die d).frq.length < 4096 then 1 else 0

/-! ### Tiles in a slice (R83 to R86) -/

/-- The team and tile of a core that hold a slice byte (R91, R92). -/
def State.tileAt (s : State) (core off : Nat) : Option (Nat × Nat) :=
  ((s.core core).teams).findSome? (fun p =>
    (p.2.tiles.find? (fun t => decide (t.2.state ≠ .undef) && decide (t.2.base.toNat * 256 ≤ off)
      && decide (off < (t.2.base.toNat + t.2.len.toNat) * 256))).map (fun t => (p.1, t.1)))

/-- Whether a global slice address is out of range (R84): reserved bits, the core's number, the slice's size, or a core kind
the part lacks. -/
def State.sliceRange (s : State) (a : Nat) : Bool :=
  let core := a / 2 ^ 21
  decide (2 ^ 32 ≤ a) || decide (288 ≤ localOf core) || decide (sliceBytes core ≤ a % 2 ^ 21)
    || (isLcore core && !s.lcores)

end Sys2Proof.Machine
end

