-- ==== Sys2Proof/Machine/Tiles.lean ====
section
/-!
DEFINITION. Tiles: their descriptors (R86), the rules of a definition (R87), the state machine (R89), where an element lies
(R51 to R55, R153), and the tile mask (R93). No other agent writes a READY tile, and none reads one that is not OPEN (R99).
-/
namespace Sys2Proof.Machine

/-- The number of a tile state (R86). -/
def TileState.num : TileState → Nat
  | .undef => 0 | .empty => 1 | .filling => 2 | .ready => 3 | .draining => 4

/-- A descriptor as a 128-bit number (R86). -/
def Tile.word (t : Tile) : Nat :=
  t.base.toNat + t.len.toNat * 2 ^ 16 + t.fmt.toNat * 2 ^ 32 + t.geom.toNat * 2 ^ 37 + t.state.num * 2 ^ 41
    + b2n t.shared * 2 ^ 44 + b2n t.atomic * 2 ^ 45 + b2n t.post * 2 ^ 46 + b2n t.opened * 2 ^ 47 + t.pscope.toNat * 2 ^ 48
    + b2n t.recl * 2 ^ 51 + b2n t.relp * 2 ^ 52 + t.pend % 65536 * 2 ^ 64 + t.held % 32 * 2 ^ 80

/-- Bytes of a tile. -/
def Tile.bytes (t : Tile) : Nat := t.len.toNat * 256

/-- Slice offset of a tile's first byte. -/
def Tile.start (t : Tile) : Nat := t.base.toNat * 256

/-! ### Formats and blocks (R51 to R55) -/

/-- GK and GN of a geometry (R51). -/
def geomShape : Nat → Nat × Nat
  | 1 => (32, 32)
  | 2 => (64, 64)
  | 3 => (128, 128)
  | 4 => (32, 128)
  | 5 => (128, 32)
  | _ => (0, 0)

/-- Bits of an element of a FMT code (R44); 8 for raw bytes. -/
def fmtWidth (fmt : Nat) : Nat := match fmtFormat fmt with | some f => f.width | none => 8

/-- Elements of a 128-bit word (R53). -/
def perWord (fmt : Nat) : Nat := 128 / fmtWidth fmt

/-- Bytes of a block (R52, R54). -/
def blockBytes (fmt geom : Nat) : Nat :=
  let (gk, gn) := geomShape geom
  gk + gn + 16 * ((gk * gn + perWord fmt - 1) / perWord fmt)

/-- Whether a format is one of W3, W4, W6 (R44). -/
def isW (fmt : Nat) : Bool := 9 ≤ fmt && fmt ≤ 11

/-- Whether a nonzero GEOM may be paired with a FMT (R51). -/
def pairOk (fmt geom : Nat) : Bool := geom == 0 || !(fmt == 0 || fmt == 1 || (6 ≤ fmt && fmt ≤ 8))

/-- The cause of a format that no consumer may decode (R44, R51, R156). -/
def formatFault (fmt geom : Nat) : Option Nat :=
  if 12 ≤ fmt then some 133 else if 6 ≤ geom then some 132 else if !pairOk fmt geom then some 154 else none

/-- The elements of a range of bytes of a format (R153). -/
def elementCount (bytes fmt geom : Nat) : Nat :=
  if geom = 0 then (if isW fmt then bytes / 16 * perWord fmt else bytes * 8 / fmtWidth fmt)
  else let (gk, gn) := geomShape geom; bytes / blockBytes fmt geom * (gk * gn)

/-- Where an element lies: the byte of its 128-bit word, its first bit there, the first bit beyond the used slots of that
word, and, in a block, the block's first byte, its scale bytes, and the element's row and column scale (R52, R53). -/
structure ElementAt where
  word : Nat
  bit : Nat
  used : Nat
  block : Nat := 0
  nscale : Nat := 0
  row : Nat := 0
  col : Nat := 0
  deriving DecidableEq, Repr

/-- The place of element `e` in a range that starts at byte 0 (R52, R53, R153). -/
def elementAt (fmt geom e : Nat) : ElementAt :=
  let w := fmtWidth fmt
  let p := perWord fmt
  if geom = 0 then { word := 16 * (e / p), bit := e % p * w, used := p * w }
  else
    let (gk, gn) := geomShape geom
    let n := gk * gn
    let b := e / n * blockBytes fmt geom
    let i := e % n
    let last := (n + p - 1) / p - 1
    { word := b + gk + gn + 16 * (i / p), bit := i % p * w, used := (if i / p = last then n - last * p else p) * w,
      block := b, nscale := gk + gn, row := b + i / gn, col := b + gk + i % gn }

/-- Whether a 128-bit word of a W format has a spare bit or unused slot set (R56). -/
def spareSet (fmt : Nat) (at_ : ElementAt) (word : Nat) : Bool := isW fmt && decide (word / 2 ^ at_.used ≠ 0)

/-- The exact value of an element from its word and its block's scale bytes (R49 to R52): `scales` reads a byte. -/
def elementValue (fmt : Nat) (at_ : ElementAt) (word : Nat) (scales : List Byte) (row col : Byte) : Val :=
  match fmtFormat fmt with
  | none => .fin false (word / 2 ^ at_.bit % 256) 0
  | some f =>
    let v := f.decode (word / 2 ^ at_.bit % 2 ^ f.width)
    if at_.nscale = 0 then v
    else if scales.contains 255#8 then .nan
    else v.scale ((row.toNat : Int) + col.toNat - 254)

/-! ### Definition (R87, R157) -/

/-- Whether two ranges of 256-byte units overlap. -/
def unitsOverlap (a n b m : Nat) : Bool := decide (a < b + m) && decide (b < a + n)

/-- The tile that a TDEF of these operand values defines (R157). -/
def tileOf (t : Team) (place form : Nat) : Tile :=
  { base := BitVec.ofNat 13 (t.window + bits place 12 0), len := BitVec.ofNat 14 (bits place 29 16),
    fmt := BitVec.ofNat 5 (bits form 4 0), geom := BitVec.ofNat 4 (bits form 8 5), state := .empty,
    shared := bit form 9, atomic := bit form 10 }

/-- Whether a TDEF of tile `n` is valid (R87, R157) (log 35, DEDUCED). -/
def tdefValid (t : Team) (n place form : Nat) : Bool :=
  let off := bits place 12 0
  let len := bits place 29 16
  let fmt := bits form 4 0
  let geom := bits form 8 5
  bits place 15 13 == 0 && bits place 31 30 == 0 && bits form 31 11 == 0
    && decide (1 ≤ len ∧ len ≤ 8192) && decide (off + len ≤ t.wlen)
    && t.tiles.all (fun p => p.1 == n || p.2.state == .undef
        || !unitsOverlap (t.window + off) len p.2.base.toNat p.2.len.toNat)
    && (formatFault fmt geom).isNone && (geom == 0 || len * 256 % blockBytes fmt geom == 0)
    && (!bit form 10 || geom == 0)

/-! ### Transitions (R89) -/

/-- A tile becomes EMPTY: RELP, OPEN, RECL and POST are clear. -/
def Tile.toEmpty (t : Tile) : Tile :=
  { t with state := .empty, relp := false, opened := false, recl := false, post := false, doneFill := false }

/-- The rows of R89 for PEND = 0; a move to EMPTY waits for HELD = 0. -/
def Tile.settle (t : Tile) : Tile :=
  if t.state = .draining ∧ t.pend = 0 then
    if t.relp then (if t.held = 0 then t.toEmpty else t)
    else if !t.opened then { t with state := .ready }
    else if t.recl then { t with state := .ready, opened := false, recl := false }
    else t
  else t

/-- TILE_DEFERRED_EMPTY: the move to EMPTY that HELD > 0 had put off takes place (R89). -/
def Tile.deferred (t : Tile) : Tile :=
  if t.held = 0 ∧ t.state = .filling ∧ t.doneFill then t.toEmpty else t.settle

/-- A fill of the tile is released, or the tile is claimed (R89). -/
def Tile.fillReleased (t : Tile) : Tile := if t.state = .empty ∨ t.state = .ready then { t with state := .filling } else t

/-- A job that reads the tile is released or starts: PEND + 1, and a MOVE source sets RELP (R89). -/
def Tile.sourceReleased (move : Bool) (t : Tile) : Tile :=
  if t.state = .ready ∨ t.state = .draining then { t with state := .draining, pend := t.pend + 1, relp := t.relp || move } else t

/-- The fill completes, with FMT and GEOM where the source gives them (R36, R89): also where RELP is set, whose row names only RELP and POST
(log 56, DESIGN CHOICE). -/
def Tile.fillCompleted (fmt : Option (Nat × Nat)) (t : Tile) : Tile :=
  if t.state = .filling then
    let t := match fmt with
      | some (f, g) => { t with fmt := BitVec.ofNat 5 f, geom := BitVec.ofNat 4 g }
      | none => t
    if t.relp then (if t.held = 0 then t.toEmpty else { t with doneFill := true }) else { t with state := .ready }
  else t

/-- A job counted in PEND completes (R89). -/
def Tile.readCompleted (t : Tile) : Tile := { t with pend := t.pend - 1 }.settle

/-- TREL commits (R89). -/
def Tile.trel (t : Tile) : Tile :=
  match t.state with
  | .undef => t
  | .empty => { t with post := false }
  | .ready => { t with state := .empty, post := false }
  | .filling => { t with relp := true }
  | .draining => { t with relp := true }.settle

/-- TRECLAIM commits (R89). -/
def Tile.treclaim (t : Tile) : Tile := if t.state = .draining ∧ t.opened then { t with recl := true }.settle else t

/-- TPOST commits (R89). -/
def Tile.tpost (t : Tile) : Tile := if t.state = .ready then { t with post := true } else t

/-- A boundary of scope CORE or wider publishes a marked READY tile that no group but its own holds (R89, R94, R97); `own` counts the holds of the
group's own trapped trace. DOMAIN and SYSTEM publish as PACK does
(R91); what PSCOPE then reads is not stated: it keeps the boundary's own code, 6 or 7 (log 56, DESIGN CHOICE). -/
def Tile.publish (scope own : Nat) (t : Tile) : Tile :=
  if t.post ∧ t.state = .ready ∧ t.held ≤ own then
    { t with state := .draining, opened := true, pscope := BitVec.ofNat 3 scope, post := false }
  else t

/-- TDEF commits (R89) (log 35, DEDUCED). -/
def Team.tdef (t : Team) (n place form : Nat) : Team :=
  match (t.tile n).state with
  | .filling => t
  | .draining => t
  | _ => t.modTile n (fun x => { tileOf t place form with held := x.held, pscope := x.pscope })

/-! ### The tile mask (R93) -/

/-- Whether a tile is in a state its code allows (R93). -/
def codeAllows (code : Nat) (st : TileState) : Bool :=
  match code with
  | 0 => true
  | 1 => st == .ready || st == .draining
  | 2 => st == .ready
  | _ => st == .empty || st == .ready || st == .undef

/-- The tile a group sees under a number: in handler mode t63 is its trap tile (R361). -/
def groupTile (t : Team) (g : Group) (n : Nat) : Tile :=
  if g.hm ∧ n = 63 then
    { base := BitVec.ofNat 13 (trapOffset t (t.placeOf g.num) g.width / 256), len := BitVec.ofNat 14 (trapBytes g.width / 256), state := .ready }
  else t.tile n

/-- Whether every tile is in a state that a trace's mask allows (R93, R252). -/
def maskHolds (t : Team) (g : Group) (mask : Nat) : Bool :=
  (upto 64).all (fun n => codeAllows (maskCode mask n) (groupTile t g n).state)

/-- A group takes the holds of a trace's mask (R94). -/
def Team.hold (t : Team) (hm : Bool) (keep mask : Nat) : Team :=
  (upto 64).foldl (fun t n => if takesHold hm keep mask n then t.modTile n (fun x => { x with held := x.held + 1 }) else t) t

end Sys2Proof.Machine
end

