-- ==== Sys2Proof/Machine/Cards.lean ====
section
/-!
DEFINITION. Job cards (R67 to R70, R242, R421): their fields and checks, the tiles they name, their release to the Truss
(R72 to R75), and the tile transitions of a job's end (R80, R165). The engine a card runs on follows from its kind (R66).
-/
namespace Sys2Proof.Machine

/-- The fields of a job card (R67). -/
structure Card where
  kind : Nat
  stream : Nat
  ca : Nat
  scope : Nat
  esz : Nat
  rsv : Nat
  count : Nat
  src : Nat
  dst : Nat
  catgt : Nat
  fps : List Nat
  deriving DecidableEq, Repr

/-- Bytes `a` to `a + n − 1` of a list, as a number. -/
def leAt (bs : List Byte) (a n : Nat) : Nat := ofBytesLE ((bs.drop a).take n)

/-- Read a card from its 64 bytes (R67). -/
def cardOf (bs : List Byte) : Card :=
  let h := leAt bs 2 2
  { kind := leAt bs 0 1, stream := leAt bs 1 1, ca := bits h 2 0, scope := bits h 5 3, esz := bits h 8 6, rsv := bits h 15 9,
    count := leAt bs 4 4, src := leAt bs 8 8, dst := leAt bs 16 8, catgt := leAt bs 24 8,
    fps := (upto 4).map (fun n => leAt bs (32 + 8 * n) 8) }

/-- SPACE of an operand field (R68). -/
def opSpace (v : Nat) : Nat := bits v 63 62
/-- VALUE of an operand field (R68). -/
def opValue (v : Nat) : Nat := bits v 61 0

/-- Engine causes (R465): code 192 + 16d + k. -/
def engCause (core k : Nat) : Nat := 192 + 16 * dieOf core + k

/-- A declared footprint region (R69): its space, first byte, first byte beyond, and whether it is written. -/
structure Region where
  sp : Bool
  lo : Nat
  hi : Nat
  w : Bool
  deriving DecidableEq, Repr

/-- The region of a footprint field, where V = 1 (R69). -/
def regionOf (fp : Nat) : Option Region :=
  if bit fp 43 then some ⟨bit fp 42, bits fp 40 0 * 256, (bits fp 40 0 + bits fp 63 44) * 256, bit fp 41⟩ else none

/-- Kinds whose card gives a length in COUNT (R67): FILL, STORE, COPY, MOVE. -/
def linearKind (k : Nat) : Bool := 1 ≤ k && k ≤ 4

/-- Bytes of an element of a GATHER or SCATTER (R67). -/
def eszBytes (esz : Nat) : Nat := 4 * 2 ^ esz

/-- M, K and N of an NMV card (R242). -/
def nmvShape (c : Card) : Nat × Nat × Nat := (bits c.count 3 0 + 1, 32 * bits c.count 15 4, 32 * bits c.count 31 16)

/-- The memory side of a linear card, if it has one (R76): an operand of SPACE 0 or 2. -/
def memorySide (c : Card) : Option Nat :=
  if opSpace c.src ≠ 1 then some c.src else if opSpace c.dst ≠ 1 then some c.dst else none

/-- The elements of a job (R76, R243). -/
def cardElems (c : Card) : Nat :=
  if linearKind c.kind then
    match memorySide c with
    | some v => let a := opValue v; (a + c.count * 256 - 1) / 65536 - a / 65536 + 1
    | none => (c.count * 256 + 65535) / 65536
  else if c.kind = 5 ∨ c.kind = 6 then c.count
  else if c.kind = 7 then let ng := bits c.count 31 16; let u := (ng + 63) / 64; (ng + u - 1) / max 1 u
  else 1

/-- The cause of an operand field that a card may not hold (R68): JOB_FIELD, or ADDR_RANGE. R68 names no cause for a SPACE 1 operand with
bits above [5:0]: it is JOB_FIELD (log 56, DESIGN CHOICE). -/
def operandFault (core v : Nat) : Option Nat :=
  match opSpace v with
  | 0 => if bits v 61 49 ≠ 0 then some 128 else none
  | 1 => if bits v 61 6 ≠ 0 then some (engCause core 1) else none
  | 2 => none
  | _ => some (engCause core 1)

/-- Whether the spaces of SRC and DST are a pair that R68 allows for the kind. A SPACE 2 destination of COPY and MOVE names
another core. -/
def spacesOk (core : Nat) (c : Card) : Bool :=
  let s := opSpace c.src
  let d := opSpace c.dst
  match c.kind with
  | 1 => (s == 0 || s == 2) && d == 1
  | 2 => s == 1 && (d == 0 || d == 2)
  | 3 => s == 1 && (d == 1 || (d == 2 && opValue c.dst / 2 ^ 21 != core))
  | 4 => s == 1 && (d == 1 || (d == 2 && opValue c.dst / 2 ^ 21 != core))
  | 5 => s == 1 && d == 1
  | 6 => s == 1 && c.dst == 0
  | 7 => s == 1 && d == 1
  | _ => (s == 0 || s == 2) && c.dst == 0

/-- The bytes a card needs of a SPACE 1 source and destination (R67, R68, R242). -/
def tileNeeds (fmtA : Nat) (c : Card) : Nat × Nat :=
  if linearKind c.kind then (c.count * 256, c.count * 256)
  else match c.kind with
    | 5 => (c.count * 8, c.count * eszBytes c.esz)
    | 6 => (c.count * (8 + eszBytes c.esz), 0)
    | 7 => let (m, k, n) := nmvShape c; (m * k * fmtWidth fmtA / 8, 4 * m * n)
    | _ => (0, 0)

/-- The leaf of a page without any effect: none where it is not resident or malformed. -/
def State.leafOf (s : State) (ctx va : Nat) : Option DWord :=
  let (cause, leaf, _, _, _) := s.walk ctx va
  if cause = 0 then some leaf else none

/-- Bytes that B of an NMV card takes under a leaf (R242, R243). -/
def nmvBytes (c : Card) (fmt geom : Nat) : Nat :=
  let (_, k, n) := nmvShape c
  if geom = 0 then (if isW fmt then 16 * ((k * n + perWord fmt - 1) / perWord fmt) else k * n * fmtWidth fmt / 8)
  else let (gk, gn) := geomShape geom; (k / gk) * (n / gn) * blockBytes fmt geom

/-- The checks of an NMV card that need B's format (R242): whole blocks, and FP0 against the size of B. -/
def nmvShapeFault (c : Card) (fmt geom : Nat) : Option Nat :=
  let (_, k, n) := nmvShape c
  let (gk, gn) := geomShape geom
  if geom ≠ 0 ∧ (k % gk ≠ 0 ∨ n % gn ≠ 0) then some 1
  else if bits (nth c.fps 0 0) 63 44 * 256 < nmvBytes c fmt geom then some 2
  else none

/-- The body checks of an NMV card (R242): JOB_FIELD (1) or JOB_LENGTH (2). B's format is known when its page is resident; where it is not,
the elements make these checks (log 43, DEDUCED). R242 names no cause for an A tile whose FMT or GEOM it does not allow: it is JOB_FIELD
(log 56, DESIGN CHOICE). -/
def nmvFault (s : State) (ctx : Nat) (tm : Team) (c : Card) : Option Nat :=
  let (_, k, n) := nmvShape c
  let fp := nth c.fps 0 0
  let a := tm.tile (opValue c.src)
  let b := (s.leafOf ctx (bits fp 40 0 * 256)).map (fun l => (leafFmt l, leafGeom l))
  if k = 0 ∨ n = 0 ∨ ¬ bit fp 43 ∨ bit fp 41 ∨ bit fp 42 then some 1
  else if a.state ≠ .undef ∧ (a.geom ≠ 0 ∨ ¬ (a.fmt = 2 ∨ a.fmt = 4 ∨ a.fmt = 5)) then some 1
  else match b with
    | none => none
    | some (fmt, geom) => nmvShapeFault c fmt geom

/-- The check of a card when JOB executes (R67 to R70, R242, R421): the cause of the first check that fails. `tm` is the team
as the trace's earlier effects leave it. R67 names no cause for COUNT 0, or for a GATHER or SCATTER COUNT outside 1 to 64: it is JOB_FIELD
(log 56, DESIGN CHOICE). -/
def cardFault (s : State) (core : Nat) (tm : Team) (c : Card) : Option Nat :=
  let jf := some (engCause core 1)
  let jl := some (engCause core 2)
  let ca2 := tm.chan (bits c.catgt 3 0)
  let needs := tileNeeds (tm.tile (opValue c.src)).fmt.toNat c
  if c.kind = 0 ∨ 8 < c.kind then some (engCause core 0)
  else if 3 ≤ c.ca ∨ c.rsv ≠ 0 ∨ 5 ≤ c.esz ∨ (c.esz ≠ 0 ∧ c.kind ≠ 5 ∧ c.kind ≠ 6) then jf
  else if (linearKind c.kind ∧ c.count = 0) ∨ ((c.kind = 5 ∨ c.kind = 6) ∧ (c.count = 0 ∨ 64 < c.count)) then jf
  else if c.kind = 8 ∧ (4 ≤ c.count ∨ opValue c.src % 128 ≠ 0) then jf
  else if ¬ spacesOk core c then jf
  else match (operandFault core c.src).or (operandFault core c.dst) with
    | some f => some f
    | none =>
      if c.ca = 0 ∧ c.catgt ≠ 0 then jf
      else if c.ca = 1 ∧ (opSpace c.catgt = 1 ∨ opSpace c.catgt = 3 ∨ c.catgt % 8 ≠ 0) then jf
      else if c.ca = 1 ∧ opSpace c.catgt = 0 ∧ bits c.catgt 61 49 ≠ 0 then some 128
      else if c.ca = 2 ∧ (bits c.catgt 63 4 ≠ 0 ∨ ca2.mode = 0 ∨ ¬ ca2.peng) then jf
      else if c.fps.any (fun f => if bit f 43 then bits f 63 44 == 0 else f != 0) then jf
      else match (if c.kind = 7 then nmvFault s tm.ctx tm c else none) with
        | some k => some (engCause core k)
        | none =>
          if linearKind c.kind ∧ 64 < cardElems c then jl
          else if opSpace c.src = 1 ∧ (tm.tile (opValue c.src)).bytes < needs.1 then jl
          else if opSpace c.dst = 1 ∧ c.kind ≠ 6 ∧ (tm.tile (opValue c.dst)).bytes < needs.2 then jl
          else none

/-- The tiles of a team that `n` bytes of an operand name: one through SPACE 1, or every one that they meet through a SPACE 2 address of
its own core (R91). -/
def ownTiles (core : Nat) (tm : Team) (v n : Nat) : List Nat :=
  match opSpace v with
  | 1 => [opValue v % 64]
  | 2 =>
    let a := opValue v % 2 ^ 21
    if opValue v / 2 ^ 21 ≠ core then []
    else (tm.tiles.filter (fun p => decide (p.2.state ≠ .undef) && decide (p.2.start < a + n) && decide (a < p.2.start + p.2.bytes))).map (·.1)
  | _ => []

/-- The source tiles of a card on its own team: SRC, except of a COLL card, whose tiles it claims when it starts. -/
def cardSources (core : Nat) (tm : Team) (c : Card) : List Nat := if c.kind = 8 then [] else ownTiles core tm c.src (c.count * 256)

/-- The destination tiles of a card on its own team. -/
def cardDests (core : Nat) (tm : Team) (c : Card) : List Nat := if c.kind = 8 ∨ c.kind = 6 then [] else ownTiles core tm c.dst (c.count * 256)

/-- The tile transitions of a card's release (R89). -/
def Team.releaseTiles (core : Nat) (c : Card) (tm : Team) : Team :=
  let src := cardSources core tm c
  let dst := cardDests core tm c
  dst.foldl (fun tm n => tm.modTile n Tile.fillReleased) (src.foldl (fun tm n => tm.modTile n (Tile.sourceReleased (c.kind == 4))) tm)

/-! ### The Truss (R72 to R75) -/

/-- Whether a job has completed, for R73 and for its slot (R74, R75). -/
def JobState.completed : JobState → Bool
  | .done => true | .faulted => true | .cancelled => true | .absent => true
  | .waiting => false | .running => false | .partialDone => false

/-- Uncompleted jobs of a die (R74). -/
def Die.uncompleted (d : Die) : Nat := (d.truss.filter (fun p => !p.2.state.completed)).length

/-- The jobs of a die that have completed: a slot has been freed where this has grown (R74). -/
def Die.completions (d : Die) : Nat := d.order - d.uncompleted

/-- The first free slot from a number on, going round (R74) (log 11, DESIGN CHOICE). -/
def freeSlot (t : Table Job) : Nat → Nat → Nat
  | 0, n => n % 4096
  | k + 1, n =>
    match tget t (n % 4096) with
    | none => n % 4096
    | some j => if j.state.completed then n % 4096 else freeSlot t k (n + 1)

/-- A job handle (R74): slot, die, generation (log 11, DESIGN CHOICE). -/
def handleOf (die slot gen : Nat) : Nat := slot + die * 4096 + gen % 2 ^ 18 * 16384

/-- Whether two regions make an edge (R73). -/
def regionsClash (a b : Region) : Bool := a.sp == b.sp && decide (a.lo < b.hi) && decide (b.lo < a.hi) && (a.w || b.w)

/-- The slots of the earlier jobs that a new one of a stream waits for (R73). -/
def trussEdges (t : Table Job) (ctx : Nat) (c : Card) : List Nat :=
  (t.filter (fun p =>
    p.2.accepted && !p.2.state.completed && p.2.ctx == ctx && (cardOf p.2.card).stream == c.stream
      && ((cardOf p.2.card).fps.filterMap regionOf).any (fun a => (c.fps.filterMap regionOf).any (regionsClash a)))).map (·.1)

/-- Release a card to the Truss of a core's die: it takes a slot and a handle (R74) and is on its way until it is accepted (R73).
Which free slot it takes is a choice (log 11, DESIGN CHOICE). -/
def State.releaseCard (s : State) (core slot : Nat) (grp : Option Nat) (card : List Byte) (keyperm : BitVec 64)
    (region shadowed : Bool) : Nat × State :=
  match s.team? core slot with
  | none => (0, s)
  | some tm =>
    let d := dieOf core
    let (p, s) := s.pick 4096
    let n := freeSlot (s.die d).truss 4096 p
    let gen := match tget (s.die d).truss n with | some j => (j.gen + 1) % 2 ^ 18 | none => 1
    let c := cardOf card
    let mine (l : List Nat) : List (Nat × Nat) := l.map (fun n => (core, slot * 64 + n))
    let j : Job :=
      { gen := gen, card := card, state := .waiting, ctx := tm.ctx, core := core, slot := slot, grp := grp, keyperm := keyperm,
        elems := cardElems c, order := (s.die d).order, absent := decide (c.kind = 7) && !s.featmask.getLsbD 0,
        claimed := mine (cardDests core tm c), counted := mine (cardSources core tm c), shadowed := shadowed, region := region }
    let s := s.modDie d (fun x => { x with truss := tput x.truss n j, order := x.order + 1 })
    (handleOf d n gen, s.modTeam core slot (fun t => { t with jobs := t.jobs ++ [handleOf d n gen] }))

/-- A job that waits for no edge is RUNNING, and takes its place in the order in which the Truss makes jobs ready (R66, R73). -/
def Job.readied (j : Job) (stamp : Nat) : Job :=
  if j.accepted ∧ j.state = .waiting ∧ j.edges.isEmpty then { j with state := .running, ready := stamp } else j

/-- The Truss accepts a job: it records the edges to earlier jobs of the stream (R73). A card of an absent unit gets none: it is
due to complete at once (R70). -/
def State.acceptJob (s : State) (d n : Nat) : State :=
  s.modDie d (fun x => match tget x.truss n with
    | some j =>
      let edges := if j.absent then [] else trussEdges x.truss j.ctx (cardOf j.card)
      { x with truss := tput x.truss n (Job.readied { j with accepted := true, edges := edges } x.readied), readied := x.readied + 1 }
    | none => x)

/-- The job a handle names, of a context: none for a stale handle or another context's (R74, R165). -/
def State.job? (s : State) (ctx h : Nat) : Option (Nat × Nat × Job) :=
  let d := bits h 13 12
  let n := bits h 11 0
  match tget (s.die d).truss n with
  | some j => if j.gen = bits h 31 14 ∧ j.ctx = ctx then some (d, n, j) else none
  | none => none

/-- Change a job. -/
def State.modJob (s : State) (d n : Nat) (f : Job → Job) : State :=
  s.modDie d (fun x => match tget x.truss n with
    | some j => { x with truss := tput x.truss n (f j) }
    | none => x)

/-- A tile that a job has claimed or counted moves (R80, R91): its core, and slot × 64 + tile. -/
def State.modTileAt (s : State) (p : Nat × Nat) (f : Tile → Tile) : State :=
  s.modTeam p.1 (p.2 / 64) (fun t => t.modTile (p.2 % 64) f)

/-- FMT and GEOM that a tile takes when a job's fill of it completes (R89, R243): F32 of an NMV's result tile, else those of the job's source. -/
def Job.form (j : Job) (p : Nat × Nat) : Option (Nat × Nat) :=
  if (cardOf j.card).kind = 7 ∧ p.1 = j.core ∧ p.2 / 64 = j.slot then some (1, 0) else j.fmt

/-- The tile transitions of a job's end (R80 step 2): of every tile that it claimed, or that it counted itself in. -/
def State.endTiles (s : State) (j : Job) : State :=
  let s := j.claimed.foldl (fun s p => s.modTileAt p (Tile.fillCompleted (j.form p))) s
  j.counted.foldl (fun s p => s.modTileAt p Tile.readCompleted) s

/-- A job has ended: the edges to it are resolved, and jobs that wait for nothing become RUNNING (R73, R75), all of them ready at once. -/
def State.resolve (s : State) (d n : Nat) : State :=
  s.modDie d (fun x => { x with
    truss := x.truss.map (fun p => (p.1, Job.readied { p.2 with edges := p.2.edges.filter (fun k => k != n) } x.readied)), readied := x.readied + 1 })

/-- Put a job into an end state, with its tile transitions (R75, R79, R80, R165). -/
def State.endJob (s : State) (d n : Nat) (j : Job) (st : JobState) : State :=
  let s := (if j.moved then s else s.endTiles j).modJob d n
    (fun x => { x with state := st, edges := [], claimed := [], counted := [], moved := true, putWaits := false })
  let s := s.modTeam j.core j.slot (fun t => { t with jobs := t.jobs.filter (fun h => h != handleOf d n j.gen) })
  s.resolve d n

/-- Whether the element of a COLL job is in flight: its operation has begun and not ended. No other element is in flight between two
steps of the model. -/
def State.collective (s : State) (d n : Nat) : Bool := s.comms.any (fun c => (c.op.bind (·.job)) == some (d, n))

/-- The operation that a job's communicator carries out for it is over. -/
def State.endOp (s : State) (d n : Nat) : State :=
  { s with comms := s.comms.map (fun (c : Comm) => if c.op.bind (fun o => o.job) = some (d, n) then { c with op := none } else c) }

/-- JCANCEL of a job in a state (R165): an element in flight finishes first; none of a PARTIAL job is. -/
def State.cancelJob (s : State) (d n : Nat) (j : Job) : State :=
  if j.state.completed then s
  else if s.collective d n ∧ j.state ≠ .partialDone then s.modJob d n (fun j => { j with cancelled := true })
  else (s.endOp d n).endJob d n j .cancelled

end Sys2Proof.Machine
end

