-- ==== Sys2Proof/Machine/Contain.lean ====
section
/-!
DEFINITION. What ends more than a trace: the end of a team (R106, R432), the destruction of a context (R414, R446), and the
consumption of an uncorrectable error (R405, R413, R414).
-/
namespace Sys2Proof.Machine

/-- Zero a range of a core's slice, in 256-byte units (R432). -/
def State.clearSlice (s : State) (core base len : Nat) : State :=
  let a := sliceKey core (base * 256)
  { (s.untag a (len * 256)) with mem := s.mem.clear a (len * 256), poison := s.poison.filterMap (fun p => p.after a (len * 256)) }

/-- Units of a team's trap tiles (R361). -/
def Team.trapUnits (t : Team) : Nat := (t.groups.map (fun g => trapBytes g.width / 256)).sum

/-- Free a team: its window, trap tiles and queue storage are zeroed and its slot is empty; its accumulators and registers go
with it (R106, R432). -/
def State.removeTeam (s : State) (core slot : Nat) : State :=
  match s.team? core slot with
  | none => s
  | some t =>
    let s := ((s.clearSlice core t.window t.wlen).clearSlice core t.trapt t.trapUnits).clearSlice core t.storage t.slen
    let s := (s.keepValues core (fun v => !(v.g.core == core && v.g.slot == slot))).modCore core (fun k => { k with teams := tdel k.teams slot })
    let s := s.modDie (dieOf core) (fun d => { d with bindWait := d.bindWait.filter (fun w => !(w.g.core == core && w.g.slot == slot)) })
    { s with regPoison := s.regPoison.filter (fun p => !(p.g.core == core && p.g.slot == slot)) }

/-- Every resident team: core and slot. -/
def State.residents (s : State) : List (Nat × Nat) := s.cores.flatMap (fun c => c.2.teams.map (fun t => (c.1, t.1)))

/-- The resident teams of a context. -/
def State.teamsOf (s : State) (ctx : Nat) : List (Nat × Nat) :=
  s.residents.filter (fun p => match s.team? p.1 p.2 with | some t => t.ctx == ctx | none => false)

/-- Cancel the uncompleted jobs of a die that satisfy a test (R165, R446). -/
def State.cancelJobs (s : State) (d : Nat) (which : Job → Bool) : State :=
  (s.die d).truss.foldl (fun s p =>
    match tget (s.die d).truss p.1 with
    | some j => if which j then s.cancelJob d p.1 j else s
    | none => s) s

/-! ### The operation of an atomic (R167, R168) -/

/-- Bits of an atomic's type: 64 for B64, else 32. -/
def Atomic.width (a : Atomic) : Nat := if a.typ = 3 then 64 else 32

/-- The new value that an atomic leaves, from the old one (R167, R168). -/
def Atomic.result (a : Atomic) (old : Nat) : Nat :=
  let m := 2 ^ a.width
  let signed (v : Nat) : Int := (BitVec.ofNat 32 v).toInt
  if a.typ = 4 then
    match a.op with
    | 0 => f32.rne ((f32.decode old).add (f32.decode a.value))
    | 1 => f32.pickOf false old a.value
    | 2 => f32.pickOf true old a.value
    | _ => a.value
  else match a.op with
    | 0 => (old + a.value) % m
    | 1 => if a.typ = 0 then (if signed old ≤ signed a.value then old else a.value) else min old a.value
    | 2 => if a.typ = 0 then (if signed old ≤ signed a.value then a.value else old) else max old a.value
    | 3 => old &&& a.value
    | 4 => old ||| a.value
    | 5 => Nat.xor old a.value
    | 6 => a.value
    | _ => if old = a.cmp then a.value else old

/-- Bytes an atomic accesses. -/
def Atomic.bytes (a : Atomic) : Nat := a.width / 8

/-- The origin and scope of an atomic. -/
def SentAtomic.tag (p : SentAtomic) : ScopeTag := ⟨p.a.scope, p.g.core, p.team, p.guid, p.lane, 0⟩

/-- The scope tag of a home's block. -/
def State.tagAt (s : State) (key : Nat) : Option ScopeTag := tget s.tags (key / 64 * 64)

/-- Record a release on a block (R278). -/
def State.tag (s : State) (key : Nat) (t : ScopeTag) : State := { s with tags := tput s.tags (key / 64 * 64) t }

/-- Write at a home without clearing its tag: an atomic's write (R278). -/
def State.atomicWrite (s : State) (key n v : Nat) : State := { s with mem := s.mem.writeLE key n v }

/-- Perform a sent atomic of a context that ends: its home takes it, and nobody is left to receive what it returns (R29, R169). -/
def State.settleAtomic (s : State) (p : SentAtomic) : State :=
  if (s.poisonAt p.home p.a.bytes).isSome then s
  else
    let s := s.atomicWrite p.home p.a.bytes (p.a.result (s.mem.readLE p.home p.a.bytes))
    if p.a.order == 2 || p.a.order == 3 then s.tag p.home p.tag else s

/-! ### The end of a context (R446) -/

/-- An open operation of a communicator whose context is destroyed ends (R446): STATUS 3 is written where its descriptor can be
reached, with a COLL_EXCLUDED record (R465). -/
def State.abandon (s : State) (c : Comm) : State :=
  match c.op with
  | none => s
  | some o => match o.job with
    | none => s
    | some (d, n) => match tget (s.die d).truss n with
      | none => s
      | some j =>
        let a := opValue (cardOf j.card).src + 64
        let s := if opSpace (cardOf j.card).src = 2 then
            (if s.sliceRange a || (s.tileAt (a / 2 ^ 21) (a % 2 ^ 21)).isNone then s else s.storeLE (memKey .slice a) 1 3)
          else match s.translate { core := j.core, who := asks 3 j.order 65535, ctx := c.ctx, va := a, acc := 1, keyperm := j.keyperm, shadowed := j.shadowed } with
            | (.ok key _, s) => s.storeLE key 1 3
            | (_, s) => s
        let s := s.postRecord d { cause := engCause j.core 15, srck := 1, ctx := c.ctx, job := handleOf d n j.gen, va := (cardOf j.card).src,
                                  elem := 65535, acc := 1, core := j.core }
        s.endJob d n j .cancelled

/-- Reservations of gangs that wait no longer are dropped (R337): `gone` says of which queues. -/
def State.dropReservations (s : State) (gone : Nat → Bool) : State :=
  { s with dies := s.dies.map (fun (d : Nat × Die) => (d.1, { d.2 with reserved := d.2.reserved.filter (fun v => !gone (v.1 / 2 ^ 32)) })) }

/-- The destruction of a context, in the order of R446. Its sent atomics are performed at their homes before its translations go (R29). -/
def State.destroyContext (s : State) (ctx : Nat) : State :=
  let s := s.dropReservations (fun q => ((tget s.queues q).map (·.ctx)) == some ctx)
  let s := { s with queues := s.queues.filter (fun q => q.2.ctx != ctx), held := s.held.filter (fun h => h.ctx != ctx) }
  let teams := s.teamsOf ctx
  let s := (upto 4).foldl (fun s d => s.cancelJobs d (fun j => j.ctx == ctx)) s
  let s := teams.foldl (fun s p => s.modCore p.1 (fun k => if k.seqr.owner = some p.2 then { k with seqr := {} } else k)) s
  let s := (s.comms.filter (fun c => c.ctx == ctx)).foldl (fun s c => s.abandon c) s
  let s := (s.sent.filter (fun a => a.2.ctx == ctx)).foldl (fun s a => s.settleAtomic a.2) s
  let s := { s with comms := s.comms.filter (fun c => c.ctx != ctx), exports := s.exports.filter (fun e => e.ctx != ctx),
                    sent := s.sent.filter (fun a => a.2.ctx != ctx) }
  let s := teams.foldl (fun s p => s.removeTeam p.1 p.2) s
  let s := { s with
    cores := s.cores.map (fun (c : Nat × Core) => (c.1, { c.2 with tlb := c.2.tlb.filter (fun e => e.ctx != ctx), code := c.2.code.filter (fun e => e.ctx != ctx), succs := c.2.succs.filter (fun w => w.ctx != ctx) })),
    dies := s.dies.map (fun (d : Nat × Die) => (d.1, { d.2 with tlb := d.2.tlb.filter (fun e => e.ctx != ctx), pointers := d.2.pointers.filter (fun e => e.ctx != ctx), code := d.2.code.filter (fun e => e.ctx != ctx), ptt := d.2.ptt.filter (fun p => p.ctx != ctx), walked := d.2.walked.filter (fun p => p.ctx != ctx), gutter := d.2.gutter.filter (fun p => p.ctx != ctx) })),
    ats := s.ats.filter (fun e => e.ctx != ctx), atsWaits := s.atsWaits.filter (fun e => e.ctx != ctx) }
  { s with ctxs := tdel s.ctxs ctx, keySlots := tdel s.keySlots ctx }

/-- The bank of a UE_CONSUMED cause (R466); SDC_DETECTED is recorded in bank 15. -/
def bankOf (cause : Nat) : Nat := (cause - 256) / 4 % 16

/-- A group consumes an uncorrectable error with a cause (R413, R414): within an open region it unwinds; with none open,
Plien destroys its context and reports CTX_POISONED with the bank's record. `inRegion` says whether what consumed it
belongs to the group's open region. -/
def State.consume (s : State) (g : GRef) (cause : Nat) (inRegion : Bool) : State :=
  match s.team? g.core g.slot, s.group? g with
  | some tm, some grp =>
    if grp.contain.opened ∧ inRegion then
      let s := ((s.consumedBy (bankOf cause) tm.ctx).dropExec g).dropTrapped g
      let s := s.modGroup g (fun x => { x with exec := none, trapped := none, hm := false, frame := false, handlerLanes := [] })
      let s := s.cancelJobs (dieOf g.core) (fun j => j.region && j.core == g.core && j.slot == g.slot && j.grp == some g.grp && j.ctx == tm.ctx)
      let s := s.modCore g.core (fun k =>
        if k.seqr.region ∧ k.seqr.issuer = some g ∧ (k.seqr.state = .running ∨ k.seqr.state = .waiting)
        then { k with seqr := { k.seqr with state := .stopping } } else k)
      s.modGroup g (fun x =>
        { x.pendAt x.live { x.contain.htrace with handle := tm.handle, kern := tm.kernel } (s.core g.core).cycles with
          contain := { opened := false, htrace := x.contain.htrace, cause := cause, unw := true } })
    else
      let s := s.consumedBy (bankOf cause) tm.ctx
      let b := nth s.banks (bankOf cause) {}
      (s.postEvent 2 tm.ctx (toBytesLE 1 (bankOf cause) ++ List.replicate 7 0#8 ++ toBytesLE 8 b.stat.toNat ++ toBytesLE 8 b.addr.toNat)).destroyContext
        tm.ctx
  | _, _ => s

/-- What stops an execution at an instruction: the consumption of an error for a cause of R466, else a trap (R358, R360). -/
def State.stopAt (s : State) (g : GRef) (tr : Trap) (off : Nat) (skip restart : Bool) : State :=
  if 256 ≤ tr.cause ∧ tr.cause < 320 then s.consume g tr.cause true else s.takeTrap g tr off skip restart

/-- What stops a group at a trace head (R358). An error that a job or chain of no open region met has INFO1 1 in what the group owes
(R414). -/
def State.stopAtHead (s : State) (g : GRef) (tr : Trap) (t : TRef) (lanes : List Nat) : State :=
  if 256 ≤ tr.cause ∧ tr.cause < 320 then s.consume g tr.cause (tr.info1 == 0) else s.takeHeadTrap g tr t lanes

end Sys2Proof.Machine
end

