-- ==== Sys2Proof/Machine/Fold.lean ====
section
/-!
DEFINITION. The folded form of a chain (R315 to R318): the thread's current stage and the banks of the others; and the rolling
back of an execution to its head (R256).
-/
namespace Sys2Proof.Machine

/-- The stage of a group of a chain team (R312). -/
def Team.stageOf (t : Team) (grp : Nat) : Nat := nth t.stages grp 0

/-- Whether two teams hold groups of one team's chain: one of them was created by a migration out of the other, or both out of a third
(R294, R323). -/
def Team.sameChain (t u : Team) : Bool :=
  t.ctx == u.ctx && t.handle == u.handle && t.kernel == u.kernel && t.lqueue == u.lqueue && t.lslot == u.lslot && t.teamno == u.teamno
    && t.fromTask == u.fromTask && !t.stages.isEmpty && !u.stages.isEmpty

/-- The resident teams that hold a team's chain: itself, and those that migrations of its stages created (R313, R323). -/
def State.chainTeams (s : State) (core slot : Nat) (tm : Team) : List (Nat × Nat) :=
  s.residents.filter (fun p => (p.1 == core && p.2 == slot) || (match s.team? p.1 p.2 with | some t => tm.sameChain t | none => false))

/-- Change what every team of a chain holds of the chain's one record (R323). -/
def State.modChain (s : State) (core slot : Nat) (f : Team → Team) : State :=
  match s.team? core slot with
  | none => s
  | some tm => (s.chainTeams core slot tm).foldl (fun s p => s.modTeam p.1 p.2 f) s

/-- Where a folded chain's thread stands in its team. -/
def Team.threadPlace (t : Team) (fo : Fold) : Nat := (t.groups.findIdx? (fun g => g.num == fo.thread)).getD 0

/-- The group that carries a group's stage: itself, or in the folded form the thread (R315). -/
def Team.carrier (t : Team) (g : GRef) : GRef :=
  match t.folded, t.fold with
  | true, some fo => { g with grp := t.threadPlace fo }
  | _, _ => g

/-- The values a list of numbers names, put into a map under other keys. -/
def bankMove {n : Nat} (from_ into : SMap n) (ks : List (Nat × Nat)) : SMap n :=
  ks.foldl (fun m p => sput m p.2 (sget from_ p.1)) into

/-- The predicates of a lane as one byte, bit n = p n (R325). -/
def predByte (m : SMap 1) (lane : Nat) : BitVec 8 :=
  BitVec.ofNat 8 ((upto 7).foldl (fun a n => a + (sget m (lane * 8 + n)).toNat * 2 ^ n) 0)

/-- Bank a thread's current stage and bring in another (R315). -/
def Fold.switch (fo : Fold) (g : Group) (st : Nat) : Fold × Group :=
  if st = fo.stage then (fo, g)
  else
    let ls := upto g.width
    let old := fo.stage
    let fo := { fo with
      stage := st
      cont := ls.foldl (fun c l => tput c (old * 128 + l) (g.lane l)) fo.cont
      kbank := bankMove g.uregs fo.kbank ((upto 24).map (fun n => (n, old * 32 + n)))
      pbank := ls.foldl (fun m l => sput m (old * 128 + l) (predByte g.preds l)) fo.pbank
      sbank := bankMove g.sr fo.sbank (ls.map (fun l => (l, old * 128 + l))) }
    (fo, { g with
      lanes := ls.map (fun l => (tget fo.cont (st * 128 + l)).getD {})
      uregs := bankMove fo.kbank [] ((upto 24).map (fun n => (st * 32 + n, n)))
      preds := ls.foldl (fun m l => (upto 7).foldl (fun m n =>
        sput m (l * 8 + n) (BitVec.ofBool ((sget fo.pbank (st * 128 + l)).getLsbD n))) m) []
      sr := bankMove fo.sbank [] (ls.map (fun l => (st * 128 + l, l))) })

/-- Poison of the registers that a stage banks goes with them (R315, R404): it is kept under a group number past any group's. -/
def bankPoison (g : GRef) (old st : Nat) (p : RegPoison) : RegPoison :=
  match p.place.reg with
  | .v _ => p
  | .t _ => p
  | _ => if p.g = g then { p with g := { g with grp := 128 + old } } else if p.g = { g with grp := 128 + st } then { p with g := g } else p

/-- The thread's current stage becomes another (R317, R318) (log 40, DEDUCED). -/
def State.switchStage (s : State) (core slot st : Nat) : State :=
  match s.team? core slot with
  | none => s
  | some t =>
    match t.fold with
    | none => s
    | some fo => match t.groups[t.threadPlace fo]? with
      | none => s
      | some g =>
        if st = fo.stage then s
        else
          let r := fo.switch g st
          { s with regPoison := s.regPoison.map (bankPoison ⟨core, slot, t.threadPlace fo⟩ fo.stage st) }.setTeam core slot
            { t with fold := some r.1, groups := t.groups.set (t.threadPlace fo) r.2 }

/-- The stages that a group tries in order: a folded thread's from its current one on, cyclically; else only its own (R317)
(log 40, DEDUCED). -/
def stagesToTry (tm : Team) (grp : Group) : List Nat :=
  match tm.folded, tm.fold with
  | true, some fo =>
    let n := max 1 tm.stages.length
    if fo.thread = grp.num then (upto n).map (fun k => nth tm.stages ((tm.stages.idxOf fo.stage + k) % n) 0) else [fo.stage]
  | _, _ => [0]

/-- Roll lanes back to the head of a trace, held there by a cause or pending at once (R256); the execution ends. -/
def State.discard (s : State) (g : GRef) (lanes : List Nat) (held : Option Held) : State :=
  match (s.group? g).bind (fun grp => grp.exec) with
  | none => s
  | some x =>
    let now := max x.ready (s.core g.core).cycles
    (s.dropExec g).modGroup g (fun grp => grp.modLanes lanes (fun l => { l with tr := x.tr, since := now, held := held, bindCall := none }))

/-- In the folded form, an empty or a full slot hands control over and rolls the whole execution back (R318): to the
channel's producer, or to its consumer. -/
def State.handBack (s : State) (g : GRef) (lanes : List Nat) (tm : Team) (q : Nat) (producer : Bool) : State :=
  let c := tm.chan q
  (s.discard g lanes none).switchStage g.core g.slot (tm.stageOf (if producer then c.pgrp else c.cgrp))

end Sys2Proof.Machine
end

