-- ==== Sys2Proof/Machine/Operands.lean ====
section
/-!
DEFINITION. The operand forms: what each field of each opcode names (R119 to R128, R143), the checks of a word at issue in
the order of R140, and the values that sources deliver (R107, R111, R137).
-/
namespace Sys2Proof.Machine

/-- What a field's number names (R120, R121): a vector-class register, a pair, a predicate, a tile, an accumulator, a
barrier, a channel item of any size; or nothing, the field being unused. -/
inductive Kind where
  | unused | v | x | p | t | a | b | q
  deriving DecidableEq, Repr

/-- A position of an opcode's row: its kind, whether a channel may stand there, whether a temporary or k register may. -/
structure Pos where
  kind : Kind
  chan : Bool
  any : Bool
  deriving DecidableEq, Repr

/-- The row of an opcode in the map (R143): immediate form (0 none, 1 opt, 2 req), positions, whether DST is read as a
source, whether SC is a control field, the FN values accepted, how many low bits of an immediate may be set, whether a k
destination is ever allowed, the latency in DCORE cycles, whether it counts from the last beat, and whether the opcode is a
terminator. -/
structure OpInfo where
  imm : Nat := 0
  dst : Pos := ⟨.unused, false, false⟩
  sa : Pos := ⟨.unused, false, false⟩
  sb : Pos := ⟨.unused, false, false⟩
  sc : Pos := ⟨.unused, false, false⟩
  dstSrc : Bool := false
  ctrl : Bool := false
  fns : List Nat := [0]
  immBits : Nat := 20
  ref2 : Bool := false
  kdst : Bool := true
  lat : Nat := 1
  lastBeat : Bool := false
  term : Bool := false
  deriving DecidableEq, Repr

/-- A v position: a register, a broadcast or a channel (R120). -/
def pV : Pos := ⟨.v, true, true⟩
/-- An x position (R120). -/
def pX : Pos := ⟨.x, true, true⟩
/-- A v position without a channel. -/
def pVn : Pos := ⟨.v, false, true⟩
/-- An x position without a channel. -/
def pXn : Pos := ⟨.x, false, true⟩
/-- A destination that must be a vector register of the allotment (R161, R164, R170). -/
def pVr : Pos := ⟨.v, false, false⟩
/-- A destination pair of that kind. -/
def pXr : Pos := ⟨.x, false, false⟩
/-- A predicate. -/
def pP : Pos := ⟨.p, false, true⟩
/-- A tile register. -/
def pT : Pos := ⟨.t, false, true⟩
/-- An accumulator. -/
def pA : Pos := ⟨.a, false, true⟩
/-- A barrier. -/
def pB : Pos := ⟨.b, false, true⟩
/-- A channel, class 1 required (R121). -/
def pQ : Pos := ⟨.q, true, false⟩

/-- v, v, v|i. -/
def row3 (fns : List Nat) (lat : Nat) : OpInfo := { imm := 1, dst := pV, sa := pV, sb := pV, fns := fns, lat := lat }
/-- v, v. -/
def row2 (fns : List Nat) (lat : Nat) : OpInfo := { dst := pV, sa := pV, fns := fns, lat := lat }
/-- v, v, v, v. -/
def row4 (fns : List Nat) (lat : Nat) : OpInfo := { dst := pV, sa := pV, sb := pV, sc := pV, fns := fns, lat := lat }

/-- The opcode map (R143) with the latencies of R149, R154, R160, R174, R179, R202, R236, R237, R308, R310, R311, R374; 1
where an entry states none (R136). `fn` is FN[2:0], which selects the operand kinds of VOTE and of the .B64 forms. -/
def opInfo (op fn : Nat) : Option OpInfo :=
  match op with
  | 0x02 => some { imm := 2, immBits := 17, term := true }
  | 0x03 => some { imm := 2, immBits := 17, ref2 := true, term := true }
  | 0x04 => some { sa := pX, term := true }
  | 0x05 => some { term := true }
  | 0x06 => some { imm := 2, immBits := 17 }
  | 0x07 => some { imm := 2, immBits := 17 }
  | 0x08 => some {}
  | 0x10 => some (row3 [0, 1, 6] 1)
  | 0x11 => some (row3 [0, 1, 6] 1)
  | 0x12 => some (row3 [6] 4)
  | 0x13 => some (row3 [0, 1] 4)
  | 0x14 => some (row4 [6] 4)
  | 0x15 => some (row3 [0, 1] 1)
  | 0x16 => some (row3 [0, 1] 1)
  | 0x17 => some (row2 [0] 1)
  | 0x18 => some (row2 [0, 6] 1)
  | 0x19 => some { imm := 1, dst := pX, sa := pX, sb := pV, fns := [7], lat := 2 }
  | 0x1A => some { dst := pX, sa := pX, sb := pV, sc := pV, fns := [0, 1], lat := 4 }
  | 0x20 => some (row3 [6] 1)
  | 0x21 => some (row3 [6] 1)
  | 0x22 => some (row3 [6] 1)
  | 0x23 => some (row3 [6] 1)
  | 0x24 => some (row2 [6] 1)
  | 0x25 => some (row3 [6] 1)
  | 0x26 => some (row3 [0, 1] 1)
  | 0x27 => some (row3 [6] 1)
  | 0x28 => some (row3 [0, 1] 2)
  | 0x29 => some (row4 [6] 2)
  | 0x2A => some (row2 [6] 2)
  | 0x2B => some (row2 [6] 2)
  | 0x2C => some (row2 [6] 2)
  | 0x2D => some (row2 [6] 2)
  | 0x2E => some { imm := 1, dst := pP, sa := pV, sb := pV, fns := [0, 1, 2, 3, 4, 5] }
  | 0x2F => some { imm := 1, dst := pP, sa := pV, sb := pV, fns := [0, 1, 2, 3, 4, 5] }
  | 0x30 => some { dst := pV, sa := pP, sb := pV, sc := pV, fns := [6], kdst := false }
  | 0x31 => some (row2 [6] 1)
  | 0x32 => some { imm := 2, dst := pV, fns := [6] }
  | 0x33 => some { imm := 2, dst := pV, sa := pV, fns := [6], immBits := 16 }
  | 0x34 => some { dst := pV, sa := pV, fns := [6], kdst := false, lat := 2 }
  | 0x35 => some { imm := 2, dst := pV, fns := [6], lat := 2 }
  | 0x40 => some (row3 [0, 1, 2] 4)
  | 0x41 => some (row3 [0, 1, 2] 4)
  | 0x42 => some (row3 [0, 1, 2] 4)
  | 0x43 => some (row4 [0, 1, 2] 4)
  | 0x44 => some (row3 [0, 1, 2] 2)
  | 0x45 => some (row3 [0, 1, 2] 2)
  | 0x46 => some { imm := 1, dst := pP, sa := pV, sb := pV, fns := [0, 1, 2, 3, 4, 5, 6], lat := 2 }
  | 0x47 => some (row2 [0] 12)
  | 0x48 => some (row2 [0] 12)
  | 0x49 => some (row2 [0] 12)
  | 0x4A => some (row2 [0] 12)
  | 0x4B => some (row2 [0] 12)
  | 0x4C => some (row2 [0] 12)
  | 0x4D => some (row2 [0] 12)
  | 0x4E => some (row2 [0] 12)
  | 0x4F => some (row2 [0] 12)
  | 0x50 => some (row3 [0] 2)
  | 0x51 => some (row2 [0, 1, 2, 3] 2)
  | 0x52 => some (row2 [0] 2)
  | 0x53 => some { dst := pV, sa := pV, kdst := false, lat := 10, lastBeat := true }
  | 0x54 => some { dst := pV, sa := pV, fns := [0, 1, 2], kdst := false, lat := 6, lastBeat := true }
  | 0x55 => some (row2 [0, 1, 2, 3, 4] 2)
  | 0x70 => some { dst := pV, sa := pV, sb := pV, ctrl := true, fns := [0, 1, 2, 3, 4], lat := 4 }
  | 0x71 => some { dst := pV, sa := pV, sb := pV, fns := [0, 1, 2], lat := 2 }
  | 0x72 => some { dst := pV, sa := pV, sb := pV, fns := [0, 1, 2], lat := 2 }
  | 0x80 => some { dst := pP, sa := pP, sb := pP }
  | 0x81 => some { dst := pP, sa := pP, sb := pP }
  | 0x82 => some { dst := pP, sa := pP, sb := pP }
  | 0x83 => some { dst := pP, sa := pP }
  | 0x84 =>
    some { dst := if fn = 2 then pV else pP, sa := if fn = 3 then pV else pP, fns := [0, 1, 2, 3], kdst := false,
           lat := 6, lastBeat := true }
  | 0x85 => some { dst := pP, lat := 6, lastBeat := true }
  | 0x86 => some { imm := 1, dst := pV, sa := pV, sb := pV, fns := [6], lat := 6, lastBeat := true }
  | 0x87 => some { imm := 1, dst := pV, sa := pV, sb := pV, fns := [0, 1, 2, 3], kdst := false, lat := 6, lastBeat := true }
  | 0x88 => some { imm := 2, immBits := 10 }
  | 0xA0 => some { imm := 1, dst := if fn = 5 then pXn else pVn, sa := pT, sb := pV, fns := [0, 1, 2, 3, 4, 5], lat := 6 }
  | 0xA1 =>
    some { imm := 1, dst := if fn = 5 then pXn else pVn, sa := pT, sb := pV, dstSrc := true, fns := [1, 3, 4, 5] }
  | 0xA2 => some { dst := if fn = 5 then pXn else pVn, sa := pT, sb := pV, fns := [0, 1, 2, 3, 4, 5], lat := 6 }
  | 0xA3 => some { imm := 1, dst := pVn, sa := pT, sb := pV, fns := [0, 1], lat := 8 }
  | 0xA4 => some { imm := 1, dst := pVn, sa := pT, sb := pV, dstSrc := true, fns := [0, 1, 2, 3, 4] }
  | 0xA5 => some { dst := pT, sa := pV, sb := pV }
  | 0xA6 => some { dst := pT }
  | 0xA7 => some { dst := pT }
  | 0xA8 => some { dst := pT }
  | 0xA9 => some { imm := 2, dst := pV, sa := pT, immBits := 2, lat := 2 }
  | 0xB0 => some { sa := pX, sb := pV, ctrl := true, fns := [0, 1, 2, 3, 4, 5, 6] }
  | 0xB1 => some { dst := pVr, sa := pX, sb := pV, ctrl := true, fns := [0, 1, 2, 3, 4, 5, 6] }
  | 0xB2 => some { dst := pVr, sa := pX, sb := pX, ctrl := true }
  | 0xB3 => some { fns := [0, 1, 2, 3, 4, 5, 6, 7] }
  | 0xB4 => some { sa := pX }
  | 0xB5 => some { dst := pX, lat := 2 }
  | 0xB6 => some { sa := pX, sb := pV }
  | 0xC0 => some { imm := 1, dst := pB, sa := pV }
  | 0xC1 => some { imm := 1, dst := pB, sa := pV }
  | 0xC2 => some { imm := 1, dst := pB, sa := pV }
  | 0xC3 => some { dst := pVr, sa := pQ, lat := 2 }
  | 0xC4 => some { dst := pQ, sa := pVn }
  | 0xC5 => some { imm := 2, dst := pV, immBits := 4, lat := 2 }
  | 0xC6 => some { sa := pXn, sb := pVn }
  | 0xC7 => some {}
  | 0xC8 => some { sa := pXn, sb := pVn }
  | 0xC9 => some { dst := pVr, sa := pXn }
  | 0xCA => some { sa := pXn }
  | 0xD0 => some { dst := pVr, sa := pT, sb := pV }
  | 0xD1 => some { dst := pVr, sa := pV }
  | 0xD2 => some { sa := pV }
  | 0xD3 => some { sa := pT, sb := pV }
  | 0xD4 => some { dst := pV, lat := 2 }
  | 0xD5 => some {}
  | 0xD6 => some { imm := 1, dst := pV, sa := pA, sb := pV, lat := 6 }
  | 0xD7 => some { imm := 1, dst := pA, sa := pT, sb := pV }
  | 0xD8 => some { imm := 2, immBits := 17, ref2 := true, fns := [0, 1], term := true }
  | 0xD9 => some {}
  | 0xDA => some {}
  | 0xDB => some { dst := pV, lat := 2 }
  | 0xE0 => some { imm := 2, immBits := 4 }
  | 0xE1 => some {}
  | 0xE2 => some { imm := 1, immBits := 17 }
  | 0xE3 => some { imm := 2, dst := pVn, immBits := 9, lat := 2 }
  | 0xE4 => some { imm := 2, sa := pV, immBits := 9 }
  | 0xE5 => some { imm := 2, immBits := 17 }
  | 0xE6 => some {}
  | 0xE7 => some {}
  | _ => none

/-- The latency of a result on a core, in its cycles: the row's; on an LCORE a local-slice load takes 4 (R149), LDF 6 (R154) and an F32 FMA
3 (R13), and for the rest the spec states no figure but the DCORE's (log 7, DEDUCED). -/
def latencyOn (core op fn : Nat) (r : OpInfo) : Nat :=
  if !isLcore core then r.lat
  else if op = 0xA0 ∨ op = 0xA2 then 4
  else if op = 0xA3 then 6
  else if op = 0x43 ∧ fn % 8 = 0 then 3
  else r.lat

/-- The opcodes a legacy decoder does not have (R402). -/
def legacyAbsent (e : Enc) (op : Nat) : Bool :=
  (e == .d8 || e == .d7) && (op == 0x71 || op == 0x72 || (0xD8 ≤ op && op ≤ 0xDB) || op == 0xE5 || op == 0xE6)

/-- The row of a word's opcode under its decoder. -/
def rowOf (op : Nat) (f : Fields) : Option OpInfo :=
  if legacyAbsent f.enc op then none else opInfo op (f.fn.toNat % 8)

/-- Whether the word takes its immediate form (FN[3] = 1 in an opcode that has one). -/
def immForm (r : OpInfo) (f : Fields) : Bool := r.imm != 0 && f.fn.getLsbD 3

/-- Whether FN is accepted by the opcode (R123, R143, R402): check 2 of R140. -/
def fnAccepted (op : Nat) (r : OpInfo) (f : Fields) : Bool :=
  let lo := f.fn.toNat % 8
  if op = 0xB0 ∨ op = 0xB1 then f.fn.toNat < 7
  else
    r.fns.contains lo
    && (match r.imm with
        | 0 => !f.fn.getLsbD 3
        | 1 => !(f.fn.getLsbD 3 && (0x40 ≤ op && op ≤ 0x45) && lo != 0)
        | _ => f.fn.getLsbD 3)
    && !((f.enc == .d8 || f.enc == .d7) && op == 0x55 && 2 ≤ lo)

/-- What a field names once read: nothing, a register, a pair, a channel, a tile, an accumulator, a barrier. -/
inductive Operand where
  | none
  | reg (r : Reg)
  | pair (lo hi : Reg)
  | chan (q : Nat) (peek : Bool)
  | tile (n : Nat)
  | acc (n : Nat)
  | bar (n : Nat)
  deriving DecidableEq, Repr

/-- The register a class 0 number of a v position names (R120, R128); none where the number names none (R402). -/
def vReg (e : Enc) (n : Nat) : Option Reg :=
  match e with
  | .l9 => if n < 40 then some (.v n) else if n < 48 then some (.t (n - 40)) else if n < 64 then some (.k (n - 48)) else none
  | .d7 => if n < 128 then some (.v n) else if n < 216 then none else if n < 232 then some (.t (n - 216)) else some (.k (n - 232))
  | _ => if n < 216 then some (.v n) else if n < 232 then some (.t (n - 216)) else some (.k (n - 232))

/-- Whether a register is a plain vector register of the allotment. -/
def Reg.isV : Reg → Bool
  | .v _ => true
  | _ => false

/-- Whether two registers of a pair are of one kind (R120). -/
def sameKind : Reg → Reg → Bool
  | .v _, .v _ => true
  | .t _, .t _ => true
  | .k _, .k _ => true
  | _, _ => false

/-- Read one field (R119 to R121); the number k of ILLEGAL_OPERAND where it is refused. `own` is the k of the field itself,
`isDst` whether it is DST (which has no p7 and no peek). -/
def readField (e : Enc) (p : Pos) (own : Nat) (isDst : Bool) (o : Opnd) : Except Nat Operand :=
  let n := o.num.toNat
  match p.kind with
  | .unused => if o.cls ∨ o.peek ∨ n ≠ 0 then .error own else .ok .none
  | .q => if !o.cls ∨ 15 < n then .error 11 else .ok (.chan n o.peek)
  | .v =>
    if o.cls then (if !p.chan ∨ 15 < n then .error 11 else .ok (.chan n o.peek))
    else if o.peek then .error own
    else match vReg e n with
      | none => .error own
      | some r => if p.any ∨ r.isV then .ok (.reg r) else .error own
  | .x =>
    if o.cls then (if !p.chan ∨ 15 < n then .error 11 else .ok (.chan n o.peek))
    else if o.peek then .error own
    else match vReg e n with
      | none => .error own
      | some a =>
        if !p.any ∧ !a.isV then .error own
        else if n % 2 = 1 then .error 10
        else match vReg e (n + 1) with
          | none => .error own
          | some b => if sameKind a b then .ok (.pair a b) else .error 10
  | .p =>
    if o.cls then .error 11 else if o.peek ∨ 7 < n ∨ (isDst ∧ n = 7) then .error own else .ok (.reg (.p n))
  | .t => if o.cls then .error 11 else if o.peek ∨ 63 < n then .error own else .ok (.tile n)
  | .a => if o.cls then .error 11 else if o.peek ∨ 3 < n then .error own else .ok (.acc n)
  | .b => if o.cls then .error 11 else if o.peek ∨ 15 < n then .error own else .ok (.bar n)

/-- The operands of a word. -/
structure Operands where
  dst : Operand
  sa : Operand
  sb : Operand
  sc : Operand
  deriving DecidableEq, Repr

/-- The control field of an opcode marked c (R125): D9 bits [13:4], or L9 IMMX[9:0]. -/
def ctrlField (f : Fields) : Nat :=
  match f.enc with
  | .l9 => f.immx.toNat % 1024
  | _ => b2n f.sc.cls * 512 + b2n f.sc.peek * 256 + f.sc.num.toNat

/-- The immediate as a 32-bit value, sign-extended (R123, R127, R176). -/
def immWord (f : Fields) : Word :=
  match f.enc with
  | .l9 => (BitVec.ofNat 17 (immField f)).signExtend 32
  | _ => (BitVec.ofNat 20 (immField f)).signExtend 32

/-- The immediate of a floating-point operand: IMM in bits [31:12] of an F32 value (R123); L9's 17 bits are sign-extended to
the 20 of D9 (R127). -/
def immFloat (f : Fields) : Word :=
  match f.enc with
  | .l9 => ((BitVec.ofNat 17 (immField f)).signExtend 20).setWidth 32 <<< 12
  | _ => BitVec.ofNat 32 (immField f * 4096)

/-- The second trace reference of a terminator (R124): DST, SA (and SC[4:0] in L9) as one 17-bit number. -/
def secondRef (f : Fields) : Nat :=
  match f.enc with
  | .l9 => (f.dst.num.toNat % 64) * 2048 + (f.sa.num.toNat % 64) * 32 + f.sc.num.toNat % 32
  | _ => (f.dst.num.toNat % 128) * 1024 + b2n f.sa.cls * 512 + b2n f.sa.peek * 256 + f.sa.num.toNat

/-- Zero fields. -/
def opndZero (o : Opnd) : Bool := !o.cls && !o.peek && o.num == 0#8

/-- The opcodes whose L9 form needs SC, and so the extension word (R127). -/
def needsSc (r : OpInfo) : Bool := r.sc.kind != .unused

/-- Whether a control register has 64 bits (R370). -/
def csrWide (n : Nat) : Bool := n == 9 || n == 10 || n == 11 || decide (16 ≤ n)

/-- Errors of the fields that an immediate replaces, of the control field, and of what only the extension word carries
(R118, R123 to R127); each the k it names. R127 and R461 do not say which field a bare L9 word names that needs its extension: it is IMM, k 8, for
an immediate form, CTRL, k 9, for an opcode marked c, and SC, k 6, for one that needs SC (log 56, DESIGN CHOICE). -/
def formErrors (op : Nat) (r : OpInfo) (f : Fields) : List Nat :=
  let imm := immForm r f
  let l9 := f.enc == .l9
  let immv := immField f
  let bare := l9 && !f.ext
  (if bare && imm then [8] else [])
  ++ (if bare && r.ctrl then [9] else [])
  ++ (if bare && needsSc r then [6] else [])
  ++ (if imm && decide (2 ^ r.immBits ≤ immv) then [8] else [])
  ++ (if imm && op == 0x35 && decide (8 ≤ immv) then [8] else [])
  ++ (if (op == 0xE3 || op == 0xE4) && imm && (decide (0x13 < immv % 256) || (bit immv 8 && !csrWide (immv % 256))) then [8] else [])
  ++ (if imm && op == 0x88 && (decide (23 < immv % 32) || decide (23 < immv / 32 % 32)) then [8] else [])
  ++ (if imm && l9 && f.ext && (f.sb.cls || f.sb.peek) then [5] else [])
  ++ (if imm && l9 && f.ext && !r.ref2 && !opndZero f.sc then [6] else [])
  ++ (if r.ref2 && l9 && (f.dst.cls || f.sa.cls || f.sa.peek || f.sc.cls || f.sc.peek || f.sc.num.getLsbD 5) then [8] else [])
  ++ (if r.ref2 && !l9 && (f.dst.cls || f.dst.num.getLsbD 7) then [8] else [])
  ++ (if l9 && f.ext && !imm && !r.ctrl && f.immx != 0#11 then [8] else [])
  ++ (if l9 && r.ctrl && f.immx.getLsbD 10 then [8] else [])
  ++ (if l9 && r.ctrl && !opndZero f.sc then [6] else [])
  ++ (if (op == 0xE2 || op == 0xC0 || op == 0xC1 || op == 0xC2) && imm && !opndZero f.sa then [4] else [])

/-- The control-field checks of CVT (R125, R219, R402) and of the atomics (R125, R167, R171). -/
def ctrlErrors (op : Nat) (f : Fields) : List Nat :=
  let c := ctrlField f
  if op = 0x70 then
    let src := c % 16
    let dst := c / 16 % 16
    let ovf := c / 256
    let legacy := f.enc == .d8 || f.enc == .d7
    let wide (x : Nat) : Bool := x == 0 || x == 1 || x == 2 || x == 7 || x == 8 || x == 9 || x == 10
    (if 14 ≤ src ∨ 14 ≤ dst then [9] else [])
    ++ (if legacy && ((11 ≤ src && src ≤ 13) || (11 ≤ dst && dst ≤ 13)) then [9] else [])
    ++ (if ovf = 3 then [9] else [])
    ++ (if ovf = 1 ∧ dst ≠ 4 then [9] else [])
    ++ (if ovf = 2 ∧ dst ≠ 3 then [9] else [])
    ++ (if !opndZero f.sb && (wide src == wide dst) then [9] else [])
  else
    let typ := c / 32 % 8
    let fn := f.fn.toNat
    (if 5 ≤ typ then [9] else [])
    ++ (if c / 256 ≠ 0 then [9] else [])
    ++ (if op ≠ 0xB2 ∧ (fn = 1 ∨ fn = 2) ∧ (typ = 2 ∨ typ = 3) then [9] else [])
    ++ (if op ≠ 0xB2 ∧ (fn = 3 ∨ fn = 4 ∨ fn = 5) ∧ typ = 4 then [9] else [])
    ++ (if op = 0xB2 ∧ typ = 4 then [9] else [])

/-- The positions of a word: an atomic's .B64 type makes pairs of its value and destination, and CAS takes compare and new
value from a pair, or from a quad for .B64 (R166, the encoding of atomics). -/
def positions (op : Nat) (r : OpInfo) (f : Fields) : OpInfo :=
  let wide := ctrlField f / 32 % 8 == 3
  if op = 0xB0 ∧ wide then { r with sb := pX }
  else if op = 0xB1 ∧ wide then { r with dst := pXr, sb := pX }
  else if op = 0xB2 ∧ wide then { r with dst := pXr }
  else if op = 0x70 ∧ opndZero f.sb then { r with sb := ⟨.unused, false, false⟩ }
  else r

/-- The upper pair of a quad: registers n + 2 and n + 3 of the quad whose lower pair is given (CAS.B64). -/
def quadHigh : Operand → Operand
  | .pair (.v a) (.v b) => .pair (.v (a + 2)) (.v (b + 2))
  | .pair (.t a) (.t b) => .pair (.t (a + 2)) (.t (b + 2))
  | .pair (.k a) (.k b) => .pair (.k (a + 2)) (.k (b + 2))
  | _ => .none

/-- Read every field of a word (R119 to R124); the k of each field refused. -/
def readFields (op : Nat) (r : OpInfo) (f : Fields) : Operands × List Nat :=
  let r := positions op r f
  let imm := immForm r f
  let un : Pos := ⟨.unused, false, false⟩
  let get (p : Pos) (own : Nat) (isDst : Bool) (o : Opnd) : Operand × List Nat :=
    match readField f.enc p own isDst o with
    | .ok x => (x, [])
    | .error k => (.none, [k])
  let d := if r.ref2 then (Operand.none, []) else get r.dst 3 (!r.dstSrc) f.dst
  let saPos := if imm && r.sb.kind == .unused && r.imm == 1 then un else r.sa
  let a := if r.ref2 then (Operand.none, []) else get saPos 4 false f.sa
  let b := if imm then (Operand.none, []) else get r.sb 5 false f.sb
  let c := if imm || r.ctrl then (Operand.none, []) else get r.sc 6 false f.sc
  let quad := if op = 0xB2 ∧ ctrlField f / 32 % 8 = 3 ∧ !f.sb.cls ∧ f.sb.num.toNat % 4 ≠ 0 then [10]
    else if op = 0xB2 ∧ ctrlField f / 32 % 8 = 3 ∧ f.sb.cls then [11] else []
  (⟨d.1, a.1, b.1, if op = 0xB2 ∧ ctrlField f / 32 % 8 = 3 then quadHigh b.1 else c.1⟩, d.2 ++ a.2 ++ b.2 ++ c.2 ++ quad)

/-- The sources of a word, in the order SA, SB, SC, then DST where it is read (R364). -/
def Operands.sources (o : Operands) (r : OpInfo) : List Operand := [o.sa, o.sb, o.sc] ++ (if r.dstSrc then [o.dst] else [])

/-- Whether an operand is a k register or pair. -/
def Operand.isK : Operand → Bool
  | .reg (.k _) => true
  | .pair (.k _) _ => true
  | _ => false

/-- Whether the instruction runs once for its group on the scalar pipe (R112, R177). -/
def isScalar (op : Nat) (r : OpInfo) (o : Operands) : Bool := (!r.dstSrc && o.dst.isK) || op == 0x88

/-- Whether an operand, as a source, is uniform or absent. -/
def Operand.uniformSource : Operand → Bool
  | .none => true
  | .reg (.k _) => true
  | .pair (.k _) _ => true
  | .tile _ => true
  | .acc _ => true
  | _ => false

/-- The channels a word names, with whether each pops or puts (R119) (log 51, DEDUCED). -/
def channelUses (o : Operands) (r : OpInfo) : List (Nat × Bool) :=
  (match o.dst with | .chan q _ => if r.dstSrc then [] else [(q, true)] | _ => [])
  ++ [o.sa, o.sb, o.sc].filterMap (fun x => match x with | .chan q pk => some (q, !pk) | _ => none)

/-- A channel named twice, where some naming pops or puts (R119). -/
def channelTwice : List (Nat × Bool) → Bool
  | [] => false
  | (q, u) :: l => l.any (fun p => p.1 == q && (u || p.2)) || channelTwice l

/-- What a field's class and number name, whatever else of it is refused: a check that relates a destination to its sources is made
beside the field's own check (R120, R177), and the lowest k of them is reported (R461). -/
def looseField (e : Enc) (p : Pos) (o : Opnd) : Operand :=
  let n := o.num.toNat
  match p.kind with
  | .v => if o.cls then .chan n o.peek else (match vReg e n with | some a => .reg a | none => .none)
  | .x => if o.cls then .chan n o.peek else (match vReg e n with | some a => .pair a a | none => .none)
  | .q => if o.cls then .chan n o.peek else .none
  | .p => if o.cls then .chan n o.peek else .reg (.p n)
  | _ => .none

/-- The operands of a word as its classes and numbers name them. -/
def looseFields (op : Nat) (r : OpInfo) (f : Fields) : Operands :=
  let r := positions op r f
  let imm := immForm r f
  let a := if r.ref2 || (imm && r.sb.kind == .unused && r.imm == 1) then .none else looseField f.enc r.sa f.sa
  ⟨if r.ref2 then .none else looseField f.enc r.dst f.dst, a, if imm then .none else looseField f.enc r.sb f.sb,
    if imm || r.ctrl then .none else looseField f.enc r.sc f.sc⟩

/-- Errors that relate fields: the scalar pipe, its PRED, a temporary or k destination with a channel source, a channel
named twice (R119, R120, R122, R177, R201) (log 18, DEDUCED, log 51, DEDUCED). A READLANE into a k register with a channel source is refused
under R120's second combination, though its first and R177 except READLANE (log 56, DESIGN CHOICE). -/
def relationErrors (op : Nat) (r : OpInfo) (f : Fields) (o : Operands) : List Nat :=
  let scalar := isScalar op r o
  let srcs := [o.sa, o.sb, o.sc]
  let chanSrc := srcs.any (fun x => match x with | .chan .. => true | _ => false)
  let tmpDst := match o.dst with | .reg (.t _) => !r.dstSrc | .pair (.t _) _ => !r.dstSrc | _ => false
  (if scalar && op != 0x88 && !r.kdst then [3] else [])
  ++ (if scalar && op != 0x88 && op != 0x86 && !srcs.all Operand.uniformSource then [3] else [])
  ++ (if scalar && op == 0x35 && immField f == 0 then [3] else [])
  ++ (if scalar && op == 0x70 && f.fn.toNat % 8 == 4 then [3] else [])
  ++ (if scalar && f.pred != 7#4 then [7] else [])
  ++ (if (scalar || tmpDst) && chanSrc then [3] else [])
  ++ (if r.term && op != 0x03 && f.pred != 7#4 then [7] else [])
  ++ (if channelTwice (channelUses o r) then [11] else [])

/-- The least of a list of numbers, if any (log 18, DEDUCED). -/
def leastOf : List Nat → Option Nat
  | [] => none
  | n :: l => match leastOf l with | none => some n | some m => some (min n m)

/-- Checks 1 to 4 of R140, except terminator placement: the k of the encoding cause (R460) of the first check that fails, or
the operands (log 18, DEDUCED). -/
def checkWord (op : Nat) (f : Fields) : Except Nat (OpInfo × Operands) :=
  match rowOf op f with
  | none => .error (if op = 1 then 13 else 0)
  | some r =>
    if !fnAccepted op r f then .error 1
    else if f.rsv ≠ 0#2 then .error 2
    else
      let (o, errs) := readFields op r f
      let errs := errs ++ formErrors op r f ++ (if r.ctrl then ctrlErrors op f else []) ++ relationErrors op r f (looseFields op r f)
      match leastOf errs with
      | some k => .error k
      | none => .ok (positions op r f, o)

/-! ### Registers as an execution reads them -/

/-- The committed value of a register (R100): temporaries have none and read 0; p7 reads as true. -/
def Group.committed (g : Group) (lane : Nat) : Reg → Word
  | .v n => sget g.regs (lane * 256 + n)
  | .t _ => 0#32
  | .k n => sget g.uregs n
  | .p n => if n = 7 then 1#32 else (sget g.preds (lane * 8 + n)).setWidth 32
  | .sr => sget g.sr lane

/-- Where a lane's register stands: k registers have one place for the group. -/
def placeOf (lane : Nat) : Reg → Place
  | .k n => ⟨0, .k n⟩
  | r => ⟨lane, r⟩

/-- The value a list of register writes holds for a place. -/
def writeAt : List (Place × Word) → Place → Option Word
  | [], _ => none
  | (q, w) :: l, p => if q = p then some w else writeAt l p

/-- The latest instruction before offset `off` that wrote a place and the rest of the list, under R107: a temporary is
looked for in the 7 instructions before. -/
def producer (off : Nat) (p : Place) : List Issued → Option (Issued × Word × List Issued)
  | [] => none
  | i :: l =>
    let near := match p.reg with | .t _ => decide (off ≤ i.off + 7) | _ => true
    if !near then none
    else match writeAt i.writes p with
      | some w => some (i, w, l)
      | none => producer off p l

/-- The value a place held before its latest producer wrote it. -/
def valueOf (g : Group) (off : Nat) (p : Place) (l : List Issued) : Word :=
  match producer off p l with
  | some (_, w, _) => w
  | none => g.committed p.lane p.reg

/-- Whether a source's latest producer has not yet produced its result at cycle `now` (R136). -/
def tooSoon (x : Exec) (off now : Nat) (p : Place) : Bool :=
  match producer off p x.issued with
  | some (i, _, _) => decide (now < i.start + i.lat)
  | none => false

/-- The cycle from which a source's value is available (R136) (log 7, DEDUCED). -/
def availableAt (x : Exec) (off : Nat) (p : Place) : Nat :=
  match producer off p x.issued with
  | some (i, _, _) => i.start + i.lat
  | none => 0

/-- The value a source delivers (R107); `old` selects, for a source read too soon, the value before its producer (R137). -/
def sourceValue (g : Group) (x : Exec) (off now : Nat) (old : Bool) (p : Place) : Word :=
  match producer off p x.issued with
  | some (i, w, l) => if old ∧ now < i.start + i.lat then valueOf g off p l else w
  | none => g.committed p.lane p.reg

/-- Whether PRED holds for a lane (R122). -/
def predHolds (g : Group) (x : Exec) (off now : Nat) (old : Bool) (f : Fields) (lane : Nat) : Bool :=
  let v := sourceValue g x off now old ⟨lane, .p (f.pred.toNat % 8)⟩
  (v != 0#32) != f.pred.getLsbD 3

/-- The registers an operand names, even register first (R120). -/
def Operand.regs : Operand → List Reg
  | .reg r => [r]
  | .pair a b => [a, b]
  | _ => []

end Sys2Proof.Machine
end

