-- ==== Sys2Proof/Machine/Flags.lean ====
section
/-!
DEFINITION. What the HN9 has in place of flags: the relations of the compares, and the sticky and status words TSTAT,
GSTAT and CONTAIN (R371, R410). No instruction keeps carry, overflow or exception flags (R47, R178).
-/
namespace Sys2Proof.Machine

/-- The relation of an integer compare code (R142, R187). -/
def intRel (cc : Nat) (a b : Int) : Bool :=
  match cc with
  | 0 => a == b
  | 1 => a != b
  | 2 => decide (a < b)
  | 3 => decide (a ≤ b)
  | 4 => decide (b < a)
  | _ => decide (b ≤ a)

/-- A write to TSTAT clears the bits written as 1; reserved bits stay 0 (R371, R374). -/
def clearSticky (tstat v : Word) : Word := tstat &&& ~~~v

/-- Whether a group is converged: every live lane stands at the same trace and none is held by a requeue cause or an
acquire (R113, R169). In handler mode only the handler's lanes count (R365). -/
def Group.converged (g : Group) : Bool :=
  let ls := if g.hm then g.live.filter (fun l => g.handlerLanes.contains l) else g.live
  match ls with
  | [] => true
  | l0 :: _ => ls.all (fun l => decide ((g.lane l).tr = (g.lane l0).tr) && (g.lane l).held.isNone && (g.lane l).acquires.isEmpty)

/-- A group's base class: its own, or PRIO of the record it holds where that is higher (R339). -/
def Group.baseClass (g : Group) : Nat :=
  match g.task with
  | some r => max g.cls (bits (leAt r 22 2) 2 1)
  | none => g.cls

/-- A group's present class (R249): its base class, raised by waiting, up to 3. -/
def Group.curClass (g : Group) : Nat := min 3 (g.baseClass + g.waited)

/-- GSTAT (R371): HM, DIV of the current trace, PRIV, CLASS (log 48, DEDUCED). -/
def gstatWord (g : Group) (diverged : Bool) : Nat := b2n g.hm + 2 * b2n diverged + 4 * b2n g.priv + 8 * g.curClass

/-- CONTAIN (R410). -/
def containWord (c : Contain) : Nat := b2n c.opened + 2 * (c.htrace.idx % 131072) + 262144 * (c.cause % 512) + 134217728 * b2n c.unw

end Sys2Proof.Machine
end

