-- ==== Sys2Proof/Machine/Issue.lean ====
section
/-!
DEFINITION. How an instruction issues: the checks of R140, the lanes that act (R122), the source words captured (R107,
R304, R364), the result or trap of its meaning, and the clock (R136). Every instruction's meaning goes through it.
-/
namespace Sys2Proof.Machine

/-- An instruction at issue: the machine, its group and execution, its row and operands, the cycle it begins, the lanes
that stood there, those of them that no empty channel has rolled back, those that act, and whether it runs on the scalar pipe. -/
structure Iss where
  s : State
  g : GRef
  tm : Team
  grp : Group
  x : Exec
  op : Nat
  f : Fields
  r : OpInfo
  o : Operands
  now : Nat
  old : Nat
  stood : List Nat
  here : List Nat
  acting : List Nat
  scalar : Bool

/-- What an instruction does when it issues: register results, buffered effects, lanes that leave and why, which lane
consumed from which (R195), cycles beyond its beats. -/
structure Res where
  writes : List (Place × Word) := []
  effs : List Effect := []
  leave : List (Nat × TRef × Option Held) := []
  uses : List (Nat × Nat) := []
  extra : Nat := 0
  deriving DecidableEq, Repr

/-- The meaning of an instruction at issue: from the source words of each lane, a trap or a result. -/
abbrev Body := Iss → Table (List Word) → Except Trap Res

/-- The group that issues next, with its team and execution (log 31, DEDUCED). -/
def State.standing (s : State) : Option (GRef × Team × Group × Exec) :=
  match s.focus with
  | none => none
  | some g =>
    match s.team? g.core g.slot, s.group? g with
    | some t, some grp => grp.exec.map (fun x => (g, t, grp, x))
    | _, _ => none

/-- A trap that names every lane at the instruction, with no information words. -/
def plainTrap (cause : Nat) (lanes : List Nat) : Trap := ⟨cause, lanes, 0, 0⟩

/-- The breakpoint that fires at an instruction (R379): armed, in this encoding, at this trace and offset, for this object
or any. -/
def breakAt (c : Ctx) (l9 : Bool) (x : Exec) : Option Nat :=
  (upto 4).find? (fun n =>
    let b := (nth c.brk n 0#64).toNat
    bit b 26 && decide (bits b 16 0 = x.tr.idx) && decide (bits b 24 17 = x.off) && (bit b 25 == l9)
      && (decide (bits b 62 32 = 0) || decide (bits b 62 32 = x.tr.handle)))

/-- Relocation of a vector register in the folded form (R316): the register's number plus VBASE of the stage, or none where
it lies at or above the stage's count. -/
def relocate (t : Team) (r : Reg) : Option Reg :=
  match t.folded, t.fold, r with
  | true, some fo, .v n =>
    if n < nth fo.vcount fo.stage 0 then some (.v (n + nth fo.vbase fo.stage 0)) else none
  | _, _, r => some r

/-- Relocate an operand; the number that fails, where one does. -/
def relocateOperand (t : Team) : Operand → Except Nat Operand
  | .reg r => match relocate t r with
    | some r => .ok (.reg r)
    | none => .error (match r with | .v n => n | _ => 0)
  | .pair a b => match relocate t a, relocate t b with
    | some a, some b => .ok (.pair a b)
    | _, _ => .error (match b with | .v n => n | _ => 0)
  | o => .ok o

/-- The first register or tile of an operand beyond the allotments, with its encoding cause number k (R102, R460): 14
REG_ALLOT or 15 ACC_ALLOT, which an LCORE gives any accumulator. In handler mode t63 lies within every allotment (R361). -/
def beyondAllotment (core : Nat) (t : Team) (g : Group) : Operand → Option (Nat × Nat)
  | .reg (.v n) => if g.vallot ≤ n then some (14, n) else none
  | .pair (.v a) (.v b) => if g.vallot ≤ a then some (14, a) else if g.vallot ≤ b then some (14, b) else none
  | .tile n => if t.tileAllot ≤ n ∧ ¬ (g.hm ∧ n = 63) then some (14, n) else none
  | .acc n => if isLcore core ∨ t.accAllot ≤ n then some (15, n) else none
  | _ => none

/-- The first of a list of results. -/
def firstSome {α β : Type} (f : α → Option β) : List α → Option β
  | [] => none
  | a :: l => match f a with | some b => some b | none => firstSome f l

/-- Beats of an instruction: ceil(n ÷ beat width) of the lanes that stand there; one on the scalar pipe (R112, R248). -/
def beatsOf (core n : Nat) (scalar : Bool) : Nat := if scalar then 1 else (n + beatWidth core - 1) / beatWidth core

/-- Whether an opcode may share an LCORE's cycle with another (R139). -/
def mayPair (op : Nat) (r : OpInfo) : Bool := !r.term && op != 0x06 && op != 0x07 && op != 0x88 && !(0xA0 ≤ op && op ≤ 0xEF)

/-- The registers that an instruction writes, as its word names them. -/
def Operands.written (o : Operands) (r : OpInfo) : List Reg := if r.dstSrc then [] else o.dst.regs

/-- The registers from a register on that a PUT of `n` words reads (R308). -/
def Reg.next (r : Reg) (n : Nat) : Reg :=
  match r with | .v a => .v (a + n) | .t a => .t (a + n) | .k a => .k (a + n) | r => r

/-- Bytes of an item by SIZE (R302). -/
def itemBytes (size : Nat) : Nat := if size = 1 then 8 else if size = 2 then 16 else 4

/-- The registers that PUT reads beside vs, by the SIZE of its channel (R308). -/
def putRegs (tm : Team) (op : Nat) (o : Operands) : List Reg :=
  match op, o.dst, o.sa with
  | 0xC4, .chan q _, .reg r => (upto (itemBytes (tm.chan q).size / 4 - 1)).map (fun j => r.next (j + 1))
  | _, _, _ => []

/-- The places a lane's sources and predicate stand at. -/
def sourcePlaces (tm : Team) (op : Nat) (o : Operands) (r : OpInfo) (f : Fields) (lane : Nat) : List Place :=
  (if op = 0x88 then [⟨0, .k (immField f % 32)⟩] else []) ++
  placeOf lane (.p (f.pred.toNat % 8)) :: ((o.sources r).flatMap Operand.regs ++ putRegs tm op o).map (placeOf lane)

/-- Whether a lane's source, by its number among those the instruction reads, is served early where its stall is too short (R137): a choice for
each register of the sources, the second of a pair one of its own, for those that PUT reads beside its operand, and for PRED (log 8, DEDUCED). -/
def servedEarly (old lane n : Nat) : Bool := bit old (16 * lane + n)

/-- The instruction ready to capture its sources; where a stall is too short, a choice says which reads are served early (R137, log 8, DEDUCED). -/
def makeIss (s : State) (g : GRef) (tm : Team) (grp : Group) (x : Exec) (op : Nat) (f : Fields) (r : OpInfo) (o : Operands) (now : Nat)
    (short : Bool) : Iss :=
  let old := if short then s.picks.headD 0 else 0
  { s := { s with picks := if short then s.picks.tail else s.picks }, g := g, tm := tm, grp := grp, x := x, op := op, f := f, r := r, o := o,
    now := now, old := old, stood := x.here, here := x.here, scalar := isScalar op r o,
    acting := if isScalar op r o then [0] else x.here.filter (fun l => predHolds grp x x.off now (servedEarly old l 15) f l) }

/-! ### What a channel delivers (R304) -/

/-- The positions an execution has already taken from a channel (R304). -/
def taken (x : Exec) (q : Nat) : Nat := (x.buf.filter (fun b => match b.eff with | .pop _ c _ => c == q | _ => false)).length

/-- The key of the item at a position of the queue, counted from HEAD (R304). -/
def itemKey (c : Chan) (pos : Nat) : Nat := memKey .slice (c.qaddr + itemBytes c.size * ((c.head + pos) % max 1 c.depth))

/-- The item at a position of the queue (R304), as a number. -/
def itemAt (s : State) (c : Chan) (pos : Nat) : Nat := s.mem.readLE (itemKey c pos) (itemBytes c.size)

/-- Key of a lane's hand-over slot of a channel (R315). -/
def slotKey (lane q : Nat) : Nat := lane * 16 + q

/-- What a lane takes from a channel: its item, or nothing where its position is at or beyond the count the execution saw,
or its slot is empty (R304, R316). `n` is the lane's rank among the acting lanes. -/
def takeItem (i : Iss) (q lane n : Nat) : Option Nat :=
  let c := i.tm.chan q
  if c.mode = 2 then
    match i.tm.fold with
    | some fo =>
      if sget fo.full (slotKey lane q) = 1#1 ∧ !i.x.buf.any (fun b => b.eff == .pop lane q 0)
      then some (sget fo.slots (slotKey lane q)).toNat else none
    | none => none
  else
    let pos := taken i.x q + n
    if pos < nth i.x.view.counts q 0 then some (itemAt i.s c pos) else none

/-- The words of an item: 1, 2, 4 or 1 for SIZE 0, 1, 2, 3 (R308). -/
def itemWords (size v : Nat) : List Word := (upto (itemBytes size / 4)).map (fun j => BitVec.ofNat 32 (v >>> (32 * j)))

/-- The value that a register delivers to a lane as source number `n`. -/
def Iss.reads (i : Iss) (lane n : Nat) (r : Reg) : Word := sourceValue i.grp i.x i.x.off i.now (servedEarly i.old lane n) (placeOf lane r)

/-- The words one source delivers to a lane, with a pop where it pops; none where a channel is empty for the lane. `n` is
the lane's rank among the acting lanes. -/
def sourceWords (i : Iss) (lane : Nat) (acts : Bool) (n k : Nat) : Operand → Option (List Word × List Effect)
  | .none => some ([], [])
  | .tile _ => some ([], [])
  | .acc _ => some ([], [])
  | .bar _ => some ([], [])
  | .chan q peek =>
    if !acts then some (List.replicate (itemBytes (i.tm.chan q).size / 4) 0#32, [])
    else match takeItem i q lane n with
      | none => none
      | some v =>
        let pos := if (i.tm.chan q).mode = 2 then 0 else taken i.x q + n
        some (itemWords (i.tm.chan q).size v, if peek then [] else [.pop lane q pos])
  | .reg r => some ([i.reads lane (2 * k) r], [])
  | .pair a b => some ([i.reads lane (2 * k) a, i.reads lane (2 * k + 1) b], [])

/-- The words of a lane's sources in order, and its pops; none where a channel is empty for it (log 50, DEDUCED). -/
def laneSources (i : Iss) (lane : Nat) (acts : Bool) (n : Nat) : Option (List Word × List Effect) :=
  ((i.o.sources i.r).zipIdx).foldl (fun acc p =>
    match acc, sourceWords i lane acts n p.2 p.1 with
    | some (ws, es), some (w, e) => some (ws ++ w, es ++ e)
    | _, _ => none) (some ([], []))

/-! ### When an instruction begins -/

/-- The registers that MOVX's lanes name by their sources (R190), relocated (R316): a source of the instruction as any other. -/
def movxPlaces (i : Iss) : List Place :=
  let base := match i.tm.folded, i.tm.fold with | true, some fo => nth fo.vbase fo.stage 0 | _, _ => 0
  if i.op ≠ 0x34 then []
  else i.acting.filterMap (fun l => (laneSources i l true ((i.acting.filter (fun m => m < l)).length)).map (fun w =>
    ⟨l, .v ((nth w.1 0 0#32).toNat + base)⟩))

/-- The places that an instruction's issue looks at. -/
def issuePlaces (i : Iss) : List Place :=
  (if i.scalar && i.op != 0x86 then [0] else i.here).flatMap (sourcePlaces i.tm i.op i.o i.r i.f) ++ movxPlaces i

/-- Whether a DCORE's stall is too short for a place that the instruction reads (R138). -/
def shortStall (g : GRef) (x : Exec) (places : List Place) (now : Nat) : Bool := !isLcore g.core && places.any (tooSoon x x.off now)

/-- The trap of a stall that is too short, under the checking scoreboard: the number of the first register read too soon (R138, R363). -/
def shortTrap (x : Exec) (places : List Place) (now : Nat) : Trap :=
  let p := (places.find? (tooSoon x x.off now)).getD ⟨0, .sr⟩
  ⟨81, x.here, match p.reg with | .v n => n | .t n => n + 216 | .k n => n + 232 | .p n => n | .sr => 0, 0⟩

/-- The cycle that an instruction may share with the one before it (R139): on an LCORE, in one run, where neither depends on the other,
neither is of the opcodes that issue alone, and that cycle is the core's present one (log 7, DEDUCED). -/
def pairCycle (k : Iss) (places : List Place) : Option Nat :=
  match k.x.issued with
  | [] => none
  | i :: _ =>
    if !isLcore k.g.core || k.x.run == 0 || k.x.second || i.off + 1 != k.x.off || !mayPair k.op k.r then none
    else match wordOf (decodeWord .l9 i.word) with
      | none => none
      | some (op1, f1) => match checkWord op1.toNat f1 with
        | .error _ => none
        | .ok (r1, o1) =>
          let dst := (o1.written r1).map (fun w => (relocate k.tm w).getD w)
          if mayPair op1.toNat r1 && !dst.any (places.map (·.reg)).contains && !dst.any (k.o.written k.r).contains
            && decide ((k.s.core k.g.core).cycles ≤ i.start) then some i.start else none

/-- The least cycle from `now` on in which the instruction may begin (R136, R139, R179, R364): when an LCORE's sources are available, when
a MOVX or terminator's predecessors have all produced, and when fewer than eight results are in flight (log 7, DEDUCED). -/
def beginFrom (g : GRef) (x : Exec) (op : Nat) (r : OpInfo) (places : List Place) (now : Nat) : Nat :=
  let done (i : Issued) := i.start + i.all
  let now := if isLcore g.core then (places.map (availableAt x x.off)).foldl max now else now
  let now := if (op = 0x34 ∧ ¬ isLcore g.core) ∨ r.term then (x.issued.map done).foldl max now else now
  if r.lat ≤ 1 then now
  else
    let fly := (x.issued.filter (fun i => i.inFlight now)).map done
    if fly.length < 8 then now else fly.foldr min ((fly.headD now))

/-- The cycle in which the instruction begins: the one it may share with the instruction before it, where nothing delays it there; else
the least after the stall. -/
def beginCycle (i : Iss) : Nat :=
  let places := issuePlaces i
  let alone := beginFrom i.g i.x i.op i.r places (max i.x.ready (i.s.core i.g.core).cycles)
  match pairCycle i places with
  | some c => if beginFrom i.g i.x i.op i.r places c = c then c else alone
  | none => alone

/-! ### The checks at issue (R140) -/

/-- The last checks, of an instruction whose operands are relocated, at the cycle in which it begins: the allotments (R102), uniform registers in
a diverged group (R109) and the scoreboard (R138). Where several operands lie beyond allotments, the first in the order DST, SA, SB, SC gives the
cause, REG_ALLOT or ACC_ALLOT alike: R140 orders the checks and not the operands of one (log 56, DESIGN CHOICE; log 51, DEDUCED). -/
def checkOperands (i : Iss) (now : Nat) : Except Trap Iss :=
  let ops := [i.o.dst, i.o.sa, i.o.sb, i.o.sc]
  match firstSome (beyondAllotment i.g.core i.tm i.grp) ops with
  | some (k, n) => .error ⟨encCause i.f.enc k, i.here, if k = 14 then n else 0, 0⟩
  | none =>
    let short := shortStall i.g i.x (issuePlaces i) now
    if (ops.any Operand.isK || i.op == 0x88) && i.x.diverged then .error (plainTrap 80 i.here)
    else if short && i.grp.mode.getLsbD 0 then .error (shortTrap i.x (issuePlaces i) now)
    else .ok (makeIss i.s i.g i.tm i.grp i.x i.op i.f i.r i.o now short)

/-- Relocate the operands of a word (R316); the number that fails, where one does. -/
def relocateAll (t : Team) (o : Operands) : Except Nat Operands :=
  match relocateOperand t o.dst, relocateOperand t o.sa, relocateOperand t o.sb, relocateOperand t o.sc with
  | .ok d, .ok a, .ok b, .ok c => .ok ⟨d, a, b, c⟩
  | .error n, _, _, _ => .error n
  | _, .error n, _, _ => .error n
  | _, _, .error n, _ => .error n
  | _, _, _, .error n => .error n

/-- The checks of R140 in their order, for the word at the execution's offset: the trap of the first that fails, or the
instruction ready to capture its sources (log 18, DEDUCED). -/
def checkIssue (s : State) (g : GRef) (tm : Team) (grp : Group) (x : Exec) (op : Nat) (f : Fields) : Except Trap Iss :=
  match checkWord op f with
  | .error k => .error (plainTrap (encCause f.enc k) x.here)
  | .ok (r, o) =>
    if r.term ≠ decide (x.off + 1 = x.hdr.len) then .error (plainTrap (encCause f.enc 13) x.here)
    else match relocateAll tm o with
      | .error n => .error ⟨encCause f.enc 14, x.here, n, 0⟩
      | .ok o =>
        let i := makeIss s g tm grp x op f r o 0 false
        checkOperands i (beginCycle i)

/-- The cycle in which the word at the execution's offset issues, whatever it then does: in which an error of it is found (R360). A word whose
operands name nothing waits for none. -/
def issueTime (s : State) (g : GRef) (tm : Team) (grp : Group) (x : Exec) (op : Nat) (f : Fields) : Nat :=
  match checkWord op f with
  | .error _ => max x.ready (s.core g.core).cycles
  | .ok (r, o) => match relocateAll tm o with
    | .error _ => max x.ready (s.core g.core).cycles
    | .ok o => beginCycle (makeIss s g tm grp x op f r o 0 false)

/-! ### Channels at issue (R304 to R306) -/

/-- Whether a group is the endpoint of a channel: its consumer, or its producer; in the folded form, the thread (R304, R305,
R254). -/
def isEndpoint (t : Team) (grp : Nat) (c : Chan) (producer : Bool) : Bool :=
  if c.mode = 2 then (match t.fold with | some fo => fo.thread == grp | none => false)
  else if producer then c.pgrp == grp && !c.peng else c.cgrp == grp && !c.ceng

/-- The check of one channel operand, in the order MODE, endpoint, SIZE (R306, R309). -/
def channelTrap (i : Iss) (q : Nat) (producer pair : Bool) : Option Trap :=
  let c := i.tm.chan q
  if c.mode = 0 then some (plainTrap 97 i.here)
  else if !isEndpoint i.tm i.grp.num c producer then some (plainTrap 98 i.here)
  else if i.op ≠ 0xC3 ∧ i.op ≠ 0xC4 ∧ (if pair then c.size ≠ 1 else c.size ≠ 0 ∧ c.size ≠ 3) then some (plainTrap 99 i.here)
  else none

/-- The opcodes whose sources are read in every lane present (R194, R211): the cross-lane instructions and the group
reductions. -/
def readsPresent (op : Nat) : Bool := (0x84 ≤ op && op ≤ 0x87) || op == 0x53 || op == 0x54

/-- The channel that a lane finds empty: the first of its sources that gives it no item (R304). -/
def lackedChannel (i : Iss) (lane n : Nat) : Nat :=
  (firstSome (fun o => match o with
    | .chan q _ => if (takeItem i q lane n).isNone then some q else none
    | _ => none) (i.o.sources i.r)).getD 0

/-- What capturing the sources gives: words by lane, pops, and the lanes that found a channel empty, with that channel. -/
structure Captured where
  words : Table (List Word)
  pops : List Effect
  empty : List (Nat × Nat)
  deriving DecidableEq, Repr

/-- Capture the sources of every lane that needs them, in ascending lane number. -/
def capture (i : Iss) : Captured :=
  let lanes := if i.scalar && i.op != 0x86 then [0] else if readsPresent i.op then i.here else i.acting
  lanes.foldl (fun c l =>
    let acts := i.acting.contains l
    let n := (i.acting.filter (fun m => m < l)).length
    match laneSources i l acts n with
    | some (ws, es) => { c with words := c.words ++ [(l, ws)], pops := c.pops ++ es }
    | none => { c with empty := c.empty ++ [(l, lackedChannel i l n)] }) ⟨[], [], []⟩

/-- The channel checks of a word's operands at issue. -/
def channelChecks (i : Iss) : Option Trap :=
  let srcs := [i.o.sa, i.o.sb, i.o.sc]
  match firstSome (fun (p : Operand × Pos) => match p.1 with
      | .chan q _ => channelTrap i q false (p.2.kind == .x)
      | _ => none) (srcs.zip [i.r.sa, i.r.sb, i.r.sc]) with
  | some t => some t
  | none => match i.o.dst with
    | .chan q _ => channelTrap i q true (i.r.dst.kind == .x)
    | _ => none

/-! ### Results -/

/-- Deliver a value a lane to the destination: register words, or an item a lane of a put (R119, R305, R306). -/
def deliver (i : Iss) (vals : List (Nat × List Word)) : Res :=
  match i.o.dst with
  | .reg r => { writes := vals.map (fun p => (placeOf p.1 r, nth p.2 0 0#32)) }
  | .pair a b => { writes := vals.flatMap (fun p => [(placeOf p.1 a, nth p.2 0 0#32), (placeOf p.1 b, nth p.2 1 0#32)]) }
  | .chan q _ =>
    let item (ws : List Word) : Nat :=
      let v := (ws.zipIdx).foldl (fun a p => a + p.1.toNat * 2 ^ (32 * p.2)) 0
      if (i.tm.chan q).size = 3 then v % 64 else v
    { effs := [.put q (vals.map (fun p => (p.1, item p.2)))] }
  | _ => {}

/-- The last operand of an instruction that has an immediate form: the captured word at place `n`, or the immediate. -/
def lastWord (i : Iss) (ws : List Word) (n : Nat) : Word := if immForm i.r i.f then immWord i.f else nth ws n 0#32

/-- The acting lanes whose sources were captured, with their words (log 50, DEDUCED). -/
def actingWords (i : Iss) (ws : Table (List Word)) : List (Nat × List Word) :=
  i.acting.filterMap (fun l => (tget ws l).map (fun w => (l, w)))

/-- The meaning of an instruction that computes each acting lane's result from the lane's own source words. -/
def pureOp (h : Iss → List Word → List Word) : Body := fun i ws =>
  .ok (deliver i ((actingWords i ws).map (fun p => (p.1, h i p.2))))

/-- Lanes leave an execution (R255, R256): each becomes pending at the trace named, and may be held there. -/
def State.leave (s : State) (g : GRef) (now : Nat) (ls : List (Nat × TRef × Option Held)) : State :=
  s.modGroup g (fun grp =>
    let grp := ls.foldl (fun grp p => grp.modLanes [p.1] (fun l => { l with tr := p.2.1, since := now, held := p.2.2, bindCall := none })) grp
    { grp with exec := grp.exec.map (fun x =>
        { x with here := x.here.filter (fun l => !(ls.map (·.1)).contains l), left := x.left ++ ls.map (·.1) }) })

/-- The execution after an instruction has issued: its results enter the window, its effects the buffer, the offset and the earliest next
cycle move on, and its run goes on or ends (R107, R135, R136, R257). The scalar pipe acts for every lane there (R364). -/
def afterIssue (i : Iss) (c : Captured) (word : DWord) (res : Res) : Exec :=
  let beats := beatsOf i.g.core i.stood.length i.scalar
  let lat1 := latencyOn i.g.core i.op i.f.fn.toNat i.r
  let lat := if i.r.lastBeat then lat1 + beats - 1 else lat1
  let srcs := if i.scalar ∧ i.op ≠ 0x86 then i.here.map (fun l => (l, (tget c.words 0).getD [])) else c.words
  { i.x with
    off := i.x.off + 1
    ready := max i.x.ready (i.now + beats + res.extra + (if isLcore i.g.core then 0 else i.f.stall.toNat))
    run := if i.f.rb ∨ i.x.run = 23 then 0 else i.x.run + 1
    second := decide (i.now < i.x.ready) && !i.x.issued.isEmpty
    issued := { off := i.x.off, word := word, start := i.now, lat := lat, beats := beats, mask := if i.scalar then i.here else i.acting,
                srcs := srcs, writes := res.writes, all := lat1 + beats - 1 } :: i.x.issued
    buf := i.x.buf ++ (c.pops ++ res.effs).map (fun e => ⟨i.x.off, e⟩)
    uses := i.x.uses ++ res.uses
    skipBreak := false }

/-- A halt that meets a parked group cancels the park: its lanes are pending at ep where it is, with MIGREF 6 (R295, log 39, DEDUCED). -/
def Group.unpark (x : Group) (now : Nat) : Group :=
  match x.park with
  | some p => { x.pendAt x.live p.ep now with park := none, migref := 6, stays := none }
  | none => x

/-- The group halts for a reason (R377, R378). -/
def Group.haltFor (x : Group) (why : Halt) : Group := { x with halt := why, haltAsked := false, stepping := false }

/-- A debugger's request that the group has still to meet halts it where it stands (R380). -/
def Group.haltIfAsked (x : Group) (now : Nat) : Group := if x.haltAsked ∧ x.halt = .none then (x.haltFor .request).unpark now else x

/-- The group halts (R377, R378): at a HALT, at STEP, or at a debugger's request that met the execution (log 39, DEDUCED). -/
def State.haltAfter (s : State) (g : GRef) (asked : Bool) : State :=
  s.modGroup g (fun y =>
    if asked then y.haltFor .instruction
    else if y.mode.getLsbD 1 ∨ y.stepping then y.haltFor .step
    else if y.haltAsked then y.haltFor .request
    else y)

/-- An execution that holds no lane any more goes straight to its commit (R248): no lane passes, so its uniform writes are discarded
(R114) and only what follows every commit is left (R268, R377). -/
def State.closeIfEmpty (s : State) (g : GRef) : State :=
  match (s.group? g).bind (fun grp => grp.exec) with
  | some x => if x.here.isEmpty then ((s.dropExec g).modGroup g (fun y => { y with passed := none })).haltAfter g false else s
  | none => s

/-- The lanes that found a channel empty: each is rolled back and held at the head of its trace (R256, R304). -/
def emptyLeave (i : Iss) (c : Captured) : List (Nat × TRef × Option Held) :=
  c.empty.map (fun p => (p.1, i.x.tr, some (Held.mk 1 p.2)))

/-- The instructions whose values go through the load-value queue of a shadowed group (R407). -/
def loadsValue (op : Nat) : Bool := [0xA0, 0xA2, 0xA3, 0xA9, 0xB5, 0xC5, 0xD4, 0xD6, 0xDB, 0xE3].contains op

/-- Apply the result of an instruction to the machine (log 32, DEDUCED): of a shadowed group, a load enters the load-value queue (R407). -/
def applyIssue (i : Iss) (c : Captured) (word : DWord) (res : Res) : State :=
  let x := afterIssue i c word res
  let s := (i.s.modGroup i.g (fun grp => { grp with exec := some x, waited := if i.x.run = 0 then 0 else grp.waited })).modCore i.g.core (fun k =>
    { k with cycles := i.now, ldq := if i.grp.shadow && loadsValue i.op then k.ldq ++ [⟨i.g, res.writes, res.effs⟩] else k.ldq })
  (s.leave i.g i.now (emptyLeave i c ++ res.leave)).closeIfEmpty i.g

/-- Whether a breakpoint of the group's context fires before the instruction (R379). -/
def breakHit (s : State) (tm : Team) (x : Exec) (l9 : Bool) : Option Nat :=
  if x.skipBreak then none else breakAt ((s.ctx? tm.ctx).getD {}) l9 x

/-- Whether an instruction of one of these opcodes stands earlier in the trace (R224, R286, R461). -/
def Exec.cameBefore (x : Exec) (e : Enc) (ops : List Nat) : Bool :=
  (x.words.take x.off).any (fun w => match wordOf (decodeWord e w) with | some (op, _) => ops.contains op.toNat | none => false)

/-- The word at the execution's offset. -/
def Exec.word (x : Exec) : DWord := nth x.words x.off 0#64

/-- The first source word of a lane. -/
def srcOf (ws : Table (List Word)) (l : Nat) : Word := nth ((tget ws l).getD []) 0 0#32

/-- The leading lane of READLANE, and the lane that its index names (R198). -/
def readlaneNames (i : Iss) (ws : Table (List Word)) : Nat × Nat :=
  let lead := if i.scalar then i.here.headD 0 else i.acting.headD 0
  let nsrc := match i.o.sa with | .none => 0 | _ => 1
  (lead, (lastWord i ((tget ws lead).getD []) nsrc).toNat % i.grp.width)

/-- The lane SHFL reads, as an exact number (R199). -/
def shflLane (kind l b : Nat) : Int :=
  match kind with
  | 0 => (b : Int)
  | 1 => (l : Int) - b
  | 2 => (l : Int) + b
  | _ => ((l ^^^ b : Nat) : Int)

/-- The lane whose source SHFL gives a lane, where it is in range and present (R199). -/
def shflNames (i : Iss) (ws : Table (List Word)) (l : Nat) : Option Nat :=
  let j := shflLane (i.f.fn.toNat % 8) l (lastWord i ((tget ws l).getD []) 1).toNat
  if 0 ≤ j ∧ j < i.grp.width ∧ i.here.contains j.toNat then some j.toNat else none

/-- The registers that an instruction reads for an acting lane, each with that lane (R405): the lane's own sources and predicate, what its number
in MOVX names, and the source of the lane that READLANE or SHFL gives it. -/
def registersRead (i : Iss) (ws : Table (List Word)) : List (Nat × Place) :=
  let of (o : Operand) (l : Nat) : List Place := o.regs.map (placeOf l)
  let own := if i.scalar && i.op == 0x86 then [] else i.acting.flatMap (fun l => (sourcePlaces i.tm i.op i.o i.r i.f l).map (fun p => (l, p)))
  let cross := match i.op with
    | 0x86 =>
      let (lead, j) := readlaneNames i ws
      ((if i.scalar then of i.o.sb lead else []) ++ (if i.here.contains j then of i.o.sa j else [])).map (fun p => (lead, p))
    | 0x87 => i.acting.flatMap (fun l => ((shflNames i ws l).toList.flatMap (of i.o.sa)).map (fun p => (l, p)))
    | _ => []
  own ++ cross ++ (movxPlaces i).map (fun p => (p.lane, p))

/-- The bank of a poisoned register as an execution reads it (R404, R405): the result of the instruction that produced it in the trace, else the
committed one. -/
def poisonedReg (i : Iss) (p : Place) : Option Nat :=
  let trs := match producer i.x.off p i.x.issued with | some (k, _, _) => k.off + 1 | none => 0
  (i.s.regPoison.find? (fun q => q.g == i.g && q.place == p && q.trs == trs)).map (·.bank)

/-- The bank of a poisoned item that a lane takes from a channel's storage, `n` being its rank among the acting lanes (R404, R405). -/
def poisonedItem (i : Iss) (lane n : Nat) : Operand → Option Nat
  | .chan q _ =>
    let c := i.tm.chan q
    if c.mode = 2 ∨ (takeItem i q lane n).isNone then none
    else (i.s.poisonAt (itemKey c (taken i.x q + n)) (itemBytes c.size)).map (·.bank)
  | _ => none

/-- The first poisoned value that an instruction reads for an acting lane, in a register or a channel item: the lane and the error's bank (R405).
Those that it reads in a tile or an accumulator are its meaning's. -/
def poisonedSource (i : Iss) (ws : Table (List Word)) : Option (Nat × Nat) :=
  let reg := if i.s.regPoison.isEmpty then none
    else firstSome (fun (p : Nat × Place) => (poisonedReg i p.2).map (fun b => (p.1, b))) (registersRead i ws)
  let item := if i.s.poison.isEmpty then none
    else firstSome (fun l => (firstSome (poisonedItem i l ((i.acting.filter (fun m => m < l)).length)) (i.o.sources i.r)).map (fun b => (l, b))) i.acting
  reg.or item

/-- The instruction with the lanes that found a channel empty taken out (R304). -/
def Iss.served (i : Iss) (c : Captured) : Iss :=
  let gone := c.empty.map (·.1)
  { i with here := i.here.filter (fun l => !gone.contains l), acting := i.acting.filter (fun l => !gone.contains l) }

/-- The folded channel whose empty slot makes the thread of a chain hand over, where a lane found one (R318). -/
def handBackFor (i : Iss) (c : Captured) : Option Nat := firstSome (fun p => if (i.tm.chan p.2).mode = 2 then some p.2 else none) c.empty

/-- Whether a group's shadow has still to reach an offset of the trace that both execute (R408, R409). -/
def Group.shadowBehind (grp : Group) (off : Nat) : Bool :=
  grp.shadow && (match grp.trail with | some y => y.off != off | none => false)

/-- Whether an instruction of a leading group stalls (R407, R409): where the load-value queue has no room for what it loads, or where it would roll
lanes back, or leave none, and its shadow has not reached it. -/
def Iss.stalls (i : Iss) (c : Captured) (res : Res) : Bool :=
  i.grp.shadow && ((loadsValue i.op && decide (512 ≤ (i.s.core i.g.core).ldq.length))
    || (i.grp.shadowBehind i.x.off && (!c.empty.isEmpty || i.here.all (fun l => (res.leave.map (·.1)).contains l || (c.empty.map (·.1)).contains l))))

/-- An instruction's trap is taken in the cycle in which it issues (R360), of a shadowed group only once its shadow has reached it (R409). -/
def State.trapIn (s : State) (g : GRef) (grp : Group) (now : Nat) (t : Trap) (off : Nat) (skip : Bool) : State :=
  if grp.shadowBehind off then s else (s.clockTo g.core now).stopAt g t off skip false

/-- What an instruction that may issue does (R145): it hands over, stalls, traps, or has its effects (log 32, DEDUCED). -/
def issueBody (body : Body) (word : DWord) (i : Iss) (c : Captured) : State :=
  match handBackFor i c with
  | some q => i.s.handBack i.g i.x.here i.tm q true
  | none => match body (i.served c) c.words with
    | .error t =>
      if i.grp.shadowBehind i.x.off then i.s
      else (i.s.leave i.g i.now (emptyLeave i c)).trapIn i.g i.grp i.now t i.x.off (64 ≤ t.cause && t.cause < 80)
    | .ok res => if i.stalls c res then i.s else applyIssue (i.served c) c word res

/-- What stops the word at the execution's offset before it has any effect (R140, R145): a breakpoint, the first check that fails, a channel that
may not be used, or a poisoned source; else the instruction at issue. -/
def issueChecks (s : State) (g : GRef) (tm : Team) (grp : Group) (x : Exec) (op : Nat) (f : Fields) : Except Trap Iss :=
  match breakHit s tm x (f.enc == .l9) with
  | some n => .error ⟨108 + n, x.here, n, 0⟩
  | none => match checkIssue s g tm grp x op f with
    | .error t => .error t
    | .ok i => match channelChecks i with
      | some t => .error t
      | none => match poisonedSource i (capture i).words with
        | some (l, b) => .error ⟨256 + 4 * b, [l], 0, 0⟩
        | none => .ok i

/-- Issue an instruction whose effects are those of `body` (R140, R145): what stops it, or the instruction's effects (log 31, DEDUCED, log 32,
DEDUCED). -/
def issueOn (op : Nat) (f : Fields) (body : Body) (s : State) : Host.Outcome State Fault Refusal :=
  match s.standing with
  | none => .fault .noExecution
  | some (g, tm, grp, x) =>
    match issueChecks s g tm grp x op f with
    | .error t => .next (s.trapIn g grp (issueTime s g tm grp x op f) t x.off false)
    | .ok i => .next (issueBody body x.word i (capture i))

end Sys2Proof.Machine
end

