-- ==== Sys2Proof/Machine/Integer.lean ====
section
/-!
DEFINITION. The integer, address, logic, compare and move instructions (R176 to R192): their meanings over one operand
reader and one result writer.
-/
namespace Sys2Proof.Machine

/-- An integer type suffix by its FN[2:0] (R142): signed saturating, unsigned saturating, wrapping. -/
inductive IntType where
  | s32 | n32 | b32
  deriving DecidableEq, Repr

/-- The type FN[2:0] names: 0 .S32, 1 .N32, 6 .B32 (R142). -/
def intType (f : Fields) : IntType := match f.fn.toNat % 8 with | 0 => .s32 | 1 => .n32 | _ => .b32

/-- A word read by type (R180). -/
def readInt (t : IntType) (w : Word) : Int := match t with | .s32 => w.toInt | _ => Int.ofNat w.toNat

/-- Fit an exact result to 32 bits: clamped for .S32 and .N32, modulo 2^32 for .B32 (R180). -/
def fit (e : Int) : IntType → Word
  | .s32 => BitVec.ofInt 32 (max (-2 ^ 31) (min e (2 ^ 31 - 1)))
  | .n32 => BitVec.ofInt 32 (max 0 (min e (2 ^ 32 - 1)))
  | .b32 => BitVec.ofInt 32 e

/-- A two-source integer operation: exact, then fitted (R180). -/
def intOp2 (h : Int → Int → Int) : Body := pureOp (fun i ws =>
  let t := intType i.f
  [fit (h (readInt t (nth ws 0 0#32)) (readInt t (lastWord i ws 1))) t])

/-- ADD (R180). -/
def bodyAdd : Body := intOp2 (fun a b => a + b)
/-- SUB (R180). -/
def bodySub : Body := intOp2 (fun a b => a - b)
/-- MULLO (R180). -/
def bodyMullo : Body := intOp2 (fun a b => a * b)
/-- MULHI: the high half never saturates (R180). -/
def bodyMulhi : Body := intOp2 (fun a b => (a * b) / 2 ^ 32)
/-- MIN (R180). -/
def bodyMin : Body := intOp2 min
/-- MAX (R180). -/
def bodyMax : Body := intOp2 max
/-- MAD (R180). -/
def bodyMad : Body := pureOp (fun i ws =>
  let t := intType i.f
  [fit (readInt t (nth ws 0 0#32) * readInt t (nth ws 1 0#32) + readInt t (nth ws 2 0#32)) t])
/-- ABS (R180). -/
def bodyAbs : Body := pureOp (fun i ws => [fit (Int.ofNat (nth ws 0 0#32).toInt.natAbs) (intType i.f)])
/-- NEG (R180). -/
def bodyNeg : Body := pureOp (fun i ws => [fit (0 - readInt (intType i.f) (nth ws 0 0#32)) (intType i.f)])

/-- A pair as two words, even register first. -/
def pairWords (d : DWord) : List Word := [loWord d, hiWord d]

/-- AADD: the base plus the sign-extended offset, modulo 2^64 (R182). -/
def bodyAadd : Body := pureOp (fun i ws =>
  pairWords (pairOf (nth ws 0 0#32) (nth ws 1 0#32) + (lastWord i ws 2).signExtend 64))
/-- AMAD: the base plus an exact product, modulo 2^64 (R182). -/
def bodyAmad : Body := pureOp (fun i ws =>
  let base := pairOf (nth ws 0 0#32) (nth ws 1 0#32)
  let off : Int := readInt (intType i.f) (nth ws 2 0#32) * readInt (intType i.f) (nth ws 3 0#32)
  pairWords (base + BitVec.ofInt 64 off))

/-- A bitwise operation of two sources (R185). -/
def bitOp2 (h : Word → Word → Word) : Body := pureOp (fun i ws => [h (nth ws 0 0#32) (lastWord i ws 1)])
/-- AND (R185). -/
def bodyAnd : Body := bitOp2 (fun a b => a &&& b)
/-- OR (R185). -/
def bodyOr : Body := bitOp2 (fun a b => a ||| b)
/-- XOR (R185). -/
def bodyXor : Body := bitOp2 (fun a b => a ^^^ b)
/-- ANDN (R185). -/
def bodyAndn : Body := bitOp2 (fun a b => a &&& ~~~b)
/-- NOT (R185). -/
def bodyNot : Body := pureOp (fun _ ws => [~~~(nth ws 0 0#32)])

/-- A shift count: bits [7:0] of a register, IMM[4:0] of an immediate (R123, R184). -/
def shiftCount (i : Iss) (ws : List Word) : Nat :=
  if immForm i.r i.f then (immWord i.f).toNat % 32 else (nth ws 1 0#32).toNat % 256

/-- SHL: 0 for counts of 32 or more (R185). -/
def bodyShl : Body := pureOp (fun i ws => [nth ws 0 0#32 <<< shiftCount i ws])
/-- SHR: sign fill for .S32, zero fill for .N32 (R185). -/
def bodyShr : Body := pureOp (fun i ws =>
  let n := shiftCount i ws
  [match intType i.f with | .s32 => (nth ws 0 0#32).sshiftRight n | _ => nth ws 0 0#32 >>> n])
/-- ROT: left by bits [4:0] (R185). -/
def bodyRot : Body := pureOp (fun i ws => [(nth ws 0 0#32).rotateLeft ((lastWord i ws 1).toNat % 32)])

/-- POS and width of a bit-field control word: min(WID, 32 − POS) (R184). -/
def fieldOf (c : Word) : Nat × Nat :=
  let p := c.toNat % 32
  (p, min (c.toNat / 32 % 64) (32 - p))

/-- BFX: the field, sign-extended for .S32 (R185). -/
def bodyBfx : Body := pureOp (fun i ws =>
  let (p, w) := fieldOf (lastWord i ws 1)
  let v := ((nth ws 0 0#32).toNat >>> p) % 2 ^ w
  [match intType i.f with
   | .s32 => (BitVec.ofNat w v).signExtend 32
   | _ => BitVec.ofNat 32 v])
/-- BFI: base in SA, value in SB, control in SC (R185). -/
def bodyBfi : Body := pureOp (fun _ ws =>
  let (p, w) := fieldOf (nth ws 2 0#32)
  let m : Word := BitVec.ofNat 32 (2 ^ w - 1) <<< p
  [(nth ws 0 0#32 &&& ~~~m) ||| ((nth ws 1 0#32 <<< p) &&& m)])
/-- The number of 1 bits of a word. -/
def popCount (w : Word) : Nat := ((upto 32).filter (fun j => w.getLsbD j)).length
/-- POPC (R185). -/
def bodyPopc : Body := pureOp (fun _ ws => [BitVec.ofNat 32 (popCount (nth ws 0 0#32))])
/-- CLZ: 32 for 0 (R185). -/
def bodyClz : Body := pureOp (fun _ ws =>
  [BitVec.ofNat 32 (((upto 32).find? (fun j => (nth ws 0 0#32).getLsbD (31 - j))).getD 32)])
/-- CTZ: 32 for 0 (R185). -/
def bodyCtz : Body := pureOp (fun _ ws =>
  [BitVec.ofNat 32 (((upto 32).find? (fun j => (nth ws 0 0#32).getLsbD j)).getD 32)])
/-- BREV (R185). -/
def bodyBrev : Body := pureOp (fun _ ws => [(nth ws 0 0#32).reverse])

/-- ICMP: signed under 0x2E, unsigned under 0x2F (R187). -/
def bodyIcmp : Body := pureOp (fun i ws =>
  let t : IntType := if i.op = 0x2E then .s32 else .n32
  [BitVec.ofNat 32 (b2n (intRel (i.f.fn.toNat % 8) (readInt t (nth ws 0 0#32)) (readInt t (lastWord i ws 1))))])
/-- SEL (R188). -/
def bodySel : Body := pureOp (fun _ ws => [if nth ws 0 0#32 = 1#32 then nth ws 1 0#32 else nth ws 2 0#32])
/-- MOV (R189). -/
def bodyMov : Body := pureOp (fun _ ws => [nth ws 0 0#32])
/-- MOVI (R189). -/
def bodyMovi : Body := pureOp (fun i _ => [immWord i.f])
/-- MOVH: IMM[15:0] over the low half of the source (R189). -/
def bodyMovh : Body := pureOp (fun i ws =>
  [(BitVec.ofNat 32 (immField i.f % 65536) <<< 16) ||| (nth ws 0 0#32 &&& 0xFFFF#32)])

/-- Cycles beyond one a beat that MOVX takes: for each beat, the most distinct numbers that its active lanes name in one of
the 8 banks (R111). -/
def movxExtra (core : Nat) (lanes : List Nat) (names : List (Nat × Nat)) : Nat :=
  let w := beatWidth core
  let beat (k : Nat) : Nat :=
    let ls := (lanes.drop (k * w)).take w
    let ns := (names.filter (fun p => ls.contains p.1)).map (·.2)
    max 1 (((upto 8).map (fun b => (ns.eraseDups.filter (fun n => n % 8 == b)).length)).foldl max 0) - 1
  ((upto ((lanes.length + w - 1) / w)).map beat).sum

/-- MOVX: each lane names its own source register (R190); a number at or above the allotment traps, lane by lane. -/
def bodyMovx : Body := fun i ws =>
  let names := (actingWords i ws).map (fun p => (p.1, (nth p.2 0 0#32).toNat))
  let (base, count) := match i.tm.folded, i.tm.fold with
    | true, some fo => (nth fo.vbase fo.stage 0, nth fo.vcount fo.stage 0)
    | _, _ => (0, i.grp.vallot)
  match names.filter (fun p => decide (count ≤ p.2 ∨ i.grp.vallot ≤ p.2 + base)) with
  | bad :: more => .error ⟨encCause i.f.enc 14, (bad :: more).map (·.1), bad.2, 0⟩
  | [] =>
    let vals := names.map (fun p => (p.1, [sourceValue i.grp i.x i.x.off i.now false ⟨p.1, .v (p.2 + base)⟩]))
    .ok { deliver i vals with extra := movxExtra i.g.core i.stood names }

/-- The special register a selector names, for one lane (R191). In the folded form GROUP is the thread's own number, whatever stage's trace it runs:
R191 fixes the values at creation and R315 to R318 say nothing of it (log 56, DESIGN CHOICE). -/
def specialReg (i : Iss) (sel lane : Nat) : Nat :=
  match sel with
  | 0 => lane
  | 1 => i.grp.num
  | 2 => i.tm.teamno
  | 3 => i.tm.gx
  | 4 => i.tm.gy
  | 5 => i.tm.gz
  | 6 => i.grp.role
  | _ => i.grp.width

/-- SREG (R191). -/
def bodySreg : Body := fun i _ =>
  .ok (deliver i (i.acting.map (fun l => (l, [BitVec.ofNat 32 (specialReg i (immField i.f) l)]))))

/-- UMOV: one k register to another, once on the scalar pipe (R192). -/
def bodyUmov : Body := fun i _ =>
  let src := immField i.f % 32
  let dst := immField i.f / 32 % 32
  .ok { writes := [(⟨0, .k dst⟩, sourceValue i.grp i.x i.x.off i.now (servedEarly i.old 0 0) ⟨0, .k src⟩)] }

/-- Integer add fitted to 32 bits by type. (R180) -/
def execAdd (f : Fields) (s : State) : Host.Outcome State Fault Refusal := issueOn 0x10 f bodyAdd s

/-- L9 base-word register form of ADD. (R180) -/
def execAddL9 (f : BitVec 3) (d : BitVec 6) (a : BitVec 6) (b : BitVec 6) (r : BitVec 1) (s : State) : Host.Outcome State Fault Refusal :=
  issueOn 0x10 (baseFields 0x10#8 (0#1 ++ f) d a b r).2 bodyAdd s

/-- Integer subtract fitted to 32 bits by type. (R180) -/
def execSub (f : Fields) (s : State) : Host.Outcome State Fault Refusal := issueOn 0x11 f bodySub s

/-- L9 base-word register form of SUB. (R180) -/
def execSubL9 (f : BitVec 3) (d : BitVec 6) (a : BitVec 6) (b : BitVec 6) (r : BitVec 1) (s : State) : Host.Outcome State Fault Refusal :=
  issueOn 0x11 (baseFields 0x11#8 (0#1 ++ f) d a b r).2 bodySub s

/-- Low 32 bits of the integer product. (R180) -/
def execMullo (f : Fields) (s : State) : Host.Outcome State Fault Refusal := issueOn 0x12 f bodyMullo s

/-- L9 base-word register form of MULLO. (R180) -/
def execMulloL9 (d : BitVec 6) (a : BitVec 6) (b : BitVec 6) (r : BitVec 1) (s : State) : Host.Outcome State Fault Refusal :=
  issueOn 0x12 (baseFields 0x12#8 6#4 d a b r).2 bodyMullo s

/-- High 32 bits of the signed or unsigned product. (R180) -/
def execMulhi (f : Fields) (s : State) : Host.Outcome State Fault Refusal := issueOn 0x13 f bodyMulhi s

/-- L9 base-word register form of MULHI. (R180) -/
def execMulhiL9 (f : BitVec 1) (d : BitVec 6) (a : BitVec 6) (b : BitVec 6) (r : BitVec 1) (s : State) : Host.Outcome State Fault Refusal :=
  issueOn 0x13 (baseFields 0x13#8 (0#3 ++ f) d a b r).2 bodyMulhi s

/-- Multiply-add modulo 2^32. (R180) -/
def execMad (f : Fields) (s : State) : Host.Outcome State Fault Refusal := issueOn 0x14 f bodyMad s

/-- Signed or unsigned minimum. (R180) -/
def execMin (f : Fields) (s : State) : Host.Outcome State Fault Refusal := issueOn 0x15 f bodyMin s

/-- L9 base-word register form of MIN. (R180) -/
def execMinL9 (f : BitVec 1) (d : BitVec 6) (a : BitVec 6) (b : BitVec 6) (r : BitVec 1) (s : State) : Host.Outcome State Fault Refusal :=
  issueOn 0x15 (baseFields 0x15#8 (0#3 ++ f) d a b r).2 bodyMin s

/-- Signed or unsigned maximum. (R180) -/
def execMax (f : Fields) (s : State) : Host.Outcome State Fault Refusal := issueOn 0x16 f bodyMax s

/-- L9 base-word register form of MAX. (R180) -/
def execMaxL9 (f : BitVec 1) (d : BitVec 6) (a : BitVec 6) (b : BitVec 6) (r : BitVec 1) (s : State) : Host.Outcome State Fault Refusal :=
  issueOn 0x16 (baseFields 0x16#8 (0#3 ++ f) d a b r).2 bodyMax s

/-- Saturating signed absolute value. (R180) -/
def execAbs (f : Fields) (s : State) : Host.Outcome State Fault Refusal := issueOn 0x17 f bodyAbs s

/-- L9 base-word form of ABS. (R180) -/
def execAbsL9 (d : BitVec 6) (a : BitVec 6) (r : BitVec 1) (s : State) : Host.Outcome State Fault Refusal :=
  issueOn 0x17 (baseFields 0x17#8 0#4 d a 0#6 r).2 bodyAbs s

/-- Negation, saturating for .S32 or wrapping for .B32. (R180) -/
def execNeg (f : Fields) (s : State) : Host.Outcome State Fault Refusal := issueOn 0x18 f bodyNeg s

/-- L9 base-word form of NEG. (R180) -/
def execNegL9 (f : BitVec 2) (d : BitVec 6) (a : BitVec 6) (r : BitVec 1) (s : State) : Host.Outcome State Fault Refusal :=
  issueOn 0x18 (baseFields 0x18#8 (0#1 ++ f ++ 0#1) d a 0#6 r).2 bodyNeg s

/-- 64-bit address add of a sign-extended offset, wrapping. (R182) -/
def execAadd (f : Fields) (s : State) : Host.Outcome State Fault Refusal := issueOn 0x19 f bodyAadd s

/-- L9 base-word register form of AADD. (R182) -/
def execAaddL9 (d : BitVec 6) (a : BitVec 6) (b : BitVec 6) (r : BitVec 1) (s : State) : Host.Outcome State Fault Refusal :=
  issueOn 0x19 (baseFields 0x19#8 7#4 d a b r).2 bodyAadd s

/-- 64-bit address plus an exact 32-bit product, wrapping. (R182) -/
def execAmad (f : Fields) (s : State) : Host.Outcome State Fault Refusal := issueOn 0x1A f bodyAmad s

/-- Bitwise and. (R185) -/
def execAnd (f : Fields) (s : State) : Host.Outcome State Fault Refusal := issueOn 0x20 f bodyAnd s

/-- L9 base-word register form of AND. (R185) -/
def execAndL9 (d : BitVec 6) (a : BitVec 6) (b : BitVec 6) (r : BitVec 1) (s : State) : Host.Outcome State Fault Refusal :=
  issueOn 0x20 (baseFields 0x20#8 6#4 d a b r).2 bodyAnd s

/-- Bitwise or. (R185) -/
def execOr (f : Fields) (s : State) : Host.Outcome State Fault Refusal := issueOn 0x21 f bodyOr s

/-- L9 base-word register form of OR. (R185) -/
def execOrL9 (d : BitVec 6) (a : BitVec 6) (b : BitVec 6) (r : BitVec 1) (s : State) : Host.Outcome State Fault Refusal :=
  issueOn 0x21 (baseFields 0x21#8 6#4 d a b r).2 bodyOr s

/-- Bitwise exclusive or. (R185) -/
def execXor (f : Fields) (s : State) : Host.Outcome State Fault Refusal := issueOn 0x22 f bodyXor s

/-- L9 base-word register form of XOR. (R185) -/
def execXorL9 (d : BitVec 6) (a : BitVec 6) (b : BitVec 6) (r : BitVec 1) (s : State) : Host.Outcome State Fault Refusal :=
  issueOn 0x22 (baseFields 0x22#8 6#4 d a b r).2 bodyXor s

/-- Bitwise and with the complement of the second source. (R185) -/
def execAndn (f : Fields) (s : State) : Host.Outcome State Fault Refusal := issueOn 0x23 f bodyAndn s

/-- L9 base-word register form of ANDN. (R185) -/
def execAndnL9 (d : BitVec 6) (a : BitVec 6) (b : BitVec 6) (r : BitVec 1) (s : State) : Host.Outcome State Fault Refusal :=
  issueOn 0x23 (baseFields 0x23#8 6#4 d a b r).2 bodyAndn s

/-- Bitwise complement. (R185) -/
def execNot (f : Fields) (s : State) : Host.Outcome State Fault Refusal := issueOn 0x24 f bodyNot s

/-- L9 base-word form of NOT. (R185) -/
def execNotL9 (d : BitVec 6) (a : BitVec 6) (r : BitVec 1) (s : State) : Host.Outcome State Fault Refusal :=
  issueOn 0x24 (baseFields 0x24#8 6#4 d a 0#6 r).2 bodyNot s

/-- Shift left, giving 0 for counts of 32 or more. (R185) -/
def execShl (f : Fields) (s : State) : Host.Outcome State Fault Refusal := issueOn 0x25 f bodyShl s

/-- L9 base-word register form of SHL. (R185) -/
def execShlL9 (d : BitVec 6) (a : BitVec 6) (b : BitVec 6) (r : BitVec 1) (s : State) : Host.Outcome State Fault Refusal :=
  issueOn 0x25 (baseFields 0x25#8 6#4 d a b r).2 bodyShl s

/-- Arithmetic or logical shift right. (R185) -/
def execShr (f : Fields) (s : State) : Host.Outcome State Fault Refusal := issueOn 0x26 f bodyShr s

/-- L9 base-word register form of SHR. (R185) -/
def execShrL9 (f : BitVec 1) (d : BitVec 6) (a : BitVec 6) (b : BitVec 6) (r : BitVec 1) (s : State) : Host.Outcome State Fault Refusal :=
  issueOn 0x26 (baseFields 0x26#8 (0#3 ++ f) d a b r).2 bodyShr s

/-- Rotate left by bits [4:0]. (R185) -/
def execRot (f : Fields) (s : State) : Host.Outcome State Fault Refusal := issueOn 0x27 f bodyRot s

/-- L9 base-word register form of ROT. (R185) -/
def execRotL9 (d : BitVec 6) (a : BitVec 6) (b : BitVec 6) (r : BitVec 1) (s : State) : Host.Outcome State Fault Refusal :=
  issueOn 0x27 (baseFields 0x27#8 6#4 d a b r).2 bodyRot s

/-- Bit-field extract, sign- or zero-extended. (R185) -/
def execBfx (f : Fields) (s : State) : Host.Outcome State Fault Refusal := issueOn 0x28 f bodyBfx s

/-- L9 base-word register form of BFX. (R185) -/
def execBfxL9 (f : BitVec 1) (d : BitVec 6) (a : BitVec 6) (b : BitVec 6) (r : BitVec 1) (s : State) : Host.Outcome State Fault Refusal :=
  issueOn 0x28 (baseFields 0x28#8 (0#3 ++ f) d a b r).2 bodyBfx s

/-- Bit-field insert. (R185) -/
def execBfi (f : Fields) (s : State) : Host.Outcome State Fault Refusal := issueOn 0x29 f bodyBfi s

/-- Population count. (R185) -/
def execPopc (f : Fields) (s : State) : Host.Outcome State Fault Refusal := issueOn 0x2A f bodyPopc s

/-- L9 base-word form of POPC. (R185) -/
def execPopcL9 (d : BitVec 6) (a : BitVec 6) (r : BitVec 1) (s : State) : Host.Outcome State Fault Refusal :=
  issueOn 0x2A (baseFields 0x2A#8 6#4 d a 0#6 r).2 bodyPopc s

/-- Count leading zeros. (R185) -/
def execClz (f : Fields) (s : State) : Host.Outcome State Fault Refusal := issueOn 0x2B f bodyClz s

/-- L9 base-word form of CLZ. (R185) -/
def execClzL9 (d : BitVec 6) (a : BitVec 6) (r : BitVec 1) (s : State) : Host.Outcome State Fault Refusal :=
  issueOn 0x2B (baseFields 0x2B#8 6#4 d a 0#6 r).2 bodyClz s

/-- Count trailing zeros. (R185) -/
def execCtz (f : Fields) (s : State) : Host.Outcome State Fault Refusal := issueOn 0x2C f bodyCtz s

/-- L9 base-word form of CTZ. (R185) -/
def execCtzL9 (d : BitVec 6) (a : BitVec 6) (r : BitVec 1) (s : State) : Host.Outcome State Fault Refusal :=
  issueOn 0x2C (baseFields 0x2C#8 6#4 d a 0#6 r).2 bodyCtz s

/-- Bit reversal. (R185) -/
def execBrev (f : Fields) (s : State) : Host.Outcome State Fault Refusal := issueOn 0x2D f bodyBrev s

/-- L9 base-word form of BREV. (R185) -/
def execBrevL9 (d : BitVec 6) (a : BitVec 6) (r : BitVec 1) (s : State) : Host.Outcome State Fault Refusal :=
  issueOn 0x2D (baseFields 0x2D#8 6#4 d a 0#6 r).2 bodyBrev s

/-- Signed or unsigned integer compare into a per-lane predicate. (R187) -/
def execIcmp (n32 : Bool) (f : Fields) (s : State) : Host.Outcome State Fault Refusal :=
  issueOn (if n32 then 0x2F else 0x2E) f bodyIcmp s

/-- L9 base-word register form of ICMP, the OP's low bit selecting .S32 or .N32. (R187) -/
def execIcmpL9 (s : BitVec 1) (c : BitVec 3) (d : BitVec 6) (a : BitVec 6) (b : BitVec 6) (r : BitVec 1) (st : State) : Host.Outcome State Fault Refusal :=
  issueOn (if s == 1#1 then 0x2F else 0x2E) (baseFields 0x2E#8 (0#1 ++ c) d a b r).2 bodyIcmp st

/-- Per-lane select by a predicate. (R188) -/
def execSel (f : Fields) (s : State) : Host.Outcome State Fault Refusal := issueOn 0x30 f bodySel s

/-- Register move. (R189) -/
def execMov (f : Fields) (s : State) : Host.Outcome State Fault Refusal := issueOn 0x31 f bodyMov s

/-- L9 base-word form of MOV. (R189) -/
def execMovL9 (d : BitVec 6) (a : BitVec 6) (r : BitVec 1) (s : State) : Host.Outcome State Fault Refusal :=
  issueOn 0x31 (baseFields 0x31#8 6#4 d a 0#6 r).2 bodyMov s

/-- Move a sign-extended immediate. (R189) -/
def execMovi (f : Fields) (s : State) : Host.Outcome State Fault Refusal := issueOn 0x32 f bodyMovi s

/-- Replace the high 16 bits with an immediate. (R189) -/
def execMovh (f : Fields) (s : State) : Host.Outcome State Fault Refusal := issueOn 0x33 f bodyMovh s

/-- Each lane moves from the register number it computes. (R190) -/
def execMovx (f : Fields) (s : State) : Host.Outcome State Fault Refusal := issueOn 0x34 f bodyMovx s

/-- L9 base-word form of MOVX. (R190) -/
def execMovxL9 (d : BitVec 6) (a : BitVec 6) (r : BitVec 1) (s : State) : Host.Outcome State Fault Refusal :=
  issueOn 0x34 (baseFields 0x34#8 6#4 d a 0#6 r).2 bodyMovx s

/-- Reads a special register such as LANE, GROUP, TEAM or WIDTH. (R191) -/
def execSreg (f : Fields) (s : State) : Host.Outcome State Fault Refusal := issueOn 0x35 f bodySreg s

/-- Copies one uniform register to another on the scalar pipe. (R192) -/
def execUmov (f : Fields) (s : State) : Host.Outcome State Fault Refusal := issueOn 0x88 f bodyUmov s

end Sys2Proof.Machine
end

