-- ==== Sys2Proof/Machine/Lane.lean ====
section
/-!
DEFINITION. Predicate logic and the cross-lane instructions (R193 to R200).
-/
namespace Sys2Proof.Machine

/-- A predicate result of two predicate sources (R193). -/
def predOp2 (h : Bool → Bool → Bool) : Body := pureOp (fun _ ws =>
  [BitVec.ofNat 32 (b2n (h (nth ws 0 0#32 == 1#32) (nth ws 1 0#32 == 1#32)))])
/-- PAND (R193). -/
def bodyPand : Body := predOp2 (fun a b => a && b)
/-- POR (R193). -/
def bodyPor : Body := predOp2 (fun a b => a || b)
/-- PXOR (R193). -/
def bodyPxor : Body := predOp2 (fun a b => a != b)
/-- PNOT (R193). -/
def bodyPnot : Body := pureOp (fun _ ws => [if nth ws 0 0#32 = 1#32 then 0#32 else 1#32])

/-- Every acting lane consumes from every acting lane (R195). -/
def usesAll (i : Iss) : List (Nat × Nat) := i.acting.flatMap (fun l => i.acting.map (fun m => (l, m)))

/-- VOTE: ALL, ANY, BALLOT of the lane's own 32-lane segment, EQ, over the acting lanes (R196). -/
def bodyVote : Body := fun i ws =>
  let a := i.acting
  let holds (l : Nat) : Bool := srcOf ws l == 1#32
  let ofBool (b : Bool) : Word := BitVec.ofNat 32 (b2n b)
  let val (l : Nat) : Word :=
    match i.f.fn.toNat % 8 with
    | 0 => ofBool (a.all holds)
    | 1 => ofBool (a.any holds)
    | 2 =>
      let s := 32 * (l / 32)
      BitVec.ofNat 32 ((a.filter (fun j => decide (s ≤ j ∧ j < s + 32) && holds j)).map (fun j => 2 ^ (j - s))).sum
    | _ => ofBool (a.all (fun j => srcOf ws j == srcOf ws (a.headD 0)))
  .ok { deliver i (a.map (fun l => (l, [val l]))) with uses := usesAll i }

/-- ELECT: 1 in the lowest acting lane, 0 in the others (R197). -/
def bodyElect : Body := fun i _ =>
  .ok { deliver i (i.acting.map (fun l => (l, [BitVec.ofNat 32 (b2n (l == i.acting.headD 0))]))) with uses := usesAll i }

/-- READLANE: one present lane's value for the whole group, 0 where the lane named is absent (R198). -/
def bodyReadlane : Body := fun i ws =>
  let (lead, j) := readlaneNames i ws
  let v : Word := if i.here.contains j then srcOf ws j else 0#32
  let uses := (if i.scalar then i.here else i.acting).flatMap (fun l => (l, lead) :: (if i.here.contains j then [(l, j)] else []))
  .ok { deliver i (i.acting.map (fun l => (l, [v]))) with uses := uses }

/-- SHFL: another lane's source where it is in range and present, else the lane's own (R199). -/
def bodyShfl : Body := fun i ws =>
  .ok { deliver i (i.acting.map (fun l => (l, [srcOf ws ((shflNames i ws l).getD l)]))) with
        uses := i.acting.filterMap (fun l => (shflNames i ws l).map (fun j => (l, j))) }

/-- Predicate and. (R193) -/
def execPand (f : Fields) (s : State) : Host.Outcome State Fault Refusal := issueOn 0x80 f bodyPand s

/-- L9 base-word form of PAND. (R193) -/
def execPandL9 (d : BitVec 6) (a : BitVec 6) (b : BitVec 6) (r : BitVec 1) (s : State) : Host.Outcome State Fault Refusal :=
  issueOn 0x80 (baseFields 0x80#8 0#4 d a b r).2 bodyPand s

/-- Predicate or. (R193) -/
def execPor (f : Fields) (s : State) : Host.Outcome State Fault Refusal := issueOn 0x81 f bodyPor s

/-- L9 base-word form of POR. (R193) -/
def execPorL9 (d : BitVec 6) (a : BitVec 6) (b : BitVec 6) (r : BitVec 1) (s : State) : Host.Outcome State Fault Refusal :=
  issueOn 0x81 (baseFields 0x81#8 0#4 d a b r).2 bodyPor s

/-- Predicate exclusive or. (R193) -/
def execPxor (f : Fields) (s : State) : Host.Outcome State Fault Refusal := issueOn 0x82 f bodyPxor s

/-- L9 base-word form of PXOR. (R193) -/
def execPxorL9 (d : BitVec 6) (a : BitVec 6) (b : BitVec 6) (r : BitVec 1) (s : State) : Host.Outcome State Fault Refusal :=
  issueOn 0x82 (baseFields 0x82#8 0#4 d a b r).2 bodyPxor s

/-- Predicate complement. (R193) -/
def execPnot (f : Fields) (s : State) : Host.Outcome State Fault Refusal := issueOn 0x83 f bodyPnot s

/-- L9 base-word form of PNOT. (R193) -/
def execPnotL9 (d : BitVec 6) (a : BitVec 6) (r : BitVec 1) (s : State) : Host.Outcome State Fault Refusal :=
  issueOn 0x83 (baseFields 0x83#8 0#4 d a 0#6 r).2 bodyPnot s

/-- ALL, ANY, EQ or BALLOT vote over the acting lanes. (R196) -/
def execVote (f : Fields) (s : State) : Host.Outcome State Fault Refusal := issueOn 0x84 f bodyVote s

/-- L9 base-word form of VOTE. (R196) -/
def execVoteL9 (f : BitVec 2) (d : BitVec 6) (a : BitVec 6) (r : BitVec 1) (s : State) : Host.Outcome State Fault Refusal :=
  issueOn 0x84 (baseFields 0x84#8 (0#2 ++ f) d a 0#6 r).2 bodyVote s

/-- Sets the predicate in the lowest acting lane only. (R197) -/
def execElect (f : Fields) (s : State) : Host.Outcome State Fault Refusal := issueOn 0x85 f bodyElect s

/-- L9 base-word form of ELECT. (R197) -/
def execElectL9 (d : BitVec 6) (r : BitVec 1) (s : State) : Host.Outcome State Fault Refusal :=
  issueOn 0x85 (baseFields 0x85#8 0#4 d 0#6 0#6 r).2 bodyElect s

/-- Reads one lane's value for the whole group, possibly into a k register. (R198) -/
def execReadlane (f : Fields) (s : State) : Host.Outcome State Fault Refusal := issueOn 0x86 f bodyReadlane s

/-- L9 base-word register form of READLANE. (R198) -/
def execReadlaneL9 (d : BitVec 6) (a : BitVec 6) (b : BitVec 6) (r : BitVec 1) (s : State) : Host.Outcome State Fault Refusal :=
  issueOn 0x86 (baseFields 0x86#8 6#4 d a b r).2 bodyReadlane s

/-- Each acting lane takes a source lane's value by index, up, down or xor. (R199) -/
def execShfl (f : Fields) (s : State) : Host.Outcome State Fault Refusal := issueOn 0x87 f bodyShfl s

/-- L9 base-word register form of SHFL. (R199) -/
def execShflL9 (f : BitVec 2) (d : BitVec 6) (a : BitVec 6) (b : BitVec 6) (r : BitVec 1) (s : State) : Host.Outcome State Fault Refusal :=
  issueOn 0x87 (baseFields 0x87#8 (0#2 ++ f) d a b r).2 bodyShfl s

end Sys2Proof.Machine
end

