-- ==== Sys2Proof/Machine/Float.lean ====
section
/-!
DEFINITION. Floating point and conversion (R201 to R220): every element is decoded, computed exactly and rounded once.
-/
namespace Sys2Proof.Machine

/-- A word of 32 bits from a number. -/
def w32 (n : Nat) : Word := BitVec.ofNat 32 n

/-- Apply an element operation to F32 words, or to both halves of packed words (R201). -/
def onElements (typ : Nat) (h : FloatFormat → List Nat → Nat) (ws : List Word) : Word :=
  if typ = 0 then w32 (h f32 (ws.map (·.toNat)))
  else
    let f := floatType typ
    w32 (h f (ws.map (fun w => w.toNat % 65536)) + 65536 * h f (ws.map (fun w => w.toNat / 65536)))

/-- The sources of a float instruction, the last replaced by the immediate in the immediate form (R123). -/
def floatSources (i : Iss) (ws : List Word) (n : Nat) : List Word :=
  if immForm i.r i.f then ws.take (n - 1) ++ [immFloat i.f] else ws

/-- A float instruction of `n` sources, element by element (R201, R205). -/
def floatOp (n : Nat) (h : FloatFormat → List Nat → Nat) : Body := pureOp (fun i ws =>
  [onElements (i.f.fn.toNat % 8) h (floatSources i ws n)])

/-- Element `k` of the sources, decoded. -/
def el (f : FloatFormat) (xs : List Nat) (k : Nat) : Val := f.decode (nth xs k 0)

/-- FADD (R205). -/
def bodyFadd : Body := floatOp 2 (fun f xs => f.rne ((el f xs 0).add (el f xs 1)))
/-- FSUB (R205). -/
def bodyFsub : Body := floatOp 2 (fun f xs => f.rne ((el f xs 0).add (el f xs 1).neg))
/-- FMUL (R205). -/
def bodyFmul : Body := floatOp 2 (fun f xs => f.rne ((el f xs 0).mul (el f xs 1)))
/-- FMA: the product is not rounded (R205). -/
def bodyFma : Body := floatOp 3 (fun f xs => f.rne (((el f xs 0).mul (el f xs 1)).add (el f xs 2)))
/-- FMIN (R206). -/
def bodyFmin : Body := floatOp 2 (fun f xs => f.pickOf false (nth xs 0 0) (nth xs 1 0))
/-- FMAX (R206). -/
def bodyFmax : Body := floatOp 2 (fun f xs => f.pickOf true (nth xs 0 0) (nth xs 1 0))

/-- The relation of FCMP (R207): EQ, NE, LT, LE, GT, GE, UN. -/
def floatRel (cc : Nat) (a b : Val) : Bool :=
  let un := a == .nan || b == .nan
  match cc with
  | 0 => a.eqv b
  | 1 => !a.eqv b
  | 2 => a.lt b
  | 3 => !un && !b.lt a
  | 4 => b.lt a
  | 5 => !un && !a.lt b
  | _ => un

/-- FCMP (R207). -/
def bodyFcmp : Body := pureOp (fun i ws =>
  let xs := (floatSources i ws 2).map (·.toNat)
  [w32 (b2n (floatRel (i.f.fn.toNat % 8) (el f32 xs 0) (el f32 xs 1)))])

/-- The result of an approximated function: the free candidate where it lies within the bound, else the nearest (R208, R209,
log 9, DESIGN CHOICE). -/
def approxResult (op arg ulps : Nat) (floor24 cap : Bool) (y : Val) : Nat :=
  let c := Sys2Proof.Config.approx op arg % 2 ^ 32
  if within c ulps floor24 y && (!cap || decide (c % 2 ^ 31 ≤ 0x3F800000)) then c else f32.rne y

/-- A unary function of R208 at an F32 encoding, by its opcode. -/
def unaryFloat (op w : Nat) : Nat :=
  let inf (n : Bool) : Nat := f32.pack n 0x7F800000
  let one (n : Bool) : Nat := f32.pack n 0x3F800000
  match f32.decode w with
  | .nan => f32.nan
  | .inf n =>
    match op with
    | 0x47 => f32.pack n 0
    | 0x48 => if n then f32.nan else 0
    | 0x49 => if n then f32.nan else inf false
    | 0x4A => if n then 0 else inf false
    | 0x4B => if n then f32.nan else inf false
    | 0x4C => one n
    | 0x4D => one n
    | _ => f32.nan
  | .fin n 0 _ =>
    match op with
    | 0x47 => inf n
    | 0x48 => inf n
    | 0x49 => f32.pack n 0
    | 0x4A => one false
    | 0x4B => inf true
    | 0x4F => one false
    | _ => f32.pack n 0
  | .fin n m e =>
    match op with
    | 0x47 => f32.rne (recipOf n m e)
    | 0x48 => if n then f32.nan else approxResult op w 1 false false (trueValue op m n e)
    | 0x49 => if n then f32.nan else f32.rne (sqrtOf m e)
    | 0x4A =>
      let v := Val.fin n m e
      let whole := m % 2 ^ (-e).toNat = 0
      let k : Int := signedAt n m e (min e 0) / 2 ^ (-(min e 0)).toNat
      if !v.lt (.fin false 128 0) then inf false
      else if !(Val.fin true 150 0).lt v then 0
      else if whole ∧ -149 ≤ k then f32.rne (.fin false 1 k)
      else approxResult op w 1 false false (trueValue op m n e)
    | 0x4B =>
      if n then f32.nan
      else if m = 2 ^ Nat.log2 m then f32.rne (ofSigned ((Nat.log2 m : Int) + e) 0)
      else approxResult op w 1 true false (trueValue op m n e)
    | 0x4F => approxResult op (w % 2 ^ 31) 2 true true (trueValue op m false e)
    | _ =>
      let r := approxResult op (w % 2 ^ 31) 2 true true (trueValue op m false e)
      if n then r ^^^ 2 ^ 31 else r

/-- A unary F32 instruction (R208). -/
def bodyUnary : Body := pureOp (fun i ws => [w32 (unaryFloat i.op (nth ws 0 0#32).toNat)])
/-- FRCP (R208). -/
def bodyFrcp : Body := bodyUnary
/-- FRSQ (R208). -/
def bodyFrsq : Body := bodyUnary
/-- FSQRT (R208). -/
def bodyFsqrt : Body := bodyUnary
/-- FEXP2 (R208). -/
def bodyFexp2 : Body := bodyUnary
/-- FLOG2 (R208). -/
def bodyFlog2 : Body := bodyUnary
/-- FTANH (R208). -/
def bodyFtanh : Body := bodyUnary
/-- FERF (R208). -/
def bodyFerf : Body := bodyUnary
/-- FSIN (R208). -/
def bodyFsin : Body := bodyUnary
/-- FCOS (R208). -/
def bodyFcos : Body := bodyUnary

/-- LDEXP (R210): beyond ±512 an exponent changes no result, so it is limited there. -/
def bodyLdexp : Body := pureOp (fun i ws =>
  [w32 (f32.rne ((f32.decode (nth ws 0 0#32).toNat).scale (max (-512) (min 512 (lastWord i ws 1).toInt))))])

/-- A finite F32 value rounded to an integer by mode, keeping its sign (R210). -/
def toInteger (mode : Mode) : Val → Val
  | .fin n m e => .fin n (roundAt mode n m e 0 0) 0
  | v => v

/-- FRND (R210). -/
def bodyFrnd : Body := pureOp (fun i ws => [w32 (f32.rne (toInteger (modeOf (i.f.fn.toNat % 8)) (f32.decode (nth ws 0 0#32).toNat)))])

/-- The fraction of a value, with its sign (R210). -/
def fractionOf : Val → Val
  | .fin n m e => .fin n (m % 2 ^ (-e).toNat) e
  | _ => .nan

/-- FRAC (R210). -/
def bodyFrac : Body := pureOp (fun _ ws => [w32 (f32.rne (fractionOf (f32.decode (nth ws 0 0#32).toNat)))])

/-- One level of the summation tree (R63): neighbours joined, an absent one passing its partner through. -/
def fredLevel : List (Option Nat) → List (Option Nat)
  | a :: b :: l =>
    (match a, b with
     | none, b => b
     | a, none => a
     | some a, some b => some (f32.rne ((f32.decode a).add (f32.decode b)))) :: fredLevel l
  | l => l

/-- The sum over the tree (R63), with a NaN made canonical (R212). -/
def fredSum (xs : List (Option Nat)) : Nat :=
  let r := (upto 8).foldl (fun l _ => fredLevel l) xs
  match (r.headD none) with
  | some v => f32.rne (f32.decode v)
  | none => 0

/-- FRED (R211, R212). -/
def bodyFred : Body := fun i ws =>
  let v := fredSum ((upto i.grp.width).map (fun l => if i.acting.contains l then some (srcOf ws l).toNat else none))
  .ok { deliver i (i.acting.map (fun l => (l, [w32 v]))) with uses := usesAll i }

/-- The elements of a word by float type code (R201). -/
def elementsOf (typ : Nat) (w : Word) : List Val :=
  if typ = 0 then [f32.decode w.toNat]
  else [(floatType typ).decode (w.toNat % 65536), (floatType typ).decode (w.toNat / 65536)]

/-- The absolute value. -/
def Val.abs : Val → Val
  | .nan => .nan
  | .inf _ => .inf false
  | .fin _ m e => .fin false m e

/-- The larger of two magnitudes, a NaN winning (R213). -/
def Val.absMax (a b : Val) : Val :=
  match a, b with
  | .nan, _ => .nan
  | _, .nan => .nan
  | a, b => if a.lt b.abs then b.abs else a

/-- FAMAX (R211, R213). -/
def bodyFamax : Body := fun i ws =>
  let m := (i.acting.flatMap (fun l => elementsOf (i.f.fn.toNat % 8) (srcOf ws l))).foldl Val.absMax (.fin false 0 0)
  .ok { deliver i (i.acting.map (fun l => (l, [w32 (f32.rne m)]))) with uses := usesAll i }

/-- The SC8 scale of an absolute maximum for a target (R214). -/
def scaleFor (fn w : Nat) : Nat :=
  let m := match fn with | 0 => 448 | 1 => 57344 | 2 => 3 | 3 => 7 | _ => 31
  match (f32.decode w).abs with
  | .fin _ a e => ((upto 255).find? (fun (k : Nat) => !(Val.fin false m ((k : Int) - 127)).lt (.fin false a e))).getD 254
  | _ => 255

/-- SCALE (R214). -/
def bodyScale : Body := pureOp (fun i ws => [w32 (scaleFor (i.f.fn.toNat % 8) (nth ws 0 0#32).toNat)])

/-- The lane's stochastic-rounding state as the execution has left it (R60, R62). -/
def srState (i : Iss) (lane : Nat) : Word := sourceValue i.grp i.x i.x.off i.now false ⟨lane, .sr⟩

/-- Whether a conversion format is wide (R217). -/
def isWide (x : Nat) : Bool := x == 0 || x == 1 || x == 2 || (7 ≤ x && x ≤ 10)

/-- Fill the bits above an element: with its sign for a signed integer format, else zero (R216). -/
def fillElement : Format → Nat → Word
  | .int f, v => if f.signed then (BitVec.ofNat f.width v).signExtend 32 else w32 v
  | .float _, v => w32 v

/-- The value converted: the source element under its scale (R217, R218). -/
def convValue (src : Nat) (sf : Format) (a : Word) (scale : Option Word) : Val :=
  let x := sf.decode a.toNat
  match scale with
  | none => x
  | some s =>
    let e := s.toNat % 256
    if e = 255 then .nan else x.scale (if isWide src then 127 - (e : Int) else (e : Int) - 127)

/-- CVT (R215 to R218): each acting lane's result, and its new state where it draws. -/
def bodyCvt : Body := fun i ws =>
  let c := ctrlField i.f
  let (src, dst) := (c % 16, c / 16 % 16)
  let sf := (convFormat src).getD (.float f32)
  let df := (convFormat dst).getD (.float f32)
  let ovf : Overflow := match c / 256 with | 1 => .saturate | 2 => .toNan | _ => .default
  let mode := modeOf (i.f.fn.toNat % 8)
  let hasScale := match i.o.sb with | .none => false | _ => true
  let one (l : Nat) (w : List Word) : (Nat × List Word) × List (Place × Word) :=
    let x := convValue src sf (nth w 0 0#32) (if hasScale then some (nth w 1 0#32) else none)
    let draws := decide (mode = .sr) && x.nonzeroFinite
    let st := srStep (srState i l)
    let v := if src = dst then (match x with | .nan => df.encode .rne .default 0 x | _ => (nth w 0 0#32).toNat % 2 ^ df.width)
      else df.encode mode ovf (if draws then srBits st else 0) x
    ((l, [fillElement df v]), if draws then [(⟨l, .sr⟩, st)] else [])
  let rs := (actingWords i ws).map (fun p => one p.1 p.2)
  let r := deliver i (rs.map (·.1))
  .ok { r with writes := r.writes ++ rs.flatMap (·.2) }

/-- Width and slots of a packed W format (R220). -/
def packShape : Nat → Nat × Nat
  | 0 => (3, 10)
  | 1 => (4, 8)
  | _ => (6, 5)

/-- PACKW (R220). -/
def bodyPackw : Body := pureOp (fun i ws =>
  let (w, p) := packShape (i.f.fn.toNat % 8)
  let v := max (-2 ^ (w - 1)) (min (2 ^ (w - 1) - 1) (nth ws 1 0#32).toInt)
  [w32 (((nth ws 0 0#32).toNat % 2 ^ (w * p)) / 2 ^ w + (v % 2 ^ w).toNat * 2 ^ (w * (p - 1)))])

/-- UNPKW (R220). -/
def bodyUnpkw : Body := pureOp (fun i ws =>
  let (w, p) := packShape (i.f.fn.toNat % 8)
  let k := (nth ws 1 0#32).toNat
  [if p ≤ k then 0#32 else (BitVec.ofNat w ((nth ws 0 0#32).toNat / 2 ^ (w * k))).signExtend 32])

/-- Float add rounded once with RNE. (R205) -/
def execFadd (f : Fields) (s : State) : Host.Outcome State Fault Refusal := issueOn 0x40 f bodyFadd s

/-- L9 base-word register form of FADD. (R205) -/
def execFaddL9 (f : BitVec 3) (d : BitVec 6) (a : BitVec 6) (b : BitVec 6) (r : BitVec 1) (s : State) : Host.Outcome State Fault Refusal :=
  issueOn 0x40 (baseFields 0x40#8 (0#1 ++ f) d a b r).2 bodyFadd s

/-- Float subtract rounded once with RNE. (R205) -/
def execFsub (f : Fields) (s : State) : Host.Outcome State Fault Refusal := issueOn 0x41 f bodyFsub s

/-- L9 base-word register form of FSUB. (R205) -/
def execFsubL9 (f : BitVec 3) (d : BitVec 6) (a : BitVec 6) (b : BitVec 6) (r : BitVec 1) (s : State) : Host.Outcome State Fault Refusal :=
  issueOn 0x41 (baseFields 0x41#8 (0#1 ++ f) d a b r).2 bodyFsub s

/-- Float multiply rounded once with RNE. (R205) -/
def execFmul (f : Fields) (s : State) : Host.Outcome State Fault Refusal := issueOn 0x42 f bodyFmul s

/-- L9 base-word register form of FMUL. (R205) -/
def execFmulL9 (f : BitVec 3) (d : BitVec 6) (a : BitVec 6) (b : BitVec 6) (r : BitVec 1) (s : State) : Host.Outcome State Fault Refusal :=
  issueOn 0x42 (baseFields 0x42#8 (0#1 ++ f) d a b r).2 bodyFmul s

/-- Fused multiply-add rounded once. (R205) -/
def execFma (f : Fields) (s : State) : Host.Outcome State Fault Refusal := issueOn 0x43 f bodyFma s

/-- Float minimum ignoring a single NaN. (R206) -/
def execFmin (f : Fields) (s : State) : Host.Outcome State Fault Refusal := issueOn 0x44 f bodyFmin s

/-- L9 base-word register form of FMIN. (R206) -/
def execFminL9 (f : BitVec 3) (d : BitVec 6) (a : BitVec 6) (b : BitVec 6) (r : BitVec 1) (s : State) : Host.Outcome State Fault Refusal :=
  issueOn 0x44 (baseFields 0x44#8 (0#1 ++ f) d a b r).2 bodyFmin s

/-- Float maximum ignoring a single NaN. (R206) -/
def execFmax (f : Fields) (s : State) : Host.Outcome State Fault Refusal := issueOn 0x45 f bodyFmax s

/-- L9 base-word register form of FMAX. (R206) -/
def execFmaxL9 (f : BitVec 3) (d : BitVec 6) (a : BitVec 6) (b : BitVec 6) (r : BitVec 1) (s : State) : Host.Outcome State Fault Refusal :=
  issueOn 0x45 (baseFields 0x45#8 (0#1 ++ f) d a b r).2 bodyFmax s

/-- F32 compare into a per-lane predicate. (R207) -/
def execFcmp (f : Fields) (s : State) : Host.Outcome State Fault Refusal := issueOn 0x46 f bodyFcmp s

/-- L9 base-word register form of FCMP. (R207) -/
def execFcmpL9 (c : BitVec 3) (d : BitVec 6) (a : BitVec 6) (b : BitVec 6) (r : BitVec 1) (s : State) : Host.Outcome State Fault Refusal :=
  issueOn 0x46 (baseFields 0x46#8 (0#1 ++ c) d a b r).2 bodyFcmp s

/-- Correctly rounded reciprocal. (R208) -/
def execFrcp (f : Fields) (s : State) : Host.Outcome State Fault Refusal := issueOn 0x47 f bodyFrcp s

/-- L9 base-word form of FRCP. (R208) -/
def execFrcpL9 (d : BitVec 6) (a : BitVec 6) (r : BitVec 1) (s : State) : Host.Outcome State Fault Refusal :=
  issueOn 0x47 (baseFields 0x47#8 0#4 d a 0#6 r).2 bodyFrcp s

/-- Reciprocal square root within 1 ulp. (R208) -/
def execFrsq (f : Fields) (s : State) : Host.Outcome State Fault Refusal := issueOn 0x48 f bodyFrsq s

/-- L9 base-word form of FRSQ. (R208) -/
def execFrsqL9 (d : BitVec 6) (a : BitVec 6) (r : BitVec 1) (s : State) : Host.Outcome State Fault Refusal :=
  issueOn 0x48 (baseFields 0x48#8 0#4 d a 0#6 r).2 bodyFrsq s

/-- Correctly rounded square root. (R208) -/
def execFsqrt (f : Fields) (s : State) : Host.Outcome State Fault Refusal := issueOn 0x49 f bodyFsqrt s

/-- L9 base-word form of FSQRT. (R208) -/
def execFsqrtL9 (d : BitVec 6) (a : BitVec 6) (r : BitVec 1) (s : State) : Host.Outcome State Fault Refusal :=
  issueOn 0x49 (baseFields 0x49#8 0#4 d a 0#6 r).2 bodyFsqrt s

/-- Base-2 exponential within 1 ulp. (R208) -/
def execFexp2 (f : Fields) (s : State) : Host.Outcome State Fault Refusal := issueOn 0x4A f bodyFexp2 s

/-- L9 base-word form of FEXP2. (R208) -/
def execFexp2L9 (d : BitVec 6) (a : BitVec 6) (r : BitVec 1) (s : State) : Host.Outcome State Fault Refusal :=
  issueOn 0x4A (baseFields 0x4A#8 0#4 d a 0#6 r).2 bodyFexp2 s

/-- Base-2 logarithm. (R208) -/
def execFlog2 (f : Fields) (s : State) : Host.Outcome State Fault Refusal := issueOn 0x4B f bodyFlog2 s

/-- L9 base-word form of FLOG2. (R208) -/
def execFlog2L9 (d : BitVec 6) (a : BitVec 6) (r : BitVec 1) (s : State) : Host.Outcome State Fault Refusal :=
  issueOn 0x4B (baseFields 0x4B#8 0#4 d a 0#6 r).2 bodyFlog2 s

/-- Hyperbolic tangent. (R208) -/
def execFtanh (f : Fields) (s : State) : Host.Outcome State Fault Refusal := issueOn 0x4C f bodyFtanh s

/-- L9 base-word form of FTANH. (R208) -/
def execFtanhL9 (d : BitVec 6) (a : BitVec 6) (r : BitVec 1) (s : State) : Host.Outcome State Fault Refusal :=
  issueOn 0x4C (baseFields 0x4C#8 0#4 d a 0#6 r).2 bodyFtanh s

/-- Error function. (R208) -/
def execFerf (f : Fields) (s : State) : Host.Outcome State Fault Refusal := issueOn 0x4D f bodyFerf s

/-- L9 base-word form of FERF. (R208) -/
def execFerfL9 (d : BitVec 6) (a : BitVec 6) (r : BitVec 1) (s : State) : Host.Outcome State Fault Refusal :=
  issueOn 0x4D (baseFields 0x4D#8 0#4 d a 0#6 r).2 bodyFerf s

/-- Sine with exact argument reduction. (R208) -/
def execFsin (f : Fields) (s : State) : Host.Outcome State Fault Refusal := issueOn 0x4E f bodyFsin s

/-- L9 base-word form of FSIN. (R208) -/
def execFsinL9 (d : BitVec 6) (a : BitVec 6) (r : BitVec 1) (s : State) : Host.Outcome State Fault Refusal :=
  issueOn 0x4E (baseFields 0x4E#8 0#4 d a 0#6 r).2 bodyFsin s

/-- Cosine with exact argument reduction. (R208) -/
def execFcos (f : Fields) (s : State) : Host.Outcome State Fault Refusal := issueOn 0x4F f bodyFcos s

/-- L9 base-word form of FCOS. (R208) -/
def execFcosL9 (d : BitVec 6) (a : BitVec 6) (r : BitVec 1) (s : State) : Host.Outcome State Fault Refusal :=
  issueOn 0x4F (baseFields 0x4F#8 0#4 d a 0#6 r).2 bodyFcos s

/-- Multiplies by a power of two, rounded with RNE. (R210) -/
def execLdexp (f : Fields) (s : State) : Host.Outcome State Fault Refusal := issueOn 0x50 f bodyLdexp s

/-- L9 base-word register form of LDEXP. (R210) -/
def execLdexpL9 (d : BitVec 6) (a : BitVec 6) (b : BitVec 6) (r : BitVec 1) (s : State) : Host.Outcome State Fault Refusal :=
  issueOn 0x50 (baseFields 0x50#8 0#4 d a b r).2 bodyLdexp s

/-- Rounds to an integer value by the named mode. (R210) -/
def execFrnd (f : Fields) (s : State) : Host.Outcome State Fault Refusal := issueOn 0x51 f bodyFrnd s

/-- L9 base-word form of FRND. (R210) -/
def execFrndL9 (m : BitVec 3) (d : BitVec 6) (a : BitVec 6) (r : BitVec 1) (s : State) : Host.Outcome State Fault Refusal :=
  issueOn 0x51 (baseFields 0x51#8 (0#1 ++ m) d a 0#6 r).2 bodyFrnd s

/-- Fractional part, exact. (R210) -/
def execFrac (f : Fields) (s : State) : Host.Outcome State Fault Refusal := issueOn 0x52 f bodyFrac s

/-- L9 base-word form of FRAC. (R210) -/
def execFracL9 (d : BitVec 6) (a : BitVec 6) (r : BitVec 1) (s : State) : Host.Outcome State Fault Refusal :=
  issueOn 0x52 (baseFields 0x52#8 0#4 d a 0#6 r).2 bodyFrac s

/-- Sums F32 values of the acting lanes over the fixed tree. (R212) -/
def execFred (f : Fields) (s : State) : Host.Outcome State Fault Refusal := issueOn 0x53 f bodyFred s

/-- L9 base-word form of FRED. (R212) -/
def execFredL9 (d : BitVec 6) (a : BitVec 6) (r : BitVec 1) (s : State) : Host.Outcome State Fault Refusal :=
  issueOn 0x53 (baseFields 0x53#8 0#4 d a 0#6 r).2 bodyFred s

/-- Largest absolute element over the acting lanes. (R213) -/
def execFamax (f : Fields) (s : State) : Host.Outcome State Fault Refusal := issueOn 0x54 f bodyFamax s

/-- L9 base-word form of FAMAX. (R213) -/
def execFamaxL9 (f : BitVec 3) (d : BitVec 6) (a : BitVec 6) (r : BitVec 1) (s : State) : Host.Outcome State Fault Refusal :=
  issueOn 0x54 (baseFields 0x54#8 (0#1 ++ f) d a 0#6 r).2 bodyFamax s

/-- Smallest SC8 scale under which an absolute maximum fits the target format. (R214) -/
def execScale (f : Fields) (s : State) : Host.Outcome State Fault Refusal := issueOn 0x55 f bodyScale s

/-- L9 base-word form of SCALE. (R214) -/
def execScaleL9 (f : BitVec 3) (d : BitVec 6) (a : BitVec 6) (r : BitVec 1) (s : State) : Host.Outcome State Fault Refusal :=
  issueOn 0x55 (baseFields 0x55#8 (0#1 ++ f) d a 0#6 r).2 bodyScale s

/-- Converts one element between formats, optionally through a scale. (R218) -/
def execCvt (f : Fields) (s : State) : Host.Outcome State Fault Refusal := issueOn 0x70 f bodyCvt s

/-- Shifts packed W slots down and inserts a new value in the top slot. (R220) -/
def execPackw (f : Fields) (s : State) : Host.Outcome State Fault Refusal := issueOn 0x71 f bodyPackw s

/-- L9 base-word form of PACKW. (R220) -/
def execPackwL9 (f : BitVec 3) (d : BitVec 6) (a : BitVec 6) (b : BitVec 6) (r : BitVec 1) (s : State) : Host.Outcome State Fault Refusal :=
  issueOn 0x71 (baseFields 0x71#8 (0#1 ++ f) d a b r).2 bodyPackw s

/-- Extracts and sign-extends one packed W slot. (R220) -/
def execUnpkw (f : Fields) (s : State) : Host.Outcome State Fault Refusal := issueOn 0x72 f bodyUnpkw s

/-- L9 base-word form of UNPKW. (R220) -/
def execUnpkwL9 (f : BitVec 3) (d : BitVec 6) (a : BitVec 6) (b : BitVec 6) (r : BitVec 1) (s : State) : Host.Outcome State Fault Refusal :=
  issueOn 0x72 (baseFields 0x72#8 (0#1 ++ f) d a b r).2 bodyUnpkw s

end Sys2Proof.Machine
end

