-- ==== Sys2Proof/Machine/Slice.lean ====
section
/-!
DEFINITION. Access to tiles by instructions: LD, LDX, ST, LDF, STF (R145 to R156), and the tile instructions TDEF, TREL,
TPOST, TRECLAIM, TSTAT (R157 to R160). Effects are buffered; a commit performs them.
-/
namespace Sys2Proof.Machine

/-- The lanes a failed check names: those that act, or all that stand there for the scalar pipe (R362). -/
def Iss.named (i : Iss) (ls : List Nat) : List Nat := if i.scalar then i.here else ls

/-- The lane whose view a lane's access takes: itself, or the lowest lane present for the scalar pipe (R112, R150) (log 50, DEDUCED). -/
def Iss.viewer (i : Iss) (l : Nat) : Nat := if i.scalar then i.here.headD 0 else l

/-- The tile an operand names, as the group sees it (R361). -/
def Iss.tile (i : Iss) : Operand → Nat × Tile
  | .tile n => (n, groupTile i.tm i.grp n)
  | _ => (0, {})

/-- The effects on a team's tiles that a buffered effect of this trace will have (R158, R161): a TDEF, TREL, TPOST, TRECLAIM
or JOB issued so far. In handler mode t63 is the trap tile, whose descriptor stays as R361 gives it. -/
def tileEffect (core : Nat) (hm : Bool) (t : Team) : GroupEff → Team
  | .tdef n place form => if hm ∧ n = 63 then t else t.tdef n place form
  | .trel n => if hm ∧ n = 63 then t else t.modTile n Tile.trel
  | .tpost n => if hm ∧ n = 63 then t else t.modTile n Tile.tpost
  | .treclaim n => if hm ∧ n = 63 then t else t.modTile n Tile.treclaim
  | .job card _ => Team.releaseTiles core (cardOf card) t
  | _ => t

/-- The group effects that an execution has buffered, in program order. -/
def Exec.groupEffs (x : Exec) : List GroupEff :=
  x.buf.filterMap (fun b => match b.eff with | .group _ e => some e | _ => none)

/-- The team as the trace's own tile effects so far would leave it (R158, R161). -/
def Iss.teamSoFar (i : Iss) : Team := i.x.groupEffs.foldl (tileEffect i.g.core i.grp.hm) i.tm

/-- The team's tiles as they stood at the trace's start, under the trace's own tile effects: what other groups have committed since is not seen (R150,
R259). -/
def Iss.teamAtHead (i : Iss) : Team := i.x.groupEffs.foldl (tileEffect i.g.core i.grp.hm) { i.tm with tiles := i.x.view.tiles }

/-- Lay a store over bytes that start at slice offset `off`. -/
def overlay (off : Nat) (bs : List Byte) (at_ : Nat) (data mask : List Byte) : List Byte :=
  bs.mapIdx (fun j b =>
    let k := off + j
    if at_ ≤ k ∧ k < at_ + data.length then
      let m := nth mask (k - at_) 0#8
      (b &&& ~~~m) ||| (nth data (k - at_) 0#8 &&& m)
    else b)

/-- The view of a lane (R150): the bytes committed, under the stores the lane has buffered in this trace. -/
def Iss.view (i : Iss) (lane off n : Nat) : List Byte :=
  i.x.buf.foldl (fun bs b => match b.eff with
    | .store l _ at_ d m => if l = i.viewer lane then overlay off bs at_ d m else bs
    | _ => bs) (i.s.mem.readBytes (sliceKey i.g.core off) n)

/-- The first failing check over the acting lanes (R152): the cause and what the trap reports of the lowest failing lane (log 18, DEDUCED). -/
def laneCheck (i : Iss) (cause tile : Nat) (bad : List (Nat × Nat)) : Option Trap :=
  match bad with
  | [] => none
  | b :: _ => some ⟨cause, i.named (bad.map (·.1)), b.2 % 2 ^ 64, tile⟩

/-- The checks of a tile use: the mask's code, UNDEF, ATOMIC (R152) (log 18, DEDUCED). -/
def tileCheck (i : Iss) (t : Nat × Tile) (need : Nat) : Option Trap :=
  if maskCode i.x.mask t.1 < need then some (plainTrap 92 (i.named i.acting))
  else if t.2.state = .undef then some (plainTrap 91 (i.named i.acting))
  else if t.2.atomic then some (plainTrap 90 (i.named i.acting))
  else none

/-- Bounds and alignment of byte accesses (R88, R152) (log 18, DEDUCED). -/
def boundsCheck (i : Iss) (t : Nat × Tile) (size : Nat) (offs : List (Nat × Nat)) : Option Trap :=
  (laneCheck i 88 t.1 (offs.filter (fun p => decide (t.2.bytes < p.2 + size)))).or
    (laneCheck i 89 t.1 (offs.filter (fun p => p.2 % size != 0)))

/-- The consumption of a poisoned slice word that an acting lane reads (R405). -/
def poisonCheck (i : Iss) (reads : List (Nat × Nat × Nat)) : Option Trap :=
  if i.s.poison.isEmpty then none
  else firstSome (fun (p : Nat × Nat × Nat) =>
    (i.s.poisonAt (sliceKey i.g.core p.2.1) p.2.2).map (fun q => ⟨256 + 4 * q.bank, i.named [p.1], 0, 0⟩)) reads

/-- Cycles beyond one a beat that reads of slice words take: for each beat, the most distinct 8-byte words that one of the 16
banks supplies (R148). `words` gives each acting lane's words. -/
def bankExtra (i : Iss) (words : List (Nat × List Nat)) : Nat :=
  let w := beatWidth i.g.core
  let beat (k : Nat) : Nat :=
    let ls := (i.stood.drop (k * w)).take w
    let ns := ((words.filter (fun p => i.scalar || ls.contains p.1)).flatMap (·.2)).eraseDups
    max 1 (((upto 16).map (fun b => (ns.filter (fun n => n % 16 == b)).length)).foldl max 0) - 1
  ((upto (beatsOf i.g.core i.stood.length i.scalar)).map beat).sum

/-- The 8-byte words that a range of slice bytes touches. -/
def wordsOf (off n : Nat) : List Nat := (upto ((off + n - 1) / 8 + 1 - off / 8)).map (fun j => off / 8 + j)

/-- Bytes of an access type: .S8 .N8 .S16 .N16 .B32 .B64 (R149). -/
def accessSize (fn : Nat) : Nat := match fn with | 0 => 1 | 1 => 1 | 2 => 2 | 3 => 2 | 4 => 4 | _ => 8

/-- A loaded number as result words (R149). -/
def loadWords (fn v : Nat) : List Word :=
  match fn with
  | 0 => [(BitVec.ofNat 8 v).signExtend 32]
  | 2 => [(BitVec.ofNat 16 v).signExtend 32]
  | 5 => pairWords (BitVec.ofNat 64 v)
  | _ => [w32 v]

/-- A load: LD, or LDX whose offset counts elements (R149). -/
def loadBody (scaled : Bool) : Body := fun i ws =>
  let t := i.tile i.o.sa
  let fn := i.f.fn.toNat % 8
  let size := accessSize fn
  let offs := (actingWords i ws).map (fun p => (p.1, (lastWord i p.2 0).toNat * (if scaled then size else 1)))
  if offs.isEmpty then .ok {}
  else match (tileCheck i t 1).or (boundsCheck i t size offs) with
    | some tr => .error tr
    | none => match poisonCheck i (offs.map (fun p => (p.1, t.2.start + p.2, size))) with
      | some tr => .error tr
      | none =>
        .ok { deliver i (offs.map (fun p => (p.1, loadWords fn (ofBytesLE (i.view p.1 (t.2.start + p.2) size))))) with
              extra := bankExtra i (offs.map (fun p => (p.1, wordsOf (t.2.start + p.2) size))) }

/-- LD (R149). -/
def bodyLd : Body := loadBody false
/-- LDX (R149). -/
def bodyLdx : Body := loadBody true

/-- The number of a tile in a buffered store: 64 for the trap tile of handler mode (R361). -/
def storeTile (i : Iss) (n : Nat) : Nat := if i.grp.hm ∧ n = 63 then 64 else n

/-- ST (R149): the value stands after the offset among the sources. -/
def bodySt : Body := fun i ws =>
  let t := i.tile i.o.sa
  let size := accessSize (i.f.fn.toNat % 8)
  let rows := (actingWords i ws).map (fun p => (p.1, (lastWord i p.2 0).toNat, p.2.drop (if immForm i.r i.f then 0 else 1)))
  if rows.isEmpty then .ok {}
  else match (tileCheck i t 2).or (boundsCheck i t size (rows.map (fun p => (p.1, p.2.1)))) with
    | some tr => .error tr
    | none => .ok { effs := rows.map (fun p =>
        let v := (nth p.2.2 0 0#32).toNat + (nth p.2.2 1 0#32).toNat * 2 ^ 32
        .store p.1 (storeTile i t.1) (t.2.start + p.2.1) (toBytesLE size v) (List.replicate size 255#8)) }

/-! ### LDF and STF (R153 to R156) -/

/-- The checks of LDF and STF on the tile and its format (R156). -/
def formatCheck (i : Iss) (t : Nat × Tile) : Option Trap :=
  if t.2.fmt = 0#5 then some (plainTrap 94 (i.named i.acting))
  else (formatFault t.2.fmt.toNat t.2.geom.toNat).map (fun c => plainTrap c (i.named i.acting))

/-- The elements of a tile (R153). -/
def Tile.nelem (t : Tile) : Nat := elementCount t.bytes t.fmt.toNat t.geom.toNat

/-- Read an element of a tile through a lane's view: its place, its 128-bit word, and its exact value (R154). -/
def readElement (i : Iss) (lane : Nat) (t : Tile) (e : Nat) : ElementAt × Nat × Val :=
  let at_ := elementAt t.fmt.toNat t.geom.toNat e
  let word := ofBytesLE (i.view lane (t.start + at_.word) 16)
  let scales := i.view lane (t.start + at_.block) at_.nscale
  let row := nth (i.view lane (t.start + at_.row) 1) 0 0#8
  let col := nth (i.view lane (t.start + at_.col) 1) 0 0#8
  (at_, word, elementValue t.fmt.toNat at_ word scales row col)

/-- The 8-byte words that reading an element takes: its packed 128-bit word, and its block's scale bytes, every one of which tells whether
the block is a NaN (R52, R148, R154). -/
def elementWords (t : Tile) (e : Nat) : List Nat :=
  let at_ := elementAt t.fmt.toNat t.geom.toNat e
  wordsOf (t.start + at_.word) 16 ++ (if at_.nscale = 0 then [] else wordsOf (t.start + at_.block) at_.nscale)

/-- LDF (R154, R156). -/
def bodyLdf : Body := fun i ws =>
  let t := i.tile i.o.sa
  let pair := i.f.fn.toNat % 8 == 1
  let es := (actingWords i ws).map (fun p => (p.1, (lastWord i p.2 0).toNat))
  let all (e : Nat) : List Nat := if pair then [e, e + 1] else [e]
  if es.isEmpty then .ok {}
  else match ((tileCheck i t 1).or (formatCheck i t)).or
      ((laneCheck i 88 t.1 (es.filter (fun p => decide (t.2.nelem ≤ p.2 + b2n pair)))).or
        (laneCheck i 89 t.1 (es.filter (fun p => pair && p.2 % 2 == 1)))) with
    | some tr => .error tr
    | none => match poisonCheck i (es.flatMap (fun p => (all p.2).flatMap (fun e =>
        (elementWords t.2 e).map (fun w => (p.1, 8 * w, 8))))) with
      | some tr => .error tr
      | none =>
        let spare := es.filter (fun p => (all p.2).any (fun e =>
          let r := readElement i p.1 t.2 e; spareSet t.2.fmt.toNat r.1 r.2.1))
        match spare with
        | bad :: more => .error ⟨153, i.named ((bad :: more).map (·.1)), 0, 0⟩
        | [] =>
          let value (p : Nat × Nat) : Word :=
            if pair then
              w32 (bf16.rne (readElement i p.1 t.2 p.2).2.2 + 65536 * bf16.rne (readElement i p.1 t.2 (p.2 + 1)).2.2)
            else w32 (f32.rne (readElement i p.1 t.2 p.2).2.2)
          .ok { deliver i (es.map (fun p => (p.1, [value p]))) with
                extra := bankExtra i (es.map (fun p => (p.1, (all p.2).flatMap (elementWords t.2)))) }

/-- The bits a STF writes of an element's 128-bit word: the value and the mask; the spare bits and unused slots of the word
are zeroed with it (R155). -/
def elementStore (fmt : Nat) (at_ : ElementAt) (v : Nat) : Nat × Nat :=
  let w := fmtWidth fmt
  (v * 2 ^ at_.bit, (2 ^ w - 1) * 2 ^ at_.bit + (2 ^ 128 - 2 ^ at_.used))

/-- STF (R155, R156). -/
def bodyStf : Body := fun i ws =>
  let t := i.tile i.o.sa
  let mode := modeOf (i.f.fn.toNat % 8)
  let es := (actingWords i ws).map (fun p => (p.1, (lastWord i p.2 0).toNat, nth p.2 (if immForm i.r i.f then 0 else 1) 0#32))
  let fmt := t.2.fmt.toNat
  if es.isEmpty then .ok {}
  else match ((tileCheck i t 2).or (formatCheck i t)).or
      (laneCheck i 88 t.1 ((es.filter (fun p => decide (t.2.nelem ≤ p.2.1))).map (fun p => (p.1, p.2.1)))) with
    | some tr => .error tr
    | none =>
      let one (p : Nat × Nat × Word) : Effect × List (Place × Word) :=
        let at_ := elementAt fmt t.2.geom.toNat p.2.1
        let scales := i.view p.1 (t.2.start + at_.block) at_.nscale
        let byte (k : Nat) : Int := ((nth (i.view p.1 (t.2.start + k) 1) 0 0#8).toNat : Int)
        let x := f32.decode p.2.2.toNat
        let x := if at_.nscale = 0 then x
          else if scales.contains 255#8 then .nan
          else x.scale (254 - byte at_.row - byte at_.col)
        let draws := decide (mode = .sr) && x.nonzeroFinite
        let st := srStep (srState i p.1)
        let f := (fmtFormat fmt).getD (.float f32)
        let (d, m) := elementStore fmt at_ (f.encode mode .default (if draws then srBits st else 0) x)
        (.store p.1 (storeTile i t.1) (t.2.start + at_.word) (toBytesLE 16 d) (toBytesLE 16 m),
          if draws then [(⟨p.1, .sr⟩, st)] else [])
      let rs := es.map one
      .ok { effs := rs.map (·.1), writes := rs.flatMap (·.2) }

/-! ### Tile instructions (R157 to R160) -/

/-- A group effect of the lanes that act: nothing where none does (R146). -/
def groupRes (i : Iss) (e : GroupEff) : Res := if i.acting.isEmpty then {} else { effs := [.group i.acting e] }

/-- The operand words of the leading lane (R146) (log 50, DEDUCED). -/
def leadWords (i : Iss) (ws : Table (List Word)) : List Word := (tget ws (i.acting.headD 0)).getD []

/-- Whether every acting lane supplies the same words (R146). -/
def allSame (i : Iss) (ws : Table (List Word)) : Bool := (actingWords i ws).all (fun p => p.2 == leadWords i ws)

/-- The tile a DST field names. -/
def dstTile (i : Iss) : Nat := match i.o.dst with | .tile n => n | _ => 0

/-- Whether a tile holds a team task queue, which only the queue machinery touches (R340). -/
def Team.isQueueTile (t : Team) (n : Nat) : Bool := t.queues.any (fun q => q.2.tile == n)

/-- TDEF (R157, R158). -/
def bodyTdef : Body := fun i ws =>
  let n := dstTile i
  let ow := leadWords i ws
  let (place, form) := ((nth ow 0 0#32).toNat, (nth ow 1 0#32).toNat)
  let t := i.teamSoFar
  if i.acting.isEmpty then .ok {}
  else if i.tm.isQueueTile n then .error (plainTrap 91 i.acting)
  else if !allSame i ws || !tdefValid i.teamAtHead n place form then .error (plainTrap 93 i.acting)
  else if (t.tile n).state = .filling ∨ (t.tile n).state = .draining then .error (plainTrap 91 i.acting)
  else .ok (groupRes i (.tdef n place form))

/-- TREL (R159). -/
def bodyTrel : Body := fun i _ =>
  if !i.acting.isEmpty && i.tm.isQueueTile (dstTile i) then .error (plainTrap 91 i.acting) else .ok (groupRes i (.trel (dstTile i)))

/-- TPOST: only a tile READY at issue (R159). -/
def bodyTpost : Body := fun i _ =>
  let n := dstTile i
  if !i.acting.isEmpty && (i.tm.isQueueTile n || (groupTile i.tm i.grp n).state != .ready) then .error (plainTrap 91 i.acting)
  else .ok (groupRes i (.tpost n))

/-- TRECLAIM (R159). -/
def bodyTreclaim : Body := fun i _ => .ok (groupRes i (.treclaim (dstTile i)))

/-- TSTAT: a word of the descriptor as it stood at the trace head (R160). -/
def bodyTstat : Body := fun i _ =>
  let t := (i.tile i.o.sa).1
  let d := if i.grp.hm ∧ t = 63 then (i.tile i.o.sa).2 else (tget i.x.view.tiles t).getD {}
  .ok (deliver i (i.acting.map (fun l => (l, [w32 (d.word / 2 ^ (32 * (immField i.f % 4)))]))))

/-- Loads from a tile at fixed latency through the lane's view. (R149) -/
def execLd (f : Fields) (s : State) : Host.Outcome State Fault Refusal := issueOn 0xA0 f bodyLd s

/-- L9 base-word register form of LD. (R149) -/
def execLdL9 (f : BitVec 3) (d : BitVec 6) (a : BitVec 6) (b : BitVec 6) (r : BitVec 1) (s : State) : Host.Outcome State Fault Refusal :=
  issueOn 0xA0 (baseFields 0xA0#8 (0#1 ++ f) d a b r).2 bodyLd s

/-- Loads a tile element by element index. (R149) -/
def execLdx (f : Fields) (s : State) : Host.Outcome State Fault Refusal := issueOn 0xA2 f bodyLdx s

/-- L9 base-word form of LDX. (R149) -/
def execLdxL9 (f : BitVec 3) (d : BitVec 6) (a : BitVec 6) (b : BitVec 6) (r : BitVec 1) (s : State) : Host.Outcome State Fault Refusal :=
  issueOn 0xA2 (baseFields 0xA2#8 (0#1 ++ f) d a b r).2 bodyLdx s

/-- Buffers a store to a tile, performed at commit. (R149) -/
def execSt (f : Fields) (s : State) : Host.Outcome State Fault Refusal := issueOn 0xA1 f bodySt s

/-- L9 base-word register form of ST. (R149) -/
def execStL9 (f : BitVec 3) (d : BitVec 6) (a : BitVec 6) (b : BitVec 6) (r : BitVec 1) (s : State) : Host.Outcome State Fault Refusal :=
  issueOn 0xA1 (baseFields 0xA1#8 (0#1 ++ f) d a b r).2 bodySt s

/-- Decodes a tile element by the tile's format into F32 or a BF16 pair. (R154) -/
def execLdf (f : Fields) (s : State) : Host.Outcome State Fault Refusal := issueOn 0xA3 f bodyLdf s

/-- L9 base-word register form of LDF. (R154) -/
def execLdfL9 (f : BitVec 1) (d : BitVec 6) (a : BitVec 6) (b : BitVec 6) (r : BitVec 1) (s : State) : Host.Outcome State Fault Refusal :=
  issueOn 0xA3 (baseFields 0xA3#8 (0#3 ++ f) d a b r).2 bodyLdf s

/-- Converts an F32 value to the tile's format and buffers a store of its element. (R155) -/
def execStf (f : Fields) (s : State) : Host.Outcome State Fault Refusal := issueOn 0xA4 f bodyStf s

/-- L9 base-word register form of STF. (R155) -/
def execStfL9 (m : BitVec 3) (d : BitVec 6) (a : BitVec 6) (b : BitVec 6) (r : BitVec 1) (s : State) : Host.Outcome State Fault Refusal :=
  issueOn 0xA4 (baseFields 0xA4#8 (0#1 ++ m) d a b r).2 bodyStf s

/-- Defines a tile's place and form at commit. (R158) -/
def execTdef (f : Fields) (s : State) : Host.Outcome State Fault Refusal := issueOn 0xA5 f bodyTdef s

/-- L9 base-word form of TDEF. (R158) -/
def execTdefL9 (d : BitVec 6) (a : BitVec 6) (b : BitVec 6) (r : BitVec 1) (s : State) : Host.Outcome State Fault Refusal :=
  issueOn 0xA5 (baseFields 0xA5#8 0#4 d a b r).2 bodyTdef s

/-- Releases a tile to EMPTY at commit, or sets RELP. (R159) -/
def execTrel (f : Fields) (s : State) : Host.Outcome State Fault Refusal := issueOn 0xA6 f bodyTrel s

/-- L9 base-word form of TREL. (R159) -/
def execTrelL9 (d : BitVec 6) (r : BitVec 1) (s : State) : Host.Outcome State Fault Refusal :=
  issueOn 0xA6 (baseFields 0xA6#8 0#4 d 0#6 0#6 r).2 bodyTrel s

/-- Marks a READY tile for publication at the next boundary. (R159) -/
def execTpost (f : Fields) (s : State) : Host.Outcome State Fault Refusal := issueOn 0xA7 f bodyTpost s

/-- L9 base-word form of TPOST. (R159) -/
def execTpostL9 (d : BitVec 6) (r : BitVec 1) (s : State) : Host.Outcome State Fault Refusal :=
  issueOn 0xA7 (baseFields 0xA7#8 0#4 d 0#6 0#6 r).2 bodyTpost s

/-- Requests an OPEN tile's return to READY once its readers complete. (R98) -/
def execTreclaim (f : Fields) (s : State) : Host.Outcome State Fault Refusal := issueOn 0xA8 f bodyTreclaim s

/-- L9 base-word form of TRECLAIM. (R98) -/
def execTreclaimL9 (d : BitVec 6) (r : BitVec 1) (s : State) : Host.Outcome State Fault Refusal :=
  issueOn 0xA8 (baseFields 0xA8#8 0#4 d 0#6 0#6 r).2 bodyTreclaim s

/-- Reads a word of a tile descriptor as at the trace head. (R160) -/
def execTstat (f : Fields) (s : State) : Host.Outcome State Fault Refusal := issueOn 0xA9 f bodyTstat s

end Sys2Proof.Machine
end

