-- ==== Sys2Proof/Machine/JobIssue.lean ====
section
/-!
DEFINITION. The job instructions JOB, JOBQ, JCANCEL (R161 to R165), and ICINV (R175). Their effects are performed at the
job-issue step of the commit.
-/
namespace Sys2Proof.Machine

/-- The vector register a DST field names. -/
def dstReg (i : Iss) : Nat := match i.o.dst with | .reg (.v n) => n | .pair (.v n) _ => n | _ => 0

/-- The tile operand checks of a card (R90, R93, R161 to R163, R340, R361): the code each tile needs, and a state that R89 has a
row for. A tile register beyond the allotment traps with REG_ALLOT. -/
def cardTiles (i : Iss) (tm : Team) (c : Card) : Option Trap :=
  let src := (cardSources i.g.core tm c).map (fun n => (n, false))
  let dst := (cardDests i.g.core tm c).map (fun n => (n, true))
  let go (tm : Team) (u : Nat × Bool) : Option Trap :=
    let st := (tm.tile u.1).state
    if i.tm.tileAllot ≤ u.1 ∧ ¬ (i.grp.hm ∧ u.1 = 63) then some ⟨encCause i.f.enc 14, i.acting, u.1, 0⟩
    else if i.grp.hm ∧ u.1 = 63 then some (plainTrap 91 i.acting)
    else if maskCode i.x.mask u.1 < (if u.2 then 3 else 2) then some (plainTrap 92 i.acting)
    else if tm.isQueueTile u.1 then some (plainTrap 91 i.acting)
    else if u.2 then (if st = .empty ∨ st = .ready then none else some (plainTrap 91 i.acting))
    else if st = .ready then none else some (plainTrap 91 i.acting)
  (firstSome (go tm) src).or (firstSome (go (src.foldl (fun tm u => tm.modTile u.1 (Tile.sourceReleased (c.kind == 4))) tm)) dst)

/-- JOB (R161 to R163). -/
def bodyJob : Body := fun i ws =>
  let m := i.acting.headD 0
  let t := i.tile i.o.sa
  let o := (nth (leadWords i ws) 0 0#32).toNat
  if i.acting.isEmpty then .ok {}
  else match tileCheck i t 1 with
    | some tr => .error tr
    | none =>
      if o % 64 ≠ 0 then .error ⟨89, i.acting, o, t.1⟩
      else if t.2.bytes < o + 64 then .error ⟨88, i.acting, o, t.1⟩
      else match poisonCheck i [(m, t.2.start + o, 64)] with
        | some tr => .error tr
        | none =>
          let card := i.view m (t.2.start + o) 64
          let c := cardOf card
          let tm := i.teamSoFar
          match cardFault i.s i.g.core tm c with
          | some cause => .error (plainTrap cause i.acting)
          | none => match cardTiles i tm c with
            | some tr => .error tr
            | none => .ok (groupRes i (.job card (dstReg i)))

/-- JOBQ (R164). -/
def bodyJobq : Body := fun i ws => .ok (groupRes i (.jobq (nth (leadWords i ws) 0 0#32).toNat (dstReg i)))

/-- JCANCEL (R165). -/
def bodyJcancel : Body := fun i ws => .ok (groupRes i (.jcancel (nth (leadWords i ws) 0 0#32).toNat))

/-- ICINV (R175): bits [63:49] of the address must be clear. -/
def bodyIcinv : Body := fun i ws =>
  let w := leadWords i ws
  let a := (pairOf (nth w 0 0#32) (nth w 1 0#32)).toNat
  if i.acting.isEmpty then .ok {}
  else if bits a 63 49 ≠ 0 then .error ⟨128, i.acting, a, 0⟩
  else .ok (groupRes i (.icinv a (nth w 2 0#32).toNat))

/-- Checks a job card held in a tile and releases it to the Truss at commit, returning a handle. (R161) -/
def execJob (f : Fields) (s : State) : Host.Outcome State Fault Refusal := issueOn 0xD0 f bodyJob s

/-- L9 base-word form of JOB. (R161) -/
def execJobL9 (d : BitVec 6) (a : BitVec 6) (b : BitVec 6) (r : BitVec 1) (s : State) : Host.Outcome State Fault Refusal :=
  issueOn 0xD0 (baseFields 0xD0#8 0#4 d a b r).2 bodyJob s

/-- Queries a job's state and mask, returned between traces. (R164) -/
def execJobq (f : Fields) (s : State) : Host.Outcome State Fault Refusal := issueOn 0xD1 f bodyJobq s

/-- L9 base-word form of JOBQ. (R164) -/
def execJobqL9 (d : BitVec 6) (a : BitVec 6) (r : BitVec 1) (s : State) : Host.Outcome State Fault Refusal :=
  issueOn 0xD1 (baseFields 0xD1#8 0#4 d a 0#6 r).2 bodyJobq s

/-- Cancels a waiting or running job at commit. (R165) -/
def execJcancel (f : Fields) (s : State) : Host.Outcome State Fault Refusal := issueOn 0xD2 f bodyJcancel s

/-- L9 base-word form of JCANCEL. (R165) -/
def execJcancelL9 (a : BitVec 6) (r : BitVec 1) (s : State) : Host.Outcome State Fault Refusal :=
  issueOn 0xD2 (baseFields 0xD2#8 0#4 0#6 a 0#6 r).2 bodyJcancel s

/-- Drops code-cache lines of a range from the core's and die's code caches at commit. (R175) -/
def execIcinv (f : Fields) (s : State) : Host.Outcome State Fault Refusal := issueOn 0xB6 f bodyIcinv s

/-- L9 base-word form of ICINV. (R175) -/
def execIcinvL9 (a : BitVec 6) (b : BitVec 6) (r : BitVec 1) (s : State) : Host.Outcome State Fault Refusal :=
  issueOn 0xB6 (baseFields 0xB6#8 0#4 0#6 a b r).2 bodyIcinv s

end Sys2Proof.Machine
end

