-- ==== Sys2Proof/Machine/Atomic.lean ====
section
/-!
DEFINITION. The far atomics ATOM, ATOMR, CAS (R166 to R171), PHASE (R172), KEYSET and KEYGET (R173, R174). An atomic is buffered
at issue, sent at the commit and performed at its home later.
-/
namespace Sys2Proof.Machine

/-- An atomic's operands as it is buffered: FN (7 for CAS), the address operand, the value and the compare value. -/
def atomicOf (i : Iss) (ws : List Word) : Atomic :=
  let c := ctrlField i.f
  let wide := c / 32 % 8 == 3
  let at_ (n : Nat) : Nat := (nth ws n 0#32).toNat
  let two (n : Nat) : Nat := at_ n + at_ (n + 1) * 2 ^ 32
  let addr := two 0
  let dst := if i.op = 0xB0 then none else some (dstReg i)
  let (value, cmp) :=
    if i.op = 0xB2 then (if wide then (two 4, two 2) else (at_ 3, at_ 2)) else (if wide then two 2 else at_ 2, 0)
  { op := if i.op = 0xB2 then 7 else i.f.fn.toNat, typ := c / 32 % 8, scope := c % 8, order := c / 8 % 4, addr := bits addr 61 0,
    space := bits addr 63 62, value := value, cmp := cmp, dst := dst }

/-- The checks of an atomic at issue (R166, R171): ATOM_ADDR, ADDR_RANGE, SLICE_RANGE, ATOM_ALIGN. -/
def atomicChecks (i : Iss) (as : List (Nat × Atomic)) : Option Trap :=
  let full (a : Atomic) : Nat := a.addr + a.space * 2 ^ 62
  let fails (cause : Nat) (p : Atomic → Bool) : Option Trap :=
    match as.filter (fun a => p a.2) with
    | [] => none
    | b :: l => some ⟨cause, (b :: l).map (·.1), full b.2, 0⟩
  (fails 148 (fun a => a.space == 1 || a.space == 3)).or
    ((fails 128 (fun a => a.space == 0 && a.addr / 2 ^ 49 != 0)).or
      ((fails 146 (fun a => a.space == 2 && i.s.sliceRange a.addr)).or
        (fails 149 (fun a => a.addr % (if a.typ = 3 then 8 else 4) != 0))))

/-- ATOM, ATOMR and CAS at issue (R169). -/
def atomicBody : Body := fun i ws =>
  let as := (actingWords i ws).map (fun p => (p.1, atomicOf i p.2))
  match atomicChecks i as with
  | some t => .error t
  | none => .ok { effs := as.map (fun p => .atom p.1 p.2) }

/-- ATOM (R166 to R169). -/
def bodyAtom : Body := atomicBody
/-- ATOMR (R166 to R170). -/
def bodyAtomr : Body := atomicBody
/-- CAS (R166 to R170). -/
def bodyCas : Body := atomicBody

/-- PHASE (R172). -/
def bodyPhase : Body := fun i _ => .ok (groupRes i (.phase (i.f.fn.toNat % 8)))

/-- KEYSET (R173). -/
def bodyKeyset : Body := fun i ws =>
  let w := leadWords i ws
  .ok (groupRes i (.keyset (pairOf (nth w 0 0#32) (nth w 1 0#32)).toNat))

/-! ### Control registers as a trace sees them (R174, R374) -/

/-- What a write to a control register leaves in it, from the value written: the reserved bits stay zero (R6, R297, R337, R371,
R372). -/
def csrKeep (num v : Nat) : Nat :=
  match num with
  | 2 => v &&& 3
  | 0x0D => v &&& 0x07FFFFF7
  | 0x0A => v &&& 0xFFFFFFFF0001FFFF
  | 0x09 => v % 2 ^ 64
  | 0x10 => v &&& 0x7FFFFFFF07FFFFFF
  | 0x11 => v &&& 0x7FFFFFFF07FFFFFF
  | 0x12 => v &&& 0x7FFFFFFF07FFFFFF
  | 0x13 => v &&& 0x7FFFFFFF07FFFFFF
  | _ => v % 2 ^ 32

/-- A register after a CSRW of one of its words; a write to TSTAT clears the bits written as 1 (R374). -/
def csrAfter (num old : Nat) (hi : Bool) (v : Nat) : Nat :=
  if num = 0 then (clearSticky (BitVec.ofNat 32 old) (BitVec.ofNat 32 v)).toNat
  else csrKeep num (if hi then old % 2 ^ 32 + v * 2 ^ 32 else old / 2 ^ 32 * 2 ^ 32 + v)

/-- A register as the trace's own KEYSETs and CSRWs so far leave it (R174, R374). -/
def csrOverlay (num : Nat) (effs : List GroupEff) (v : Nat) : Nat :=
  effs.foldl (fun v e => match e with
    | .keyset k => if num = 9 then k else v
    | .csrw n hi x => if n = num then csrAfter num v hi x else v
    | _ => v) v

/-- A control register as an instruction reads it. -/
def Iss.csr (i : Iss) (num : Nat) : Nat := csrOverlay num i.x.groupEffs (nth i.x.view.csr num 0)

/-- KEYGET (R174). -/
def bodyKeyget : Body := fun i _ =>
  .ok (deliver i (i.acting.map (fun l => (l, [BitVec.ofNat 32 (i.csr 9), BitVec.ofNat 32 (i.csr 9 / 2 ^ 32)]))))

/-- Buffers a far atomic without return, sent at commit. (R169) -/
def execAtom (f : Fields) (s : State) : Host.Outcome State Fault Refusal := issueOn 0xB0 f bodyAtom s

/-- Buffers a far atomic whose old value returns between traces. (R169) -/
def execAtomr (f : Fields) (s : State) : Host.Outcome State Fault Refusal := issueOn 0xB1 f bodyAtomr s

/-- Buffers a far compare-and-swap whose old value returns between traces. (R169) -/
def execCas (f : Fields) (s : State) : Host.Outcome State Fault Refusal := issueOn 0xB2 f bodyCas s

/-- Passes a phase boundary of the scope after every other commit step. (R172) -/
def execPhase (f : Fields) (s : State) : Host.Outcome State Fault Refusal := issueOn 0xB3 f bodyPhase s

/-- L9 base-word form of PHASE. (R172) -/
def execPhaseL9 (s : BitVec 3) (r : BitVec 1) (st : State) : Host.Outcome State Fault Refusal :=
  issueOn 0xB3 (baseFields 0xB3#8 (0#1 ++ s) 0#6 0#6 0#6 r).2 bodyPhase st

/-- Writes KEYPERM at the register step of the commit. (R173) -/
def execKeyset (f : Fields) (s : State) : Host.Outcome State Fault Refusal := issueOn 0xB4 f bodyKeyset s

/-- L9 base-word form of KEYSET. (R173) -/
def execKeysetL9 (a : BitVec 6) (r : BitVec 1) (s : State) : Host.Outcome State Fault Refusal :=
  issueOn 0xB4 (baseFields 0xB4#8 0#4 0#6 a 0#6 r).2 bodyKeyset s

/-- Reads KEYPERM as in force at the trace head. (R174) -/
def execKeyget (f : Fields) (s : State) : Host.Outcome State Fault Refusal := issueOn 0xB5 f bodyKeyget s

/-- L9 base-word form of KEYGET. (R174) -/
def execKeygetL9 (d : BitVec 6) (r : BitVec 1) (s : State) : Host.Outcome State Fault Refusal :=
  issueOn 0xB5 (baseFields 0xB5#8 0#4 d 0#6 0#6 r).2 bodyKeyget s

end Sys2Proof.Machine
end

