-- ==== Sys2Proof/Machine/Sync.lean ====
section
/-!
DEFINITION. Barriers (R285, R286) and channels: GET, PUT (R304 to R309), CHSTAT (R310).
-/
namespace Sys2Proof.Machine

/-- The count operand of a barrier instruction. -/
def barCount (i : Iss) (ws : Table (List Word)) : Nat := (lastWord i (leadWords i ws) 0).toNat

/-- The barrier a DST field names. -/
def dstBar (i : Iss) : Nat := match i.o.dst with | .bar n => n | _ => 0

/-- BAR.ARRIVE and BAR.SYNC at issue (R285, R286): a trace issues at most one. -/
def arriveBody (e : Nat → Nat → GroupEff) : Body := fun i ws =>
  if i.x.cameBefore i.f.enc [0xC0, 0xC1] then .error (plainTrap (encCause i.f.enc 3) i.here)
  else if i.acting.isEmpty then .ok {}
  else if 256 ≤ barCount i ws then .error (plainTrap 96 i.acting)
  else .ok (groupRes i (e (dstBar i) (barCount i ws)))

/-- BAR.ARRIVE (R285). -/
def bodyBarArrive : Body := arriveBody .barArrive
/-- BAR.SYNC (R285). -/
def bodyBarSync : Body := arriveBody .barSync

/-- BAR.INIT (R285). -/
def bodyBarInit : Body := fun i ws =>
  let c := barCount i ws
  if i.acting.isEmpty then .ok {}
  else if 256 ≤ c ∨ c = 0 then .error (plainTrap 96 i.acting)
  else .ok (groupRes i (.barInit (dstBar i) c))

/-! ### GET and PUT -/

/-- The registers that GET and PUT move for a channel (R308). -/
def moveRegs (i : Iss) (q : Nat) : Nat := itemBytes (i.tm.chan q).size / 4

/-- The checks of the register field of GET and PUT that depend on the channel's SIZE (R309). -/
def moveCheck (i : Iss) (r : Reg) (n : Nat) : Option Trap :=
  match r with
  | .v a => if a % n ≠ 0 then some (plainTrap (encCause i.f.enc 10) i.here)
            else if i.grp.vallot < a + n then some ⟨encCause i.f.enc 14, i.here, i.grp.vallot, 0⟩ else none
  | .t a => if a % n ≠ 0 ∨ 16 < a + n then some (plainTrap (encCause i.f.enc 10) i.here) else none
  | .k a => if a % n ≠ 0 ∨ 24 < a + n then some (plainTrap (encCause i.f.enc 10) i.here) else none
  | _ => none

/-- GET (R304, R308). -/
def bodyGet : Body := fun i ws =>
  match i.o.sa, i.o.dst with
  | .chan q _, .reg r =>
    let n := moveRegs i q
    match moveCheck i r n with
    | some t => .error t
    | none => .ok { writes := (actingWords i ws).flatMap (fun p => (upto n).map (fun j => (placeOf p.1 (r.next j), nth p.2 j 0#32))) }
  | _, _ => .ok {}

/-- PUT (R305, R308): its values are those of n registers from vs on, as the instruction's sources read. -/
def bodyPut : Body := fun i ws =>
  match i.o.dst, i.o.sa with
  | .chan q _, .reg r =>
    let n := moveRegs i q
    match moveCheck i r n with
    | some t => .error t
    | none =>
      let word (p : Nat × List Word) (j : Nat) : Word :=
        if j = 0 then nth p.2 0 0#32
        else i.reads p.1 (8 + j) (r.next j)
      let item (p : Nat × List Word) : Nat :=
        let v := ((upto n).map (fun j => (word p j).toNat * 2 ^ (32 * j))).sum
        if (i.tm.chan q).size = 3 then v % 64 else v
      .ok { effs := [.put q ((actingWords i ws).map (fun p => (p.1, item p)))] }
  | _, _ => .ok {}

/-- CHSTAT: the channel's word at the trace head (R310). -/
def bodyChstat : Body := fun i _ =>
  .ok (deliver i (i.acting.map (fun l => (l, [BitVec.ofNat 32 (nth i.x.view.chans (immField i.f % 16) 0)]))))

/-- The word of CHSTAT (R310): of a folded channel it counts the slots of the thread's live lanes, which are those not retired, in whatever
stage they have ended (R317; log 49, DEDUCED). -/
def chanWord (t : Team) (lanes : List Nat) (q : Nat) : Nat :=
  let c := t.chan q
  let full := match t.fold with
    | some fo => (lanes.filter (fun l => sget fo.full (slotKey l q) == 1#1)).length
    | none => 0
  let items := if c.mode = 2 then min 255 full else if c.remote then 0 else c.count
  let room := if c.mode = 2 then min 255 (lanes.length - full) else if c.remote then c.credit else c.depth - c.count
  if c.mode = 0 then 0
  else items + room * 256 + c.mode * 2 ^ 16 + c.size * 2 ^ 18 + c.depth * 2 ^ 20 + b2n c.frozen * 2 ^ 28 + b2n c.remote * 2 ^ 29

/-- Counts the group's arrival on a barrier without waiting. (R285) -/
def execBarArrive (f : Fields) (s : State) : Host.Outcome State Fault Refusal := issueOn 0xC0 f bodyBarArrive s

/-- L9 base-word register form of BAR.ARRIVE. (R285) -/
def execBarArriveL9 (d : BitVec 6) (a : BitVec 6) (r : BitVec 1) (s : State) : Host.Outcome State Fault Refusal :=
  issueOn 0xC0 (baseFields 0xC0#8 0#4 d a 0#6 r).2 bodyBarArrive s

/-- Arrives on a barrier and makes the next execution wait for the turn. (R285) -/
def execBarSync (f : Fields) (s : State) : Host.Outcome State Fault Refusal := issueOn 0xC1 f bodyBarSync s

/-- L9 base-word register form of BAR.SYNC. (R285) -/
def execBarSyncL9 (d : BitVec 6) (a : BitVec 6) (r : BitVec 1) (s : State) : Host.Outcome State Fault Refusal :=
  issueOn 0xC1 (baseFields 0xC1#8 0#4 d a 0#6 r).2 bodyBarSync s

/-- Sets a barrier's expected arrival count. (R285) -/
def execBarInit (f : Fields) (s : State) : Host.Outcome State Fault Refusal := issueOn 0xC2 f bodyBarInit s

/-- L9 base-word register form of BAR.INIT. (R285) -/
def execBarInitL9 (d : BitVec 6) (a : BitVec 6) (r : BitVec 1) (s : State) : Host.Outcome State Fault Refusal :=
  issueOn 0xC2 (baseFields 0xC2#8 0#4 d a 0#6 r).2 bodyBarInit s

/-- Pops or peeks a whole channel item into registers. (R308) -/
def execGet (f : Fields) (s : State) : Host.Outcome State Fault Refusal := issueOn 0xC3 f bodyGet s

/-- Buffers one item per acting lane into a channel, put at commit. (R308) -/
def execPut (f : Fields) (s : State) : Host.Outcome State Fault Refusal := issueOn 0xC4 f bodyPut s

/-- Reads a channel's status word as at the trace head. (R310) -/
def execChstat (f : Fields) (s : State) : Host.Outcome State Fault Refusal := issueOn 0xC5 f bodyChstat s

end Sys2Proof.Machine
end

