-- ==== Sys2Proof/Machine/TaskInstr.lean ====
section
/-!
DEFINITION. The task instructions TASKADD, TASKDONE, QTAIL, QROOM, WAKE (R347 to R354): their checks at issue. The commit
performs them.
-/
namespace Sys2Proof.Machine

/-- The first check that some lane fails, over checks in order: its trap names the lanes that fail it (R354). -/
def firstCheck {α : Type} (rows : List (Nat × α)) : List (Nat × (α → Bool) × (α → Nat) × (α → Nat)) → Option Trap
  | [] => none
  | (cause, bad, i0, i1) :: l =>
    match rows.filter (fun r => bad r.2) with
    | [] => firstCheck rows l
    | b :: more => some ⟨cause, (b :: more).map (·.1), i0 b.2, i1 b.2⟩

/-- TASKADD at issue (R348, R349, R354). -/
def bodyTaskadd : Body := fun i ws =>
  let rows := (actingWords i ws).map (fun p =>
    (p.1, ((nth p.2 0 0#32).toNat, (nth p.2 1 0#32).toNat, (nth p.2 2 0#32).toNat)))
  let tile (r : Nat × Nat × Nat) : Tile := groupTile i.tm i.grp (r.2.1 % 64)
  let zero (_ : Nat × Nat × Nat) : Nat := 0
  match firstCheck rows [
    (encCause i.f.enc 4, fun r => decide (64 ≤ r.2.1), zero, zero),
    (encCause i.f.enc 5, fun r => decide (16 ≤ r.2.2), zero, zero),
    (encCause i.f.enc 14, fun r => decide (i.tm.tileAllot ≤ r.2.1 ∧ ¬ (i.grp.hm ∧ r.2.1 = 63)), fun r => r.2.1, zero),
    (91, fun r => (tile r).state == .undef, zero, zero),
    (90, fun r => (tile r).atomic, zero, zero),
    (92, fun r => maskCode i.x.mask r.2.1 == 0, zero, zero),
    (89, fun r => r.1 % 64 != 0, fun r => r.1, fun r => r.2.1),
    (88, fun r => decide ((tile r).bytes < r.1 + 64), fun r => r.1, fun r => r.2.1),
    (104, fun r => (tget i.tm.queues r.2.2).isNone, zero, zero)] with
  | some t => .error t
  | none => .ok (groupRes i (.taskadd (rows.map (fun r => (r.1, r.2.2.1, r.2.1, r.2.2.2)))))

/-- TASKDONE at issue (R350, R354). A second TASKDONE of a trace finds no record. -/
def bodyTaskdone : Body := fun i _ =>
  let has := i.grp.task.isSome && (i.grp.taskAccepted || i.x.gotTask) && !i.x.groupEffs.contains .taskdone
  if !i.acting.isEmpty && !has then .error (plainTrap 103 i.acting) else .ok (groupRes i .taskdone)

/-- The queue names of the acting lanes (R341). -/
def laneNames (i : Iss) (ws : Table (List Word)) : List (Nat × Nat) :=
  (actingWords i ws).map (fun p => (p.1, (pairOf (nth p.2 0 0#32) (nth p.2 1 0#32)).toNat))

/-- The check of the names (R354): bits [63:40] zero, and CLOSE only for WAKE. -/
def nameCheck (i : Iss) (names : List (Nat × Nat)) (wake : Bool) : Option Trap :=
  firstCheck names [(encCause i.f.enc 4, fun v => bits v 63 40 != 0 || (!wake && bit v 39), fun _ => 0, fun _ => 0)]

/-- QTAIL at issue (R351). -/
def bodyQtail : Body := fun i ws =>
  match nameCheck i (laneNames i ws) false with
  | some t => .error t
  | none => .ok (groupRes i (.qtail ((actingWords i ws).map (fun p =>
      (p.1, (pairOf (nth p.2 0 0#32) (nth p.2 1 0#32)).toNat, (nth p.2 2 0#32).toNat)))))

/-- QROOM at issue (R353). -/
def bodyQroom : Body := fun i ws =>
  match nameCheck i (laneNames i ws) false with
  | some t => .error t
  | none => .ok (groupRes i (.qroom (laneNames i ws) (dstReg i)))

/-- WAKE at issue (R352). -/
def bodyWake : Body := fun i ws =>
  match nameCheck i (laneNames i ws) true with
  | some t => .error t
  | none => .ok (groupRes i (.wake (laneNames i ws)))

/-- Appends a record from a tile to the team's task queue at commit. (R349) -/
def execTaskadd (f : Fields) (s : State) : Host.Outcome State Fault Refusal := issueOn 0xC6 f bodyTaskadd s

/-- L9 base-word form of TASKADD. (R349) -/
def execTaskaddL9 (a : BitVec 6) (b : BitVec 6) (r : BitVec 1) (s : State) : Host.Outcome State Fault Refusal :=
  issueOn 0xC6 (baseFields 0xC6#8 0#4 0#6 a b r).2 bodyTaskadd s

/-- Completes the group's current record, decrementing its successor counter. (R350) -/
def execTaskdone (f : Fields) (s : State) : Host.Outcome State Fault Refusal := issueOn 0xC7 f bodyTaskdone s

/-- L9 base-word form of TASKDONE. (R350) -/
def execTaskdoneL9 (r : BitVec 1) (s : State) : Host.Outcome State Fault Refusal :=
  issueOn 0xC7 (baseFields 0xC7#8 0#4 0#6 0#6 0#6 r).2 bodyTaskdone s

/-- Writes a port's RTAIL, starting pulls from the outbox. (R351) -/
def execQtail (f : Fields) (s : State) : Host.Outcome State Fault Refusal := issueOn 0xC8 f bodyQtail s

/-- L9 base-word form of QTAIL. (R351) -/
def execQtailL9 (a : BitVec 6) (b : BitVec 6) (r : BitVec 1) (s : State) : Host.Outcome State Fault Refusal :=
  issueOn 0xC8 (baseFields 0xC8#8 0#4 0#6 a b r).2 bodyQtail s

/-- Queries a team task queue's room, returned between traces. (R353) -/
def execQroom (f : Fields) (s : State) : Host.Outcome State Fault Refusal := issueOn 0xC9 f bodyQroom s

/-- L9 base-word form of QROOM. (R353) -/
def execQroomL9 (d : BitVec 6) (a : BitVec 6) (r : BitVec 1) (s : State) : Host.Outcome State Fault Refusal :=
  issueOn 0xC9 (baseFields 0xC9#8 0#4 d a 0#6 r).2 bodyQroom s

/-- Optionally closes a queue and wakes every group asleep on it. (R352) -/
def execWake (f : Fields) (s : State) : Host.Outcome State Fault Refusal := issueOn 0xCA f bodyWake s

/-- L9 base-word form of WAKE. (R352) -/
def execWakeL9 (a : BitVec 6) (r : BitVec 1) (s : State) : Host.Outcome State Fault Refusal :=
  issueOn 0xCA (baseFields 0xCA#8 0#4 0#6 a 0#6 r).2 bodyWake s

end Sys2Proof.Machine
end

