-- ==== Sys2Proof/Machine/MatrixInstr.lean ====
section
/-!
DEFINITION. The matrix instructions of a trace: MXGO, MXSTAT, MXSTOP (R223, R224, R236), ACCRD and ACCWR (R237 to R239).
-/
namespace Sys2Proof.Machine

/-- FEATURE_ABSENT of a matrix instruction on an LCORE (R224, R236): INFO0 is REQ of the trace, INFO1 CORECAPS (R363). -/
def featureAbsent (i : Iss) : Option Trap :=
  if isLcore i.g.core then some ⟨84, i.here, ((i.s.trace? i.tm.ctx i.x.tr).map (·.req)).getD 0, i.s.coreCaps i.g.core⟩ else none

/-- MXGO (R223, R224). -/
def bodyMxgo : Body := fun i ws =>
  let t := i.tile i.o.sa
  let o := (nth (leadWords i ws) 0 0#32).toNat
  match featureAbsent i with
  | some tr => .error tr
  | none =>
    if i.x.cameBefore i.f.enc [0xD3] then
      .error (plainTrap (encCause i.f.enc 3) i.here)
    else if i.acting.isEmpty then .ok {}
    else match tileCheck i t 1 with
      | some tr => .error tr
      | none =>
        if o % 16 ≠ 0 then .error ⟨89, i.acting, o, t.1⟩
        else if t.2.bytes < o + 16 then .error ⟨88, i.acting, o, t.1⟩
        else .ok (groupRes i (.mxgo t.1 o))

/-- MXSTAT: the sequencer's word at the trace head (R236). -/
def bodyMxstat : Body := fun i _ =>
  match featureAbsent i with
  | some tr => .error tr
  | none => .ok (deliver i (i.acting.map (fun l => (l, [BitVec.ofNat 32 i.x.view.mxstat]))))

/-- MXSTOP (R236). -/
def bodyMxstop : Body := fun i _ =>
  match featureAbsent i with
  | some tr => .error tr
  | none => .ok (groupRes i .mxstop)

/-- The accumulator an operand names. -/
def accOf : Operand → Nat
  | .acc n => n
  | _ => 0

/-- ACC_BOUNDS (R239). -/
def accCheck (i : Iss) (es : List (Nat × Nat)) : Option Trap :=
  match es.filter (fun p => decide (16384 ≤ p.2)) with
  | [] => none
  | b :: l => some (plainTrap 95 (i.named ((b :: l).map (·.1))))

/-- ACCRD: the element as committed before the trace, under the lane's own earlier ACCWRs (R237, R259). -/
def bodyAccrd : Body := fun i ws =>
  let n := accOf i.o.sa
  let es := (actingWords i ws).map (fun p => (p.1, (lastWord i p.2 0).toNat))
  match (accCheck i es).or (firstSome (fun (p : Nat × Nat) => (i.tm.accHit n (4 * p.2) 4).map (fun b => (⟨256 + 4 * b, i.named [p.1], 0, 0⟩ : Trap))) es) with
  | some t => .error t
  | none => .ok (deliver i (es.map (fun p => (p.1, [i.x.buf.foldl (fun w b => match b.eff with
      | .accwr l a e v => if l = i.viewer p.1 ∧ a = n ∧ e = p.2 then v else w
      | _ => w) (sget ((tget i.x.view.acc n).getD []) p.2)]))))

/-- ACCWR: the word at byte 4e of the lane's view of the tile (R237, R239). -/
def bodyAccwr : Body := fun i ws =>
  let n := accOf i.o.dst
  let t := i.tile i.o.sa
  let es := (actingWords i ws).map (fun p => (p.1, (lastWord i p.2 0).toNat))
  if es.isEmpty then .ok {}
  else match (accCheck i es).or ((tileCheck i t 1).or
      (laneCheck i 88 t.1 ((es.filter (fun p => decide (t.2.bytes < 4 * p.2 + 4))).map (fun p => (p.1, 4 * p.2))))) with
    | some tr => .error tr
    | none => match poisonCheck i (es.map (fun p => (p.1, t.2.start + 4 * p.2, 4))) with
      | some tr => .error tr
      | none => .ok { effs := es.map (fun p =>
          .accwr p.1 n p.2 (BitVec.ofNat 32 (ofBytesLE (i.view p.1 (t.2.start + 4 * p.2) 4)))) }

/-- Starts the matrix sequencer on a command chain at commit. (R223) -/
def execMxgo (f : Fields) (s : State) : Host.Outcome State Fault Refusal := issueOn 0xD3 f bodyMxgo s

/-- Reads the sequencer's status word as at the trace head. (R236) -/
def execMxstat (f : Fields) (s : State) : Host.Outcome State Fault Refusal := issueOn 0xD4 f bodyMxstat s

/-- Stops the owner team's running chain at its next interrupt point. (R236) -/
def execMxstop (f : Fields) (s : State) : Host.Outcome State Fault Refusal := issueOn 0xD5 f bodyMxstop s

/-- Reads an accumulator element. (R237) -/
def execAccrd (f : Fields) (s : State) : Host.Outcome State Fault Refusal := issueOn 0xD6 f bodyAccrd s

/-- Buffers a tile word into an accumulator element, written at commit. (R237) -/
def execAccwr (f : Fields) (s : State) : Host.Outcome State Fault Refusal := issueOn 0xD7 f bodyAccwr s

end Sys2Proof.Machine
end

