-- ==== Sys2Proof/Machine/System.lean ====
section
/-!
DEFINITION. The system instructions: TRAP (R366), RETT and RETT.ABORT (R367 to R369), CSRR and CSRW (R373 to R375), HALT (R376,
R377),
EPQ (R311), CHAIN.FOLD and CHAIN.SPREAD (R322, R323), CONTAIN.OPEN and CONTAIN.CLOSE (R411 to R415).
-/
namespace Sys2Proof.Machine

/-- TRAP: TRAP_USER(n) when some lane acts (R366). -/
def bodyTrap : Body := fun i _ =>
  let n := immField i.f % 16
  if i.acting.isEmpty then .ok {} else .error ⟨64 + n, i.acting, n, 0⟩

/-- RETT and RETT.ABORT at issue: only in handler mode (R369) (log 34, DEDUCED). -/
def rettBody (abort : Bool) : Body := fun i _ =>
  let ref : Option TRef := if immForm i.r i.f then some { i.x.tr with idx := immField i.f % 2 ^ 17 } else none
  if !i.acting.isEmpty && !i.grp.hm then .error (plainTrap 85 i.acting) else .ok (groupRes i (.rett abort ref))

/-- RETT (R368). -/
def bodyRett : Body := rettBody false
/-- RETT.ABORT (R368). -/
def bodyRettAbort : Body := rettBody true

/-- CSRR (R374). -/
def bodyCsrr : Body := fun i _ =>
  let n := immField i.f % 256
  let v := i.csr n / (if bit (immField i.f) 8 then 2 ^ 32 else 1)
  .ok (deliver i (i.acting.map (fun l => (l, [BitVec.ofNat 32 v]))))

/-- Whether a register may not be written here (R370, R375): its Access is RO, it is GANGWAIT outside the Plien slot, or the
value sets TRAPBASE bits that must be zero (log 48, DEDUCED, log 51, DEDUCED). -/
def csrDenied (i : Iss) (num : Nat) (hi : Bool) (v : Nat) : Bool :=
  [1, 3, 4, 5, 6, 7, 8, 0x0B, 0x0E].contains num || (num == 0x0F && !i.grp.priv) || (num == 0x0A && !hi && v / 2 ^ 17 != 0)

/-- CSRW at issue (R374, R375). -/
def csrwBody : Body := fun i ws =>
  let n := immField i.f % 256
  let hi := bit (immField i.f) 8
  let v := (nth (leadWords i ws) 0 0#32).toNat
  if !i.acting.isEmpty && csrDenied i n hi v then .error (plainTrap 86 i.acting) else .ok (groupRes i (.csrw n hi v))

/-- CSRW to TSTAT, and to the registers whose Access is RO, which it refuses (R370, R371, R375) (log 51, DEDUCED). -/
def bodyCsrwTstat : Body := csrwBody
/-- CSRW to SRSEED (R60). -/
def bodyCsrwSrseed : Body := csrwBody
/-- CSRW to MODE (R371). -/
def bodyCsrwMode : Body := csrwBody
/-- CSRW to KEYPERM (R34). -/
def bodyCsrwKeyperm : Body := csrwBody
/-- CSRW to TRAPBASE (R372). -/
def bodyCsrwTrapbase : Body := csrwBody
/-- CSRW to MIGPOL (R297). -/
def bodyCsrwMigpol : Body := csrwBody
/-- CSRW to GANGWAIT (R337) (log 48, DEDUCED). -/
def bodyCsrwGangwait : Body := csrwBody
/-- CSRW to BRK0 to BRK3 (R372). -/
def bodyCsrwBrk : Body := csrwBody

/-- Whether a region is open as the trace's own OPENs and CLOSEs so far leave it (R415). -/
def Iss.regionOpen (i : Iss) : Bool :=
  i.x.groupEffs.foldl (fun o e => match e with | .containOpen _ => true | .containClose => false | _ => o) i.grp.contain.opened

/-- CONTAIN.OPEN at issue (R412, R415). -/
def bodyContainOpen : Body := fun i _ =>
  if !i.acting.isEmpty && i.regionOpen then .error (plainTrap 105 i.acting)
  else .ok (groupRes i (.containOpen (immField i.f % 2 ^ 17)))

/-- CONTAIN.CLOSE at issue (R412, R415). -/
def bodyContainClose : Body := fun i _ =>
  if !i.acting.isEmpty && !i.regionOpen then .error (plainTrap 105 i.acting) else .ok (groupRes i .containClose)

/-- HALT (R377). -/
def bodyHalt : Body := fun i _ => .ok (groupRes i .halt)

/-- EPQ: the word at the trace head (R311). -/
def bodyEpq : Body := fun i _ => .ok (deliver i (i.acting.map (fun l => (l, [BitVec.ofNat 32 i.x.view.epq]))))

/-- CHAIN.FOLD and CHAIN.SPREAD at issue: only in a chain stage (R323). -/
def chainBody (e : GroupEff) : Body := fun i _ =>
  if !i.acting.isEmpty && i.tm.stages.isEmpty then .error (plainTrap 100 i.acting) else .ok (groupRes i e)

/-- CHAIN.FOLD (R323). -/
def bodyChainFold : Body := chainBody .chainFold
/-- CHAIN.SPREAD (R323). -/
def bodyChainSpread : Body := chainBody .chainSpread

/-- NOP (R266). -/
def bodyNop : Body := fun _ _ => .ok {}

/-- Lanes that leave for the trace of the immediate (R255, R266). -/
def leaveRes (i : Iss) (ls : List Nat) : Res := { leave := ls.map (fun l => (l, { i.x.tr with idx := immField i.f % 2 ^ 17 }, none)) }

/-- GUARD: the lanes for which the condition fails leave (R266). -/
def bodyGuard : Body := fun i _ => .ok (leaveRes i (i.here.filter (fun l => !i.acting.contains l)))

/-- ABORT: the lanes that act leave (R266). -/
def bodyAbort : Body := fun i _ => .ok (leaveRes i i.acting)

/-- Traps with TRAP_USER(n) when a lane acts. (R366) -/
def execTrap (f : Fields) (s : State) : Host.Outcome State Fault Refusal := issueOn 0xE0 f bodyTrap s

/-- Ends handler mode, replaying the queue and resuming the trapped trace. (R368) -/
def execRett (f : Fields) (s : State) : Host.Outcome State Fault Refusal := issueOn 0xE1 f bodyRett s

/-- L9 base-word form of RETT. (R368) -/
def execRettL9 (r : BitVec 1) (s : State) : Host.Outcome State Fault Refusal :=
  issueOn 0xE1 (baseFields 0xE1#8 0#4 0#6 0#6 0#6 r).2 bodyRett s

/-- Ends handler mode, discarding the trapped execution and restarting its lanes. (R368) -/
def execRettAbort (f : Fields) (s : State) : Host.Outcome State Fault Refusal := issueOn 0xE2 f bodyRettAbort s

/-- L9 base-word form of RETT.ABORT without a trace reference. (R368) -/
def execRettAbortL9 (r : BitVec 1) (s : State) : Host.Outcome State Fault Refusal :=
  issueOn 0xE2 (baseFields 0xE2#8 0#4 0#6 0#6 0#6 r).2 bodyRettAbort s

/-- Reads a control and status register word as at the trace head. (R374) -/
def execCsrr (f : Fields) (s : State) : Host.Outcome State Fault Refusal := issueOn 0xE3 f bodyCsrr s

/-- CSRW to TSTAT clears the team sticky bits written as 1. (R374) -/
def execCsrwTstat (f : Fields) (s : State) : Host.Outcome State Fault Refusal := issueOn 0xE4 f bodyCsrwTstat s

/-- CSRW to SRSEED reseeds every lane's stochastic-rounding state at commit. (R60) -/
def execCsrwSrseed (f : Fields) (s : State) : Host.Outcome State Fault Refusal := issueOn 0xE4 f bodyCsrwSrseed s

/-- CSRW to MODE sets the checking scoreboard and single-step bits. (R371) -/
def execCsrwMode (f : Fields) (s : State) : Host.Outcome State Fault Refusal := issueOn 0xE4 f bodyCsrwMode s

/-- CSRW to KEYPERM changes protection-key permissions for the context. (R173) -/
def execCsrwKeyperm (f : Fields) (s : State) : Host.Outcome State Fault Refusal := issueOn 0xE4 f bodyCsrwKeyperm s

/-- CSRW to TRAPBASE sets the context's handler entry and enable. (R372) -/
def execCsrwTrapbase (f : Fields) (s : State) : Host.Outcome State Fault Refusal := issueOn 0xE4 f bodyCsrwTrapbase s

/-- CSRW to MIGPOL sets the scheduler's migration policy. (R297) -/
def execCsrwMigpol (f : Fields) (s : State) : Host.Outcome State Fault Refusal := issueOn 0xE4 f bodyCsrwMigpol s

/-- Privileged CSRW to GANGWAIT sets the gang reservation and starvation deadlines. (R337) -/
def execCsrwGangwait (f : Fields) (s : State) : Host.Outcome State Fault Refusal := issueOn 0xE4 f bodyCsrwGangwait s

/-- CSRW to BRKn arms or disarms a breakpoint. (R372) -/
def execCsrwBrk (f : Fields) (s : State) : Host.Outcome State Fault Refusal := issueOn 0xE4 f bodyCsrwBrk s

/-- Opens a containment region with a handler trace at commit. (R412) -/
def execContainOpen (f : Fields) (s : State) : Host.Outcome State Fault Refusal := issueOn 0xE5 f bodyContainOpen s

/-- Closes the containment region at commit. (R412) -/
def execContainClose (f : Fields) (s : State) : Host.Outcome State Fault Refusal := issueOn 0xE6 f bodyContainClose s

/-- L9 base-word form of CONTAIN.CLOSE. (R412) -/
def execContainCloseL9 (r : BitVec 1) (s : State) : Host.Outcome State Fault Refusal :=
  issueOn 0xE6 (baseFields 0xE6#8 0#4 0#6 0#6 0#6 r).2 bodyContainClose s

/-- Halts the group after the commit until the debugger resumes it. (R377) -/
def execHalt (f : Fields) (s : State) : Host.Outcome State Fault Refusal := issueOn 0xE7 f bodyHalt s

/-- L9 base-word form of HALT. (R377) -/
def execHaltL9 (r : BitVec 1) (s : State) : Host.Outcome State Fault Refusal :=
  issueOn 0xE7 (baseFields 0xE7#8 0#4 0#6 0#6 0#6 r).2 bodyHalt s

/-- Reads the group's migration and chain status word as at the trace head. (R311) -/
def execEpq (f : Fields) (s : State) : Host.Outcome State Fault Refusal := issueOn 0xDB f bodyEpq s

/-- L9 base-word form of EPQ. (R311) -/
def execEpqL9 (d : BitVec 6) (r : BitVec 1) (s : State) : Host.Outcome State Fault Refusal :=
  issueOn 0xDB (baseFields 0xDB#8 0#4 d 0#6 0#6 r).2 bodyEpq s

/-- Latches a fold request for the group's chain at commit. (R323) -/
def execChainFold (f : Fields) (s : State) : Host.Outcome State Fault Refusal := issueOn 0xD9 f bodyChainFold s

/-- L9 base-word form of CHAIN.FOLD. (R323) -/
def execChainFoldL9 (r : BitVec 1) (s : State) : Host.Outcome State Fault Refusal :=
  issueOn 0xD9 (baseFields 0xD9#8 0#4 0#6 0#6 0#6 r).2 bodyChainFold s

/-- Latches a spread request for the group's chain at commit. (R323) -/
def execChainSpread (f : Fields) (s : State) : Host.Outcome State Fault Refusal := issueOn 0xDA f bodyChainSpread s

/-- L9 base-word form of CHAIN.SPREAD. (R323) -/
def execChainSpreadL9 (r : BitVec 1) (s : State) : Host.Outcome State Fault Refusal :=
  issueOn 0xDA (baseFields 0xDA#8 0#4 0#6 0#6 0#6 r).2 bodyChainSpread s

/-- Does nothing. (R266) -/
def execNop (f : Fields) (s : State) : Host.Outcome State Fault Refusal := issueOn 0x08 f bodyNop s

/-- L9 base-word form of NOP. (R266) -/
def execNopL9 (r : BitVec 1) (s : State) : Host.Outcome State Fault Refusal :=
  issueOn 0x08 (baseFields 0x08#8 0#4 0#6 0#6 0#6 r).2 bodyNop s

/-- Lanes whose condition fails leave the trace at once for the alternative, discarding their effects. (R255) -/
def execGuard (f : Fields) (s : State) : Host.Outcome State Fault Refusal := issueOn 0x06 f bodyGuard s

/-- Acting lanes leave the trace at once for the alternative, discarding their effects. (R255) -/
def execAbortTrace (f : Fields) (s : State) : Host.Outcome State Fault Refusal := issueOn 0x07 f bodyAbort s

end Sys2Proof.Machine
end

