-- ==== Sys2Proof/Machine/Queues.lean ====
section
/-!
DEFINITION. What a commit hands to the team's queues: channel puts (R280, R305), team task queues (R340, R349), queue names
(R341), the task instructions (R347 to R353), and phase boundaries (R273).
-/
namespace Sys2Proof.Machine

/-! ### Channels -/

/-- The items a spread queue or ring holds, oldest first (R304). -/
def chanItems (s : State) (c : Chan) : List Nat := (upto c.count).map (itemAt s c)

/-- Write items to a queue's storage from a position of HEAD on. -/
def State.putItems (s : State) (c : Chan) (pos : Nat) : List Nat → State
  | [] => s
  | v :: l =>
    let n := itemBytes c.size
    (s.storeLE (memKey .slice (c.qaddr + n * ((c.head + pos) % max 1 c.depth))) n v).putItems c (pos + 1) l

/-- Append one item to a channel of a team: to its queue, or to the consumer team's (R303, R305). A REMOTE entry spends a
credit. What is put into the channels of a team that is ending is discarded (R106). -/
def State.appendItem (s : State) (core slot q v : Nat) : State :=
  match s.team? core slot with
  | none => s
  | some tm =>
    let c := tm.chan q
    if c.remote then
      let ccore := c.qaddr / 2 ^ 21
      let s := s.modTeam core slot (fun t => t.modChan q (fun c => { c with credit := c.credit - 1 }))
      match s.team? ccore c.pslot with
      | none => s.modTeam core slot (fun t => t.modChan q (fun c => { c with credit := c.credit + 1 }))
      | some d =>
        if d.ending ∨ d.uid ≠ c.puid then s.modTeam core slot (fun t => t.modChan q (fun c => { c with credit := c.credit + 1 }))
        else (s.putItems (d.chan c.pq) (d.chan c.pq).count [v]).modTeam ccore c.pslot
          (fun t => t.modChan c.pq (fun c => { c with count := c.count + 1 }))
    else if tm.ending then s
    else (s.putItems c c.count [v]).modTeam core slot (fun t => t.modChan q (fun c => { c with count := c.count + 1 }))

/-- The room a putter sees: DEPTH − COUNT, or CREDIT; none while the entry is FROZEN (R302, R305). -/
def Chan.room (c : Chan) : Nat := if c.frozen then 0 else if c.remote then c.credit else c.depth - c.count

/-- Perform a put: items into the queue, or into the lanes' slots in the folded form (R305, R316) (log 36, DEDUCED). -/
def State.performPut (s : State) (core slot : Nat) (p : PendingPut) : State :=
  match s.team? core slot with
  | none => s
  | some tm =>
    if (tm.chan p.chan).mode = 2 then
      s.modTeam core slot (fun t => { t with fold := t.fold.map (fun fo =>
        p.items.foldl (fun fo (i : Nat × Nat) =>
          { fo with slots := sput fo.slots (slotKey i.1 p.chan) (BitVec.ofNat 128 i.2), full := sput fo.full (slotKey i.1 p.chan) 1#1 }) fo) })
    else p.items.foldl (fun s i => s.appendItem core slot p.chan i.2) s

/-- The REMOTE producer of a channel of a team: the core, slot and channel of the team in which the producing group stands (R303). -/
def State.remoteProducer (s : State) (core slot q : Nat) : Option (Nat × Nat × Nat) :=
  let uid := ((s.team? core slot).map (·.uid)).getD 0
  s.residents.findSome? (fun p => match s.team? p.1 p.2 with
    | some t => (t.chans.find? (fun c => c.2.remote && c.2.qaddr / 2 ^ 21 == core && c.2.pslot == slot && c.2.puid == uid && c.2.pq == q
        && t.groups.any (fun x => x.num == c.2.pgrp) && !t.away.contains c.2.pgrp)).map (fun c => (p.1, p.2, c.1))
    | none => none)

/-- Remove the items at some positions of a queue (R304): HEAD moves on by their number, and the rest keep their order. The
credits go to a REMOTE producer (R303). -/
def State.removeItems (s : State) (core slot q : Nat) (gone : List Nat) : State :=
  match s.team? core slot with
  | none => s
  | some tm =>
    let c := tm.chan q
    let kept := ((chanItems s c).zipIdx.filter (fun p => !gone.contains p.2)).map (·.1)
    let n := c.count - kept.length
    let c' := { c with head := (c.head + n) % max 1 c.depth, count := kept.length, owed := if (s.remoteProducer core slot q).isSome then c.owed + n else c.owed }
    (s.putItems c' 0 kept).modTeam core slot (fun t => t.modChan q (fun _ => c'))

/-! ### Team task queues (R340) -/

/-- The memory key of a field of a team task queue's header. -/
def tqKey (core : Nat) (tm : Team) (q off : Nat) : Nat :=
  sliceKey core ((tm.tile ((tget tm.queues q).elim 0 (·.tile))).start + off)

/-- A word of a team task queue's header: HEAD 0, TAIL 4, SLOTS 8, CLOSE 12, DONE 16, port P at 0x40 + 0x20 × P. -/
def State.tq (s : State) (core slot q off : Nat) : Nat :=
  match s.team? core slot with
  | some tm => if (tget tm.queues q).isSome then s.mem.readLE (tqKey core tm q off) 4 else 0
  | none => 0

/-- Write a word of a team task queue's header. -/
def State.setTq (s : State) (core slot q off v : Nat) : State :=
  match s.team? core slot with
  | some tm => if (tget tm.queues q).isSome then s.storeLE (tqKey core tm q off) 4 v else s
  | none => s

/-- Records in a team task queue: TAIL − HEAD modulo 2^32. -/
def State.tqCount (s : State) (core slot q : Nat) : Nat := (s.tq core slot q 4 + 2 ^ 32 - s.tq core slot q 0) % 2 ^ 32

/-- Slots left in a team task queue, less the records that commits have reserved (R349). -/
def State.tqRoom (s : State) (core slot q : Nat) : Nat :=
  match s.team? core slot with
  | none => 0
  | some tm =>
    let reserved := (tm.tasks.map (fun p => match p.eff with
      | .taskadd _ => (p.records.filter (fun r => r.1 == q)).length
      | _ => 0)).sum
    (tget tm.queues q).elim 0 (·.slots) - s.tqCount core slot q - reserved

/-- Append a record at TAIL (R349). -/
def State.tqAppend (s : State) (core slot q : Nat) (rec64 : List Byte) : State :=
  match s.team? core slot with
  | none => s
  | some tm =>
    if (tget tm.queues q).isNone then s else
    let tail := s.tq core slot q 4
    let n := max 1 ((tget tm.queues q).elim 0 (·.slots))
    (s.store (tqKey core tm q (0x100 + 64 * (tail % n))) rec64).setTq core slot q 4 ((tail + 1) % 2 ^ 32)

/-- Whether a group is asleep on a team task queue (R342): no execution, and every live lane pending at one trace whose TASK head
names the queue. -/
def Group.asleepOn (g : Group) (q : Nat) : Bool :=
  match g.live with
  | [] => false
  | l0 :: ls =>
    g.exec.isNone && ls.all (fun l => decide ((g.lane l).tr = (g.lane l0).tr))
      && g.buffers.any (fun b => b.tr == (g.lane l0).tr && b.hdr.head == 3 && b.hdr.arg == q)

/-! ### Queue names (R341) -/

/-- What a queue name names: a resident team, one that is not there yet, or one that will never be. -/
inductive Named where
  | here (core slot : Nat)
  | later
  | never
  deriving DecidableEq, Repr

/-- The teams of the grid of a hardware queue's slot, in all, created and ended. -/
def State.gridOf (s : State) (q slot : Nat) : Nat × Nat × List Nat :=
  match tget s.queues q with
  | none => (0, 0, [])
  | some h => match h.packets.find? (fun p => p.idx == slot) with
    | some p => (p.teams, p.created, p.ended)
    | none => (0, 0, [])

/-- Resolve TEAM of a name for a team of a grid (R341). A team of a task record is a grid of its own (log 22, DEDUCED). -/
def State.resolveTeam (s : State) (ctx lqueue lslot : Nat) (own : Nat × Nat) (fromTask : Bool) (n : Nat) : Named :=
  let same (t : Team) : Bool := t.ctx == ctx && t.lqueue == lqueue && t.lslot == lslot && t.teamno == n && !t.fromTask && !t.migrated
  if fromTask then
    (match s.team? own.1 own.2 with | some t => if t.teamno = n ∧ !t.ending then .here own.1 own.2 else .never | none => .never)
  else match s.residents.find? (fun p => match s.team? p.1 p.2 with | some t => same t | none => false) with
    | some p => (match s.team? p.1 p.2 with | some t => if t.ending then .never else .here p.1 p.2 | none => .never)
    | none =>
      let (teams, created, ended) := s.gridOf lqueue lslot
      if ((s.ctx? ctx).map (fun c => c.saved.any (fun x => same x.team))).getD false then .later
      else if teams ≤ n ∨ ended.contains n ∨ n < created then .never else .later

/-- Set QDROP in a team (R341) (log 42, DEDUCED). -/
def State.qdrop (s : State) (core slot : Nat) : State := s.modTeam core slot (fun t => t.setSticky .qdrop)

/-- A change to every group of a context's saved teams. -/
def Ctx.giveSaved (c : Ctx) (f : Group → Group) : Ctx :=
  { c with saved := c.saved.map (fun (t : SavedTeam) => { t with team := { t.team with groups := t.team.groups.map f } }) }

/-- Give a return its value (R170): to its group, or to its group as saved by a pre-emption. -/
def State.setReturn (s : State) (g : GRef) (id : Nat) (v : DWord) : State :=
  let give (x : Group) : Group := { x with returns := x.returns.map (fun r => if r.id = id ∧ r.value.isNone then { r with value := some v } else r) }
  let s := s.modGroup g give
  { s with ctxs := s.ctxs.map (fun (c : Nat × Ctx) => (c.1, if c.2.saved.isEmpty then c.2 else c.2.giveSaved give)) }

/-- Perform a queue operation on a resident team's queue (R351 to R353): 0 QTAIL, 1 QROOM, 2 WAKE. `g` is the issuing group. A name whose
queue or port is undeclared drops its operation, whichever it is (R341) (log 42, DEDUCED). -/
def State.queueOp (s : State) (g : GRef) (core slot name op value id : Nat) : State :=
  match s.team? core slot with
  | none => s
  | some tm =>
    let q := bits name 35 32
    let p := bits name 38 36
    match tget tm.queues q with
    | none => (s.qdrop g.core g.slot).setReturn g id 0#64
    | some tq =>
      if (nth tq.ports p ⟨0, 0⟩).slots = 0 then (s.qdrop g.core g.slot).setReturn g id 0#64
      else if op = 0 then
        let old := s.tq core slot q (0x40 + 0x20 * p)
        let s := if (value + 2 ^ 32 - old) % 2 ^ 32 < 2 ^ 31 then s.setTq core slot q (0x40 + 0x20 * p) value else s
        s.modTeam core slot (fun t => { t with queues := tput t.queues q { tq with stopped := tdel tq.stopped p } })
      else if op = 1 then
        s.setReturn g id (BitVec.ofNat 64 (min 65535 (tq.slots - s.tqCount core slot q) + (if s.tq core slot q 12 = 0 then 0 else 65536)))
      else
        let s := if bit name 39 then s.setTq core slot q 12 1 else s
        let asleep := ((tm.groups.zipIdx).filter (fun x => x.1.asleepOn q)).map (·.2)
        s.modTeam core slot (fun t => { t with queues := tput t.queues q { tq with woken := (tq.woken ++ asleep).eraseDups } })

/-- A queue operation by name (R341): performed, held by the I/O die, or dropped with QDROP. -/
def State.namedOp (s : State) (h : HeldOp) (fromTask : Bool) : State :=
  match s.resolveTeam h.ctx h.queue h.slot (h.g.core, h.g.slot) fromTask h.team with
  | .here core slot => s.queueOp h.g core slot h.name h.op h.value h.id
  | .later => { s with held := s.held ++ [h] }
  | .never => (s.qdrop h.g.core h.g.slot).setReturn h.g h.id 0#64

/-! ### The task instructions (R347) -/

/-- Perform the task instruction of a commit (R349 to R353) (log 36, DEDUCED). -/
def State.performTask (s : State) (core slot : Nat) (p : PendingTask) : State :=
  match s.team? core slot with
  | none => s
  | some tm =>
    let g : GRef := ⟨core, slot, p.grp⟩
    let op (lane name kind value id : Nat) : HeldOp :=
      { ctx := tm.ctx, g := g, lane := lane, queue := tm.lqueue, slot := tm.lslot, team := bits name 31 0, name := name, op := kind,
        value := value, id := id }
    match p.eff with
    | .taskadd _ => p.records.foldl (fun s r => s.tqAppend core slot r.1 r.2) s
    | .taskdone =>
      p.records.foldl (fun s r =>
        let ctr := leAt r.2 24 8
        if ctr = 0 then (if r.1 = 16 then s else s.setTq core slot r.1 16 ((s.tq core slot r.1 16 + 1) % 2 ^ 32))
        else s.modCore core (fun k => { k with succs := k.succs ++
          [{ slot := slot, grp := p.grp, ctx := tm.ctx, counter := ctr, record := leAt r.2 32 8, queue := r.1 }] })) s
    | .qtail ops => (ops.filter (fun o => p.lanes.contains o.1)).foldl (fun s o => s.namedOp (op o.1 o.2.1 0 o.2.2 0) tm.fromTask) s
    | .qroom ops _ =>
      ((ops.filter (fun o => p.lanes.contains o.1)).zip p.ids).foldl (fun s o => s.namedOp (op o.1.1 o.1.2 1 0 o.2) tm.fromTask) s
    | .wake ops => (ops.filter (fun o => p.lanes.contains o.1)).foldl (fun s o => s.namedOp (op o.1 o.2 2 0 0) tm.fromTask) s
    | _ => s

/-- Perform, in order, the task instructions of a team whose atomics have all been performed; those behind one that waits
wait too (R347). `fuel` is their number. -/
def State.drainTasks (s : State) (core slot : Nat) : Nat → State
  | 0 => s
  | fuel + 1 =>
    match s.team? core slot with
    | none => s
    | some tm =>
      let ready (p : PendingTask) : Bool := p.waits.all (fun a => (tget s.sent a).isNone)
      match tm.tasks.zipIdx.find? (fun p => ready p.1 && !(tm.tasks.take p.2).any (fun x => x.grp == p.1.grp)) with
      | none => s
      | some (p, i) => ((s.modTeam core slot (fun t => { t with tasks := t.tasks.eraseIdx i })).performTask core slot p).drainTasks core slot fuel

/-- Perform the task instructions of a team that are due (R347). -/
def State.runTasks (s : State) (core slot : Nat) : State :=
  s.drainTasks core slot (((s.team? core slot).map (fun t => t.tasks.length)).getD 0)

/-! ### Phase boundaries (R273, R274) -/

/-- Try to complete a group's boundary: its atomics have been performed, and every marked tile has become DRAINING and OPEN;
a marked tile that is READY and unheld moves now (R97) (log 36, DEDUCED). -/
def State.tryBoundary (s : State) (g : GRef) : State :=
  match s.group? g with
  | none => s
  | some grp =>
    match grp.boundary with
    | none => s
    | some b =>
      let s := if b.publishes then
          s.modTeam g.core g.slot (fun t => { t with tiles := t.tiles.map (fun p => (p.1, p.2.publish b.scope (grp.keptHold p.1))) })
        else s
      let marked : Bool := match s.team? g.core g.slot with | some t => t.tiles.any (fun p => p.2.post) | none => false
      if b.waits.any (fun a => (tget s.sent a).isSome) || (b.publishes && marked) then s
      else s.modGroup g (fun x =>
        { x with boundary := none, passed := if b.rel then x.passed else some (max b.scope (x.passed.getD 0)) })

/-- Begin a boundary of a scope for a group (R273), and complete it if nothing holds it up (log 36, DEDUCED). -/
def State.beginBoundary (s : State) (g : GRef) (scope : Nat) (rel : Bool) : State :=
  (s.modGroup g (fun x =>
    let b : Boundary := { scope := scope, publishes := decide (3 ≤ scope) && !rel, waits := if scope = 0 then [] else x.sent, rel := rel }
    { x with boundary := some b })).tryBoundary g

end Sys2Proof.Machine
end

