-- ==== Sys2Proof/Machine/Replay.lean ====
section
/-!
DEFINITION. The meaning at issue that an opcode selects, for the replay queue (R364, R368): the very one that the opcode's own
instruction has.
-/
namespace Sys2Proof.Machine

/-- The meaning at issue of an opcode; an opcode without one does nothing. -/
def bodyOf (op : Nat) : Body :=
  match op with
  | 0x10 => bodyAdd
  | 0x11 => bodySub
  | 0x12 => bodyMullo
  | 0x13 => bodyMulhi
  | 0x14 => bodyMad
  | 0x15 => bodyMin
  | 0x16 => bodyMax
  | 0x17 => bodyAbs
  | 0x18 => bodyNeg
  | 0x19 => bodyAadd
  | 0x1A => bodyAmad
  | 0x20 => bodyAnd
  | 0x21 => bodyOr
  | 0x22 => bodyXor
  | 0x23 => bodyAndn
  | 0x24 => bodyNot
  | 0x25 => bodyShl
  | 0x26 => bodyShr
  | 0x27 => bodyRot
  | 0x28 => bodyBfx
  | 0x29 => bodyBfi
  | 0x2A => bodyPopc
  | 0x2B => bodyClz
  | 0x2C => bodyCtz
  | 0x2D => bodyBrev
  | 0x2E => bodyIcmp
  | 0x2F => bodyIcmp
  | 0x30 => bodySel
  | 0x31 => bodyMov
  | 0x32 => bodyMovi
  | 0x33 => bodyMovh
  | 0x34 => bodyMovx
  | 0x35 => bodySreg
  | 0x40 => bodyFadd
  | 0x41 => bodyFsub
  | 0x42 => bodyFmul
  | 0x43 => bodyFma
  | 0x44 => bodyFmin
  | 0x45 => bodyFmax
  | 0x46 => bodyFcmp
  | 0x47 => bodyFrcp
  | 0x48 => bodyFrsq
  | 0x49 => bodyFsqrt
  | 0x4A => bodyFexp2
  | 0x4B => bodyFlog2
  | 0x4C => bodyFtanh
  | 0x4D => bodyFerf
  | 0x4E => bodyFsin
  | 0x4F => bodyFcos
  | 0x50 => bodyLdexp
  | 0x51 => bodyFrnd
  | 0x52 => bodyFrac
  | 0x53 => bodyFred
  | 0x54 => bodyFamax
  | 0x55 => bodyScale
  | 0x70 => bodyCvt
  | 0x71 => bodyPackw
  | 0x72 => bodyUnpkw
  | 0x80 => bodyPand
  | 0x81 => bodyPor
  | 0x82 => bodyPxor
  | 0x83 => bodyPnot
  | 0x84 => bodyVote
  | 0x85 => bodyElect
  | 0x86 => bodyReadlane
  | 0x87 => bodyShfl
  | 0x88 => bodyUmov
  | 0xA0 => bodyLd
  | 0xA1 => bodySt
  | 0xA2 => bodyLdx
  | 0xA3 => bodyLdf
  | 0xA4 => bodyStf
  | 0xA5 => bodyTdef
  | 0xA6 => bodyTrel
  | 0xA7 => bodyTpost
  | 0xA8 => bodyTreclaim
  | 0xA9 => bodyTstat
  | 0xB0 => bodyAtom
  | 0xB1 => bodyAtomr
  | 0xB2 => bodyCas
  | 0xB3 => bodyPhase
  | 0xB4 => bodyKeyset
  | 0xB5 => bodyKeyget
  | 0xB6 => bodyIcinv
  | 0xC0 => bodyBarArrive
  | 0xC1 => bodyBarSync
  | 0xC2 => bodyBarInit
  | 0xC3 => bodyGet
  | 0xC4 => bodyPut
  | 0xC5 => bodyChstat
  | 0xC6 => bodyTaskadd
  | 0xC7 => bodyTaskdone
  | 0xC8 => bodyQtail
  | 0xC9 => bodyQroom
  | 0xCA => bodyWake
  | 0xD0 => bodyJob
  | 0xD1 => bodyJobq
  | 0xD2 => bodyJcancel
  | 0xD3 => bodyMxgo
  | 0xD4 => bodyMxstat
  | 0xD5 => bodyMxstop
  | 0xD6 => bodyAccrd
  | 0xD7 => bodyAccwr
  | 0xD9 => bodyChainFold
  | 0xDA => bodyChainSpread
  | 0xDB => bodyEpq
  | 0xE0 => bodyTrap
  | 0xE1 => bodyRett
  | 0xE2 => bodyRettAbort
  | 0xE3 => bodyCsrr
  | 0xE4 => csrwBody
  | 0xE5 => bodyContainOpen
  | 0xE6 => bodyContainClose
  | 0xE7 => bodyHalt
  | _ => fun _ _ => .ok {}

end Sys2Proof.Machine
end

