-- ==== Sys2Proof/Machine/Return.lean ====
section
/-!
DEFINITION. The return from an exception (R368): the frame as the handler has left it, the lanes it kills or moves, the replay
queue, and the resumed or discarded execution. A debugger's resume of a breakpoint acts the same way (R379).
-/
namespace Sys2Proof.Machine

/-- The opcode and fields of an instruction word of an encoding (R117, R126). -/
def unpackWord (e : Enc) (w : DWord) : BitVec 8 × Fields :=
  match e with
  | .l9 => if w.getLsbD 31 then unpackL9 (loWord w) (hiWord w) else unpackBase (loWord w)
  | e => unpackD9 e w

/-- The first `n` numbered words of a lane in a replay entry (R364) (log 34, DEDUCED). -/
def replayWords (e : List Byte) (lane n : Nat) : List Word :=
  (upto (min n 4)).map (fun j => BitVec.ofNat 32 (leAt e (0x20 + 16 * lane + 4 * j) 4))

/-- Put an instruction's record at its place in program order, the latest first (log 34, DEDUCED). -/
def insertIssued (e : Issued) : List Issued → List Issued
  | [] => [e]
  | i :: l => if i.off ≤ e.off then e :: i :: l else i :: insertIssued e l

/-- Perform one replay entry for the lanes of MASK among those that go on: its results and effects enter the trapped
execution as those of an instruction of its trace (R368): it sees what stands before it in the trace, and its effects take their place there (R150)
(log 34, DEDUCED). A cross-lane instruction has the captured words of every lane that
was present, so that it consumes from the lanes that it consumed from when it issued (R195). -/
def replayOne (s : State) (g : GRef) (tm : Team) (grp : Group) (present keep : List Nat) (x : Exec) (e : List Byte) : Exec :=
  let word : DWord := BitVec.ofNat 64 (leAt e 0 8)
  let off := leAt e 8 1
  let acts := maskLanes (leAt e 16 16)
  let lanes := acts.filter (fun l => keep.contains l && x.here.contains l)
  let here := (upto grp.width).filter (fun l => present.contains l || acts.contains l)
  let words (l : Nat) : List Word := replayWords e l (leAt e 9 1)
  let (op8, f) := unpackWord (s.encOf g) word
  let op := op8.toNat
  match checkWord op f with
  | .error _ => x
  | .ok (r, o) =>
    match relocateOperand tm o.dst, relocateOperand tm o.sa, relocateOperand tm o.sb, relocateOperand tm o.sc with
    | .ok d, .ok a, .ok b, .ok c =>
      let o : Operands := ⟨d, a, b, c⟩
      let scalar := isScalar op r o
      let i : Iss := { s := s, g := g, tm := tm, grp := grp, x := { x with off := off, buf := x.buf.filter (fun b => decide (b.off < off)) }, op := op, f := f, r := r, o := o, now := x.ready,
                       old := 0, stood := here, here := here, acting := if scalar then [0] else lanes, scalar := scalar }
      let sources := if scalar && op != 0x86 then [(0, words (lanes.headD 0))] else (if readsPresent op then here else lanes).map (fun l => (l, words l))
      match (if lanes.isEmpty then .error (plainTrap 0 []) else bodyOf op i sources) with
      | .error _ => x
      | .ok res =>
        { x with
          issued := insertIssued
            { off := off, word := word, start := 0, lat := 1, beats := 1, mask := lanes, srcs := [], writes := res.writes } x.issued
          buf := x.buf.filter (fun b => decide (b.off ≤ off)) ++ res.effs.map (fun v => ⟨off, v⟩) ++ x.buf.filter (fun b => decide (off < b.off)), uses := x.uses ++ res.uses }
    | _, _, _, _ => x

/-- Lanes retire (R244, R268): they are live no longer, and their returns are dropped (R170). -/
def Group.retire (g : Group) (ls : List Nat) : Group :=
  { g.modLanes ls (fun l => { l with live := false, held := none, acquires := [] }) with
    returns := g.returns.filter (fun r => !ls.contains r.lane) }

/-- Lanes of a group of a team retire; in a folded thread, a lane for which another stage has not ended only ends its present one (R317)
(log 40, DEDUCED). -/
def Team.retireLanes (t : Team) (g : Group) (ls : List Nat) : Group :=
  let ended (l : Nat) : Bool := !(t.banked g.num).any (fun p => p.1 == l && p.2.live)
  (g.modLanes ls (fun l => { l with live := false, held := none, acquires := [] })).retire (ls.filter ended)

/-- Whether a group, by its number, has ended: no lane of it is live; of a folded chain, all its groups end with the thread's last lane, in
every stage (R244, R317): a team whose chain's thread is another's ends with that. -/
def Team.groupEnded (t : Team) (n : Nat) : Bool :=
  let dead (k : Nat) : Bool := match t.groups.find? (fun g => g.num == k) with | some g => g.live.isEmpty | none => true
  match t.folded, t.fold with
  | true, some fo =>
    if fo.groups.contains n then dead fo.thread && !fo.cont.any (fun p => p.2.live && p.1 / 128 != fo.stage) else dead n
  | true, none => false
  | false, _ => dead n

/-- The team's last group may have ended: the sequencer is stopped as by MXSTOP and the team begins to end (R106). What a
retired group still held is dropped (R343), and its vector registers are free (R105). -/
def State.noteOneEnded (s : State) (core slot : Nat) : State :=
  let s := s.modTeam core slot (fun t =>
    { t with groups := t.groups.map (fun g => if t.groupEnded g.num then { g with task := none, taskAccepted := false, boundary := none, wait := none, vallot := 0 } else g) })
  match s.team? core slot with
  | none => s
  | some t =>
    if t.groups.all (fun g => t.groupEnded g.num) && !t.ending then
      let s := s.modTeam core slot (fun t => { t with ending := true })
      s.modCore core (fun k =>
        if k.seqr.owner = some slot ∧ (k.seqr.state = .running ∨ k.seqr.state = .waiting) then { k with seqr := { k.seqr with state := .stopping } }
        else k)
    else s

/-- A team may have ended, and with a folded chain's thread the other teams that hold its dormant stages (R317). -/
def State.noteEnded (s : State) (core slot : Nat) : State :=
  let s := s.noteOneEnded core slot
  match s.team? core slot with
  | none => s
  | some t =>
    if t.ending ∧ t.folded then
      ((s.chainTeams core slot t).filter (fun p => !(p.1 == core && p.2 == slot))).foldl (fun s p =>
        (s.modTeam p.1 p.2 (fun u => { u with folded := false })).noteOneEnded p.1 p.2) s
    else s

/-- Return from an exception (R368), or from a breakpoint halt (R379). `ref` is the trace that RETT.ABORT names (log 34, DEDUCED). -/
def State.returnTrap (s : State) (g : GRef) (abort : Bool) (ref : Option TRef) : State :=
  match s.team? g.core g.slot, s.group? g with
  | some tm, some grp =>
    let now := (s.core g.core).cycles
    let fr := s.readTrapTile g 0 256
    let flags := leAt fr 3 1
    let off := leAt fr 2 1
    let lanes := (maskLanes (leAt fr 0x20 16)).filter grp.live.contains
    let kill := (maskLanes (leAt fr 0x50 16)).filter grp.live.contains
    let move := (maskLanes (leAt fr 0x60 16)).filter (fun l => grp.live.contains l && !kill.contains l)
    let keep := lanes.filter (fun l => !kill.contains l && !move.contains l)
    let handle := bits (leAt fr 0x18 4) 30 0
    let base : TRef := match grp.trapped with
      | some x => if x.tr.handle = handle then x.tr else ⟨handle, if handle = tm.handle then tm.kernel else 0, 0⟩
      | none => ⟨handle, if handle = tm.handle then tm.kernel else 0, 0⟩
    let head : TRef := { base with idx := bits (leAt fr 4 4) 16 0 }
    let moved : TRef := { base with idx := bits (leAt fr 0x70 4) 16 0 }
    let discard : Bool := abort || bit flags 0 || bit flags 3 || grp.trapped.isNone
    let nrep := min 8 (bits flags 7 4)
    let entry (n : Nat) : List Byte := s.readTrapTile g (0x100 + n * (32 + 16 * grp.width)) (32 + 16 * grp.width)
    let out : Group := { ((tm.retireLanes grp kill).pendAt move moved now) with
      hm := false, doubled := false, frame := false, trapped := none, handlerLanes := [], halt := if grp.halt = .breakpoint then .none else grp.halt }
    match grp.trapped with
    | some x =>
      if discard then
        ((s.dropTrapped g).modGroup g (fun _ => out)).modGroup g (fun y => y.pendAt keep (ref.getD head) now)
      else
        let present := x.here
        let x := { x with here := x.here.filter keep.contains, left := x.left ++ x.here.filter (fun l => !keep.contains l) }
        let x := (upto nrep).foldl (fun x n => replayOne s g tm grp present keep x (entry n)) x
        let x := { x with off := off + b2n (bit flags 1), skipBreak := true, ready := now, run := 0 }
        ((s.modTrs g (fun p => some { p with trs := p.trs % 1000 })).modGroup g
          (fun _ => { out with exec := some x, trail := if grp.shadow then some x else none })).closeIfEmpty g
    | none => s.modGroup g (fun _ => out.pendAt keep (ref.getD head) now)
  | _, _ => s

end Sys2Proof.Machine
end

