-- ==== Sys2Proof/Machine/Commit.lean ====
section
/-!
DEFINITION. The commit: the closure of R195, the preparation of R147 and R151, the seven steps of R258, and what follows them
(R266, R268, R291, R368, R377); and the terminators END, END.SEL, END.IND, RETIRE, MIGRATE (R264). A commit is one step (R259), and its
local stores stand before its job cards, whose tile transitions follow its last lane (R96, R271, R279); of two commits that name one tile the
first is the one refused (R94, R95).
-/
namespace Sys2Proof.Machine

/-- Where a lane goes after the commit (R266): a trace, a bind-table entry of its object, or nowhere. -/
inductive Succ where
  | trace (t : TRef)
  | bindTable (entry : Nat)
  | retire
  deriving DecidableEq, Repr

/-- One round of R195: the lanes that consumed from a lane that does not commit no longer pass. -/
def consumeRound (uses : List (Nat × Nat)) (passing : List Nat) : List Nat :=
  passing.filter (fun l => uses.all (fun u => u.1 != l || passing.contains u.2))

/-- The closure of R195: rounds until nothing changes; each round but the last removes a lane. -/
def consumeClosure (uses : List (Nat × Nat)) : Nat → List Nat → List Nat
  | 0, p => p
  | n + 1, p => consumeClosure uses n (consumeRound uses p)

/-- The lanes that pass, of those given (log 18, DEDUCED, log 35, DEDUCED). -/
def passingOf (x : Exec) (ls : List Nat) : List Nat :=
  consumeClosure (x.uses.filter (fun u => u.1 != u.2 && x.started.contains u.2)) x.started.length ls

/-- The group effects that a commit performs, with their offsets and the lanes that act for them and pass (R146). -/
def passedEffs (x : Exec) (passing : List Nat) : List (Nat × List Nat × GroupEff) :=
  x.buf.filterMap (fun b => match b.eff with
    | .group ls e =>
      let ls' := ls.filter passing.contains
      if ls'.isEmpty then none else some (b.off, ls', e)
    | _ => none)

/-! ### Preparation (R147) -/

/-- What preparing one atomic gives: its home key and leaf's tier, a requeue, a trap's cause, or a wait for a walk. -/
inductive AtomPrep where
  | ok (home : Nat)
  | requeue (cause obj : Nat)
  | trap (cause : Nat)
  | wait
  deriving DecidableEq, Repr

/-- Translate and check one far atomic at its commit (R25, R26, R92, R166): `who` asks (R31). -/
def State.prepAtomic (s : State) (core who : Nat) (tm : Team) (keyperm : BitVec 64) (shadowed : Bool) (a : Atomic) : AtomPrep × State :=
  if a.space = 2 then
    let c := a.addr / 2 ^ 21
    match s.tileAt c (a.addr % 2 ^ 21) with
    | none => (.trap 147, s)
    | some (slot, n) =>
      match s.team? c slot with
      | none => (.trap 147, s)
      | some t =>
        if !(t.tile n).atomic || t.isQueueTile n then (.trap 147, s)
        else if (t.tile n).state ≠ .ready then (.requeue 4 (c * 1024 + slot * 64 + n), s)
        else (.ok (memKey .slice a.addr), s)
  else
    match s.translate { core := core, who := who, ctx := tm.ctx, va := a.addr, acc := 2, keyperm := keyperm, shadowed := shadowed } with
    | (.ok key _, s) => (.ok key, s)
    | (.fail cause _, s) => (if cause = 134 then .requeue 3 (a.addr / 4096) else .trap cause, s)
    | (.wait _, s) => (.wait, s)

/-- The far atomics of a lane, with their offsets, in program order. -/
def laneAtomics (x : Exec) (lane : Nat) : List (Nat × Atomic) :=
  x.buf.filterMap (fun b => match b.eff with | .atom l a => if l = lane then some (b.off, a) else none | _ => none)

/-- What preparing atomics gives so far: homes by lane in program order, lanes to requeue with cause and object, the first
trap with its lane, offset and address operand, and whether a walk is waited for. -/
structure Prep where
  s : State
  homes : List (Nat × Nat)
  requeue : List (Nat × Held)
  traps : List (Nat × Nat × Nat × Nat)
  waits : Bool

/-- Prepare the atomics of the passing lanes, in ascending lane number (R147). A lane's first failure decides for it. -/
def prepAtomics (s : State) (g : GRef) (tm : Team) (keyperm : BitVec 64) (shadowed : Bool) (x : Exec) (lanes : List Nat) : Prep :=
  lanes.foldl (fun p l =>
    (laneAtomics x l).foldl (fun (p : Prep) oa =>
      if p.requeue.any (fun r => r.1 == l) ∨ p.traps.any (fun t => t.1 == l) then p
      else match p.s.prepAtomic g.core (asks 2 (g.slot * 16 + g.grp) l) tm keyperm shadowed oa.2 with
        | (.ok home, s) => { p with s := s, homes := p.homes ++ [(l, home)] }
        | (.requeue c o, s) => { p with s := s, requeue := p.requeue ++ [(l, ⟨c, o⟩)] }
        | (.trap c, s) => { p with s := s, traps := p.traps ++ [(l, c, oa.1, oa.2.addr + oa.2.space * 2 ^ 62)] }
        | (.wait, s) => { p with s := s, waits := true }) p) ⟨s, [], [], [], false⟩

/-- KEYPERM as the commit of lanes that pass leaves it (R35). -/
def keypermAfter (keyperm : BitVec 64) (x : Exec) (passing : List Nat) : BitVec 64 :=
  (passedEffs x passing).foldl (fun k e => match e.2.2 with
    | .keyset v => BitVec.ofNat 64 v
    | .csrw n hi v => if n = 9 then BitVec.ofNat 64 (csrAfter 9 k.toNat hi v) else k
    | _ => k) keyperm

/-- The lanes that pass once those that an atomic's preparation requeues are gone. -/
def Prep.passing (p : Prep) (x : Exec) (lanes : List Nat) : List Nat :=
  passingOf x (lanes.filter (fun l => !p.requeue.any (fun r => r.1 == l)))

/-- Prepare the atomics of lanes under the KEYPERM in force at their commit, a KEYSET of the same trace included (R35): the KEYSETs of `acting`;
where the lanes that then pass perform others, once more under theirs. -/
def prepareFrom (s : State) (g : GRef) (tm : Team) (keyperm : BitVec 64) (shadowed : Bool) (x : Exec) (lanes : List Nat) : Nat → List Nat → Prep
  | 0, acting => prepAtomics s g tm (keypermAfter keyperm x acting) shadowed x lanes
  | fuel + 1, acting =>
    let p := prepAtomics s g tm (keypermAfter keyperm x acting) shadowed x lanes
    if p.waits ∨ keypermAfter keyperm x (p.passing x lanes) = keypermAfter keyperm x acting then p
    else prepareFrom s g tm keyperm shadowed x lanes fuel (p.passing x lanes)

/-- The first of a list of requeues for each page: one record for each page missed, naming the lowest lane (R256). -/
def firstPages : List (Nat × Held) → List Nat → List (Nat × Nat)
  | [], _ => []
  | (l, h) :: rest, seen =>
    if h.cause = 3 ∧ !seen.contains h.obj then (l, h.obj) :: firstPages rest (h.obj :: seen) else firstPages rest seen

/-- Post the records of the pages that a commit's atomics missed (R77, R256). -/
def State.postMisses (s : State) (g : GRef) (tm : Team) (x : Exec) (rq : List (Nat × Held)) : State :=
  (firstPages rq []).foldl (fun s p =>
    let hit := (laneAtomics x p.1).find? (fun a => a.2.space == 0 && a.2.addr / 4096 == p.2)
    let pcs := s.tracePcs tm.ctx x.tr
    s.postRecord (dieOf g.core)
      { cause := 134, srck := 3, ctx := tm.ctx, va := (hit.map (fun a => a.2.addr)).getD 0, acc := 2, core := g.core,
        group := g.slot * 16 + g.grp, d9pc := pcs.1, l9pc := pcs.2, trace := x.tr.idx, off := (hit.map (·.1)).getD 0, lane := p.1 }) s

/-- Whether a tile effect changes a tile (R94, R159): its state, one of its marks, or its definition; counts are no such change
(log 33, DEDUCED). -/
def tileMoved (a b : Tile) : Bool :=
  a.state != b.state || a.relp != b.relp || a.recl != b.recl || a.post != b.post || a.opened != b.opened || a.base != b.base
    || a.len != b.len || a.fmt != b.fmt || a.geom != b.geom || a.shared != b.shared || a.atomic != b.atomic

/-- Holds on a tile by others than the committing group, which holds it by its trace or by its trapped one (R94). -/
def otherHolds (tm : Team) (keep : Nat) (x : Exec) (n : Nat) : Nat :=
  (tm.tile n).held - (if maskCode x.mask n = 0 ∧ maskCode keep n = 0 then 0 else 1)

/-- The first tile that a commit may not touch: a store into one that another group or the sequencer holds, or a tile effect
that moves one (R94, R151, R227). A TDEF that is no longer valid is refused too. -/
def tileRefusal (core : Nat) (tm : Team) (hm : Bool) (keep : Nat) (seqHeld : List Nat) (x : Exec) (passing : List Nat) : Option Nat :=
  let stores := x.buf.filterMap (fun b => match b.eff with
    | .store l n _ _ _ => if passing.contains l then some n else none
    | _ => none)
  let busy (n : Nat) : Bool := (otherHolds tm keep x n != 0 || seqHeld.contains n)
  match stores.find? busy with
  | some n => some n
  | none =>
    let tm0 := tm.release hm keep x.mask
    ((passedEffs x passing).foldl (fun (acc : Team × Option Nat) e =>
      match acc.2 with
      | some _ => acc
      | none =>
        let t := tileEffect core hm acc.1 e.2.2
        let bad : Option Nat := match e.2.2 with
          | .tdef n p f => if tdefValid acc.1 n p f ∨ (hm ∧ n = 63) then none else some n
          | _ => none
        (t, bad.or ((upto 64).find? (fun n =>
          (tileMoved (acc.1.tile n) (t.tile n) && otherHolds tm keep x n != 0) || (acc.1.tile n != t.tile n && seqHeld.contains n)))))
      (tm0, none)).2

/-- The count and EXP that a barrier's arrival would meet, after this trace's last BAR.INIT of it (R285). -/
def initCount (effs : List (Nat × List Nat × GroupEff)) (b exp : Nat) : Nat :=
  effs.foldl (fun e x => match x.2.2 with | .barInit n c => if n = b then c else e | _ => e) exp

/-- The barrier part of the preparation (R284, R285), in the rule's order: BAR_BUSY, then BAR_COUNT, each with the offset; then a requeue
for a barrier. -/
def barrierPrep (tm : Team) (effs : List (Nat × List Nat × GroupEff)) : Option (Nat × Nat) × Option Nat :=
  let busy := firstSome (fun (x : Nat × List Nat × GroupEff) =>
    match x.2.2 with
    | .barInit b _ => if (tm.bar b).cnt ≠ 0 ∨ (tm.bar b).tp then some (112 + b, x.1) else none
    | _ => none) effs
  let count := firstSome (fun (x : Nat × List Nat × GroupEff) =>
    match x.2.2 with
    | .barArrive b c => arrive b c x.1
    | .barSync b c => arrive b c x.1
    | _ => none) effs
  let wait := firstSome (fun (x : Nat × List Nat × GroupEff) =>
    match x.2.2 with
    | .barArrive b c => full b c
    | .barSync b c => full b c
    | _ => none) effs
  (busy.or count, wait)
where
  /-- BAR_COUNT of an arrival. -/
  arrive (b c off : Nat) : Option (Nat × Nat) :=
    let e := initCount effs b (tm.bar b).exp
    if (c = 0 ∧ (tm.bar b).cnt = 0 ∧ e = 0) ∨ (c ≠ 0 ∧ (tm.bar b).cnt ≠ 0 ∧ c ≠ e) then some (96, off) else none
  /-- Whether an arrival would complete a phase while TP is set. -/
  full (b c : Nat) : Option Nat :=
    let e := if (tm.bar b).cnt = 0 ∧ c ≠ 0 then c else initCount effs b (tm.bar b).exp
    if (tm.bar b).tp ∧ (tm.bar b).cnt + 1 = e then some b else none

/-- Items that the commit puts into each channel: the channel, and the lanes that pass with their items, in program order. -/
def passedPuts (x : Exec) (passing : List Nat) : List (Nat × List (Nat × Nat)) :=
  x.buf.filterMap (fun b => match b.eff with
    | .put q items =>
      let its := items.filter (fun p => passing.contains p.1)
      if its.isEmpty then none else some (q, its)
    | _ => none)

/-- The positions of a channel that passing lanes have popped. -/
def passedPops (x : Exec) (passing : List Nat) (q : Nat) : List (Nat × Nat) :=
  x.buf.filterMap (fun b => match b.eff with
    | .pop l c pos => if c = q ∧ passing.contains l then some (l, pos) else none
    | _ => none)

/-- The first channel without room for all of the commit's items (R305); its folded flag says that a slot is full (R318). -/
def fullChannel (tm : Team) (x : Exec) (passing : List Nat) : Option (Nat × Bool) :=
  let puts := passedPuts x passing
  firstSome (fun (p : Nat × List (Nat × Nat)) =>
    let q := p.1
    let c := tm.chan q
    let all := (puts.filter (fun r => r.1 == q)).flatMap (·.2)
    let due := (tm.puts.filter (fun r => r.chan == q)).flatMap (·.items)
    if c.mode = 2 then
      let full (l : Nat) : Bool := match tm.fold with
        | some fo => sget fo.full (slotKey l q) == 1#1 && !(passedPops x passing q).any (fun o => o.1 == l)
        | none => false
      if all.any (fun i => full i.1 || due.any (fun d => d.1 == i.1) || 1 < (all.filter (fun j => j.1 == i.1)).length) then some (q, true) else none
    else
      let freed := if c.remote then 0 else (passedPops x passing q).length
      if (if c.frozen then 0 else c.room + freed) < all.length + due.length then some (q, false) else none) puts

/-- The first team task queue without room for all of the commit's records, and their number (R349). -/
def fullTaskQueue (s : State) (core slot : Nat) (effs : List (Nat × List Nat × GroupEff)) : Option (Nat × Nat) :=
  let count (adds : List Nat) (q : Nat) : Nat := (adds.filter (fun r => r == q)).length
  let adds := effs.flatMap (fun x => match x.2.2 with
    | .taskadd locs => (locs.filter (fun l => x.2.1.contains l.1)).map (fun l => l.2.2.2)
    | _ => [])
  (adds.find? (fun q => decide (s.tqRoom core slot q < count adds q))).map (fun q => (q, count adds q))

/-- What the group-level preparation decides: go on, roll every passing lane back and hold it, hand the thread over, or trap
with a cause at an offset. -/
inductive GroupPrep where
  | ok
  | requeue (h : Option Held)
  | handOver (q : Nat)
  | trap (cause off : Nat)
  deriving DecidableEq, Repr

/-- The group-level items of the preparation (R147): a trap decides before any requeue (log 35, DEDUCED). -/
def groupPrep (s : State) (g : GRef) (tm : Team) (grp : Group) (x : Exec) (passing : List Nat) : GroupPrep :=
  let effs := passedEffs x passing
  let jobs := (effs.filter (fun e => match e.2.2 with | .job .. => true | _ => false)).length
  let mxgo := effs.any (fun e => match e.2.2 with | .mxgo .. => true | _ => false)
  let k := s.core g.core
  let seqHeld := if k.seqr.owner = some g.slot then k.seqr.holds else []
  match barrierPrep tm effs with
  | (some (c, off), _) => .trap c off
  | (none, barWait) =>
    if 4096 < (s.die (dieOf g.core)).uncompleted + jobs then .requeue (some ⟨5, (s.die (dieOf g.core)).completions⟩)
    else match fullChannel tm x passing with
      | some (q, true) => .handOver q
      | some (q, false) => .requeue (some ⟨2, q⟩)
      | none => match fullTaskQueue s g.core g.slot effs with
        | some (q, n) => .requeue (some ⟨10, q + 16 * n⟩)
        | none => match barWait with
          | some b => .requeue (some ⟨9, b⟩)
          | none => match tileRefusal g.core tm grp.hm grp.keptMask seqHeld x passing with
            | some n => .requeue (some ⟨6, n⟩)
            | none =>
              if mxgo ∧ (k.seqr.state = .running ∨ k.seqr.state = .waiting ∨ k.seqr.state = .stopping
                  ∨ tm.accHold.any (fun h => h != g.grp)) then .requeue (some ⟨6, 64⟩)
              else .ok

/-! ### The steps of the commit (R258) -/

/-- Step 1 for one register write (R109, R114): vector registers, predicates and stochastic-rounding states of passing lanes. -/
def commitWrite (passing : List Nat) (uniform : Bool) (g : Group) (w : Place × Word) : Group :=
  match w.1.reg with
  | .k n => if uniform then { g with uregs := sput g.uregs n w.2 } else g
  | .v n => if passing.contains w.1.lane then { g with regs := sput g.regs (w.1.lane * 256 + n) w.2 } else g
  | .p n => if passing.contains w.1.lane ∧ n < 7 then { g with preds := sput g.preds (w.1.lane * 8 + n) (w.2.setWidth 1) } else g
  | .sr => if passing.contains w.1.lane then { g with sr := sput g.sr w.1.lane w.2 } else g
  | .t _ => g

/-- Seed every lane of a group (R60). -/
def Group.seed (g : Group) (v : Word) : Group :=
  { g with srseed := v, sr := (upto g.width).foldl (fun m l => sput m l (srSeed v l)) g.sr }

/-- A CSRW, or KEYSET, of step 1 (R173, R374). -/
def State.csrWrite (s : State) (g : GRef) (num : Nat) (hi : Bool) (v : Nat) : State :=
  match s.team? g.core g.slot with
  | none => s
  | some tm =>
    let wide (old : BitVec 64) : BitVec 64 := BitVec.ofNat 64 (csrAfter num old.toNat hi v)
    let word (old : Word) : Word := BitVec.ofNat 32 (csrAfter num old.toNat hi v)
    match num with
    | 0 => s.modTeam g.core g.slot (fun t => { t with tstat := word t.tstat })
    | 2 => s.modGroup g (fun x => { x with mode := word x.mode })
    | 0x0C => s.modGroup g (fun x => x.seed (BitVec.ofNat 32 v))
    | 0x09 => s.modCtx tm.ctx (fun c => { c with keyperm := wide c.keyperm })
    | 0x0A => s.modCtx tm.ctx (fun c => { c with trapbase := wide c.trapbase })
    | 0x0D => s.modCtx tm.ctx (fun c => { c with migpol := word c.migpol })
    | 0x0F => s.modCtx tm.ctx (fun c => { c with gangwait := word c.gangwait })
    | n => if 0x10 ≤ n ∧ n ≤ 0x13 then
        s.modCtx tm.ctx (fun c => { c with brk := c.brk.modify (n - 0x10) wide })
      else s

/-- Poison of the registers that a commit writes (R404): a register is poisoned if the result that it takes is. -/
def State.commitPoison (s : State) (g : GRef) (x : Exec) (takes : Place → Bool) : State :=
  let writer (p : Place) : Nat := ((x.issued.find? (fun i => i.writes.any (fun w => w.1 == p))).map (fun i => i.off + 1)).getD 0
  if s.regPoison.isEmpty then s else { s with regPoison := s.regPoison.filterMap (fun p =>
    if p.g = g ∧ takes p.place ∧ writer p.place ≠ 0 ∧ p.trs < 1000 then (if p.trs = writer p.place then some { p with trs := 0 } else none)
    else some p) }

/-- Step 1 (R258). A KEYSET or CSRW of KEYPERM is seen by every core of the context at once: R173 promises no order to the other cores
(log 56, DESIGN CHOICE). -/
def State.commitRegisters (s : State) (g : GRef) (x : Exec) (passing : List Nat) : State :=
  let ws := allWrites x
  let whole := !x.diverged && passing.length == x.started.length
  let s := s.modGroup g (fun grp => ws.foldl (commitWrite passing whole) grp)
  let s := s.commitPoison g x (fun p => if p.isK then whole else passing.contains p.lane)
  let s := if !whole && ws.any (fun w => w.1.isK) then s.modTeam g.core g.slot (fun t => t.setSticky .udisc) else s
  (passedEffs x passing).foldl (fun s e => match e.2.2 with
    | .keyset v => match s.team? g.core g.slot with
      | some tm => s.modCtx tm.ctx (fun c => { c with keyperm := BitVec.ofNat 64 v })
      | none => s
    | .csrw n hi v => s.csrWrite g n hi v
    | _ => s) s

/-- Bytes merged under a bit mask (R155). -/
def mergeBytes : List Byte → List Byte → List Byte → List Byte
  | o :: os, d :: ds, k :: ks => ((o &&& ~~~k) ||| (d &&& k)) :: mergeBytes os ds ks
  | _, _, _ => []

/-- One effect of step 2: a store, or an accumulator element (R237, R258). -/
def State.commitStore (s : State) (g : GRef) (lane : Nat) : Effect → State
  | .store l _ at_ d m =>
    if l = lane then
      let key := sliceKey g.core at_
      s.store key (mergeBytes (s.mem.readBytes key d.length) d m)
    else s
  | .accwr l a e v =>
    if l = lane then s.modTeam g.core g.slot (fun t => { t.accClean a (4 * e) 4 with acc := tput t.acc a (sput ((tget t.acc a).getD []) e v) }) else s
  | _ => s

/-- Step 2 (R258): in ascending lane number, in program order within the lane. -/
def State.commitStores (s : State) (g : GRef) (x : Exec) (passing : List Nat) : State :=
  passing.foldl (fun s l => x.buf.foldl (fun s b => s.commitStore g l b.eff) s) s

/-- The 64-byte block of a home. -/
def blockOf (key : Nat) : Nat := key / 64

/-- Whether an atomic is a release of scope GROUP or wider, before which its group passes a boundary (R169, R273). -/
def Atomic.releases (a : Atomic) : Bool := (a.order == 2 || a.order == 3) && a.scope != 0

/-- Send one atomic (R169): the atomics it follows are the lane's earlier ones to its block; for .REL and .AR, all the
lane's earlier ones; behind a group's boundary, all that its earlier commits sent (R271); and at a peer, all that the package has sent to its block
(R450). A return is reserved for a destination (R170) (log 52, DEDUCED). -/
def State.sendAtomic (s : State) (g : GRef) (ctx lane off : Nat) (a : Atomic) (home : Nat) (before : List Nat) (behind : Bool) : State :=
  let id := s.nextAtomic
  let rel := a.order = 2 ∨ a.order = 3
  let mine (p : Nat × SentAtomic) : Bool := p.2.g == g && p.2.lane == lane
  let block (p : Nat × SentAtomic) : Bool := blockOf p.2.home == blockOf home
  let after := (s.sent.filter (fun p => (mine p && (block p || rel)) || (home / 2 ^ 48 == Space.peer.code && block p) || (behind && before.contains p.1))).map (·.1)
  let team : Nat := match s.team? g.core g.slot with | some t => t.uid | none => 0
  let guid : Nat := match s.group? g with | some x => x.uid | none => 0
  let s := { s with nextAtomic := id + 1,
                    sent := tput s.sent id { ctx := ctx, g := g, lane := lane, a := a, home := home, frame := a.addr / 4096, after := after,
                                             team := team, guid := guid } }
  s.modGroup g (fun x =>
    let x := { x with sent := x.sent ++ [id],
                      returns := match a.dst with
                        | some d => x.returns ++ [{ lane := lane, dst := d, wide := a.typ == 3, id := id, off := off, value := none, inHandler := x.hm }]
                        | none => x.returns }
    if a.order = 1 ∨ a.order = 3 then x.modLanes [lane] (fun l => { l with acquires := l.acquires ++ [id] }) else x)

/-- Step 3 (R258): atomics are sent in ascending lane number, in program order within the lane; those sent from the first release of scope GROUP
or wider on stand behind its boundary (R271, R273). -/
def State.commitAtomics (s : State) (g : GRef) (ctx : Nat) (x : Exec) (passing : List Nat) (homes : List (Nat × Nat)) : State :=
  let before := ((s.group? g).map (fun y => y.sent)).getD []
  let all := passing.flatMap (fun l => ((laneAtomics x l).zip ((homes.filter (fun h => h.1 == l)).map (·.2))).map (fun p => (l, p)))
  (all.foldl (fun (r : State × Bool) p =>
    let behind := r.2 || p.2.1.2.releases
    (r.1.sendAtomic g ctx p.1 p.2.1.1 p.2.1.2 p.2.2 before behind, behind)) (s, false)).1

/-- The channels that an execution popped from. -/
def poppedChannels (x : Exec) : List Nat :=
  (x.buf.filterMap (fun b => match b.eff with | .pop _ q _ => some q | _ => none)).eraseDups

/-- Step 4 (R258): pops, then puts. A put waits for the atomics that the group has sent (R280), and behind earlier puts into
its channel. -/
def State.commitChannels (s : State) (g : GRef) (x : Exec) (passing : List Nat) : State :=
  let s := (poppedChannels x).foldl (fun s q =>
    let pops := passedPops x passing q
    match s.team? g.core g.slot with
    | none => s
    | some tm =>
      if (tm.chan q).mode = 2 then
        s.modTeam g.core g.slot (fun t => { t with fold := t.fold.map (fun fo =>
          pops.foldl (fun fo p => { fo with full := sput fo.full (slotKey p.1 q) 0#1, slots := sput fo.slots (slotKey p.1 q) 0#128 }) fo) })
      else s.removeItems g.core g.slot q (pops.map (·.2))) s
  (passedPuts x passing).foldl (fun s p =>
    let waits := ((s.group? g).map (fun y => y.sent)).getD []
    let put : PendingPut := { grp := g.grp, chan := p.1, items := p.2, waits := waits }
    match s.team? g.core g.slot with
    | none => s
    | some tm =>
      if waits.isEmpty && !tm.puts.any (fun r => r.chan == p.1) then s.performPut g.core g.slot put
      else s.modTeam g.core g.slot (fun t => { t with puts := t.puts ++ [put] })) s

/-- The STATUS word of JOBQ for a handle (R164). -/
def State.jobWord (s : State) (ctx h : Nat) : Nat :=
  match s.job? ctx h with
  | none => 0x00800003
  | some (_, _, j) =>
    let n := if j.state = .absent then 0 else j.elems
    let code : Nat := match j.state with
      | .waiting => 0 | .running => 1 | .partialDone => 2 | .done => 3 | .faulted => 4 | .cancelled => 5 | .absent => 6
    let done := ((upto 64).filter (fun e => bit j.mask e)).length
    let first := ((upto n).find? (fun e => !bit j.mask e)).getD 64
    code + done * 8 + n * 2 ^ 10 + first * 2 ^ 17

/-- Registers of a group written outside an execution are poisoned no longer (R404). -/
def State.cleanRegs (s : State) (g : GRef) (ps : List Place) : State :=
  if s.regPoison.isEmpty then s else { s with regPoison := s.regPoison.filter (fun p => !(p.g == g && p.trs == 0 && ps.contains p.place)) }

/-- Write a job handle, or another word that a group effect returns, into the lanes that acted for it and pass (R146). -/
def Group.giveWord (g : Group) (ls : List Nat) (dst v : Nat) : Group :=
  { g with regs := ls.foldl (fun m l => sput m (l * 256 + dst) (BitVec.ofNat 32 v)) g.regs }

/-- Drop the code lines of a context that overlap a range (R175) (log 37, DEDUCED). -/
def dropLines (ctx a n : Nat) (l : List CodeLine) : List CodeLine :=
  l.filter (fun c => !(c.ctx == ctx && n != 0 && decide (c.va < a + n) && decide (a < c.va + 64)))

/-- A latched request for a chain (R323). -/
def Team.latch (t : Team) (foldok spread : Bool) : Team :=
  if spread then
    if t.foldLatched then
      { t with foldLatched := false, parkedStages := [] }
    else if t.folded ∧ ¬ t.spreadLatched then { t with spreadLatched := true }
    else t
  else
    if t.spreadLatched then { t with spreadLatched := false }
    else if t.folded ∨ t.foldLatched then t
    else if foldok then { t with foldLatched := true }
    else { t with chref := 2 }

/-- The core on which a stage of a team's chain stands: of the team that a migration gave it, else of the team itself. -/
def State.stageCore (s : State) (core slot : Nat) (t : Team) (st : Nat) : Nat :=
  ((s.chainTeams core slot t).find? (fun p => match s.team? p.1 p.2 with
    | some u => u.groups.any (fun g => u.stageOf g.num == st && !g.live.isEmpty)
    | none => false)).elim core (·.1)

/-- Whether a team's chain may fold (R314, R320): FOLDOK, and for every stage a fold map in the encoding of its core. -/
def State.foldable (s : State) (core slot : Nat) (t : Team) : Bool :=
  match s.teamKernel? t, s.object? t.ctx t.handle t.handle with
  | some k, some o =>
    let count (l : Bool) (e : TraceEntry) : Nat := match o.flashes[e.flash]? with
      | some fl => if l then fl.lvcount else fl.dvcount
      | none => 0
    (match k.chain with | some c => c.foldok | none => false)
      && t.stages.all (fun st => k.traces.any (fun e =>
        e.staged && e.stage == st && e.ep && count (isLcore (s.stageCore core slot t st)) e != 0))
  | _, _ => false

/-- A request for a team's chain reaches the chain's record, which each of its teams holds alike (R323). -/
def State.latchChain (s : State) (core slot : Nat) (spread : Bool) : State :=
  match s.team? core slot with
  | none => s
  | some t =>
    let ok := s.foldable core slot t
    s.modChain core slot (fun u => u.latch ok spread)

/-- The sequencer at the commit of an MXGO (R223). -/
def mxStart (g : GRef) (seed : Word) (keyperm : BitVec 64) (region : Bool) (tile off : Nat) : Sequencer :=
  { state := .running, cause := 0, entry := 0, owner := some g.slot, issuer := some g, tc := tile, off := off,
    srstate := (upto 128).foldl (fun m r => sput m r (srSeed seed r)) [], keyperm := keyperm,
    held := [tile], region := region }

/-- One group effect of step 5 (R258). A job is one of those that each passing lane's JOB heads name (R253). -/
def State.commitEffect (s : State) (g : GRef) (passing : List Nat) (off : Nat) (acting : List Nat) (e : GroupEff) : State :=
  match s.team? g.core g.slot, s.group? g with
  | some tm, some grp =>
    let ctx := (s.ctx? tm.ctx).getD {}
    match e with
    | .job card dst =>
      let (h, s) := s.releaseCard g.core g.slot (some g.grp) card ctx.keyperm grp.contain.opened grp.shadow
      let s := s.modTeam g.core g.slot (Team.releaseTiles g.core (cardOf card))
      (s.cleanRegs g (acting.map (fun l => ⟨l, .v dst⟩))).modGroup g (fun y => (y.giveWord acting dst h).modLanes passing (fun l => { l with jobs := l.jobs ++ [h] }))
    | .jobq h dst =>
      let id := s.nextAtomic
      let v : DWord := BitVec.ofNat 64 (s.jobWord tm.ctx h)
      { s with nextAtomic := id + 1 }.modGroup g (fun y => { y with returns := y.returns ++ acting.map (fun l => ({ lane := l, dst := dst, wide := false, id := id, off := off, value := some v, inHandler := y.hm } : Return)) })
    | .jcancel h => match s.job? tm.ctx h with
      | some (d, n, j) => s.cancelJob d n j
      | none => s
    | .icinv a n =>
      (s.modCore g.core (fun k => { k with code := dropLines tm.ctx a n k.code })).modDie (dieOf g.core)
        (fun d => { d with code := dropLines tm.ctx a n d.code })
    | .mxgo tile off =>
      let tile := if grp.hm ∧ tile = 63 then 64 else tile
      s.modCore g.core (fun k => { k with seqr := mxStart g grp.srseed ctx.keyperm grp.contain.opened tile off })
    | .mxstop => s.modCore g.core (fun k =>
        if k.seqr.owner = some g.slot ∧ (k.seqr.state = .running ∨ k.seqr.state = .waiting) then { k with seqr := { k.seqr with state := .stopping } } else k)
    | .taskadd locs =>
      let recs := (locs.filter (fun l => acting.contains l.1)).map (fun l =>
        (l.2.2.2, s.mem.readBytes (sliceKey g.core ((groupTile tm grp l.2.1).start + l.2.2.1)) 64))
      s.modTeam g.core g.slot (fun t => { t with tasks := t.tasks ++ [⟨g.grp, acting, e, recs, [], grp.sent⟩] })
    | .taskdone =>
      (s.modTeam g.core g.slot (fun t => { t with tasks := t.tasks ++ [⟨g.grp, acting, e, (grp.task.map (fun r => (grp.taskQueue, r))).toList, [], grp.sent⟩] })).modGroup g
        (fun y => { y with task := none, taskAccepted := false })
    | .qroom ops dst =>
      let ls := (ops.filter (fun o => acting.contains o.1)).map (·.1)
      let ids := (upto ls.length).map (fun j => s.nextAtomic + j)
      let s := { s with nextAtomic := s.nextAtomic + ls.length }
      (s.modGroup g (fun y => { y with returns := y.returns ++ (ls.zip ids).map (fun p => ({ lane := p.1, dst := dst, wide := false, id := p.2, off := off, value := none, inHandler := y.hm } : Return)) })).modTeam g.core g.slot
        (fun t => { t with tasks := t.tasks ++ [⟨g.grp, acting, e, [], ids, grp.sent⟩] })
    | .qtail _ => s.modTeam g.core g.slot (fun t => { t with tasks := t.tasks ++ [⟨g.grp, acting, e, [], [], grp.sent⟩] })
    | .wake _ => s.modTeam g.core g.slot (fun t => { t with tasks := t.tasks ++ [⟨g.grp, acting, e, [], [], grp.sent⟩] })
    | .containOpen h => s.modGroup g (fun y => { y with contain := { y.contain with opened := true, htrace := { y.contain.htrace with idx := h }, unw := false } })
    | .containClose =>
      let s := s.modGroup g (fun y => { y with contain := { y.contain with opened := false } })
      let s := s.modDie (dieOf g.core) (fun d => { d with truss := d.truss.map (fun p =>
        (p.1, if p.2.core = g.core ∧ p.2.slot = g.slot ∧ p.2.grp = some g.grp then { p.2 with region := false } else p.2)) })
      s.modCore g.core (fun k => if k.seqr.issuer = some g then { k with seqr := { k.seqr with region := false } } else k)
    | .chainFold => s.latchChain g.core g.slot false
    | .chainSpread => s.latchChain g.core g.slot true
    | e => s.modTeam g.core g.slot (fun t => tileEffect g.core grp.hm t e)
  | _, _ => s

/-- Step 5 (R258): job issues and the other group effects, in program order. The commit's own holds are released first: what it
moves is no longer held by it (R94) (log 35, DEDUCED). -/
def State.commitEffects (s : State) (g : GRef) (x : Exec) (passing : List Nat) : State :=
  let s := s.modGroup g (fun y =>
    let y := y.modLanes passing (fun l => { l with jobs := [] })
    if x.gotTask ∧ y.task.isSome ∧ !passing.isEmpty then { y with taskAccepted := true } else y)
  let s := s.endExec g
  ((passedEffs x passing).foldl (fun s e => match e.2.2 with
    | .keyset _ => s | .csrw .. => s | .barArrive .. => s | .barSync .. => s | .barInit .. => s | .phase _ => s
    | .rett .. => s | .halt => s | .migrate .. => s
    | v => s.commitEffect g passing e.1 e.2.1 v) s).runTasks g.core g.slot

/-- An arrival on a barrier (R284, R285). -/
def Barrier.arrive (b : Barrier) (c : Nat) (sent : List Nat) : Barrier :=
  let exp := if b.cnt = 0 ∧ c ≠ 0 then c else b.exp
  let b := { b with exp := exp, cnt := b.cnt + 1, arrived := b.arrived ++ sent }
  if b.cnt = exp then { b with tp := true, cnt := 0, turnWaits := b.arrived, arrived := [] } else b

/-- Step 6 (R258, R285): BAR.INITs first, then the arrival. -/
def State.commitBarriers (s : State) (g : GRef) (effs : List (Nat × List Nat × GroupEff)) (sent : List Nat) : State :=
  let s := effs.foldl (fun s e => match e.2.2 with
    | .barInit b c => s.modTeam g.core g.slot (fun t => { t with bars := tput t.bars b { t.bar b with exp := c } })
    | _ => s) s
  let arrive (s : State) (b c : Nat) (sync : Bool) : State :=
    match s.team? g.core g.slot with
    | none => s
    | some tm =>
      let par := xor (tm.bar b).ph (tm.bar b).tp
      (s.modTeam g.core g.slot (fun t => { t with bars := tput t.bars b ((t.bar b).arrive c sent) })).modGroup g
        (fun y => { y with epb := y.epb.set b par, wait := if sync then some b else y.wait })
  effs.foldl (fun s e => match e.2.2 with
    | .barArrive b c => arrive s b c false
    | .barSync b c => arrive s b c true
    | _ => s) s

/-- Whether a commit sent a release of scope GROUP or wider, whose boundary the group passes (R169, R273). -/
def sentRelease (x : Exec) (passing : List Nat) : Bool :=
  passing.any (fun l => (laneAtomics x l).any (fun a => a.2.releases))

/-- Step 7 (R172, R258, R273): the boundary of the widest PHASE; where that is LANE or none, the boundary of a .REL or .AR atomic too (log 35,
DEDUCED). -/
def State.commitPhase (s : State) (g : GRef) (x : Exec) (passing : List Nat) (before : List Nat) : State :=
  let scopes := (passedEffs x passing).filterMap (fun e => match e.2.2 with | .phase k => some k | _ => none)
  let s := s.modGroup g (fun y => { y with passed := none })
  let widest := scopes.foldl max 0
  if widest ≠ 0 then s.beginBoundary g widest false
  else
    let s := if scopes.isEmpty then s else s.beginBoundary g 0 false
    if sentRelease x passing ∧ before.any (fun a => (tget s.sent a).isSome) then
      (s.modGroup g (fun y =>
        let b : Boundary := { scope := 0, publishes := false, waits := before, rel := true }
        { y with boundary := some b })).tryBoundary g
    else s

/-! ### Migration at a terminator (R291, R292) -/

/-- Whether a channel of a team keeps a group where it is (R292): a tile-handle or engine-ring channel whose other endpoint is
not the group. -/
def chanHolds (t : Team) (grp : Nat) : Bool :=
  (t.chans).any (fun p =>
    let c := p.2
    let prod := !c.peng && c.pgrp == grp
    let cons := !c.ceng && c.cgrp == grp
    c.mode != 0 && (c.size == 3 || c.mode == 3) && (prod != cons))

/-- The first refusal of R292 that holds at the terminator; 0 for none (log 35, DEDUCED). -/
def migRefusal (s : State) (g : GRef) (tm : Team) (ep : TRef) (lcore : Bool) (whole : Bool) : Nat :=
  let k := s.kernel? tm.ctx ep
  let e := s.trace? tm.ctx ep
  let fl := (e.bind (fun t => (s.object? tm.ctx ep.handle ep.handle).bind (fun o => o.flashes[t.flash]?)))
  if !whole then 5
  else if tm.folded || tm.foldLatched || tm.spreadLatched || chanHolds tm (((s.group? g).map (·.num)).getD g.grp) then 7
  else if !s.anyCore lcore then 1
  else if !((k.map (fun k => if lcore then k.l9 else k.d9)).getD false) then 2
  else if lcore && ((e.map (fun t => bit t.freq 0)).getD false) then 3
  else if lcore && ((fl.map (fun f => f.acc != 0)).getD false) then 4
  else 0

/-! ### The commit -/

/-- The returns that a commit asked for, after the `n` asked for before, in program order (R170). -/
def State.orderReturns (s : State) (g : GRef) (n : Nat) : State :=
  s.modGroup g (fun y => { y with returns := y.returns.take n ++ (y.returns.drop n).mergeSort (fun a b => decide (a.off ≤ b.off)) })

/-- The passing lanes go to their successors, or retire (R266). -/
def State.successors (s : State) (g : GRef) (now : Nat) (succ : List (Nat × Succ)) : State :=
  let tm := (s.team? g.core g.slot).getD { ctx := 0, handle := 0, kernel := 0, groups := [] }
  s.modGroup g (fun y => succ.foldl (fun y p => match p.2 with
    | .trace t => y.pendAt [p.1] t now
    | .bindTable e => y.modLanes [p.1] (fun l => { l with since := now, held := none, bindCall := some e })
    | .retire => tm.retireLanes y [p.1]) y)

/-- A commit whose preparation has succeeded (R258), for lanes that pass, with the homes of their atomics. A RETT overrides the terminator's
successors, whatever the terminator (R368) (log 32, DEDUCED, log 35, DEDUCED). -/
def State.performCommit (s : State) (g : GRef) (x : Exec) (now : Nat) (passing : List Nat) (homes : List (Nat × Nat))
    (succ : List (Nat × Succ)) (mig : Option (TRef × TRef × Bool)) : State :=
  match s.team? g.core g.slot with
  | none => s
  | some tm =>
    let effs := passedEffs x passing
    let before := ((s.group? g).map (fun y => y.sent)).getD []
    let due := ((s.group? g).map (fun y => y.returns.length)).getD 0
    let s := ((s.commitRegisters g x passing).commitStores g x passing).commitAtomics g tm.ctx x passing homes
    let sent := (((s.group? g).map (fun y => y.sent)).getD []).filter (fun a => !before.contains a)
    let s := ((s.commitChannels g x passing).commitEffects g x passing).orderReturns g due
    let s := (s.commitBarriers g effs sent).commitPhase g x passing before
    let rett := effs.findSome? (fun e => match e.2.2 with | .rett a r => some (a, r) | _ => none)
    let s := match rett, mig with
      | some _, _ => s
      | none, none => s.successors g now succ
      | none, some (ep, alt, lcore) =>
        match migRefusal s g ((s.team? g.core g.slot).getD tm) ep lcore (!x.diverged && passing.length == x.started.length) with
        | 0 => (s.successors g now (passing.map (fun l => (l, Succ.trace ep)))).modGroup g
            (fun y => { y with park := some { ep := ep, alt := alt, lcore := lcore, since := now } })
        | n => (s.successors g now (passing.map (fun l => (l, Succ.trace alt)))).modGroup g (fun y => { y with migref := n })
    let s := match (passedPuts x passing).find? (fun p => (tm.chan p.1).mode == 2) with
      | some p => s.switchStage g.core g.slot (tm.stageOf (tm.chan p.1).cgrp)
      | none => s
    let s := match rett with
      | some (a, r) => s.returnTrap g a r
      | none => s
    ((s.haltAfter g (effs.any (fun e => e.2.2 == .halt))).modGroup g (fun y => if y.halt = .none then y else y.unpark now)).noteEnded g.core g.slot

/-- Roll lanes back one by one (R256): each is held at the head by its own cause, and no longer stands in the execution. -/
def State.rollBack (s : State) (g : GRef) (x : Exec) (now : Nat) (rq : List (Nat × Option Held)) : State :=
  s.modGroup g (fun y => rq.foldl (fun y p => y.modLanes [p.1] (fun l => { l with tr := x.tr, since := now, held := p.2, bindCall := none })) y)

/-- Commit an execution at its terminator (R147, R195, R258). Nothing is done while a walk for an atomic is in
flight; the commit of a shadowed group is held until its shadow has agreed (R408) (log 32, DEDUCED). -/
def State.commit (s : State) (g : GRef) (now : Nat) (succ : Nat → Succ) (mig : Option (TRef × TRef × Bool)) : State :=
  match s.team? g.core g.slot, s.group? g with
  | some tm, some grp =>
    match grp.exec with
    | none => s
    | some x =>
      let pass0 := passingOf x x.here
      let p := prepareFrom s g tm ((s.ctx? tm.ctx).getD {}).keyperm grp.shadow x pass0 2 pass0
      if p.waits ∨ grp.shadowBehind x.off then p.s.modGroup g (fun y => { y with exec := some { x with buf := x.buf.filter (fun b => b.off != x.off) } })
      else match p.traps with
        | (l, c, off, info) :: more =>
          let fl := l :: (more.filter (fun t => t.2.1 == c && t.2.2.1 == off)).map (·.1)
          p.s.stopAt g ⟨c, fl, info, 0⟩ off false true
        | [] =>
          let gone := p.requeue.map (·.1)
          let passing := passingOf x (pass0.filter (fun l => !gone.contains l))
          let marked := (x.here.filter (fun l => !passing.contains l && !gone.contains l)).map (fun l => (l, (none : Option Held)))
          let back := p.requeue.map (fun r => (r.1, some r.2)) ++ marked
          let s := p.s.postMisses g tm x p.requeue
          match groupPrep s g tm grp x passing with
          | .trap c off => s.stopAt g ⟨c, passing, 0, 0⟩ off false true
          | .requeue h =>
            let s := s.rollBack g x now (back ++ passing.map (fun l => (l, h)))
            (s.dropExec g).modGroup g (Group.haltIfAsked · now)
          | .handOver q =>
            ((s.rollBack g x now back).handBack g passing tm q false).modGroup g (Group.haltIfAsked · now)
          | .ok =>
            if grp.shadow && !x.compared then p.s.modGroup g (fun y => { y with exec := some { x with buf := x.buf.filter (fun b => b.off != x.off) } })
            else
            let s := s.rollBack g x now back
            s.performCommit g x now passing p.homes (passing.map (fun l => (l, succ l))) mig
  | _, _ => s

/-! ### The terminators -/

/-- A trace of the executing trace's own kernel (R265). -/
def traceRef (i : Iss) (n : Nat) : TRef := { i.x.tr with idx := n }

/-- What a terminator names: for each lane its successor, and a migration; or a trap. -/
abbrev TermBody := Iss → Table (List Word) → Except Trap ((Nat → Succ) × Option (TRef × TRef × Bool))

/-- END (R266). -/
def bodyEnd : TermBody := fun i _ => .ok (fun _ => .trace (traceRef i (immField i.f % 2 ^ 17)), none)

/-- END.SEL (R266): the first successor where the condition holds. -/
def bodyEndSel : TermBody := fun i _ =>
  .ok (fun l => .trace (traceRef i (if i.acting.contains l then immField i.f % 2 ^ 17 else secondRef i.f)), none)

/-- END.IND (R265, R266): each lane's pair; bits [62:32] of a bind-table call must be zero. -/
def bodyEndInd : TermBody := fun i ws =>
  let v (l : Nat) : Nat := let w := (tget ws l).getD []; (pairOf (nth w 0 0#32) (nth w 1 0#32)).toNat
  let bad := i.acting.filter (fun l => bit (v l) 63 && bits (v l) 62 32 != 0)
  if !bad.isEmpty then .error (plainTrap (encCause i.f.enc 4) bad)
  else .ok (fun l =>
    if bit (v l) 63 then .bindTable (bits (v l) 31 0)
    else
      let h := bits (v l) 62 32
      if h = 0 ∨ h = i.x.tr.handle then .trace (traceRef i (bits (v l) 31 0)) else .trace ⟨h, 0, bits (v l) 31 0⟩, none)

/-- RETIRE (R266). -/
def bodyRetire : TermBody := fun _ _ => .ok (fun _ => .retire, none)

/-- MIGRATE (R291, R296): ep must be an EP trace. -/
def bodyMigrate : TermBody := fun i _ =>
  let ep := traceRef i (immField i.f % 2 ^ 17)
  let alt := traceRef i (secondRef i.f)
  match i.s.trace? i.tm.ctx ep with
  | some e => if e.ep then .ok (fun _ => .trace ep, some (ep, alt, i.f.fn.toNat % 8 == 1)) else .error (plainTrap 101 i.here)
  | none => .ok (fun _ => .trace alt, some (ep, alt, i.f.fn.toNat % 8 == 1))

/-- What a terminator that may issue does (R133, R258): it hands over, stalls, traps, or commits the execution. -/
def terminateBody (body : TermBody) (word : DWord) (i : Iss) (c : Captured) : State :=
  match handBackFor i c with
  | some q => i.s.handBack i.g i.x.here i.tm q true
  | none => match body (i.served c) c.words with
    | .error t =>
      if i.grp.shadowBehind i.x.off then i.s else (i.s.leave i.g i.now (emptyLeave i c)).trapIn i.g i.grp i.now t i.x.off false
    | .ok (succ, mig) =>
      if i.stalls c {} then i.s
      else
        ((applyIssue (i.served c) c word {}).modGroup i.g (fun y =>
          { y with exec := y.exec.map (fun z => { z with off := i.x.off, issued := i.x.issued, run := 0, closing := true }) })).commit i.g i.now succ mig

/-- Issue a terminator (R133, R140) and commit (R258) (log 32, DEDUCED). -/
def terminate (op : Nat) (f : Fields) (body : TermBody) (s : State) : Host.Outcome State Fault Refusal :=
  match s.standing with
  | none => .fault .noExecution
  | some (g, tm, grp, x) =>
    match issueChecks s g tm grp x op f with
    | .error t => .next (s.trapIn g grp (issueTime s g tm grp x op f) t x.off false)
    | .ok i => .next (terminateBody body x.word i (capture i))

/-- Terminator committing the passing lanes and making them pending at one successor. (R266) -/
def execEndTrace (f : Fields) (s : State) : Host.Outcome State Fault Refusal := terminate 0x02 f bodyEnd s

/-- Terminator committing and sending each lane to one of two successors by its predicate. (R266) -/
def execEndSel (f : Fields) (s : State) : Host.Outcome State Fault Refusal := terminate 0x03 f bodyEndSel s

/-- Terminator committing and sending each lane to the successor its register pair names. (R266) -/
def execEndInd (f : Fields) (s : State) : Host.Outcome State Fault Refusal := terminate 0x04 f bodyEndInd s

/-- L9 base-word form of END.IND. (R266) -/
def execEndIndL9 (a : BitVec 6) (r : BitVec 1) (s : State) : Host.Outcome State Fault Refusal :=
  terminate 0x04 (baseFields 0x04#8 0#4 0#6 a 0#6 r).2 bodyEndInd s

/-- Terminator committing and retiring every passing lane. (R266) -/
def execRetire (f : Fields) (s : State) : Host.Outcome State Fault Refusal := terminate 0x05 f bodyRetire s

/-- L9 base-word form of RETIRE. (R266) -/
def execRetireL9 (r : BitVec 1) (s : State) : Host.Outcome State Fault Refusal :=
  terminate 0x05 (baseFields 0x05#8 0#4 0#6 0#6 0#6 r).2 bodyRetire s

/-- Terminator that commits and parks the group for migration to the other core kind, or sends it to alt on refusal. (R291) -/
def execMigrate (f : Fields) (s : State) : Host.Outcome State Fault Refusal := terminate 0xD8 f bodyMigrate s

/-- An opcode that the map does not list traps with ILLEGAL_OPCODE (R140, R141). -/
def execIllegalOpcode (op : BitVec 8) (f : Fields) (s : State) : Host.Outcome State Fault Refusal :=
  issueOn op.toNat f (fun _ _ => .ok {}) s

end Sys2Proof.Machine
end

