-- ==== Sys2Proof/Machine/Heads.lean ====
section
/-!
DEFINITION. Fetching a trace (R37 to R39, R129 to R132), the heads of traces (R253, R254, R261, R342), the calls through a bind
table (R40 to R42), and the release of held lanes (R256). A group stays one group through every divergence: only lanes pending at one trace
issue together (R260).
-/
namespace Sys2Proof.Machine

/-! ### Headers (R129 to R132) -/

/-- The D9 header of a word (R129). -/
def headerD9 (w : Nat) : Header :=
  { op := bits w 63 56, len := bits w 55 48, head := bits w 47 44, arg := bits w 43 32, ep := bit w 31, flash := bits w 30 21,
    wset := bits w 20 15, stw := bits w 14 10, atom := bits w 9 7, puts := bits w 6 4, jobs := bits w 3 2, arr := bits w 1 1,
    rsv := bits w 0 0 }

/-- The L9 header of two words (R130); `rsv` is bit [31] of the first. -/
def headerL9 (w0 w1 : Nat) : Header :=
  { op := bits w0 30 23, len := bits w0 22 15, head := bits w0 14 11, arg := bits w0 10 0 + bits w1 31 31 * 2048, ep := bit w1 30,
    flash := bits w1 29 20, wset := bits w1 19 14, stw := bits w1 13 9, atom := bits w1 8 6, puts := bits w1 5 3,
    jobs := bits w1 2 1, arr := bits w1 0 0, rsv := bits w0 31 31 }

/-- The header at the head of a trace's bytes. -/
def headerOf (e : Enc) (bs : List Byte) : Header :=
  match e with
  | .l9 => headerL9 (leAt bs 0 4) (leAt bs 4 4)
  | _ => headerD9 (leAt bs 0 8)

/-- Whether HEADARG breaks its layout (R131). -/
def argBad (head arg : Nat) : Bool :=
  match head with
  | 1 => decide (16 ≤ arg)
  | 2 => arg / 16 == 0
  | 3 => decide (16 ≤ arg)
  | 6 => arg == 0 || decide (4 ≤ arg)
  | 8 => decide (8 ≤ arg)
  | _ => arg != 0

/-- Whether a header is malformed for a decoder (R132, R402). -/
def Header.malformed (h : Header) (e : Enc) : Bool :=
  (h.ep && (e == .d8 || e == .d7)) || h.op != 1 || h.len == 0 || decide (192 < h.len) || decide (9 ≤ h.head) || argBad h.head h.arg || (!h.ep && h.flash != 0)
    || decide (32 < h.wset) || decide (16 < h.stw) || decide (4 < h.atom) || decide (4 < h.puts) || decide (2 < h.jobs) || h.rsv != 0

/-- The words of `n` instructions at the head of some bytes, and the bytes they take; none where the bytes end before. -/
def takeWords (e : Enc) : Nat → List Byte → Option (List DWord × Nat)
  | 0, _ => some ([], 0)
  | n + 1, bs =>
    let k := wordLength e bs
    if bs.length < k then none
    else (takeWords e n (bs.drop k)).map (fun r => (BitVec.ofNat 64 (ofBytesLE (bs.take k)) :: r.1, k + r.2))

/-- A whole trace at the head of some bytes: its header and words; none where more bytes are needed. A malformed header stands
alone. -/
def takeTrace (e : Enc) (bs : List Byte) : Option (Header × List DWord) :=
  if bs.length < 8 then none
  else
    let h := headerOf e bs
    if h.malformed e then some (h, []) else (takeWords e h.len (bs.drop 8)).map (fun r => (h, r.1))

/-! ### Fetch (R38) -/

/-- What fetching gives: the header and words; a cause at an address; a wait, or no room in the pending-translation table: these with the
bytes obtained before. -/
inductive FetchResult where
  | ok (h : Header) (ws : List DWord)
  | fail (cause va : Nat) (got : List Byte)
  | wait (full : Bool) (got : List Byte)
  deriving DecidableEq, Repr

/-- The line of an address in a code cache (R39). -/
def lineIn (ctx va : Nat) (l : List CodeLine) : Option CodeLine := l.find? (fun c => c.ctx == ctx && c.va == va / 64 * 64)

/-- Put a code line at the front of a cache; the oldest is evicted when it is full (log 49, DEDUCED). -/
def linePut (room : Nat) (c : CodeLine) (l : List CodeLine) : List CodeLine :=
  (c :: l.filter (fun x => !(x.ctx == c.ctx && x.va == c.va))).take room

/-- Put a code line into a core's cache of 1,024 lines (R12, R13). -/
def State.putLine (s : State) (core : Nat) (c : CodeLine) : State := s.modCore core (fun k => { k with code := linePut 1024 c k.code })

/-- Put a code line into a core's cache and its die's of 65,536 lines (R9). -/
def State.putLines (s : State) (core : Nat) (c : CodeLine) : State :=
  (s.putLine core c).modDie (dieOf core) (fun d => { d with code := linePut 65536 c d.code })

/-- Obtain the code line of an address whose translation is at `key` (R39): from the core's cache, from its die's, or from memory. A line of
the core's own cache goes no further, so an ICINV of another core stands (R175). A poisoned line that is not cached is consumed (R405): the cause of its bank (log 37, DEDUCED). -/
def State.obtainLine (s : State) (core ctx va key : Nat) : Except Nat (List Byte × State) :=
  match lineIn ctx va (s.core core).code, lineIn ctx va (s.die (dieOf core)).code with
  | some c, _ => .ok (c.bytes, s.putLine core c)
  | none, some c => .ok (c.bytes, s.putLines core c)
  | none, none =>
    let base := key - va % 64
    match s.poisonAt base 64 with
    | some p => .error (256 + 4 * (if p.bank = 15 then bits base 38 36 else p.bank) + 1)
    | none =>
      let bs := s.mem.readBytes base 64
      .ok (bs, s.putLines core ⟨ctx, va / 64 * 64, bs⟩)

/-- Fetch a trace line by line from an address; each page is checked under R25 before its first line is used. `got` are the
bytes so far, `frame` the 4 KiB frame last checked and its key (log 37, DEDUCED), `who` asks (R31). -/
def State.fetchLines (s : State) (e : Enc) (core who ctx va : Nat) : Nat → List Byte → Option (Nat × Nat) → FetchResult × State
  | 0, got, _ => (.fail (encCause e 12) va got, s)
  | fuel + 1, got, frame =>
    match takeTrace e got with
    | some (h, ws) => (.ok h ws, s)
    | none =>
      let at_ := va + got.length
      let known := match frame with | some (f, k) => if f = at_ / 4096 then some (k + at_ % 4096) else none | none => none
      let r : Translated × State := match known with
        | some k => (.ok k 0#64, s)
        | none => s.translate { core := core, who := who, ctx := ctx, va := at_, acc := 3, keyperm := 0#64 }
      match r with
      | (.fail c _, s) => (.fail c at_ got, s)
      | (.wait full, s) => (.wait full got, s)
      | (.ok key _, s) =>
        match s.obtainLine core ctx at_ key with
        | .error c => (.fail c at_ got, s)
        | .ok (bs, s) => s.fetchLines e core who ctx va fuel (got ++ bs.drop (at_ % 64)) (some (at_ / 4096, key - at_ % 4096))

/-- The address of a trace in the encoding of a core (R398). -/
def State.traceVa (s : State) (ctx : Nat) (e : Enc) (t : TRef) : Nat :=
  let p := s.tracePcs ctx t
  if e = .l9 then p.2 else p.1

/-! ### Who is pending where (R251) -/

/-- The lanes of a group that count: in handler mode the handler's (R365) (log 39, DEDUCED). -/
def Group.counted (g : Group) : List Nat := if g.hm then g.live.filter (fun l => g.handlerLanes.contains l) else g.live

/-- The counted lanes that no requeue cause and no acquire holds (R251). -/
def Group.ready (g : Group) : List Nat := g.counted.filter (fun l => (g.lane l).held.isNone && (g.lane l).acquires.isEmpty)

/-- The ready lanes pending at a trace. -/
def Group.pending (g : Group) (t : TRef) : List Nat := g.ready.filter (fun l => decide ((g.lane l).tr = t) && (g.lane l).bindCall.isNone)

/-- The traces at which a ready lane is pending, the longest pending first, and of two the lower index (R251). -/
def Group.candidates (g : Group) : List TRef :=
  let ts := ((g.ready.filter (fun l => (g.lane l).bindCall.isNone)).map (fun l => (g.lane l).tr)).eraseDups
  let age (t : TRef) : Nat := ((g.pending t).map (fun l => (g.lane l).since)).foldl Nat.min (2 ^ 64)
  ts.mergeSort (fun a b => decide (age a < age b ∨ (age a = age b ∧ a.idx ≤ b.idx)))

/-- Whether a context lets a group of it start anything: it is not stopped, and not descheduled or pre-empted; a group in handler mode
goes on under a pre-emption, that of a stop included, until its time is up, but not one whose handler's trap is the stop (R360, R382, R383). -/
def Ctx.lets (c : Ctx) (grp : Group) : Bool :=
  (c.stopped.isNone && !c.descheduled && !c.preempted) || (grp.hm && !grp.timedOut && !(grp.doubled && c.stopped.isSome))

/-- Whether a group may start anything: its team, core and context run, it is not halted or parked, and no boundary is open
(R273, R293, R319, R360, R377, R382). -/
def State.mayRun (s : State) (g : GRef) (tm : Team) (grp : Group) : Bool :=
  let c := (s.ctx? tm.ctx).getD {}
  let k := s.core g.core
  grp.exec.isNone && grp.halt == .none && grp.park.isNone && grp.boundary.isNone && c.lets grp && !k.disabled && !tm.ending
    && !(tm.folded && (match tm.fold with | some fo => fo.thread != grp.num | none => true))
    && !(tm.parkedStages.contains (tm.stageOf grp.num) && !tm.folded)

/-- The trace buffer's entry of a trace (log 37, DEDUCED). -/
def Group.buffer (g : Group) (t : TRef) : Option Fetched := g.buffers.find? (fun b => decide (b.tr = t))

/-! ### Traps at a head (R254, R343) -/

/-- The lanes of a group that have not retired: of a folded thread, whatever stage they have ended in (R315, R317). -/
def Team.unretired (tm : Team) (grp : Group) : List Nat := (upto grp.width).filter (tm.laneLives grp)

/-- The trap of R254 or R343 that a head raises for a group (log 33, DEDUCED). -/
def headTrap (tm : Team) (grp : Group) (h : Header) : Option Nat :=
  match h.head with
  | 3 =>
    if (tget tm.queues h.arg).isNone then some 104
    else if grp.task.isSome ∧ (grp.taskAccepted ∨ grp.taskQueue ≠ h.arg) then some 102
    else none
  | 2 =>
    let c := tm.chan (h.arg % 16)
    if c.mode = 0 then some 97
    else if !isEndpoint tm grp.num c false then some 98
    else if (if c.mode = 2 then (tm.unretired grp).length else c.depth) < h.arg / 16 then some 99
    else none
  | _ => none

/-- The trap that the head of a partly fetched trace raises: a test of R254 does not wait for the rest of the trace. -/
def partialHeadTrap (tm : Team) (grp : Group) (e : Enc) (got : List Byte) : Option Nat :=
  if got.length < 8 ∨ (headerOf e got).malformed e then none else headTrap tm grp (headerOf e got)

/-! ### TRACE_FETCH (R38) -/

/-- Hold lanes at their head by a cause (R256). -/
def State.holdLanes (s : State) (g : GRef) (ls : List Nat) (h : Held) : State :=
  s.modGroup g (fun x => x.modLanes ls (fun l => { l with held := some h }))

/-- Fetch a trace whole into the group's trace buffer (R38). A page that is not resident holds its lanes and posts a record; a full
pending-translation table holds them; any other cause, and a malformed header, traps at the head (log 37, DEDUCED). A record's GROUP, the group's
number within its core, is its team's slot × 16 plus its place in the team: R77 gives no formula (log 56, DESIGN CHOICE). -/
def State.fetchTrace (s : State) (g : GRef) (tm : Team) (grp : Group) (t : TRef) : State :=
  let e := s.traceEnc g.core tm.ctx t
  let lanes := grp.pending t
  let va := s.traceVa tm.ctx e t
  match s.fetchLines e g.core (asks 0 (g.slot * 16 + g.grp) 0) tm.ctx va 32 [] none with
  | (.ok h ws, s) =>
    if h.malformed e then s.stopAtHead g (plainTrap (encCause e 12) lanes) t lanes
    else s.modGroup g (fun x =>
      { x with buffers := ⟨t, h, ws⟩ :: x.buffers.filter (fun b => b.tr != t && (x.counted.any (fun l => decide ((x.lane l).tr = b.tr))
          || (tm.banked x.num).any (fun p => p.2.live && decide (p.2.tr = b.tr)))) })
  | (.fail c at_ got, s) =>
    match partialHeadTrap tm grp e got with
    | some k => s.stopAtHead g (plainTrap k lanes) t lanes
    | none => if c = 134 then
      let pcs := s.tracePcs tm.ctx t
      (s.holdLanes g lanes ⟨7, at_ / 4096⟩).postRecord (dieOf g.core)
        { cause := 134, srck := 4, ctx := tm.ctx, va := at_, acc := 3, core := g.core, group := g.slot * 16 + g.grp,
          d9pc := pcs.1, l9pc := pcs.2, trace := t.idx }
    else s.stopAtHead g ⟨c, lanes, if 256 ≤ c then 0 else at_, 0⟩ t lanes
  | (.wait full got, s) =>
    match partialHeadTrap tm grp e got with
    | some k => s.stopAtHead g (plainTrap k lanes) t lanes
    | none => if full then s.holdLanes g lanes ⟨8, 0⟩ else s

/-- Whether a trace reference names a trace of a loaded object (R266). -/
def State.traceExists (s : State) (ctx : Nat) (t : TRef) : Bool := (s.trace? ctx t).isSome

/-- The first trace, stage by stage, at which a ready lane of a group is pending and that the group has not fetched (R251, R317). -/
def State.unfetched (s : State) (g : GRef) : List Nat → Option TRef
  | [] => none
  | st :: rest =>
    let s1 := s.switchStage g.core g.slot st
    match s1.team? g.core g.slot, s1.group? g with
    | some tm, some grp => (grp.candidates.find? (fun t => (grp.buffer t).isNone && s1.traceExists tm.ctx t)).or (s.unfetched g rest)
    | _, _ => none

/-- Fetch a trace for the first of the stages at which a ready lane is pending at it (R317); the thread's current stage stays unless the
fetch traps (log 40, DEDUCED). -/
def State.fetchBanked (s : State) (g : GRef) (t : TRef) : List Nat → State
  | [] => s
  | st :: rest =>
    let s1 := s.switchStage g.core g.slot st
    match s1.team? g.core g.slot, s1.group? g with
    | some tm, some grp =>
      if (grp.pending t).isEmpty then s.fetchBanked g t rest
      else
        let s2 := s1.fetchTrace g tm grp t
        match s2.group? g with
        | some x => if x.frame = grp.frame ∧ x.hm = grp.hm then s2.switchStage g.core g.slot (((s.team? g.core g.slot).bind (·.fold)).elim st (·.stage)) else s2
        | none => s2
    | _, _ => s

/-- TRACE_FETCH: the subject names a group and a trace at which a ready lane of it is pending and that it has not fetched. -/
def execTraceFetch (s : State) : Host.Outcome State Fault Refusal :=
  let g := s.subject.g
  let t := s.subject.t
  match s.team? g.core g.slot, s.group? g with
  | some tm, some grp =>
    if s.mayRun g tm grp && (grp.buffer t).isNone && s.traceExists tm.ctx t then
      if (grp.pending t).isEmpty then .next (s.fetchBanked g t (stagesToTry tm grp)) else .next (s.fetchTrace g tm grp t)
    else .next s
  | _, _ => .next s

/-! ### Calls through a bind table (R40 to R42) -/

/-- What reading an entry's STATE tells a lane to do (R41); `pend`: its translation waits, for room in the pending-translation table
where `full` is set. -/
inductive BindStep where
  | goto (t : TRef)
  | wait
  | pend (full : Bool)
  | hold (va tier : Nat)
  | trap (cause : Nat)
  deriving DecidableEq, Repr

/-- The trace that a handle and an index name, seen from a trace (R265, log 20, DEDUCED). -/
def namedTrace (from_ : TRef) (handle idx : Nat) : TRef :=
  if handle = 0 ∨ handle = from_.handle then { from_ with idx := idx } else ⟨handle, 0, idx⟩

/-- Resolve a call through entry `e` of the bind table of a lane's object (R41). The scheduler reads the entry through the
context's tables (log 37, DEDUCED). -/
def State.bindStep (s : State) (core who ctx : Nat) (from_ : TRef) (e : Nat) : BindStep × State :=
  match s.object? ctx from_.handle from_.handle with
  | none => (.trap 82, s)
  | some o =>
    if o.nbind ≤ e then (.trap 157, s)
    else
      let va := o.bindVa + 16 * e
      match s.translate { core := core, who := who, ctx := ctx, va := va, acc := 0, keyperm := ((s.ctx? ctx).getD {}).keyperm } with
      | (.wait full, s) => (.pend full, s)
      | (.fail cause tier, s) => (if cause = 134 then .hold va tier else .trap cause, s)
      | (.ok key _, s) =>
        let target := s.mem.readLE (key + 8) 8
        (match s.mem.readLE key 4 with
          | 2 => .goto (namedTrace from_ (bits target 63 32) (bits target 31 0))
          | 0 => .goto ⟨from_.handle, o.bckern, o.bctrace⟩
          | 1 => .wait
          | _ => .trap 87, s)

/-- The bind-claim trace of a lane's object: the head that a failed call's trap names (log 23, DESIGN CHOICE). -/
def State.claimTrace (s : State) (ctx : Nat) (t : TRef) : TRef :=
  match s.object? ctx t.handle t.handle with
  | some o => ⟨t.handle, o.bckern, o.bctrace⟩
  | none => t

/-- Resolve the bind-table calls of a group's ready lanes (R41, R42): each lane becomes pending at a trace, waits in its die's
bind-wait queue, or fails. A failure traps the group (log 38, DEDUCED). -/
def State.resolveBinds (s : State) (g : GRef) (tm : Team) (grp : Group) : State :=
  let (calls, s) := grp.ready.foldl (fun (p : List (Nat × Nat × BindStep) × State) l => match (grp.lane l).bindCall with
    | none => p
    | some e => let r := p.2.bindStep g.core (asks 1 (g.slot * 16 + g.grp) l) tm.ctx (grp.lane l).tr e; (p.1 ++ [(l, e, r.1)], r.2)) ([], s)
  match calls.find? (fun c => match c.2.2 with | .trap _ => true | _ => false) with
  | some (l, _, .trap c) =>
    let ls := (calls.filter (fun d => d.2.2 == .trap c)).map (·.1)
    s.stopAtHead g ⟨c, ls, 0, 0⟩ (s.claimTrace tm.ctx (grp.lane l).tr) ls
  | _ => calls.foldl (fun s c =>
      match c.2.2 with
      | .goto t => s.modGroup g (fun x => x.modLanes [c.1] (fun y => { y with tr := t, bindCall := none }))
      | .wait =>
        if 1024 ≤ (s.die (dieOf g.core)).bindWait.length then s.holdLanes g [c.1] ⟨17, c.2.1⟩
        else (s.modDie (dieOf g.core) (fun d => { d with bindWait := d.bindWait ++ [⟨g, c.1, (grp.lane c.1).tr.handle, c.2.1⟩] })).holdLanes g [c.1] ⟨16, c.2.1⟩
      | .pend full => if full then s.holdLanes g [c.1] ⟨8, 0⟩ else s
      | .hold va tier =>
        let pcs := s.tracePcs tm.ctx (grp.lane c.1).tr
        (s.holdLanes g [c.1] ⟨7, va / 4096⟩).postRecord (dieOf g.core)
          { cause := 134, srck := 4, ctx := tm.ctx, va := va, tier := tier, core := g.core, group := g.slot * 16 + g.grp,
            d9pc := pcs.1, l9pc := pcs.2, trace := (grp.lane c.1).tr.idx }
      | .trap _ => s) s

/-! ### Releasing held lanes (R256) -/

/-- Apply a change to the lanes of a group, in every stage of a folded thread (R317). -/
def State.mapLanes (s : State) (g : GRef) (f : Nat → Lane → Lane) : State :=
  (s.modGroup g (fun x => { x with lanes := x.lanes.mapIdx f })).modTeam g.core g.slot (fun t =>
    { t with fold := t.fold.map (fun fo => if t.folded ∧ t.threadPlace fo = g.grp then { fo with cont := fo.cont.map (fun p => (p.1, f (p.1 % 128) p.2)) } else fo) })

/-- A lane becomes pending again (R251, R256). -/
def Lane.release (now : Nat) (l : Lane) : Lane := { l with held := none, since := now }

/-- Whether the cause that holds a lane has cleared (R256); the pages (3, 7) and the bind waits (16, 17) have events of
their own. -/
def State.cleared (s : State) (g : GRef) (tm : Team) (lane : Nat) (h : Held) : Bool :=
  match h.cause with
  | 1 =>
    let c := tm.chan h.obj
    !c.frozen && (if c.mode = 2 then (match tm.fold with | some fo => sget fo.full (slotKey lane h.obj) == 1#1 | none => false) else c.count != 0)
  | 2 => decide (0 < (tm.chan h.obj).room)
  | 4 => match s.team? (h.obj / 1024) (h.obj % 1024 / 64) with
    | some t => (t.tile (h.obj % 64)).state == .ready
    | none => false
  | 5 => decide (h.obj < (s.die (dieOf g.core)).completions)
  | 6 =>
    let k := (s.core g.core).seqr
    if h.obj = 64 then (k.state == .idle || k.state == .stopped || k.state == .fault) && tm.accHold.all (fun n => n == g.grp)
    else decide ((tm.tile h.obj).held ≤ ((s.group? g).map (fun x => x.keptHold h.obj)).getD 0) && !(k.owner == some g.slot && k.holds.contains h.obj)
  | 8 => decide (s.pending (dieOf g.core) < 256)
  | 9 => !(tm.bar h.obj).tp
  | 10 => decide (h.obj / 16 ≤ s.tqRoom g.core g.slot (h.obj % 16))
  | _ => false

/-- Whether a group is halted: its lanes stay held (R378). -/
def State.halted (s : State) (g : GRef) : Bool := match s.group? g with | some x => x.halt != .none | none => false

/-- Release the lanes of a group whose causes have cleared (R256). -/
def State.releaseCleared (s : State) (g : GRef) : State :=
  match s.team? g.core g.slot with
  | none => s
  | some tm =>
    let now := (s.core g.core).cycles
    if s.halted g then s
    else s.mapLanes g (fun n l => match l.held with | some h => if s.cleared g tm n h then l.release now else l | none => l)

/-- Whether some lane of a group could be released now. -/
def State.releasable (s : State) (g : GRef) : Bool :=
  match s.team? g.core g.slot, s.group? g with
  | some tm, some grp => grp.halt == .none && (grp.lanes.zipIdx.map (fun p => (p.2, p.1)) ++ tm.banked grp.num).any (fun p =>
      p.2.live && (match p.2.held with | some h => s.cleared g tm p.1 h | none => false))
  | _, _ => false

/-- REQUEUE_RELEASE: the subject names the group. -/
def execRequeueRelease (s : State) : Host.Outcome State Fault Refusal := .next (s.releaseCleared s.subject.g)

/-- The stages of a folded thread whose continuations stand in its banks: every one but the current one, and none of any other group (R315). -/
def State.inBank (s : State) (g : GRef) (st : Nat) : Bool :=
  match s.team? g.core g.slot with
  | some t => t.folded && (match t.fold with | some fo => t.threadPlace fo == g.grp && fo.stage != st | none => false)
  | none => false

/-- The continuation of a lane in a stage (R317); a group that is no thread has one continuation a lane. -/
def State.stageLane (s : State) (g : GRef) (st lane : Nat) : Lane :=
  if s.inBank g st then ((((s.team? g.core g.slot).bind (·.fold)).bind (fun fo => tget fo.cont (st * 128 + lane))).getD {})
  else ((s.group? g).map (·.lane lane)).getD {}

/-- Release the hold of one continuation (R317). -/
def State.releaseStage (s : State) (g : GRef) (st lane : Nat) : State :=
  let now := (s.core g.core).cycles
  if s.inBank g st then
    s.modTeam g.core g.slot (fun t => { t with fold := t.fold.map (fun fo =>
      { fo with cont := fo.cont.map (fun p => (p.1, if p.1 = st * 128 + lane then p.2.release now else p.2)) }) })
  else s.modGroup g (fun x => { x with lanes := x.lanes.modify lane (Lane.release now) })

/-- REQUEUE_TIMER: the subject names the group and, as `a`, a lane held for a page, in stage `b` of a folded thread (R256, R317, R467) (log 10,
DESIGN CHOICE). -/
def execRequeueTimer (s : State) : Host.Outcome State Fault Refusal :=
  let u := s.subject
  let due : Bool := match s.group? u.g, (s.stageLane u.g u.b u.a).held with
    | some x, some h => x.halt == .none && (h.cause == 3 || h.cause == 7)
    | _, _ => false
  .next (if due then (s.releaseStage u.g u.b u.a).raisePlien (dieOf u.g.core) 9 else s)

/-- BIND_NOTIFY: the subject names a context as `a`, an object as `b` and an entry as `c` (R42): every lane that waits on the entry
becomes pending again and dispatches under R41 (log 38, DEDUCED). -/
def execBindNotify (s : State) : Host.Outcome State Fault Refusal :=
  let u := s.subject
  .next ((upto 4).foldl (fun s d =>
    let mine (s : State) (w : BindWait) : Bool :=
      w.handle == u.b && w.entry == u.c && (match s.team? w.g.core w.g.slot with | some t => t.ctx == u.a | none => false)
    let ws := (s.die d).bindWait.filter (mine s)
    let s := ws.foldl (fun s w => s.mapLanes w.g (fun n l =>
      if n = w.lane ∧ l.held = some ⟨16, w.entry⟩ then l.release (s.core w.g.core).cycles else l)) s
    s.modDie d (fun x => { x with bindWait := x.bindWait.filter (fun w => !ws.contains w) })) s)

/-- BIND_RETRY_TIMER: the subject names a group and, as `a`, a lane that found the bind-wait queue full, in stage `b` of a folded thread (R42, R317)
(log 10, DESIGN CHOICE, log 38, DEDUCED). -/
def execBindRetryTimer (s : State) : Host.Outcome State Fault Refusal :=
  let u := s.subject
  match (s.stageLane u.g u.b u.a).held with
  | some h => if h.cause = 17 then .next (s.releaseStage u.g u.b u.a) else .next s
  | none => .next s

/-- PRIORITY_AGING: a group that can run waits 1,024 cycles more without winning a slot (R249) (log 10, DESIGN CHOICE). -/
def execPriorityAging (s : State) : Host.Outcome State Fault Refusal :=
  match s.group? s.subject.g with
  | some grp =>
    let waits : Bool := match grp.exec with | some x => x.run == 0 && !x.closing | none => !grp.candidates.isEmpty
    if waits then .next (s.modGroup s.subject.g (fun x => { x with waited := min 3 (x.waited + 1) })) else .next s
  | none => .next s

end Sys2Proof.Machine
end

