-- ==== Sys2Proof/Machine/Start.lean ====
section
/-!
DEFINITION. The dispatch of a trace (R251 to R254, R261, R262, R283, R300, R317, R342): the traps at heads, the start conditions,
the choice, and the start of an execution with its task record (R338); and the scheduler's test at an EP (R298). Which groups' runs share a
cycle, and the ports they contend for, only add slack (R250).
-/
namespace Sys2Proof.Machine

/-! ### The scheduler's migrations (R297, R298) -/

/-- Whether R298 would migrate a group at its next EP, and toward which kind: true an LCORE. -/
def State.schedWants (s : State) (g : GRef) (tm : Team) (grp : Group) : Option Bool :=
  let p := ((s.ctx? tm.ctx).map (fun c => c.migpol.toNat)).getD 0
  let wlog := if 8 < bits p 21 18 then 8 else bits p 21 18
  let n := 2 ^ wlog
  let h := grp.migHist.take n
  if !bit p 0 ∨ h.length < n then none
  else if !isLcore g.core ∧ bit p 1 ∧ h.sum < bits p 10 4 * n then some true
  else if isLcore g.core ∧ bit p 2 ∧ bits p 17 11 * n < h.sum then some false
  else none

/-! ### What the head shows (R174, R236, R310, R311, R374) -/

/-- The number of a sequencer state (R225). -/
def MxState.num : MxState → Nat
  | .idle => 0 | .running => 1 | .waiting => 2 | .stopping => 3 | .stopped => 4 | .fault => 5

/-- Whether a sequencer runs a chain (R225). -/
def MxState.busy : MxState → Bool
  | .running => true | .waiting => true | .stopping => true
  | .idle => false | .stopped => false | .fault => false

/-- The MXSTAT word that a team sees (R236). The rule names no entry for the owner in IDLE: there ENTRY is the free value `idle` (log 12,
DESIGN CHOICE). -/
def mxWord (q : Sequencer) (slot : Nat) (tm : Team) (idle : Nat) : Nat :=
  let chains := tm.mxChains % 256 * 2 ^ 24
  if q.owner = some slot then
    q.state.num + (if q.state = .fault then q.cause % 512 else 0) * 8 + (if q.state = .idle then idle % 4096 else q.entry % 4096) * 4096 + chains
  else (if q.state.busy then q.state.num else 0) + chains

/-- The EPQ word of a group (R311) (log 40, DEDUCED, log 49, DEDUCED). -/
def State.epqWord (s : State) (g : GRef) (tm : Team) (grp : Group) : Nat :=
  let w := s.schedWants g tm grp
  let stage := match tm.fold with | some fo => if tm.folded then fo.last else tm.stageOf grp.num | none => tm.stageOf grp.num
  b2n w.isSome + 2 * b2n (w == some true) + 4 * b2n tm.foldLatched + 8 * b2n tm.spreadLatched + 16 * b2n tm.folded
    + (if tm.stages.isEmpty then 0 else 32 + stage % 8 * 64) + tm.chref % 8 * 512 + grp.migref % 8 * 4096

/-- The values of CSR numbers 0x00 to 0x13 at a head (R370, R374). -/
def State.csrValues (s : State) (g : GRef) (tm : Team) (grp : Group) (diverged : Bool) : List Nat :=
  let c := (s.ctx? tm.ctx).getD {}
  [tm.tstat.toNat, gstatWord grp diverged, grp.mode.toNat, s.featmask.toNat, s.coreCaps g.core, b2n (isLcore g.core), g.core,
   dieOf g.core, s.packid.toNat, c.keyperm.toNat, c.trapbase.toNat, (s.core g.core).cycles % 2 ^ 64, grp.srseed.toNat, c.migpol.toNat,
   containWord grp.contain, c.gangwait.toNat] ++ c.brk.map BitVec.toNat

/-- What the instructions of an execution read as it stood at the head. -/
def State.headView (s : State) (g : GRef) (tm : Team) (grp : Group) (diverged : Bool) : HeadView :=
  { tiles := tm.tiles, csr := s.csrValues g tm grp diverged, chans := (upto 16).map (chanWord tm (tm.unretired grp)),
    counts := (upto 16).map (fun q => let c := tm.chan q; if c.frozen ∨ c.remote then 0 else c.count),
    mxstat := mxWord (s.core g.core).seqr g.slot tm (Config.freeWord s.free).toNat, epq := s.epqWord g tm grp, acc := tm.acc }

/-! ### Deadlocked joins (R262) -/

/-- The JOIN trace of the lowest live lane, where every counted lane is pending at a JOIN head but not all at one (R262) (log 39, DEDUCED). -/
def joinDeadlock (grp : Group) : Option TRef :=
  match grp.counted with
  | [] => none
  | l0 :: _ =>
    let at_ (l : Nat) : TRef := (grp.lane l).tr
    let joins (l : Nat) : Bool :=
      (grp.lane l).held.isNone && (grp.lane l).acquires.isEmpty && (grp.lane l).bindCall.isNone
        && (match grp.buffer (at_ l) with | some b => b.hdr.head == 7 | none => false)
    if grp.counted.all joins && grp.counted.any (fun l => at_ l != at_ l0) then some (at_ l0) else none

/-! ### Start conditions (R252, R253) -/

/-- Whether a record at the head of a task queue may be delivered (R339, R342). -/
def State.recordReady (s : State) (core slot q : Nat) : Bool :=
  match s.team? core slot with
  | none => false
  | some tm =>
    let n := max 1 ((tget tm.queues q).elim 0 (·.slots))
    let rec64 := s.mem.readBytes (tqKey core tm q (0x100 + 64 * (s.tq core slot q 0 % n))) 64
    s.tqCount core slot q != 0 && (!bit (leAt rec64 22 2) 0 || s.tq core slot q 0 == s.tq core slot q 16)

/-- Whether a team task queue is closed and empty (R342) (log 39, DEDUCED). -/
def State.closedEmpty (s : State) (core slot q : Nat) : Bool := s.tq core slot q 12 != 0 && s.tqCount core slot q == 0

/-- Whether another group of the team waits longer for the records of a queue and could take one (R342) (log 39, DEDUCED). -/
def State.olderWaiter (s : State) (g : GRef) (tm : Team) (grp : Group) (q : Nat) : Bool :=
  let age (x : Group) : Nat := (x.live.map (fun l => (x.lane l).since)).foldl max 0
  tm.groups.any (fun x => x.num != grp.num && x.asleepOn q && x.task.isNone && s.mayRun { g with grp := x.num } tm x
    && x.live.all (fun l => (x.lane l).held.isNone && (x.lane l).acquires.isEmpty)
    && (match x.live with | l :: _ => maskHolds tm x (((s.trace? tm.ctx (x.lane l).tr).map (·.tmask)).getD 0) | [] => false)
    && decide (age x < age grp ∨ (age x = age grp ∧ x.num < grp.num)))

/-- Whether a lane's jobs that HEADARG selects have completed (R253, R75). -/
def State.jobsDone (s : State) (ctx : Nat) (l : Lane) (arg : Nat) : Bool :=
  (upto 2).all (fun n => !bit arg n || (match l.jobs[n]? with
    | none => true
    | some h => match s.job? ctx h with | some (_, _, j) => j.state.completed | none => true))

/-- Whether a barrier has turned for a group (R283). -/
def turned (tm : Team) (grp : Group) (b : Nat) : Bool := (tm.bar b).ph != nth grp.epb b false

/-- Whether the head of a trace holds for a group and the lanes ready there (R253). A PHASE head is looked at when the trace is
chosen (R274). -/
def State.headHolds (s : State) (g : GRef) (tm : Team) (grp : Group) (h : Header) (lanes : List Nat) : Bool :=
  let all : Bool := decide (lanes.length = grp.counted.length)
  match h.head with
  | 1 => turned tm grp (h.arg % 16)
  | 2 =>
    let q := h.arg % 16
    let c := tm.chan q
    if c.mode = 2 then
      match tm.fold with
      | some fo => decide (h.arg / 16 ≤ (lanes.filter (fun l => sget fo.full (slotKey l q) == 1#1)).length)
      | none => false
    else !c.frozen && decide (h.arg / 16 ≤ c.count + ((tm.puts.filter (fun p => p.grp == g.grp && p.chan == q)).flatMap (·.items)).length)
  | 3 => all && (grp.task.isSome || (s.recordReady g.core g.slot h.arg && !s.olderWaiter g tm grp h.arg) || s.closedEmpty g.core g.slot h.arg
      || (match tget tm.queues h.arg with | some q => q.woken.contains g.grp | none => false))
  | 4 => tm.granted
  | 5 => grp.returns.all grp.frozenFor
  | 6 => lanes.all (fun l => s.jobsDone tm.ctx (grp.lane l) h.arg)
  | 7 => all
  | _ => true

/-- Buffer space of a group, for one trace at a time: result registers (R109), and for each lane store words and atomics, puts, job issues and
an arrival. R134 states no capacity: each group has of its own the ceilings of one header's budgets (R129, R132) (log 56, DESIGN CHOICE). -/
def bufferSpace : List Nat := [32, 16, 4, 4, 2, 1]

/-- What a header declares of each (R134). -/
def Header.budgets (h : Header) : List Nat := [h.wset, h.stw, h.atom, h.puts, h.jobs, h.arr]

/-- Whether a header's budgets can be reserved (R134, R252): its group's buffers are free of another trace's. A trapped trace is frozen in a
second set (R365). -/
def reservable (grp : Group) (h : Header) : Bool :=
  let taken := match grp.exec with | some x => x.hdr.budgets | none => []
  (h.budgets.zipIdx).all (fun p => decide (p.1 + nth taken p.2 0 ≤ nth bufferSpace p.2 0))

/-- Whether every start condition of a fetched trace holds (R252, R227, R238, R283). -/
def State.startable (s : State) (g : GRef) (tm : Team) (grp : Group) (b : Fetched) : Bool :=
  let k := (s.core g.core).seqr
  match s.trace? tm.ctx b.tr with
  | none => false
  | some e =>
    maskHolds tm grp e.tmask
      && !(k.owner == some g.slot && decide (0 < k.waitsFor) && maskCode e.tmask (k.waitsFor - 1) != 0)
      && !(e.acct && k.state.busy)
      && (match grp.wait with | some n => turned tm grp n | none => true)
      && reservable grp b.hdr
      && s.headHolds g tm grp b.hdr (grp.pending b.tr)

/-! ### The start -/

/-- The uniform registers k0 to k15 that a TASK head delivers (R342): a record, or the sign that there is none. -/
def deliverRecord (u : SMap 32) (rec64 : Option (List Byte)) (closed : Bool) : SMap 32 :=
  (upto 16).foldl (fun m n => sput m n (match rec64 with
    | some r => BitVec.ofNat 32 (leAt r (4 * n) 4)
    | none => if n = 11 then BitVec.ofNat 32 (b2n closed) else 0xFFFFFFFF#32)) u

/-- What a TASK head takes at the start (R342, R343): whether the execution received a record, and the machine after. -/
def State.takeTask (s : State) (g : GRef) (grp : Group) (q : Nat) : Bool × State :=
  let s := s.modTeam g.core g.slot (fun t => match tget t.queues q with
    | some x => { t with queues := tput t.queues q { x with woken := x.woken.filter (fun n => n != g.grp) } }
    | none => t)
  let s := s.cleanRegs g ((upto 16).map (fun n => ⟨0, .k n⟩))
  match grp.task with
  | some r => (true, s.modGroup g (fun y => { y with uregs := deliverRecord y.uregs (some r) false }))
  | none =>
    match s.team? g.core g.slot with
    | none => (false, s)
    | some tm =>
      if s.recordReady g.core g.slot q ∧ !s.olderWaiter g tm grp q then
        let head := s.tq g.core g.slot q 0
        let n := max 1 ((tget tm.queues q).elim 0 (·.slots))
        let rec64 := s.mem.readBytes (tqKey g.core tm q (0x100 + 64 * (head % n))) 64
        (true, (s.setTq g.core g.slot q 0 ((head + 1) % 2 ^ 32)).modGroup g (fun y =>
          { y with uregs := deliverRecord y.uregs (some rec64) false, task := some rec64, taskQueue := q, taskAccepted := false }))
      else
        let closed := s.closedEmpty g.core g.slot q
        (false, s.modGroup g (fun y => { y with uregs := deliverRecord y.uregs none closed }))

/-- Start an execution of a fetched trace with every lane ready there (R251): what its head takes, its holds, and the state it
reads as of its head. -/
def State.startTrace (s : State) (g : GRef) (b : Fetched) : State :=
  match s.team? g.core g.slot, s.group? g with
  | some tm, some grp =>
    let lanes := grp.pending b.tr
    let e := (s.trace? tm.ctx b.tr).getD ⟨0, 0, 0, 0, 0, false, 0, false, false, 0⟩
    let diverged := !grp.converged
    let turnOf (x : Group) (n : Nat) : Group := { x with epb := x.epb.set n (tm.bar n).ph }
    let s := s.modGroup g (fun x =>
      let x := match x.wait with | some n => { turnOf x n with wait := none } | none => x
      if b.hdr.head = 1 then turnOf x (b.hdr.arg % 16) else x)
    let (got, s) := if b.hdr.head = 3 then s.takeTask g grp b.hdr.arg else (false, s)
    let view := s.headView g tm grp diverged
    let s := { s with free := s.free + 1 }
    let x : Exec :=
      { tr := b.tr, hdr := b.hdr, words := b.words, mask := e.tmask, started := lanes, here := lanes, left := [], off := 0,
        diverged := diverged, ready := (s.core g.core).cycles, issued := [], buf := [], uses := [], view := view, skipBreak := false,
        gotTask := got }
    let s := s.modTeam g.core g.slot (fun t => let t := t.hold grp.hm grp.keptMask e.tmask; let t := { t with fold := t.fold.map (fun fo => { fo with last := fo.stage }) }; if e.acct then { t with accHold := g.grp :: t.accHold } else t)
    s.modGroup g (fun y => { y with exec := some x, trail := if y.shadow then some x else none, stays := none, buffers := y.buffers.filter (fun f => f.tr != b.tr),
                                    migHist := (lanes.length :: y.migHist).take 256 })
  | _, _ => s

/-! ### The choice (R251) -/

/-- What the scheduler does for a group at one of its stages: a trap at a head, a start (with the refusal that a migration by the scheduler met), a boundary to begin, a migration by the
scheduler, or nothing yet. -/
inductive Choice where
  | trap (tr : Trap) (t : TRef) (lanes : List Nat)
  | start (b : Fetched) (refused : Nat)
  | boundary (scope : Nat)
  | migrate (t : TRef) (lcore : Bool)
  | park (t : TRef) (tr : Trap) (lanes : List Nat)
  | none
  deriving DecidableEq, Repr

/-- The first trap at a head that a group meets (R79, R226, R254, R262, R266, R343) (log 33, DEDUCED). -/
def State.firstHeadTrap (s : State) (tm : Team) (grp : Group) : Option (Trap × TRef × List Nat) :=
  match joinDeadlock grp with
  | some t => some (plainTrap 83 grp.counted, t, grp.counted)
  | none =>
    firstSome (fun t =>
      let ls := grp.pending t
      match grp.owed with
      | o :: _ => some ({ o with flanes := ls }, t, ls)
      | [] =>
        if !s.traceExists tm.ctx t then some (plainTrap 82 ls, t, ls)
        else match grp.buffer t with
          | some b => (headTrap tm grp b.hdr).map (fun c => (plainTrap c ls, t, ls))
          | none => none) grp.candidates

/-- Choose for a group at its present stage (R251 to R254, R274, R298, R300). -/
def State.choose (s : State) (g : GRef) (tm : Team) (grp : Group) : Choice :=
  match s.firstHeadTrap tm grp with
  | some (tr, t, ls) => .trap tr t ls
  | none =>
    match grp.candidates.find? (fun t => match grp.buffer t with | some b => s.startable g tm grp b | none => false) with
    | none => .none
    | some t =>
      match grp.buffer t, s.trace? tm.ctx t with
      | some b, some e =>
        let ls := grp.pending t
        let caps := s.coreCaps g.core
        if e.req % 65536 &&& caps ≠ e.req % 65536 then
          let tr : Trap := ⟨84, ls, e.req, caps⟩
          if b.hdr.ep ∧ grp.stays ≠ some t ∧ e.freq / 2 = 0 ∧ ls.length = grp.live.length ∧ migRefusal s g tm t false true = 0 then .park t tr ls else .trap tr t ls
        else if b.hdr.head = 8 ∧ (match grp.passed with | some p => decide (p < b.hdr.arg) | none => true) = true then .boundary b.hdr.arg
        else match (if b.hdr.ep ∧ grp.stays ≠ some t ∧ ls.length = grp.live.length ∧ !grp.hm then s.schedWants g tm grp else none) with
          | some lcore => (match migRefusal s g tm t lcore true with | 0 => .migrate t lcore | n => .start b n)
          | none => .start b 0
      | _, _ => .none

/-- A folded CHAN head at the current stage that does not hold hands control to the channel's producer (R318). -/
def foldedChanWait (tm : Team) (grp : Group) : Option Nat :=
  firstSome (fun t => match grp.buffer t with
    | some b => if b.hdr.head = 2 ∧ (tm.chan (b.hdr.arg % 16)).mode = 2 then some (tm.stageOf (tm.chan (b.hdr.arg % 16)).pgrp) else none
    | none => none) grp.candidates

/-- Park a group for a migration (R293, R298, R300). -/
def State.parkGroup (s : State) (g : GRef) (t : TRef) (lcore : Bool) : State :=
  let now := (s.core g.core).cycles
  s.modGroup g (fun y => { y with park := some { ep := t, alt := t, lcore := lcore, since := now } })

/-- Carry a choice out. -/
def State.carryOut (s : State) (g : GRef) : Choice → State
  | .trap tr t ls => (s.modGroup g (fun y => { y with owed := if (y.owed.head?.map (·.cause)) = some tr.cause then y.owed.drop 1 else y.owed })).stopAtHead g tr t ls
  | .start b n => (if n = 0 then s else s.modGroup g (fun y => { y with migref := n })).startTrace g b
  | .boundary scope => s.beginBoundary g scope false
  | .migrate t lcore => s.parkGroup g t lcore
  | .park t _ _ => s.parkGroup g t false
  | .none => s

/-- The stages still to try, from one of them on: those before it come last. -/
def fromStage (st : Nat) (l : List Nat) : List Nat := l.dropWhile (· != st) ++ l.takeWhile (· != st)

/-- Try the stages of a group in turn; the first that has something to do does it and becomes current (R317). A folded CHAN head that does not
hold makes the channel's producer current, and the search goes on from there (R318). `last` is the stage made current so far. -/
def State.tryStages (s : State) (g : GRef) (last : Nat) : Nat → List Nat → State
  | fuel + 1, st :: rest =>
    let s1 := s.switchStage g.core g.slot st
    match s1.team? g.core g.slot, s1.group? g with
    | some tm, some grp =>
      match s1.choose g tm grp with
      | .none => match (if tm.folded then foldedChanWait tm grp else none) with
        | some p => s.tryStages g p fuel (fromStage p rest)
        | none => s.tryStages g last fuel rest
      | c => s1.carryOut g c
    | _, _ => s
  | _, _ => s.switchStage g.core g.slot last

/-- Ask for the team's grant where an ACQUIRE head of the group is considered (R247). -/
def State.askGrant (s : State) (g : GRef) (grp : Group) : State :=
  if grp.candidates.any (fun t => match grp.buffer t with | some b => b.hdr.head == 4 | none => false) then
    s.modTeam g.core g.slot (fun t => if t.granted ∨ t.grantAsked.isSome then t else { t with grantAsked := some (s.core g.core).cycles })
  else s

/-- A trap addressed to a dormant stage is taken by the thread at its next head (R324): the frame names the trace at which the stage's lanes
stand, or where none is left, the thread's own. -/
def State.takeStageTrap (s : State) (g : GRef) (tm : Team) : State :=
  match tm.fold with
  | none => s
  | some fo => match fo.owed with
    | [] => s
    | (st, tr) :: rest =>
      let s := s.modTeam g.core g.slot (fun t => { t with fold := t.fold.map (fun fo => { fo with owed := rest }) })
      let s1 := s.switchStage g.core g.slot st
      let s := match s1.group? g with | some x => if x.live.isEmpty then s else s1 | none => s
      match (s.group? g).map (fun x => (x, x.live)) with
      | some (x, l :: ls) =>
        let t := (x.lane l).tr
        let here := (l :: ls).filter (fun l => decide ((x.lane l).tr = t))
        s.stopAtHead g { tr with flanes := here } t here
      | _ => s

/-- Dispatch for a group that has no execution (R251): a halt that a debugger asked for, calls through bind tables, then the
choice. -/
def State.dispatch (s : State) (g : GRef) : State :=
  match s.team? g.core g.slot, s.group? g with
  | some tm, some grp =>
    if grp.exec.isSome then s
    else if grp.haltAsked ∧ grp.halt = .none then
      s.modGroup g (fun x => (x.haltFor .request).unpark (s.core g.core).cycles)
    else if !s.mayRun g tm grp then s
    else if (tm.fold.map (fun fo => !fo.owed.isEmpty)).getD false then s.takeStageTrap g tm
    else if grp.ready.any (fun l => (grp.lane l).bindCall.isSome) then s.resolveBinds g tm grp
    else
      let stages := stagesToTry tm grp
      (s.askGrant g grp).tryStages g (stages.headD 0) stages.length stages
  | _, _ => s

/-- TRACE_DISPATCH: the subject names the group. -/
def execTraceDispatch (s : State) : Host.Outcome State Fault Refusal := .next (s.dispatch s.subject.g)

/-- SCHED_MIGRATE: at an EP at which every live lane of the subject's group is pending, the scheduler parks the group for the kind
that R298 names; a refusal starts the trace in place. -/
def execSchedMigrate (s : State) : Host.Outcome State Fault Refusal :=
  let g := s.subject.g
  match s.team? g.core g.slot, s.group? g with
  | some tm, some grp =>
    if !s.mayRun g tm grp then .next s
    else match s.choose g tm grp with
      | .migrate t lcore => .next (s.parkGroup g t lcore)
      | _ => .next s
  | _, _ => .next s

/-- The event that a group's scheduler has due (log 4, DESIGN CHOICE): the release of held lanes, a fetch, or a dispatch. -/
def State.groupTurn (s : State) : Option (Instr × Subject) :=
  match s.focus with
  | none => none
  | some g =>
    match s.team? g.core g.slot, s.group? g with
    | some tm, some grp =>
      if s.releasable g then some (.requeueRelease, { g := g })
      else if s.mayRun g tm grp then
        match s.unfetched g (stagesToTry tm grp) with
        | some t => some (.traceFetch, { g := g, t := t })
        | none => some (.traceDispatch, { g := g })
      else some (.traceDispatch, { g := g })
    | _, _ => none

/-! ### Runs and arbitration (R135, R249) -/

/-- The issue slots of a core (R12, R13), the last of them reserved for its Plien agent (R249). -/
def issueSlots (core : Nat) : Nat := if isLcore core then 4 else 8

/-- The executions on a core that have still to issue their terminator, with their groups. -/
def State.runners (s : State) (core : Nat) : List (GRef × Group × Exec) :=
  (s.core core).teams.flatMap (fun (t : Nat × Team) => t.2.groups.zipIdx.filterMap (fun x =>
    x.1.exec.bind (fun e => if e.closing then none else some (⟨core, t.1, x.2⟩, x.1, e))))

/-- Whether a group wins a slot over another, both ready to begin a run (R249): the higher class, then the longer ready, then the lower
team slot, then the lower group number. -/
def outranks (a b : GRef × Group × Exec) : Bool :=
  let key (p : GRef × Group × Exec) : List Nat := [3 - p.2.1.curClass, p.2.2.ready, p.1.slot, p.1.grp]
  decide (key a < key b)

/-- The groups of a core ready by a cycle to begin a run. -/
def State.beginners (s : State) (core at_ : Nat) : List (GRef × Group × Exec) :=
  (s.runners core).filter (fun y => y.2.2.run == 0 && decide (y.2.2.ready ≤ at_))

/-- The groups of a core inside their runs: each has its slot until the run ends. -/
def State.inRuns (s : State) (core : Nat) : List (GRef × Group × Exec) := (s.runners core).filter (fun y => y.2.2.run != 0)

/-- The slots of a core that serve groups where one is at a run's boundary (R249, R452): where only the reserved slot would be left for it, the core's
agent wins that slot if it has a run ready, which a choice says (log 55, DESIGN CHOICE). -/
def State.groupSlots (s : State) (core used : Nat) : Nat × State :=
  if used + 1 = issueSlots core then
    match s.pick 2 with
    | (1, s) => (issueSlots core - 1, s)
    | (_, s) => (issueSlots core, s)
  else (issueSlots core, s)

/-- The group that issues where one is about to (R135, R249): a group inside its run goes on; one at a run's boundary goes on where a slot
is left for it, those that outrank it served first, and else the first of those does, or where no slot is free, a group inside its
run (log 55, DEDUCED). -/
def State.arbitrate (s : State) : State :=
  match s.standing with
  | none => s
  | some (g, _, grp, x) =>
    let ahead := (s.beginners g.core (max x.ready (s.core g.core).cycles)).filter (fun y => outranks y (g, grp, x))
    let busy := s.inRuns g.core
    if x.run ≠ 0 ∨ x.closing then s
    else
      let (slots, s) := s.groupSlots g.core busy.length
      if ahead.length + busy.length < slots then s
      else if busy.length < slots then
        match ahead with
        | [] => s
        | y :: ys => { s with focus := some (ys.foldl (fun b z => if outranks z b then z else b) y).1 }
      else match busy with
        | [] => s
        | y :: _ => { s with focus := some y.1 }

/-- Whether the package is still starting (R433): the boot engine has steps left and has not stopped. -/
def State.starting (s : State) : Bool := decide (s.boot.step ≤ 24) && !s.boot.halted

end Sys2Proof.Machine
end

