-- ==== Sys2Proof/Machine/AtomicEvents.lean ====
section
/-!
DEFINITION. What happens between commits: far atomics at their homes (R167 to R169, R278), returns and acquires (R169, R170), phase
boundaries (R273), barrier turns (R284), channel puts and credits (R280, R303). The order of these events is the agenda's, within the edges of
R271; releases and acquires are those of R275 and R276, and between them a view changes nowhere (R281).
-/
namespace Sys2Proof.Machine

/-! ### Scope tags (R277, R278) -/

/-- Whether an agent of scope `scope` has another agent inside that scope (R269): codes LANE, GROUP, TEAM, CORE, DIE, PACK and wider. `engine`
is 0 for a lane, 1 for an engine of a core, which is of no team, and 2 for a collective engine or near-memory unit, which is of the package
only; an agent of the peer with PACKID p has core number 4096 × (p + 1). A group and a team stay what they are where they are moved or restored,
and each scope contains the narrower ones. -/
def insideScope (scope : Nat) (p q : ScopeTag) : Bool :=
  let lanes := p.engine == 0 && q.engine == 0
  let inDie := p.engine != 2 && q.engine != 2
  let group := lanes && p.grp == q.grp
  let team := group || (lanes && p.team == q.team)
  let core := team || (inDie && p.core == q.core)
  let die := core || (inDie && dieOf p.core == dieOf q.core)
  match scope with
  | 0 => group && p.lane == q.lane
  | 1 => group
  | 2 => team
  | 3 => core
  | 4 => die
  | 5 => die || p.core / 4096 == q.core / 4096
  | _ => true

/-! ### Bind tables (R42) -/

/-- The entry of an object's bind table that a home key lies in (R40, R42) (log 43, DEDUCED). -/
def State.bindEntryAt (s : State) (ctx : Nat) (o : CodeObject) (key : Nat) : Option Nat :=
  if o.nbind = 0 then none
  else firstSome (fun j =>
    let page := (o.bindVa / 4096 + j) * 4096
    let r := s.walk ctx page
    let va := page + key % 4096
    if r.1 = 0 ∧ leafKey r.2.1 (placeIn r.2.1 r.2.2.2.1 page) / 4096 = key / 4096 ∧ o.bindVa ≤ va ∧ va < o.bindVa + 16 * o.nbind
    then some ((va - o.bindVa) / 16) else none) (upto ((o.bindVa % 4096 + 16 * o.nbind + 4095) / 4096))

/-- A .REL write that a home has performed in a registered bind-table range, whoever sent it, notifies the dies (R42). -/
def State.notifyBinds (s : State) (key : Nat) : State :=
  s.ctxs.foldl (fun s c => c.2.objects.foldl (fun s o => match s.bindEntryAt c.1 o.2 key with
    | some e => s.raiseTurn .bindNotify { a := c.1, b := o.1, c := e }
    | none => s) s) s

/-! ### ATOMIC_PERFORM (R169) -/

/-- A group owes a trap or a consumption, to be taken at its next head; one addressed to a dormant stage is the thread's, which keeps the
stage with it (R324). -/
def State.owe (s : State) (g : GRef) (tr : Trap) : State :=
  match s.team? g.core g.slot with
  | none => s
  | some t =>
    let num := ((t.groups[g.grp]?).map (·.num)).getD g.grp
    if t.folded ∧ (t.fold.map (·.thread)) ≠ some num then
      s.modChain g.core g.slot (fun u => { u with fold := u.fold.map (fun fo => { fo with owed := fo.owed ++ [(t.stageOf num, tr)] }) })
    else s.modGroup g (fun x => if x.live.isEmpty && !(t.banked num).any (fun p => p.2.live) then x else { x with owed := x.owed ++ [tr] })

/-- TSTAT.XSCOPE of the acquiring lane's team, resident or saved (R278). -/
def State.noteCross (s : State) (resident : Bool) (p : SentAtomic) : State :=
  if resident then s.modTeam p.g.core p.g.slot (fun t => t.setSticky .xscope)
  else s.modCtx p.ctx (fun c => { c with saved := c.saved.map (fun v =>
    if v.core = p.g.core ∧ v.slot = p.g.slot then { v with team := v.team.setSticky .xscope } else v) })

/-- An atomic has been performed, or will never be: it is outstanding no longer, and what waited for it goes on (R273, R347). -/
def State.atomicDone (s : State) (id : Nat) (p : SentAtomic) : State :=
  let s := { s with sent := tdel s.sent id }
  let s := s.modGroup p.g (fun x => { x with sent := x.sent.filter (fun a => a != id) })
  (s.runTasks p.g.core p.g.slot).tryBoundary p.g

/-- Perform an atomic at its home (R169, R278). A poisoned home block leaves it unperformed; its return is poisoned, and the group
that sent it consumes the error at its next head (R405) (log 52, DEDUCED). -/
def State.performAtomic (s : State) (id : Nat) (p : SentAtomic) : State :=
  let n := p.a.bytes
  let mine : Bool := ((s.team? p.g.core p.g.slot).map (·.ctx)) == some p.ctx
  let s := s.charge p.ctx p.home n
  match s.poisonAt p.home n with
  | some b =>
    let s := s.modGroup p.g (fun x => { x with returns := x.returns.map (fun r =>
      if r.id = id then { r with value := some 0#64, bank := some b.bank } else r) })
    (if mine then s.owe p.g ⟨256 + 4 * b.bank + 2, [p.lane], 0, 0⟩ else s).atomicDone id p
  | none =>
    let old := s.mem.readLE p.home n
    let acq : Bool := p.a.order == 1 || p.a.order == 3
    let rel : Bool := p.a.order == 2 || p.a.order == 3
    let cross : Bool := match s.tagAt p.home with
      | some t => !(insideScope t.scope t p.tag && insideScope p.a.scope p.tag t)
      | none => false
    let s := s.atomicWrite p.home n (p.a.result old)
    let s := if acq ∧ cross then s.noteCross mine p else s
    let s := if rel then s.tag p.home p.tag else s
    let s := s.setReturn p.g id (BitVec.ofNat 64 old)
    (if rel then s.notifyBinds p.home else s).atomicDone id p

/-- ATOMIC_PERFORM: the subject names a sent atomic as `a`; those it must follow have been performed (log 52, DEDUCED). -/
def execAtomicPerform (s : State) : Host.Outcome State Fault Refusal :=
  match tget s.sent s.subject.a with
  | some p => if p.after.all (fun a => (tget s.sent a).isNone) then .next (s.performAtomic s.subject.a p) else .next s
  | none => .next s

/-! ### Returns and acquires (R169, R170) -/

/-- Apply the oldest return of a lane that stands between traces (R170); a poisoned one poisons its registers. -/
def State.applyReturn (s : State) (g : GRef) (lane : Nat) : State :=
  match s.group? g with
  | none => s
  | some grp =>
    match grp.nextReturn lane with
    | none => s
    | some n =>
      match grp.returns[n]? with
      | none => s
      | some r =>
        match r.value with
        | none => s
        | some v =>
          if !s.laneLives g lane then s
          else
            let put (m : SMap 32) (d : Nat) (w : Word) : SMap 32 := sput m (lane * 256 + d) w
            let regs := put grp.regs r.dst (loWord v)
            let regs := if r.wide then put regs (r.dst + 1) (hiWord v) else regs
            let places : List Place := ⟨lane, .v r.dst⟩ :: (if r.wide then [⟨lane, .v (r.dst + 1)⟩] else [])
            let s := s.modGroup g (fun x => { x with regs := regs, returns := x.returns.eraseIdx n })
            let kept := s.regPoison.filter (fun q => !(q.g == g && places.contains q.place))
            { s with regPoison := match r.bank with | some b => places.map (fun q => ⟨g, q, b, 0⟩) ++ kept | none => kept }

/-- ATOMIC_RETURN: the subject names a group and, as `a`, a lane of it (log 52, DEDUCED). -/
def execAtomicReturn (s : State) : Host.Outcome State Fault Refusal := .next (s.applyReturn s.subject.g s.subject.a)

/-- ACQUIRE_COMPLETE: the acquires of lane `a` of the subject's group that have been performed hold it no longer (R169) (log 36, DEDUCED). -/
def execAcquireComplete (s : State) : Host.Outcome State Fault Refusal :=
  let g := s.subject.g
  let now := (s.core g.core).cycles
  .next (s.mapLanes g (fun n l =>
    if n = s.subject.a then
      let left := l.acquires.filter (fun a => (tget s.sent a).isSome)
      if l.acquires.isEmpty then l else { l with acquires := left, since := if left.isEmpty then now else l.since }
    else l))

/-- PHASE_BOUNDARY_COMPLETE: the subject names the group (R273). -/
def execPhaseBoundaryComplete (s : State) : Host.Outcome State Fault Refusal := .next (s.tryBoundary s.subject.g)

/-! ### Barriers (R284) -/

/-- The turn of a barrier (R284): PH is inverted and TP cleared. -/
def Barrier.turn (b : Barrier) : Barrier := { b with ph := !b.ph, tp := false, turnWaits := [] }

/-- BARRIER_TURN: the subject names a team and, as `a`, a barrier whose phase is complete and whose atomics have all been
performed. -/
def execBarrierTurn (s : State) : Host.Outcome State Fault Refusal :=
  let u := s.subject
  match s.team? u.g.core u.g.slot with
  | some t =>
    let b := t.bar u.a
    if b.tp && b.turnWaits.all (fun a => (tget s.sent a).isNone)
    then .next (s.modTeam u.g.core u.g.slot (fun t => { t with bars := tput t.bars u.a (t.bar u.a).turn })) else .next s
  | none => .next s

/-! ### Channels (R280, R303) -/

/-- CHANNEL_PUT_PERFORM: the subject names a team and, as `a`, a channel: its oldest pending put, whose atomics have all been
performed. A FROZEN channel's puts wait (R302) (log 36, DEDUCED). -/
def execChannelPutPerform (s : State) : Host.Outcome State Fault Refusal :=
  let u := s.subject
  match s.team? u.g.core u.g.slot with
  | some t =>
    match t.puts.findIdx? (fun p => p.chan == u.a) with
    | none => .next s
    | some n =>
      match t.puts[n]? with
      | none => .next s
      | some p =>
        if p.waits.all (fun a => (tget s.sent a).isNone) && !(t.chan u.a).frozen
        then .next ((s.modTeam u.g.core u.g.slot (fun t => { t with puts := t.puts.eraseIdx n })).performPut u.g.core u.g.slot p)
        else .next s
  | none => .next s

/-- CREDIT_RETURN: the subject names the consumer's team and, as `a`, its channel, which owes a credit (R303). -/
def execCreditReturn (s : State) : Host.Outcome State Fault Refusal :=
  let u := s.subject
  match s.team? u.g.core u.g.slot with
  | some t =>
    if (t.chan u.a).owed = 0 then .next s
    else
      let s' := s.modTeam u.g.core u.g.slot (fun t => t.modChan u.a (fun c => { c with owed := c.owed - 1 }))
      match s.remoteProducer u.g.core u.g.slot u.a with
      | some (c, sl, q) => .next (s'.modTeam c sl (fun t => t.modChan q (fun c => { c with credit := c.credit + 1 })))
      | none => .next s'
  | none => .next s

/-! ### Shadowed groups (R406 to R409) -/

/-- The meaning at issue of an opcode for a shadow: that of its own instruction. -/
def shadowBody (op : Nat) : Body :=
  if op = 0x06 then bodyGuard else if op = 0x07 then bodyAbort else bodyOf op

/-- The instruction at which an execution of a group stands, once more at issue: its operands were checked when the leading group met it, and every
result is read as produced, since a shadow trails (R406). -/
def issAt (s : State) (g : GRef) (tm : Team) (grp : Group) (y : Exec) : Option Iss :=
  match wordOf (decodeWord (s.encOf g) y.word) with
  | none => none
  | some (op, f) => match checkWord op.toNat f with
    | .error _ => none
    | .ok (r, o) => match relocateAll tm o with
      | .error _ => none
      | .ok o => some (makeIss s g tm grp y op.toNat f r o (s.core g.core).cycles false)

/-- What an instruction of a shadow gives: for one that loads, what the oldest entry of its pair in the load-value queue holds (R407). -/
def State.shadowResult (s : State) (g : GRef) (i : Iss) (c : Captured) : Option Res :=
  if loadsValue i.op then ((s.core g.core).ldq.find? (fun v => v.g == g)).map (fun v => { writes := v.values, effs := v.items })
  else match shadowBody i.op (i.served c) c.words with
    | .ok res => some res
    | .error _ => none

/-- The shadow execution after one more instruction (R406, R407): its own results and buffer take what the instruction gives, and the lanes that
the instruction sends away leave it. None where it does not do what the leading group did. -/
def State.follow (s : State) (g : GRef) (tm : Team) (grp : Group) (y : Exec) : Option Exec :=
  match issAt s g tm grp y with
  | none => none
  | some i =>
    let c := capture i
    (s.shadowResult g i c).map (fun res =>
      let z := afterIssue (i.served c) c y.word res
      let gone := (emptyLeave i c ++ res.leave).map (·.1)
      { z with here := z.here.filter (fun l => !gone.contains l), left := z.left ++ gone })

/-- An entry of a pair leaves the load-value queue (R407). -/
def dropFirst (g : GRef) : List LoadValue → List LoadValue
  | [] => []
  | v :: l => if v.g = g then l else v :: dropFirst g l

/-- One bit of CRC-64 with the polynomial of R408, most significant bit first, from zero (log 27, DESIGN CHOICE). -/
def crc64Bit (r : BitVec 64) (b : Bool) : BitVec 64 :=
  let out := r.getLsbD 63 != b
  if out then (r <<< 1) ^^^ 0x42F0E1EBA9EA3693#64 else r <<< 1

/-- CRC-64 of bytes (R408). -/
def crc64 (bs : List Byte) : BitVec 64 :=
  bs.foldl (fun r b => (upto 8).foldl (fun r k => crc64Bit r (b.getLsbD (7 - k))) r) 0#64

/-- A number as it enters a signature (log 27, DESIGN CHOICE). -/
def sigNum (n : Nat) : List Byte := toBytesLE 8 n

/-- A trace as it enters a signature. -/
def sigTrace (t : TRef) : List Byte := sigNum t.handle ++ sigNum t.kern ++ sigNum t.idx

/-- A register's number in a signature. -/
def sigReg : Reg → Nat
  | .v n => n
  | .t n => 256 + n
  | .k n => 512 + n
  | .p n => 768 + n
  | .sr => 1024

/-- A lane's effect in a signature (R408): nothing of an effect of another lane. -/
def sigEffect (l : Nat) : Effect → List Byte
  | .store m t a d k => if m = l then sigNum 1 ++ sigNum t ++ sigNum a ++ d ++ k else []
  | .accwr m a e v => if m = l then sigNum 2 ++ sigNum a ++ sigNum e ++ sigNum v.toNat else []
  | .atom m a => if m = l then sigNum 3 ++ [a.op, a.typ, a.scope, a.order, a.addr, a.space, a.value, a.cmp, (a.dst.map (· + 1)).getD 0].flatMap sigNum else []
  | .pop m q p => if m = l then sigNum 4 ++ sigNum q ++ sigNum p else []
  | .put q items => (items.filter (fun p => p.1 == l)).flatMap (fun p => sigNum 5 ++ sigNum q ++ toBytesLE 16 p.2)
  | .group _ _ => []

/-- A group effect's numbers in a signature (R408). -/
def sigGroup : GroupEff → List Nat
  | .keyset v => [1, v]
  | .csrw n h v => [2, n, b2n h, v]
  | .tdef t p f => [3, t, p, f]
  | .trel t => [4, t]
  | .tpost t => [5, t]
  | .treclaim t => [6, t]
  | .job card d => 7 :: d :: card.map (·.toNat)
  | .jobq h d => [8, h, d]
  | .jcancel h => [9, h]
  | .icinv a n => [10, a, n]
  | .mxgo t o => [11, t, o]
  | .mxstop => [12]
  | .taskadd ls => 13 :: ls.flatMap (fun p => [p.1, p.2.1, p.2.2.1, p.2.2.2])
  | .taskdone => [14]
  | .qtail os => 15 :: os.flatMap (fun p => [p.1, p.2.1, p.2.2])
  | .qroom os d => 16 :: d :: os.flatMap (fun p => [p.1, p.2])
  | .wake os => 17 :: os.flatMap (fun p => [p.1, p.2])
  | .barArrive b c => [18, b, c]
  | .barSync b c => [19, b, c]
  | .barInit b c => [20, b, c]
  | .phase k => [21, k]
  | .migrate e a l => [22, e.handle, e.kern, e.idx, a.handle, a.kern, a.idx, b2n l]
  | .chainFold => [23]
  | .chainSpread => [24]
  | .rett a r => [25, b2n a] ++ (match r with | some t => [t.handle, t.kern, t.idx] | none => [])
  | .containOpen h => [26, h]
  | .containClose => [27]
  | .halt => [28]

/-- Where a lane that passes goes, in a signature. -/
def sigSucc : Succ → List Byte
  | .trace t => sigNum 1 ++ sigTrace t
  | .bindTable e => sigNum 2 ++ sigNum e
  | .retire => sigNum 3

/-- The alternative of a lane that left at a GUARD or ABORT (R255, R408): the trace that the first one to send it away names. -/
def alternative (e : Enc) (x : Exec) (l : Nat) : Nat :=
  (firstSome (fun (i : Issued) => match wordOf (decodeWord e i.word) with
    | some (op, f) =>
      if (op = 0x06#8 ∧ !i.mask.contains l) ∨ (op = 0x07#8 ∧ i.mask.contains l) then some (immField f % 2 ^ 17) else none
    | none => none) x.issued.reverse).getD 0

/-- The signature of an execution at its terminator (R408): for every lane that started it, in ascending number, whether it passes, its successor or
alternative, and its effects; then the group effects (log 27, DESIGN CHOICE). -/
def signature (e : Enc) (x : Exec) (succ : Nat → Succ) : BitVec 64 :=
  let passing := passingOf x x.here
  let lane (l : Nat) : List Byte :=
    sigNum l ++ (if passing.contains l then sigNum 1 ++ sigSucc (succ l) else sigNum 0 ++ sigNum (if x.left.contains l then alternative e x l + 1 else 0))
      ++ (allWrites x).flatMap (fun w => if w.1.lane = l ∧ !w.1.isK then sigNum (sigReg w.1.reg) ++ sigNum w.2.toNat else [])
      ++ x.buf.flatMap (fun b => sigEffect l b.eff)
  crc64 (x.started.flatMap lane
    ++ (allWrites x).flatMap (fun w => if w.1.isK then sigNum (sigReg w.1.reg) ++ sigNum w.2.toNat else [])
    ++ x.buf.flatMap (fun b => match b.eff with | .group ls e => (sigGroup e ++ ls).flatMap sigNum | _ => []))

/-- The terminator's meaning that an opcode selects. -/
def termOf (op : Nat) : TermBody :=
  match op with
  | 0x02 => bodyEnd
  | 0x03 => bodyEndSel
  | 0x04 => bodyEndInd
  | 0xD8 => bodyMigrate
  | _ => bodyRetire

/-- The signature of an execution that stands at its terminator; none where its terminator would stop it. -/
def State.signatureAt (s : State) (g : GRef) (tm : Team) (grp : Group) (x : Exec) : Option (BitVec 64) :=
  match issAt s g tm grp x with
  | none => none
  | some i =>
    let c := capture i
    match termOf i.op (i.served c) c.words with
    | .ok (succ, _) => some (signature (s.encOf g) { x with buf := x.buf ++ c.pops.map (fun e => ⟨x.off, e⟩) } succ)
    | .error _ => none

/-- Both executions of a pair are discarded (R408, R255): every lane that started goes back to the head, but for those that an empty channel
already holds there. -/
def State.discardPair (s : State) (g : GRef) (x : Exec) : State :=
  let now := max x.ready (s.core g.core).cycles
  (s.dropExec g).modGroup g (fun y => y.modLanes x.started (fun l =>
    if l.held.isSome ∧ l.tr = x.tr then l else { l with tr := x.tr, since := now, held := none, bindCall := none }))

/-- A mismatch (R408, R409): the pair runs the trace again, once; a second mismatch in a row is consumed with SDC_DETECTED. Bank 15 records the first
as corrected and the second as not (log 27, DEDUCED). -/
def State.mismatch (s : State) (g : GRef) (grp : Group) (x : Exec) : State :=
  if grp.reruns = 0 then ((s.recordError 15 9 g.core false false).discardPair g x).modGroup g (fun y => { y with reruns := 1 })
  else ((s.recordError 15 9 g.core true false).modGroup g (fun y => { y with reruns := 0 })).consume g 317 true

/-- SHADOW_COMPARE: the subject names a shadowed group, whose shadow goes one instruction further in the trace; where it has reached the terminator
at which the leading commit is held, their signatures are compared, and if they agree the commit is released (R406 to R409). `ok` is false where an
upset of either of the two makes them differ, which the machine has no other reason to (log 27, DESIGN CHOICE). -/
def execShadowCompare (s : State) : Host.Outcome State Fault Refusal :=
  let g := s.subject.g
  match s.team? g.core g.slot, s.group? g with
  | some tm, some grp =>
    match grp.exec, grp.trail with
    | some x, some y =>
      if !grp.shadow then .next s
      else if !s.subject.ok then .next (s.mismatch g grp x)
      else if y.off < x.off then
        match s.follow g tm grp y with
        | some z => .next ((s.modCore g.core (fun k => { k with ldq :=
            if (match wordOf (decodeWord (s.encOf g) y.word) with | some (op, _) => loadsValue op.toNat | none => false) then dropFirst g k.ldq else k.ldq })).modGroup g
            (fun v => { v with trail := some z }))
        | none => .next (s.mismatch g grp x)
      else if !x.closing ∨ x.compared then .next s
      else if s.signatureAt g tm grp x = s.signatureAt g tm grp y then
        .next (s.modGroup g (fun v => { v with exec := some { x with compared := true }, reruns := 0 }))
      else .next (s.mismatch g grp x)
    | _, _ => .next s
  | _, _ => .next s

/-- Whether a group's shadow has something to do: it is behind, or the leading commit waits for it (R408). -/
def State.shadowDue (s : State) (g : GRef) : Bool :=
  match s.group? g with
  | some grp => grp.shadow && (match grp.exec, grp.trail with
    | some x, some y => decide (y.off < x.off) || (x.closing && !x.compared)
    | _, _ => false)
  | none => false

/-- Whether a group issues now and not its shadow: where that is due, a choice says so (R406, log 27, DESIGN CHOICE). -/
def State.leadFirst (s : State) (g : GRef) : Bool × State :=
  if s.shadowDue g then (match s.pick 2 with | (n, t) => (n == 1, t)) else (true, s)

end Sys2Proof.Machine
end

