-- ==== Sys2Proof/Machine/Engines.lean ====
section
/-!
DEFINITION. The elements of jobs (R35, R36, R55, R56, R68, R71, R76, R81, R91): the bytes each side names, the checks in their
order, and the copy.
-/
namespace Sys2Proof.Machine

/-! ### The bytes an element names -/

/-- A piece of an element's side: its key and bytes, and FMT and GEOM of its page or tile; the bytes before it in that page or tile, and
the bytes of the page or tile (0 where it stands for itself); and of a page, that it is one, its first address and its TIER. -/
structure Seg where
  key : Nat
  n : Nat
  fmt : Nat
  geom : Nat
  before : Nat := 0
  page : Nat := 0
  paged : Bool := false
  base : Nat := 0
  tier : Nat := 0
  deriving DecidableEq, Repr

/-- What naming a side gives: its pieces; a cause, the tier, the address as named and the pieces before it; or a wait. -/
inductive Side where
  | ok (l : List Seg)
  | fail (cause tier va : Nat) (seen : List Seg)
  | wait
  deriving DecidableEq, Repr

/-- FMT and GEOM of the first of some pieces. -/
def segForm (l : List Seg) : Nat × Nat := match l with | g :: _ => (g.fmt, g.geom) | [] => (0, 0)

/-- The pages that pieces have been translated on: first address and size (R43). -/
def pagesOfSegs (l : List Seg) : List (Nat × Nat) := ((l.filter (·.paged)).map (fun g => (g.base, g.page))).eraseDups

/-- The cached translation that a core or its die holds for an access, whatever the access may do with it (R30). -/
def heldFor (a : Access) (l : List TlbEntry) : Option TlbEntry :=
  l.find? (fun e => e.ctx == a.ctx && decide (e.page ≤ a.va ∧ a.va < e.page + e.size))

/-- The cached translation of an address, after it has been used (R30). -/
def State.pageOf (s : State) (a : Access) : Nat × Nat :=
  match (heldFor a (s.core a.core).tlb).or (heldFor a (s.die (dieOf a.core)).tlb) with
  | some e => (e.page, e.size)
  | none => (a.va / 4096 * 4096, 4096)

/-- Translate a range page by page (R25); the first page that fails decides. -/
def State.translateRange (s : State) (a : Access) (n : Nat) : Nat → Nat → List Seg → Side × State
  | 0, _, acc => (.ok acc, s)
  | fuel + 1, done, acc =>
    if n ≤ done then (.ok acc, s)
    else
      let va := a.va + done
      let k := min (n - done) (4096 - va % 4096)
      match s.translate { a with va := va } with
      | (.ok key leaf, s) =>
        let (page, size) := s.pageOf { a with va := va }
        s.translateRange a n fuel (done + k) (acc ++ [⟨key, k, leafFmt leaf, leafGeom leaf, va - page, size, true, page, leafTier leaf⟩])
      | (.fail c tier, s) => (.fail c tier va acc, s)
      | (.wait _, s) => (.wait, s)

/-- A tile of a team as one piece, from a byte on. -/
def tileSeg (core : Nat) (t : Tile) (off n : Nat) : Seg :=
  { key := sliceKey core (t.start + off), n := n, fmt := t.fmt.toNat, geom := t.geom.toNat, before := off, page := t.bytes }

/-- The parts of a range of global slice addresses: each core, and the range of its slice (R83, R84). -/
def sliceParts (a n : Nat) : List (Nat × Nat × Nat) :=
  (upto ((a + n - 1) / 2 ^ 21 - a / 2 ^ 21 + 1)).map (fun k =>
    let core := a / 2 ^ 21 + k
    (core, max a (core * 2 ^ 21) - core * 2 ^ 21, min (a + n) ((core + 1) * 2 ^ 21) - core * 2 ^ 21))

/-- The pieces of a range of a core's slice: one for each tile it meets; bytes of no tile are raw. -/
def State.slicePieces (s : State) (core hi : Nat) : Nat → Nat → List Seg
  | 0, _ => []
  | fuel + 1, lo =>
    if hi ≤ lo then []
    else match s.tileAt core lo with
      | none => [{ key := sliceKey core lo, n := hi - lo, fmt := 0, geom := 0 }]
      | some (slot, n) =>
        let t := ((s.team? core slot).map (fun t => t.tile n)).getD {}
        let up := max (lo + 1) (min hi (t.start + t.bytes))
        { key := sliceKey core lo, n := up - lo, fmt := t.fmt.toNat, geom := t.geom.toNat, before := lo - t.start, page := t.bytes }
          :: s.slicePieces core hi fuel up

/-- An access of an element of a job: under the KEYPERM of its release (R35). Its action stands as element 65535 (R77). -/
def Job.access (j : Job) (elem va acc : Nat) : Access :=
  { core := j.core, who := asks 3 j.order elem, ctx := j.ctx, va := va, acc := acc, keyperm := j.keyperm, shadowed := j.shadowed }

/-- The bytes of an operand field's side that an element names, from an offset on (R68, R84). -/
def State.sideOf (s : State) (j : Job) (tm : Team) (e v off n acc : Nat) : Side × State :=
  match opSpace v with
  | 0 => s.translateRange (j.access e (opValue v + off) acc) n (n / 4096 + 2) 0 []
  | 1 => (.ok [tileSeg j.core (tm.tile (opValue v % 64)) off n], s)
  | _ =>
    (.ok ((sliceParts (opValue v + off) n).flatMap (fun p => s.slicePieces p.1 p.2.2 128 p.2.1)), s)

/-! ### Footprints and other teams' tiles (R71, R91) -/

/-- Whether regions cover a range, byte by byte, starting from a position (R71). -/
def regionsCover (rs : List Region) (sp w : Bool) (hi : Nat) : Nat → Nat → Bool
  | 0, lo => decide (hi ≤ lo)
  | fuel + 1, lo =>
    if hi ≤ lo then true
    else match rs.find? (fun r => r.sp == sp && (!w || r.w) && decide (r.lo ≤ lo) && decide (lo < r.hi)) with
      | some r => regionsCover rs sp w hi fuel r.hi
      | none => false

/-- The tiles of a core that a range of its slice overlaps: slot, tile, descriptor. -/
def State.tilesOver (s : State) (core lo hi : Nat) : List (Nat × Nat × Tile) :=
  (s.core core).teams.flatMap (fun p => (p.2.tiles.filter (fun t =>
    decide (t.2.state ≠ .undef) && decide (t.2.start < hi) && decide (lo < t.2.start + t.2.bytes))).map (fun t => (p.1, t.1, t.2)))

/-- Whether a range of a core's slice lies in tiles byte by byte. -/
def State.inTiles (s : State) (core hi : Nat) : Nat → Nat → Bool
  | 0, lo => decide (hi ≤ lo)
  | fuel + 1, lo =>
    if hi ≤ lo then true
    else match s.tileAt core lo with
      | none => false
      | some (slot, n) =>
        let t := ((s.team? core slot).map (fun t => t.tile n)).getD {}
        s.inTiles core hi fuel (max (lo + 1) (t.start + t.bytes))

/-- The SP 1 regions of a card, as core and slice offsets: a region that reaches into further slices has a part on each. -/
def sliceRegions (c : Card) : List (Region × Nat × Nat × Nat) :=
  ((c.fps.filterMap regionOf).filter (·.sp)).flatMap (fun r => (sliceParts r.lo (r.hi - r.lo)).map (fun p => (r, p)))

/-- Whether a region lies wholly in tiles (R91). -/
def State.regionTiled (s : State) (r : Region × Nat × Nat × Nat) : Bool := s.inTiles r.2.1 r.2.2.2 128 r.2.2.1

/-- The parts of a range that lie outside some others. -/
def outside (l : List (Nat × Nat)) (tiles : List (Nat × Nat)) : List (Nat × Nat) :=
  tiles.foldl (fun l t => l.flatMap (fun r =>
    ([(r.1, min r.2 t.1), (max r.1 t.2, r.2)]).filter (fun x => decide (x.1 < x.2)))) l

/-- The cause of a side that is out of range (R84), or that the footprints or other teams' tiles forbid (R71, R91). Bytes of the job's own
team's tiles need no region. A region with W = 1 may be read too (R69): another team's tile is read where the job has counted or claimed it. Of
an SP 1 region that touches bytes in no tile, R91 does not say which elements fail: those do whose bytes outside the team's own tiles meet the
region (log 56, DESIGN CHOICE). -/
def State.reachFault (s : State) (j : Job) (c : Card) (v off n : Nat) (w : Bool) : Option Nat :=
  let miss := some (engCause j.core 3)
  let regions := c.fps.filterMap regionOf
  match opSpace v with
  | 0 => if regionsCover regions false w (opValue v + off + n) 5 (opValue v + off) then none else miss
  | 1 => none
  | _ =>
    let a := opValue v + off
    let parts := sliceParts a n
    if parts.any (fun p => s.sliceRange (p.1 * 2 ^ 21 + p.2.1) || s.sliceRange (p.1 * 2 ^ 21 + p.2.2 - 1)) then some 146
    else
      let met := parts.flatMap (fun p => (s.tilesOver p.1 p.2.1 p.2.2).map (fun t => (p.1, t)))
      let mine (t : Nat × Nat × Nat × Tile) : Bool := t.1 == j.core && t.2.1 == j.slot
      let span (t : Nat × Nat × Nat × Tile) : Nat × Nat := (t.1 * 2 ^ 21 + t.2.2.2.start, t.1 * 2 ^ 21 + t.2.2.2.start + t.2.2.2.bytes)
      let foreign := outside [(a, a + n)] ((met.filter mine).map span)
      if !foreign.all (fun r => regionsCover regions true w r.2 5 r.1) then miss
      else if foreign.any (fun x => (sliceRegions c).any (fun r => decide (r.1.lo < x.2) && decide (x.1 < r.1.hi) && !s.regionTiled r)) then miss
      else
        let held (l : List (Nat × Nat)) : Bool := (met.filter (fun t => !mine t)).all (fun t => l.contains (t.1, t.2.1 * 64 + t.2.2.1))
        if w then (if held j.claimed then none else some (engCause j.core 4))
        else (if held (j.counted ++ j.claimed) then none else some (engCause j.core 5))

/-! ### Blocks and spare bits (R55, R56) -/

/-- Whether a piece of a page breaks R55: the access's first byte must start a block, and no byte may lie in the padding. R55 does not say
which access names a block: the first byte of a linear job, and of each item of a GATHER or SCATTER, does; where a transfer ends, and a
tile with blocks reached through SPACE 2, are not checked (log 56, DESIGN CHOICE). -/
def Seg.blockBad (g : Seg) (first : Bool) : Bool :=
  if g.geom = 0 ∨ !g.paged ∨ 6 ≤ g.geom then false
  else
    let b := blockBytes g.fmt g.geom
    (first && g.before % b != 0) || decide (g.page / b * b < g.before + g.n)

/-- Translate an access of an engine's agent to `n` bytes of one page (R25): one that reaches into the padding of a page with blocks fails
BLOCK_ALIGN (R55). It names no block (log 56, DESIGN CHOICE). -/
def State.translateBytes (s : State) (a : Access) (n : Nat) : Translated × State :=
  match s.translate a with
  | (.ok key leaf, s) =>
    let (page, size) := s.pageOf a
    let g : Seg := { key := key, n := n, fmt := leafFmt leaf, geom := leafGeom leaf, before := a.va - page, page := size, paged := true }
    if g.blockBad false then (.fail 145 (leafTier leaf), s) else (.ok key leaf, s)
  | r => r

/-- The words of a W format that a piece of a page or tile overlaps: the place of each from its start, and its used bits. -/
def Seg.words (g : Seg) : List (Nat × Nat) :=
  let p := perWord g.fmt
  let w := fmtWidth g.fmt
  if g.geom = 0 then (upto ((g.before % 16 + g.n + 15) / 16)).map (fun k => (g.before / 16 * 16 + 16 * k, p * w))
  else
    let (gk, gn) := geomShape g.geom
    let b := blockBytes g.fmt g.geom
    let words := (gk * gn + p - 1) / p
    let first := g.before / b
    (upto ((g.before % b + g.n + b - 1) / b)).flatMap (fun j => (upto words).map (fun k =>
      ((first + j) * b + gk + gn + 16 * k, (if k + 1 = words then gk * gn - k * p else p) * w)))

/-- Whether a W word under a piece has a spare bit or an unused slot set (R56). -/
def State.spareFault (s : State) (g : Seg) : Bool :=
  isW g.fmt && g.page != 0 && g.words.any (fun x => s.mem.readLE (g.key - g.before + x.1) 16 / 2 ^ x.2 != 0)

/-- What is wrong with some pieces (R77): the cause, the TIER of the leaf of the piece at fault, and the offset of its first byte from the
first byte of all. -/
structure SegFault where
  cause : Nat
  tier : Nat
  off : Nat
  deriving DecidableEq, Repr

/-- The first piece that fails a test. -/
def faultIn (l : List Seg) (cause : Nat) (bad : Seg → Nat → Bool) : Option SegFault :=
  (l.zipIdx.find? (fun g => bad g.1 g.2)).map (fun g => ⟨cause, g.1.tier, ((l.take g.2).map (·.n)).sum⟩)

/-- The fault of FMT and GEOM of a load's pieces (R36, R51, R55): `ref` is the format of the job's first page
(log 24, DEDUCED). -/
def formFault (ref : Nat × Nat) (first : Bool) (l : List Seg) : Option SegFault :=
  (faultIn l 144 (fun g _ => (g.fmt, g.geom) != ref)).or ((faultIn l 154 (fun g _ => !pairOk g.fmt g.geom)).or
    (faultIn l 145 (fun g i => g.blockBad (first && i == 0))))

/-- The fault of a load's pieces (R36, R51, R55, R56). -/
def State.loadFault (s : State) (ref : Nat × Nat) (first : Bool) (l : List Seg) : Option SegFault :=
  (formFault ref first l).or (faultIn l 153 (fun g _ => s.spareFault g))

/-- The fault of a store of a tile of a format to its pieces (R36, R55) (log 24, DEDUCED). -/
def storeFault (fmt geom : Nat) (first : Bool) (l : List Seg) : Option SegFault :=
  (faultIn l 144 (fun g _ => g.paged && !(g.fmt == fmt && g.geom == geom) && !(g.fmt == 0 && g.geom == 0))).or
    (faultIn l 145 (fun g i => g.blockBad (first && i == 0)))

/-! ### The copy (R76, R81, R405) -/

/-- The granule of a key's storage (R404): 8 bytes of a slice, else 64. -/
def granuleOf (key : Nat) : Nat := if memKey .slice 0 ≤ key then 8 else 64

/-- Poison the granules that a range overlaps (R404, R405). -/
def State.poisonRange (s : State) (key n bank : Nat) : State :=
  let g := granuleOf key
  (upto ((key % g + n + g - 1) / g)).foldl (fun s k => s.setPoison (key / g * g + g * k) g bank) s

/-- The poisoned spans of a range: offset, bytes and bank. -/
def State.poisonIn (s : State) (key n : Nat) : List (Nat × Nat × Nat) :=
  s.poison.filterMap (fun p =>
    let lo := max key p.key
    let hi := min (key + n) (p.key + p.size)
    if lo < hi then some (lo - key, hi - lo, p.bank) else none)

/-- The bytes of pieces, in order. -/
def State.gatherBytes (s : State) (l : List Seg) : List Byte := l.flatMap (fun g => s.mem.readBytes g.key g.n)

/-- The poisoned spans of pieces, from the first byte of all. -/
def State.gatherPoison (s : State) : List Seg → Nat → List (Nat × Nat × Nat)
  | [], _ => []
  | g :: l, at_ => (s.poisonIn g.key g.n).map (fun p => (at_ + p.1, p.2)) ++ s.gatherPoison l (at_ + g.n)

/-- Write bytes over pieces, in order. -/
def State.scatterBytes (s : State) : List Seg → List Byte → State
  | [], _ => s
  | g :: l, bs => (s.store g.key (bs.take g.n)).scatterBytes l (bs.drop g.n)

/-- Poison what the poisoned spans become at their destination. -/
def State.scatterPoison (s : State) : List Seg → Nat → List (Nat × Nat × Nat) → State
  | [], _, _ => s
  | g :: l, at_, ps =>
    (ps.foldl (fun s p =>
      let lo := max at_ p.1
      let hi := min (at_ + g.n) (p.1 + p.2.1)
      if lo < hi then s.poisonRange (g.key + (lo - at_)) (hi - lo) p.2.2 else s) s).scatterPoison l (at_ + g.n) ps

/-- Bytes that fall into the overlap of a job's own two sides hold free values (R81, log 12, DESIGN CHOICE): `read` are the ranges of keys
that the job reads. -/
def freeOver (free : Nat) (read : List (Nat × Nat)) : Nat → List Byte → List Byte
  | _, [] => []
  | k, b :: l => (if read.any (fun r => decide (r.1 ≤ k ∧ k < r.2)) then Config.freeByte free else b) :: freeOver (free + 1) read (k + 1) l

/-- The bytes that pieces take, with free values where they overlap what the job reads. -/
def freeSegs (read : List (Nat × Nat)) : Nat → List Seg → List Byte → List Byte
  | _, [], _ => []
  | free, g :: l, bs => freeOver free read g.key (bs.take g.n) ++ freeSegs read (free + g.n) l (bs.drop g.n)

/-- Whether pieces meet a range of keys. -/
def segsMeet (read : List (Nat × Nat)) (l : List Seg) : Bool := l.any (fun g => read.any (fun r => decide (r.1 < g.key + g.n ∧ g.key < r.2)))

/-- Write a job's bytes over pieces: `read` are the ranges of keys that the job reads (R81). -/
def State.writeSegs (s : State) (l : List Seg) (read : List (Nat × Nat)) (bs : List Byte) : State :=
  if segsMeet read l then { s.scatterBytes l (freeSegs read s.free l bs) with free := s.free + bs.length } else s.scatterBytes l bs

/-- An engine that stores to a page or tile of a W format writes zero into the spare bits and unused slots of its words (R56) (log 43, DEDUCED). -/
def State.clearSpares (s : State) (g : Seg) : State :=
  if isW g.fmt && g.page != 0 then
    g.words.foldl (fun s x =>
      let lo := max g.before x.1
      let hi := min (g.before + g.n) (x.1 + 16)
      let key := g.key - g.before + lo
      if lo < hi then s.storeLE key (hi - lo) (s.mem.readLE key (hi - lo) % 2 ^ (x.2 - 8 * (lo - x.1))) else s) s
  else s

/-- Copy pieces to pieces. `read` are the ranges of slice keys that the job reads, where its sides could meet. -/
def State.copySegs (s : State) (src dst : List Seg) (read : List (Nat × Nat)) : State :=
  let ps := s.gatherPoison src 0
  (dst.foldl State.clearSpares (s.writeSegs dst read (s.gatherBytes src))).scatterPoison dst 0 ps

/-- A piece as it is stored to: a tile takes FMT and GEOM of what fills it (R36, R89), and its spare bits are those (R56). -/
def Seg.filled (form : Nat × Nat) (g : Seg) : Seg := if g.paged then g else { g with fmt := form.1, geom := form.2 }

/-! ### An element's outcome (R43, R76 to R78) -/

/-- Every element of the job has been attempted in this pass, or performed. -/
def Job.passOver (j : Job) : Bool := (upto j.elems).all (fun e => bit (j.mask ||| j.tried) e)

/-- Whether every element has been performed. -/
def Job.full (j : Job) : Bool := (upto j.elems).all (fun e => bit j.mask e)

/-- Whether an element of the present pass has translated the page that begins at a 4 KiB frame (R43). -/
def Job.passedPage (j : Job) (frame : Nat) : Bool := j.passed.any (fun p => decide (p.1 ≤ frame * 4096 ∧ frame * 4096 < p.1 + p.2))

/-- The counts of a pass that has ended (R43): a page on which some element faulted and that none passed counts one more; every
other page counts from 0 again (log 43, DEDUCED). -/
def Job.countPass (j : Job) : Table Nat :=
  (j.faulted.eraseDups.filter (fun p => !j.passedPage p)).foldl (fun t p => tput t p ((tget j.passes p).getD 0 + 1)) []

/-- After an element has been attempted: the pass ends when none is left, and the job is then PARTIAL unless its mask is full
(R78). -/
def Job.afterElement (j : Job) : Job :=
  if j.passOver ∧ !j.full then { j with state := .partialDone, passes := j.countPass, faulted := [], passed := [] } else j

/-- An element has been performed (R76). -/
def State.elementDone (s : State) (d n e : Nat) (pages : List (Nat × Nat)) (fmt : Option (Nat × Nat)) : State :=
  s.modJob d n (fun j =>
    { j with mask := j.mask ||| (1 <<< e), tried := j.tried ||| (1 <<< e), passed := j.passed ++ pages, fmt := j.fmt.or fmt,
             causes := tdel j.causes e }.afterElement)

/-- An element is left unfinished (R76): one record is posted, with REPLAY_LOOP in the eighth pass on one page (R43); the pages it had
translated count as passed. A page is counted by the 4 KiB frame at which it begins (R21). -/
def State.elementFails (s : State) (d n : Nat) (j : Job) (e srck cause tier acc va : Nat) (seen : List (Nat × Nat)) : State :=
  let page := (s.pageAt j.ctx va).1 / 4096
  let j := { j with passed := j.passed ++ seen }
  let count := (tget j.passes page).getD 0
  let absent : Bool := cause == 134
  let cause := if absent ∧ 7 ≤ count ∧ !j.passedPage page then 155 else cause
  let s := s.modJob d n (fun j =>
    { j with passed := j.passed ++ seen, tried := j.tried ||| (1 <<< e), faulted := if absent then page :: j.faulted else j.faulted, causes := tput j.causes e cause,
             records := j.records + s.recordRoom d }.afterElement)
  s.postRecord d { cause := cause, srck := srck, ctx := j.ctx, job := handleOf d n j.gen, va := va, elem := e, acc := acc, tier := tier,
                   refault := min 7 count, core := j.core }

/-- The part of a linear card that element `e` moves (R76): the offset of its first byte and its bytes. -/
def elementSpan (c : Card) (e : Nat) : Nat × Nat :=
  let len := c.count * 256
  match memorySide c with
  | some v =>
    let a := opValue v
    let lo := max a ((a / 65536 + e) * 65536)
    let hi := min (a + len) ((a / 65536 + e + 1) * 65536)
    (lo - a, hi - lo)
  | none => (e * 65536, min 65536 (len - e * 65536))

/-- The slice keys of a side: none where it is no slice. -/
def sliceSide (j : Job) (tm : Team) (v n : Nat) : List (Nat × Nat) :=
  match opSpace v with
  | 1 => let k := sliceKey j.core (tm.tile (opValue v % 64)).start; [(k, k + n)]
  | 2 => let k := memKey .slice (opValue v); [(k, k + n)]
  | _ => []

/-- Operand field `e` of the index tile or list of a GATHER or SCATTER (R68). -/
def State.indexField (s : State) (j : Job) (tm : Team) (c : Card) (e : Nat) : Nat :=
  s.mem.readLE (sliceKey j.core ((tm.tile (opValue c.src % 64)).start + 8 * e)) 8

/-- The slice keys that a job reads (R81): its source; of a GATHER, its index tile and every place that names; of a SCATTER, its list and
elements. -/
def State.readSide (s : State) (j : Job) (tm : Team) (c : Card) : List (Nat × Nat) :=
  if linearKind c.kind then sliceSide j tm c.src (c.count * 256)
  else if c.kind = 5 then sliceSide j tm c.src (c.count * 8) ++ (upto c.count).flatMap (fun e => sliceSide j tm (s.indexField j tm c e) (eszBytes c.esz))
  else sliceSide j tm c.src (c.count * (8 + eszBytes c.esz))

/-- The format of the first page of a job's source (R36): what an element has found, else its page's own leaf. -/
def State.refFormat (s : State) (j : Job) (v : Nat) (here : Nat × Nat) : Nat × Nat :=
  match j.fmt with
  | some f => f
  | none =>
    if opSpace v = 0 then match s.leafOf j.ctx (opValue v) with
      | some l => (leafFmt l, leafGeom l)
      | none => here
    else here

/-- Move bytes from one operand to another as an element (R76): the checks of R68, R71, R91, R25, R36, R55 and R56 in this order
(log 24, DEDUCED), then the copy. `load` says that the source is the memory side; `first` that the element holds the job's first byte. -/
def State.moveElement (s : State) (d n : Nat) (j : Job) (tm : Team) (c : Card) (e : Nat) (src dst : Nat) (soff doff len : Nat)
    (first : Bool) : State :=
  let fail (s : State) (cause tier acc va : Nat) (seen : List Seg) : State :=
    s.elementFails d n j e 0 cause tier acc va (pagesOfSegs seen)
  match s.reachFault j c src soff len false with
  | some k => fail s k 0 0 (src + soff) []
  | none =>
    match s.reachFault j c dst doff len true with
    | some k => fail s k 0 1 (dst + doff) []
    | none =>
      match s.sideOf j tm e src soff len 0 with
      | (.fail k tier va seen, s) => fail s k tier 0 va seen
      | (.wait, s) => s
      | (.ok from_, s) =>
        match s.sideOf j tm e dst doff len 1 with
        | (.fail k tier va seen, s) => fail s k tier 1 va (from_ ++ seen)
        | (.wait, s) => s
        | (.ok into, s) =>
          let here := segForm from_
          let bad := if opSpace src = 1 then none else s.loadFault (s.refFormat j src here) first from_
          match bad with
          | some k => fail s k.cause k.tier 0 (src + soff + k.off) (from_ ++ into)
          | none =>
            match storeFault here.1 here.2 first into with
            | some k => fail s k.cause k.tier 1 (dst + doff + k.off) (from_ ++ into)
            | none =>
              ((from_ ++ into).foldl (fun s g => s.charge j.ctx g.key g.n) (s.copySegs from_ (into.map (Seg.filled here)) (s.readSide j tm c))).elementDone d n e
                (pagesOfSegs (from_ ++ into)) (some here)

/-- Element `e` of a linear card (R76) (log 24, DEDUCED). -/
def State.linearElement (s : State) (d n : Nat) (j : Job) (tm : Team) (c : Card) (e : Nat) : State :=
  let (off, len) := elementSpan c e
  s.moveElement d n j tm c e c.src c.dst off off len (off == 0)

/-- The cause of an operand field in an index tile or list, checked when its element starts (R68) (log 24, DEDUCED). -/
def State.indexFault (s : State) (core v : Nat) : Option Nat :=
  if opSpace v = 1 then some (engCause core 1)
  else if opSpace v = 2 ∧ s.sliceRange (opValue v) then some 146
  else operandFault core v

/-- Element `e` of a GATHER: the operand field at index `e` of the index tile names its bytes (R68, R76) (log 24, DEDUCED). -/
def State.gatherElement (s : State) (d n : Nat) (j : Job) (tm : Team) (c : Card) (e : Nat) : State :=
  let v := s.indexField j tm c e
  match s.indexFault j.core v with
  | some k => s.elementFails d n j e 0 k 0 0 v []
  | none => s.moveElement d n j tm c e v c.dst 0 (e * eszBytes c.esz) (eszBytes c.esz) true

/-- Element `e` of a SCATTER: operand field `e` of the list names where element `e` goes (R68, R76) (log 24, DEDUCED). -/
def State.scatterElement (s : State) (d n : Nat) (j : Job) (tm : Team) (c : Card) (e : Nat) : State :=
  let v := s.indexField j tm c e
  match s.indexFault j.core v with
  | some k => s.elementFails d n j e 0 k 0 1 v []
  | none => s.moveElement d n j tm c e c.src v (c.count * 8 + e * eszBytes c.esz) 0 (eszBytes c.esz) true

end Sys2Proof.Machine
end

