-- ==== Sys2Proof/Machine/JobRun.lean ====
section
/-!
DEFINITION. The events of jobs: acceptance (R73), start (R91), elements (R76), the near-memory multiplier (R243), completion (R80),
replay (R78), completion by firmware (R79), retries (R359) and deferred tile moves (R89).
-/
namespace Sys2Proof.Machine

/-- A job that the subject names: die `a`, Truss slot `b`. -/
def State.subjectJob (s : State) : Option (Nat × Nat × Job) :=
  (tget (s.die s.subject.a).truss s.subject.b).map (fun j => (s.subject.a, s.subject.b, j))

/-- Whether a context's engines make progress (R382). -/
def State.enginesRun (s : State) (ctx : Nat) : Bool :=
  match s.ctx? ctx with
  | some c => c.stopped.isNone && !c.descheduled && !c.preempted
  | none => false

/-- TRUSS_ACCEPT: the subject's job arrives at its die's Truss; cards of one core arrive in the order released (R11, R72) (log 43, DEDUCED). -/
def execTrussAccept (s : State) : Host.Outcome State Fault Refusal :=
  match s.subjectJob with
  | some (d, n, j) =>
    if j.state = .waiting ∧ !j.accepted
        ∧ !(s.die d).truss.any (fun p => p.2.core == j.core && !p.2.accepted && p.2.state == .waiting && decide (p.2.order < j.order))
    then .next (s.acceptJob d n) else .next s
  | none => .next s

/-! ### Start (R91) -/

/-- Whether a transfer engine of a core lies inside the scope at which a tile of another core is published (R91). -/
def engineInside (core owner pscope : Nat) : Bool :=
  if pscope = 3 then core == owner else if pscope = 4 then dieOf core == dieOf owner else decide (5 ≤ pscope)

/-- Whether the engine that runs a job lies inside the scope at which a tile of another core is published (R91): a transfer engine as its
core, a collective engine or near-memory unit inside PACK only. -/
def Job.inside (j : Job) (owner pscope : Nat) : Bool :=
  if 7 ≤ (cardOf j.card).kind then decide (5 ≤ pscope) else engineInside j.core owner pscope

/-- The tiles of its own team that the items of a GATHER or SCATTER name through SPACE 2, but for those that its card names (R91). -/
def State.itemTiles (s : State) (j : Job) : List (Nat × Tile) :=
  let c := cardOf j.card
  match s.team? j.core j.slot with
  | none => []
  | some tm =>
    if c.kind ≠ 5 ∧ c.kind ≠ 6 then []
    else
      let items := (upto c.count).flatMap (fun e =>
        let v := s.indexField j tm c e
        if opSpace v = 2 then ownTiles j.core tm v (eszBytes c.esz) else [])
      ((items.filter (fun n => !((cardSources j.core tm c).contains n || (cardDests j.core tm c).contains n))).eraseDups).map (fun n => (n, tm.tile n))

/-- The other teams' tiles that a job's SP 1 regions overlap, with whether the region is written: core, slot, tile, descriptor. -/
def State.otherTiles (s : State) (j : Job) : List (Bool × Nat × Nat × Nat × Tile) :=
  (sliceRegions (cardOf j.card)).flatMap (fun r =>
    ((s.tilesOver r.2.1 r.2.2.1 r.2.2.2).filter (fun t => !(r.2.1 == j.core && t.1 == j.slot))).map (fun t => (r.1.w, r.2.1, t)))

/-- The tiles that a job claims when it starts (R91): those that its W = 1 regions overlap and that are SHARED, and those of its own team
that a SCATTER's items name, or that hold the descriptor of a COLL card, whose engine writes STATUS into it. -/
def State.claims (s : State) (j : Job) : List ((Nat × Nat) × Tile) :=
  let c := cardOf j.card
  let mine (l : List (Nat × Tile)) : List ((Nat × Nat) × Tile) := l.map (fun t => ((j.core, j.slot * 64 + t.1), t.2))
  ((s.otherTiles j).filter (fun t => t.1 && t.2.2.2.2.shared)).map (fun t => ((t.2.1, t.2.2.1 * 64 + t.2.2.2.1), t.2.2.2.2))
    ++ (if c.kind = 6 then mine (s.itemTiles j)
        else if c.kind = 8 then match s.team? j.core j.slot with
          | some tm => mine ((ownTiles j.core tm c.src 128).map (fun n => (n, tm.tile n)))
          | none => []
        else [])

/-- Whether a tile that a job would claim is FILLING, DRAINING or held, so that the job waits (R91). -/
def State.claimBusy (s : State) (j : Job) : Bool :=
  (s.claims j).any (fun t => !((t.2.state == .empty || t.2.state == .ready) && t.2.held == 0))

/-- The tiles that a job counts itself in when it starts (R91): published ones that its W = 0 regions overlap, and READY ones of its own team
that a GATHER's items name. Of an own tile in another state that an item names the spec says nothing: it is read as it stands, with no count
and no failure (log 56, DESIGN CHOICE). -/
def State.counts (s : State) (j : Job) : List (Nat × Nat) :=
  ((s.otherTiles j).filter (fun t => !t.1 && t.2.2.2.2.state == .draining && t.2.2.2.2.opened && j.inside t.2.1 t.2.2.2.2.pscope.toNat)).map
      (fun t => (t.2.1, t.2.2.1 * 64 + t.2.2.2.1))
    ++ (if (cardOf j.card).kind = 5 then ((s.itemTiles j).filter (fun t => t.2.state == .ready)).map (fun t => (j.core, j.slot * 64 + t.1)) else [])

/-- Start a job's first element (R91): claims together, then counts; it waits while a tile it would claim is busy. -/
def State.startJob (s : State) (d n : Nat) (j : Job) : State :=
  if s.claimBusy j then s
  else
    let claimed := ((s.claims j).map (·.1)).eraseDups
    let counted := (s.counts j).eraseDups
    let s := claimed.foldl (fun s p => s.modTileAt p Tile.fillReleased) s
    let s := counted.foldl (fun s p => s.modTileAt p (Tile.sourceReleased false)) s
    s.modJob d n (fun j => { j with started := true, claimed := j.claimed ++ claimed, counted := j.counted ++ counted })

/-- Whether a job runs on the transfer engine of its core (R66). -/
def Job.transfer (j : Job) : Bool := decide ((cardOf j.card).kind ≤ 6)

/-- The jobs that a core's transfer engine runs: started, with elements left (R66) (log 43, DEDUCED). -/
def State.engineJobs (s : State) (core : Nat) : List Job :=
  ((s.die (dieOf core)).truss.map (·.2)).filter (fun j => j.core == core && j.transfer && j.state == .running && j.started && !j.full)

/-- Whether the transfer engine may take up a job (R66): it runs fewer than 8, and none that the Truss made ready earlier could start. -/
def State.mayTake (s : State) (d : Nat) (j : Job) : Bool :=
  !j.transfer || (decide ((s.engineJobs j.core).length < 8)
    && !(s.die d).truss.any (fun p => p.2.core == j.core && p.2.transfer && p.2.state == .running && !p.2.started && decide (p.2.ready < j.ready)
          && s.enginesRun p.2.ctx && !s.claimBusy p.2))

/-- JOB_START. -/
def execJobStart (s : State) : Host.Outcome State Fault Refusal :=
  match s.subjectJob with
  | some (d, n, j) =>
    if j.state = .running ∧ !j.started ∧ !j.absent ∧ j.edges.isEmpty ∧ s.enginesRun j.ctx ∧ s.mayTake d j then .next (s.startJob d n j) else .next s
  | none => .next s

/-! ### Elements (R76) -/

/-- Whether a started job is one of the 8 that its transfer engine runs at once (R66): a replayed job takes its place anew. -/
def State.amongEight (s : State) (j : Job) : Bool :=
  !j.transfer || decide (((s.engineJobs j.core).filter (fun k => decide (k.ready < j.ready))).length < 8)

/-- Run element `c` of the subject's job, of a kind, where it may run: started, not yet attempted in this pass. -/
def State.runElement (s : State) (kind : Nat) (f : State → Nat → Nat → Job → Team → Card → Nat → State) : State :=
  match s.subjectJob with
  | some (d, n, j) =>
    let e := s.subject.c
    let c := cardOf j.card
    match s.team? j.core j.slot with
    | some tm =>
      if j.state = .running ∧ j.started ∧ c.kind = kind ∧ e < j.elems ∧ !bit (j.mask ||| j.tried) e ∧ s.enginesRun j.ctx ∧ s.amongEight j
      then f s d n j tm c e else s
    | none => s
  | none => s

/-- FILL: element `c` of the subject's job. -/
def execFillElem (s : State) : Host.Outcome State Fault Refusal := .next (s.runElement 1 State.linearElement)
/-- STORE: element `c` of the subject's job. -/
def execStoreElem (s : State) : Host.Outcome State Fault Refusal := .next (s.runElement 2 State.linearElement)
/-- COPY: element `c` of the subject's job. -/
def execCopyElem (s : State) : Host.Outcome State Fault Refusal := .next (s.runElement 3 State.linearElement)
/-- MOVE: element `c` of the subject's job. -/
def execMoveElem (s : State) : Host.Outcome State Fault Refusal := .next (s.runElement 4 State.linearElement)
/-- GATHER: element `c` of the subject's job. -/
def execGatherElem (s : State) : Host.Outcome State Fault Refusal := .next (s.runElement 5 State.gatherElement)
/-- SCATTER: element `c` of the subject's job. -/
def execScatterElem (s : State) : Host.Outcome State Fault Refusal := .next (s.runElement 6 State.scatterElement)

/-! ### The near-memory multiplier (R242, R243) -/

/-- The exact sum of products of a granule, with the special values of R232; the sum starts from +0. -/
def exactDot (l : List (Val × Val)) : Val := l.foldl (fun a p => a.add (p.1.mul p.2)) (.fin false 0 0)

/-- The key of a byte of pieces, from the first byte of all. -/
def segKey : List Seg → Nat → Nat
  | [], _ => 0
  | g :: l, off => if off < g.n then g.key + off else segKey l (off - g.n)

/-- The value of an element under pieces whose first byte is element or block 0 (R52, R53). -/
def State.segElement (s : State) (l : List Seg) (fmt geom i : Nat) : Val :=
  let p := elementAt fmt geom i
  let byte (k : Nat) : Byte := s.mem.read (segKey l k)
  let word := ofBytesLE ((upto 16).map (fun k => byte (p.word + k)))
  elementValue fmt p word ((upto p.nscale).map (fun k => byte (p.block + k))) (byte p.row) (byte p.col)

/-- The index of element (k, n) of B (R243). -/
def nmvIndex (geom cols k n : Nat) : Nat :=
  if geom = 0 then k * cols + n
  else
    let (gk, gn) := geomShape geom
    ((k / gk) * (cols / gn) + n / gn) * (gk * gn) + k % gk * gn + n % gn

/-- One output of the near-memory multiplier (R243), as F32 bits: `a` and `b` give the operands by k. -/
def nmvOutput (k : Nat) (a b : Nat → Val) : Nat :=
  let grans := k / 32
  (upto 32).foldl (fun y h =>
    let js := (upto grans).filter (fun j => j % 32 == h)
    if js.isEmpty then y
    else f32.rne ((f32.decode y).add (exactDot (js.flatMap (fun j => (upto 32).map (fun i => (a (32 * j + i), b (32 * j + i)))))))) 0

/-- The fault of a near-memory multiplier's B (R36, R55, R242, R243). -/
def nmvBFault (j : Job) (c : Card) (l : List Seg) : Option SegFault :=
  match l with
  | [] => none
  | g :: _ =>
    (faultIn l (engCause j.core 6) (fun x _ => decide (memKey .tier2 0 ≤ x.key) || bits x.key 38 36 != bits g.key 38 36)).or
      ((faultIn l (engCause j.core 7) (fun x _ => !([2, 4, 5, 9, 10, 11].contains x.fmt))).or
        ((if nmvShapeFault c g.fmt g.geom = some 1 then some ⟨engCause j.core 1, g.tier, 0⟩ else none).or (formFault (g.fmt, g.geom) true l)))

/-- The words of B with a spare bit or an unused slot set (R56): the place of each from B's first byte. -/
def State.badWords (s : State) : List Seg → Nat → List Nat
  | [], _ => []
  | g :: l, at_ =>
    (if isW g.fmt then (g.words.filter (fun x => s.mem.readLE (g.key - g.before + x.1) 16 / 2 ^ x.2 != 0)).map (fun x => at_ + x.1 - g.before) else [])
      ++ s.badWords l (at_ + g.n)

/-- The first output column of an element of an NMV card (R243). -/
def nmvFirst (c : Card) (e : Nat) : Nat := 32 * (e * ((bits c.count 31 16 + 63) / 64))

/-- The output columns of an element (R243). -/
def nmvColumns (c : Card) (e : Nat) : Nat :=
  32 * (min ((e + 1) * ((bits c.count 31 16 + 63) / 64)) (bits c.count 31 16)) - nmvFirst c e

/-- K of an NMV card. -/
def nmvDepth (c : Card) : Nat := (nmvShape c).2.1

/-- The places of the elements of B that an element of the card reads. -/
def nmvPlaces (c : Card) (e fmt geom : Nat) : List ElementAt :=
  (upto (nmvColumns c e)).flatMap (fun x => (upto (nmvDepth c)).map (fun i => elementAt fmt geom (nmvIndex geom (nmvShape c).2.2 i (nmvFirst c e + x))))

/-- Whether an element reads a block or word of B that breaks R56. -/
def State.nmvSpoilt (s : State) (c : Card) (l : List Seg) (e fmt geom : Nat) : Bool :=
  let spare := s.badWords l 0
  !spare.isEmpty && (nmvPlaces c e fmt geom).any (fun p => spare.any (fun w =>
    if geom = 0 then p.word == w else p.block == w / blockBytes fmt geom * blockBytes fmt geom))

/-- Poison that an element reads, of A or of B (R405). -/
def State.nmvPoison (s : State) (j : Job) (tm : Team) (c : Card) (l : List Seg) (e fmt geom : Nat) : Option Poison :=
  let a := tm.tile (opValue c.src % 64)
  let reads := (nmvPlaces c e fmt geom).map (fun p => segKey l p.word)
  if s.poison.isEmpty then none
  else (s.poisonAt (sliceKey j.core a.start) ((nmvShape c).1 * nmvDepth c * fmtWidth a.fmt.toNat / 8)).or
    (s.poison.find? (fun p => reads.any (fun w => decide (p.key < w + 16 ∧ w < p.key + p.size))))

/-- Write the outputs of an element into the F32 tile at DST, row by row (R243). -/
def State.nmvWrite (s : State) (j : Job) (tm : Team) (c : Card) (l : List Seg) (e fmt geom : Nat) : State :=
  let (m, k, cols) := nmvShape c
  let a := tm.tile (opValue c.src % 64)
  let aAt (row i : Nat) : Val := s.segElement [tileSeg j.core a 0 a.bytes] a.fmt.toNat 0 (row * k + i)
  let bAt (col i : Nat) : Val := s.segElement l fmt geom (nmvIndex geom cols i col)
  (upto m).foldl (fun s row => (upto (nmvColumns c e)).foldl (fun s x =>
    s.storeLE (sliceKey j.core ((tm.tile (opValue c.dst % 64)).start + 4 * (cols * row + (nmvFirst c e + x)))) 4
      (nmvOutput k (aAt row) (bAt (nmvFirst c e + x)))) s) s

/-- The bytes of FP0's region, which holds B (R242). -/
def nmvRoom (c : Card) : Nat := bits (nth c.fps 0 0) 63 44 * 256

/-- Whether an element reads a word or scale of B that lies outside FP0 (R71). -/
def nmvMiss (c : Card) (e fmt geom : Nat) : Bool :=
  decide (nmvRoom c < nmvBytes c fmt geom) && (nmvPlaces c e fmt geom).any (fun p => decide (nmvRoom c < max (p.word + 16) (p.block + p.nscale)))

/-- The bytes of B for an element (R70, R71, R243): those of its first page give FMT and GEOM, and so its size. R55's padding is no part of B's
bytes: whether the blocks of a B that spans pages skip it is not stated, and the model takes the bytes without a gap, so that a B that meets
padding fails BLOCK_ALIGN (log 56, DESIGN CHOICE). -/
def State.nmvB (s : State) (j : Job) (c : Card) (e : Nat) : Side × State :=
  let base := bits (nth c.fps 0 0) 40 0 * 256
  match s.translateRange (j.access e base 0) 1 2 0 [] with
  | (.ok first, s) =>
    let (fmt, geom) := segForm first
    if nmvMiss c e fmt geom then (.fail (engCause j.core 3) 0 base first, s)
    else
      let size := min (nmvBytes c fmt geom) (nmvRoom c)
      s.translateRange (j.access e base 0) size (size / 4096 + 2) 0 []
  | r => r

/-- Element `e` of an NMV card: a group of output columns (R243). -/
def State.nmvElement (s : State) (d n : Nat) (j : Job) (tm : Team) (c : Card) (e : Nat) : State :=
  let fail (s : State) (cause tier va : Nat) (seen : List Seg) : State := s.elementFails d n j e 2 cause tier 0 va (pagesOfSegs seen)
  let base := bits (nth c.fps 0 0) 40 0 * 256
  match s.nmvB j c e with
  | (.fail q tier va seen, s) => fail s q tier va seen
  | (.wait, s) => s
  | (.ok l, s) =>
    let (fmt, geom) := segForm l
    let aTile := tm.tile (opValue c.src % 64)
    let bad := if aTile.geom ≠ 0 ∨ !([2, 4, 5].contains aTile.fmt.toNat) then some ⟨engCause j.core 7, 0, 0⟩ else nmvBFault j c l
    match bad with
    | some q => fail s q.cause q.tier (base + q.off) l
    | none =>
      if s.nmvSpoilt c l e fmt geom then fail s 153 ((l.head?.map (·.tier)).getD 0) base l
      else match s.nmvPoison j tm c l e fmt geom with
      | some p =>
        let s := match j.grp with | some g => s.owe ⟨j.core, j.slot, g⟩ ⟨256 + 4 * p.bank + 3, [], 0, b2n (!j.region)⟩ | none => s
        fail s (256 + 4 * p.bank + 3) 0 base l
      | none => ((s.nmvWrite j tm c l e fmt geom).charge j.ctx 0 (nmvColumns c e * nmvDepth c * fmtWidth fmt / 8)).elementDone d n e (pagesOfSegs l) none

/-- NMV: element `c` of the subject's job. -/
def execNmv (s : State) : Host.Outcome State Fault Refusal := .next (s.runElement 7 State.nmvElement)

/-! ### Completion (R80) -/

/-- Step 4 of R80: the job's status becomes DONE, or ABSENT (R70). -/
def State.closeJob (s : State) (d n : Nat) (j : Job) : State := s.endJob d n { j with moved := true } (if j.absent then .absent else .done)

/-- The completion action's counter cannot be reached: a record with ELEM 0xFFFF, and the job is held at step 3 (R80). -/
def State.counterFails (s : State) (d n : Nat) (j : Job) (cause tier va : Nat) : State :=
  let s := s.modJob d n (fun j => { j with state := .partialDone, causes := tput j.causes 65535 cause, records := j.records + s.recordRoom d })
  s.postRecord d { cause := cause, srck := if (cardOf j.card).kind = 8 then 1 else if (cardOf j.card).kind = 7 then 2 else 0, ctx := j.ctx,
                   job := handleOf d n j.gen, va := va, elem := 65535, acc := 2, tier := tier, core := j.core }

/-- Add 1 to a 64-bit counter at its home, as an .REL atomic of an engine (R80, R278): `engine` is 1 for a core's transfer engine or
sequencer, 2 for a collective engine, a near-memory unit or Plien. A poisoned block leaves it as it is, and the group consumes the error at
its next head (R405). -/
def State.counterAdd (s : State) (key scope core slot : Nat) (grp : Option Nat) (engine : Nat) (region : Bool) : State :=
  match s.poisonAt key 8 with
  | some b => match grp with
    | some g => s.owe ⟨core, slot, g⟩ ⟨256 + 4 * b.bank + 2, [], 0, b2n (!region)⟩
    | none => s
  | none => ((s.atomicWrite key 8 ((s.mem.readLE key 8 + 1) % 2 ^ 64)).tag key ⟨scope, core, 0, 0, 0, engine⟩).notifyBinds key

/-- The home of a counter in a slice (R92, R340): its key; a wait while its ATOMIC tile is not READY; or a cause. -/
def State.sliceCounter (s : State) (a : Nat) : Except Nat (Option Nat) :=
  if s.sliceRange a then .error 146
  else match s.tileAt (a / 2 ^ 21) (a % 2 ^ 21) with
    | none => .error 147
    | some (slot, n) => match s.team? (a / 2 ^ 21) slot with
      | none => .error 147
      | some t => if !(t.tile n).atomic || t.isQueueTile n then .error 147 else .ok (if (t.tile n).state = .ready then some (memKey .slice a) else none)

/-- What kind of agent runs a job, for scopes (R66, R269). -/
def Job.engine (j : Job) : Nat := if j.transfer then 1 else 2

/-- Step 3 of R80 and what follows: the completion action, then step 4. -/
def State.completionAction (s : State) (d n : Nat) (j : Job) : State :=
  let c := cardOf j.card
  match c.ca with
  | 1 =>
    if opSpace c.catgt = 2 then
      match s.sliceCounter (opValue c.catgt) with
      | .error k => s.counterFails d n j k 0 c.catgt
      | .ok none => s
      | .ok (some key) => (s.counterAdd key c.scope j.core j.slot j.grp j.engine j.region).closeJob d n j
    else
      match s.translate (j.access 65535 (opValue c.catgt) 2) with
      | (.ok key _, s) => (s.counterAdd key c.scope j.core j.slot j.grp j.engine j.region).closeJob d n j
      | (.fail k tier, s) => s.counterFails d n j k tier c.catgt
      | (.wait _, s) => s
  | 2 =>
    let q := bits c.catgt 3 0
    match s.team? j.core j.slot with
    | none => s.closeJob d n j
    | some tm =>
      if !tm.ending && (tm.chan q).room == 0 then s.modJob d n (fun j => { j with putWaits := true })
      else (s.appendItem j.core j.slot q (handleOf d n j.gen)).closeJob d n j
  | _ => s.closeJob d n j

/-- Complete a job whose elements have all been performed, or whose unit is absent (R80): tile transitions once, then the rest; a job that
JCANCEL found with its element in flight is CANCELLED (R165). -/
def State.completeJob (s : State) (d n : Nat) (j : Job) : State :=
  if j.cancelled then s.endJob d n j .cancelled
  else
    let s := if j.moved then s else (s.endTiles j).modJob d n (fun j => { j with moved := true, claimed := [], counted := [] })
    s.completionAction d n { j with moved := true, claimed := [], counted := [] }

/-- JOB_COMPLETE: the subject names a running job whose mask is full, or one of an absent unit. -/
def execJobComplete (s : State) : Host.Outcome State Fault Refusal :=
  match s.subjectJob with
  | some (d, n, j) =>
    if j.state = .running ∧ (j.absent ∨ (j.started ∧ j.full)) ∧ !j.putWaits ∧ s.enginesRun j.ctx
    then .next (s.completeJob d n j) else .next s
  | none => .next s

/-- COMPLETION_PUT_WAIT: the subject names a job whose completion put waits for room in its channel. -/
def execCompletionPutWait (s : State) : Host.Outcome State Fault Refusal :=
  match s.subjectJob with
  | some (d, n, j) =>
    if j.state = .running ∧ j.putWaits ∧ s.enginesRun j.ctx then .next (s.completionAction d n j) else .next s
  | none => .next s

/-! ### Replay and firmware (R78, R79, R359) -/

/-- A replay command for a job (R78): one that is not PARTIAL is left alone; one whose mask is full goes on from step 3 of R80; the
counts that a REPLAY_LOOP record ended start from 0 (R43). -/
def State.replay (s : State) (d n : Nat) (j : Job) : State :=
  if j.state ≠ .partialDone then s
  else if j.full then
    let j' := { j with state := .running, causes := tdel j.causes 65535, records := 0 }
    (s.modJob d n (fun _ => j')).completionAction d n j'
  else (s.modJob d n (fun j => { j with state := .running, tried := j.mask, records := 0, ready := (s.die d).readied,
                                        passes := j.passes.filter (fun p => decide (p.2 < 8)) })).modDie d (fun x => { x with readied := x.readied + 1 })

/-- REPLAY_COMMAND: the subject names the job. Plien issues it only when every record posted for the job has been answered (R359)
(log 43, DEDUCED). -/
def execReplayCommand (s : State) : Host.Outcome State Fault Refusal :=
  match s.subjectJob with
  | some (d, n, j) => if s.enginesRun j.ctx && j.records == 0 then .next (s.replay d n j) else .next s
  | none => .next s

/-- The cause of a job's first unfinished element; that of its completion action where every element has been performed. -/
def Job.firstCause (j : Job) : Nat :=
  match (upto j.elems).find? (fun e => !bit j.mask e) with
  | some e => (tget j.causes e).getD 0
  | none => (tget j.causes 65535).getD 0

/-- Firmware completes a PARTIAL job FAULTED (R79): the trap names the cause of its first unfinished element. The fill of an argument tile has
no releaser: every group of the team traps (R246) (log 43, DEDUCED). -/
def State.faultJob (s : State) (d n : Nat) (j : Job) : State :=
  if j.state ≠ .partialDone then s
  else
    let trap : Trap := ⟨106, [], handleOf d n j.gen, j.firstCause⟩
    let s := ((s.endOp d n).endJob d n j .faulted).modTeam j.core j.slot (fun t => t.setSticky .jfault)
    match j.grp with
    | some g => s.owe ⟨j.core, j.slot, g⟩ trap
    | none =>
      let groups := ((s.team? j.core j.slot).map (fun t => t.groups.length)).getD 0
      (upto groups).foldl (fun s g => s.owe ⟨j.core, j.slot, g⟩ trap) s

/-- JOB_FAULT_COMPLETE: the subject names the job. -/
def execJobFaultComplete (s : State) : Host.Outcome State Fault Refusal :=
  match s.subjectJob with
  | some (d, n, j) => if s.enginesRun j.ctx then .next (s.faultJob d n j) else .next s
  | none => .next s

/-- TILE_DEFERRED_EMPTY: the subject names a team and, as `a`, a tile (R89). -/
def execTileDeferredEmpty (s : State) : Host.Outcome State Fault Refusal :=
  let u := s.subject
  .next (s.modTeam u.g.core u.g.slot (fun t => if (tget t.tiles u.a).isSome then t.modTile u.a Tile.deferred else t))

end Sys2Proof.Machine
end

