-- ==== Sys2Proof/Machine/Walks.lean ====
section
/-!
DEFINITION. The events of translation: walks in flight (R31), invalidations (R29), the host's ATS and PRI (R32, R33, R464), and the
retry of a page (R359).
-/
namespace Sys2Proof.Machine

/-- TRANSLATION_WALK: a miss of requester `d` of the subject's core in context `a` at address `b` takes an entry of its die's
pending-translation table and walks (R25, R31); one that matches an entry joins it, and one that finds the table full starts nothing. -/
def execTranslationWalk (s : State) : Host.Outcome State Fault Refusal :=
  let core := s.subject.g.core
  let ctx := s.subject.a
  let va := s.subject.b
  let d := s.die (dieOf core)
  let access : Access := { core := core, who := s.subject.d, ctx := ctx, va := va, acc := 0, keyperm := 0#64 }
  if 2 ^ 49 ≤ va ∨ (cached access (s.core core).tlb).isSome ∨ (cached access d.tlb).isSome then .next s
  else if d.ptt.any (fun p => p.ctx == ctx && p.page == va / 4096) ∨ s.atsWaits.any (fun t => t.matches_ access && t.open_)
  then .next (s.translate access).2
  else if 256 ≤ s.pending (dieOf core) then .next s
  else
    let (r, s) := s.dieWalk (dieOf core) ctx va
    .next (s.modDie (dieOf core) (fun d =>
      { d with ptt := d.ptt ++ [{ ctx := ctx, page := va / 4096, requesters := [access.asker], result := r }] }))

/-- What a pending walk gives when it returns (R29, R31): a stale one is walked again from the root; one whose page the die's cache holds by
now ends at that lookup. -/
def State.walkResult (s : State) (d : Nat) (p : PendingWalk) : WalkResult :=
  if p.stale then s.walk p.ctx (p.page * 4096)
  else match (s.die d).tlb.find? (fun e => e.ctx == p.ctx && decide (e.page ≤ p.page * 4096 ∧ p.page * 4096 < e.page + e.size)) with
    | some e => (0, e.leaf, e.entry, e.page, e.size)
    | none => p.result

/-- The host page that a walk's result names and that no ATS translation serves yet: its request waits in the walk's entry (R31). -/
def State.hostPageOf (s : State) (d : Nat) (p : PendingWalk) (r : WalkResult) : Option Nat :=
  let page := placeIn r.2.1 r.2.2.2.1 (p.page * 4096) / 4096
  if r.1 = 0 ∧ leafTier r.2.1 = 2 ∧ (s.atsHeld d p.ctx page).isNone then some page else none

/-- WALK_COMPLETE: the walk of die `a` for context `b` and 4 KiB frame `c` returns: every requester receives the same result, a translation
fills the die's cache, and the entry is free, but for a host page, whose one ATS request it then holds (R31). -/
def execWalkComplete (s : State) : Host.Outcome State Fault Refusal :=
  let u := s.subject
  match (s.die u.a).ptt.find? (fun p => p.ctx == u.b && p.page == u.c) with
  | none => .next s
  | some p =>
    let r := s.walkResult u.a p
    let t := s.modDie u.a (fun d =>
      { d with ptt := d.ptt.filter (fun x => x != p), walked := d.walked ++ p.requesters.map (fun c => ⟨c, p.ctx, p.page, r⟩),
               tlb := if r.1 = 0 then cachePut 16384 ⟨p.ctx, r.2.2.2.1, r.2.2.2.2, r.2.1, r.2.2.1⟩ d.tlb else d.tlb })
    .next (match s.hostPageOf u.a p r with
      | some page => t.sendAts { die := u.a, ctx := p.ctx, frame := p.page, page := page, requesters := p.requesters }
      | none => t)

/-- Whether a pointer covers some address of a range of a context (R30). -/
def WalkPointer.meets (p : WalkPointer) (ctx va n : Nat) : Bool :=
  let size := if p.level = 3 then 2 ^ 39 else 2 ^ 30
  p.ctx == ctx && decide (p.range * size < va + n) && decide (va < p.range * size + size)

/-- One die's part of an invalidation: leaves, the pointers above them, delivered results, and walks in flight (R29, R30). -/
def Die.invalidate (d : Die) (keep : TlbEntry → Bool) (inRange : Nat → Nat → Bool) (above : WalkPointer → Bool) : Die :=
  { d with tlb := d.tlb.filter keep, pointers := d.pointers.filter (fun p => !above p), walked := d.walked.filter (fun w => !inRange w.ctx w.page),
           ptt := d.ptt.map (fun w => if inRange w.ctx w.page then { w with stale := true } else w) }

/-- Drop the translations of a context in a range of addresses (R29): from every cache, every delivered result and every entry that waits for
a host page; walks in flight become stale. -/
def State.invalidate (s : State) (ctx va n : Nat) : State :=
  let keep (e : TlbEntry) : Bool := !(e.ctx == ctx && decide (e.page < va + n) && decide (va < e.page + e.size))
  let inRange (c p : Nat) : Bool := c == ctx && decide (p * 4096 < va + n) && decide (va < p * 4096 + 4096)
  { s with
    atsWaits := s.atsWaits.filter (fun w => !inRange w.ctx w.frame),
    cores := s.cores.map (fun (p : Nat × Core) => (p.1, { p.2 with tlb := p.2.tlb.filter keep })),
    dies := s.dies.map (fun (p : Nat × Die) => (p.1, p.2.invalidate keep inRange (fun w => w.meets ctx va n))) }

/-- Whether an atomic that was translated within a range has still to be performed at its home (R29): the one access that is in flight
between two steps of the model. -/
def State.inFlight (s : State) (ctx va n : Nat) : Bool :=
  s.sent.any (fun p => p.2.ctx == ctx && decide (p.2.frame * 4096 < va + n) && decide (va < p.2.frame * 4096 + 4096))

/-- TRANSLATION_INVALIDATE: context `a`, first address `b`, bytes `c`. It completes once no access in flight uses the range. -/
def execTranslationInvalidate (s : State) : Host.Outcome State Fault Refusal :=
  .next (if s.inFlight s.subject.a s.subject.b s.subject.c then s else s.invalidate s.subject.a s.subject.b s.subject.c)

/-- The sent atomics that hold a translation of a range of host pages of a context: the accesses in flight between two steps. -/
def State.hostUses (s : State) (ctx page n : Nat) : List Nat :=
  (s.sent.filter (fun p => p.2.ctx == ctx && decide (hostKey (page * 4096) ≤ p.2.home) && decide (p.2.home < hostKey (page * 4096) + n * 4096))).map (·.1)

/-- Send the completion of an invalidation once every atomic that used a dropped translation has been performed; else it stays due (R32). -/
def State.atsDropped (s : State) (i : AtsInvalidation) : State :=
  let rest := s.atsInvs.filter (fun x => x != i)
  if i.uses.any (fun k => (tget s.sent k).isSome) then { s with atsInvs := rest ++ [i] }
  else { s with atsInvs := rest }.tellHost 1 (toBytesLE 2 i.ctx ++ toBytesLE 8 i.page ++ toBytesLE 8 i.pages)

/-- ATS_INVALIDATION: the host invalidates `c` pages of context `a` from page `b` on: both I/O dies drop them, and the completion is sent once
every request that used one has completed (R32); of an invalidation whose completion is due, it is tried again. -/
def execAtsInvalidation (s : State) : Host.Outcome State Fault Refusal :=
  let u := s.subject
  .next (match s.atsInvs.find? (fun i => i.ctx == u.a && i.page == u.b && i.pages == u.c) with
    | some i => s.atsDropped i
    | none => { s with ats := s.ats.filter (fun e => !(e.ctx == u.a && decide (u.b ≤ e.page) && decide (e.page < u.b + u.c))) }.atsDropped
        ⟨u.a, u.b, u.c, s.hostUses u.a u.b u.c⟩)

/-- Put a translation into an I/O die's ATS cache of 8,192 entries (R9, R32). -/
def atsPut (e : AtsEntry) (l : List AtsEntry) : List AtsEntry :=
  e :: ((l.filter (fun x => x.io == e.io && !(x.ctx == e.ctx && x.page == e.page))).take 8191 ++ l.filter (fun x => x.io != e.io))

/-- Whether a request is the outstanding one that the subject names: die `d`, context `a`, page `b`. -/
def AtsWait.asked (w : AtsWait) (u : Subject) : Bool := w.die == u.d && w.ctx == u.a && w.page == u.b && w.open_

/-- ATS_TRANSLATION_COMPLETION: for the request of die `d` for context `a` and page `b`: `ok` gives a translation with R in bit 0 and W in
bit 1 of `c`, held in the ATS cache of the die's I/O die, or for this request alone where the host has disabled ATS; otherwise every
requester merged into it fails HOST_PAGE (R31, R32, R33). -/
def execAtsTranslationCompletion (s : State) : Host.Outcome State Fault Refusal :=
  let u := s.subject
  if !s.atsWaits.any (fun w => w.asked u) then .next s
  else if u.ok ∧ s.atsEnabled then
    .next { s with atsWaits := s.atsWaits.filter (fun w => !w.asked u), ats := atsPut ⟨ioDie u.d, u.a, u.b, bit u.c 0, bit u.c 1⟩ s.ats }
  else .next { s with atsWaits := s.atsWaits.map (fun w =>
    if w.asked u then (if u.ok then { w with given := some (bit u.c 0, bit u.c 1) } else { w with cause := 143 }) else w) }

/-- ATS_TIMEOUT: the request of die `d` for context `a` and page `b` has had no completion for 1 ms: the elements that wait for it fail
ATS_TIMEOUT (R464) (log 10, DESIGN CHOICE). -/
def execAtsTimeout (s : State) : Host.Outcome State Fault Refusal :=
  let u := s.subject
  .next { s with atsWaits := s.atsWaits.map (fun w => if w.asked u then { w with cause := 158 } else w) }

/-! ### PAGE_RETRY (R359) -/

/-- Every lane of a context held on a page on a die becomes pending again, and every piece of engine work that is no job tries the
page again. -/
def State.retryPage (s : State) (d ctx page : Nat) : State :=
  let teams := (s.teamsOf ctx).filter (fun p => dieOf p.1 == d)
  let s := teams.foldl (fun s p =>
    let now := (s.core p.1).cycles
    let groups := ((s.team? p.1 p.2).map (fun t => t.groups.length)).getD 0
    let s := (upto groups).foldl (fun s g => if s.halted ⟨p.1, p.2, g⟩ then s else s.mapLanes ⟨p.1, p.2, g⟩ (fun _ l => match l.held with
      | some h => if (h.cause = 3 ∨ h.cause = 7) ∧ h.obj = page then l.release now else l
      | none => l)) s
    s.modTeam p.1 p.2 (fun t => { t with queues := t.queues.map (fun q =>
      (q.1, { q.2 with stopped := q.2.stopped.filter (fun x => x.2 != page) })) })) s
  { s with
    comms := s.comms.map (fun c => if c.ctx = ctx then { c with op := c.op.map (fun o => if o.parked = some page then { o with parked := none } else o) } else c),
    cores := s.cores.map (fun (c : Nat × Core) => (c.1, if dieOf c.1 = d then { c.2 with succs := c.2.succs.map (fun w =>
      if w.ctx = ctx ∧ w.parkedPage = some page then { w with parkedPage := none } else w) } else c.2)),
    queues := s.queues.map (fun (q : Nat × HwQueue) => (q.1, if q.2.ctx = ctx then { q.2 with packets := q.2.packets.map (fun p =>
      if p.die = d ∧ p.page = some page then { p with page := none } else p) } else q.2)) }

/-- PAGE_RETRY: die `a`, context `b`, 4 KiB page `c`. -/
def execPageRetry (s : State) : Host.Outcome State Fault Refusal := .next (s.retryPage s.subject.a s.subject.b s.subject.c)

end Sys2Proof.Machine
end

