-- ==== Sys2Proof/Machine/Matrix.lean ====
section
/-!
DEFINITION. The matrix sequencer (R221 to R241): the checks and effects of each command-chain entry, its waits, faults and stops.
A MUL step sums each granule exactly and adds it with one rounding (R64).
-/
namespace Sys2Proof.Machine

/-- An entry about to be performed: the machine, the core and its sequencer, the owning team and its slot, the chain tile, the
entry's index and its 16 bytes as a number. -/
structure Mx where
  s : State
  core : Nat
  slot : Nat
  tm : Team
  q : Sequencer
  chain : Tile
  i : Nat
  w : Nat

/-- What an entry does at the start: a fault (R226), a wait (R227) with the tile that a DRAIN waits for, or 64 for none, the
consumption of a poisoned operand (R405), or its effect and the next entry. -/
inductive MxStep where
  | fault (cause : Nat)
  | wait (tile : Nat)
  | poisoned (bank : Nat)
  | done (s : State) (next : Nat)

/-- Bits of the entry. -/
def Mx.fld (m : Mx) (hi lo : Nat) : Nat := bits m.w hi lo

/-- An engine cause of the core's die (R465). -/
def Mx.eng (m : Mx) (k : Nat) : Nat := engCause m.core k

/-- Entries that the chain tile holds from the base on (R226). -/
def Mx.entries (m : Mx) : Nat := (m.chain.bytes - m.q.off) / 16

/-- A 16-byte entry of the chain (R223). -/
def Mx.entryAt (m : Mx) (i : Nat) : Nat := m.s.mem.readLE (sliceKey m.core (m.chain.start + m.q.off + 16 * i)) 16

/-- Change the sequencer of a core. -/
def State.modSeq (s : State) (core : Nat) (f : Sequencer → Sequencer) : State := s.modCore core (fun k => { k with seqr := f k.seqr })

/-- A cause of the encoding family for the owning core (R460). -/
def Mx.enc (m : Mx) (k : Nat) : Nat := encCause (m.s.encOf ⟨m.core, m.slot, 0⟩) k

/-- Checks in order: the first that fails (log 44, DEDUCED). -/
def firstFault (l : List (Bool × Nat)) : Option Nat := (l.find? (fun p => p.1)).map (·.2)

/-- The bits of a mask from `lo` to `hi`. -/
def span (hi lo : Nat) : Nat := (2 ^ (hi + 1 - lo) - 1) * 2 ^ lo

/-- The bits that an entry's table lists (R229, R230, R233). -/
def listedBits : Nat → Nat
  | 1 => span 99 0
  | 2 => span 7 0 + span 19 8 + span 51 20
  | 3 => span 14 0 + span 27 16 + span 57 28 + span 95 64
  | 4 => span 27 0
  | 5 => span 11 0
  | 6 => span 39 0
  | 7 => span 56 0 + span 71 64
  | 8 => span 16 0 + span 31 24
  | 9 => span 16 0 + span 127 32
  | _ => span 7 0

/-- Whether a reserved bit of the entry is set. -/
def Mx.reserved (m : Mx) : Bool := (m.w &&& listedBits (m.fld 7 0)) != m.w

/-! ### Rings and tiles -/

/-- A ring of the sequencer. -/
def Mx.ring (m : Mx) (r : Nat) : Ring := nth m.q.rings r {}

/-- The tile that a field names: itself, or the slot of a ring. -/
def Mx.tileNo (m : Mx) (viaRing : Bool) (n : Nat) : Nat := if viaRing then (m.ring (n % 4)).slot else n

/-- The checks of a tile that an entry names (R226, R235): a ring holds no slot, the allotment, the state, ATOMIC. -/
def Mx.tileFault (m : Mx) (viaRing : Bool) (n : Nat) (atomic : Bool) : Option Nat :=
  let t := m.tm.tile (m.tileNo viaRing n)
  firstFault [(viaRing && !(m.ring (n % 4)).holds, m.eng 12), (decide (m.tm.tileAllot ≤ m.tileNo viaRing n), m.enc 14),
    (t.state == .undef || t.atomic != atomic || m.tm.isQueueTile (m.tileNo viaRing n), 91)]

/-- Whether a tile may be read (R227). -/
def Tile.readable (t : Tile) : Bool := t.state == .ready || t.state == .draining

/-- Elements of a tile. -/
def Tile.elements (t : Tile) : Nat := elementCount t.bytes t.fmt.toNat t.geom.toNat

/-- The exact value of a tile's element (R153). -/
def Mx.value (m : Mx) (t : Tile) (e : Nat) : Val :=
  m.s.segElement [tileSeg m.core t 0 t.bytes] t.fmt.toNat t.geom.toNat e

/-- The bank of a poisoned granule of a tile's bytes. -/
def Mx.poisonIn (m : Mx) (t : Tile) (off n : Nat) : Option Nat := (m.s.poisonAt (sliceKey m.core (t.start + off)) n).map (·.bank)

/-! ### Accumulators (R222) -/

/-- An accumulator of a team. -/
def Team.accum (t : Team) (a : Nat) : SMap 32 := (tget t.acc a).getD []

/-- A map of 128 × 128 elements. -/
def elements128 (f : Nat → BitVec 32) : SMap 32 :=
  (upto 16384).filterMap (fun i => let v := f i; if v = 0#32 then none else some (i, v))

/-- Set an accumulator. -/
def Mx.setAcc (m : Mx) (s : State) (a : Nat) (v : SMap 32) : State := s.modTeam m.core m.slot (fun t => { t.accClean a 0 65536 with acc := tput t.acc a v })

/-- Whether an accumulator lies outside the allotment (R102). -/
def Mx.accBad (m : Mx) (a : Nat) : Bool := decide (m.tm.accAllot ≤ a)

/-! ### MUL (R230 to R232) -/

/-- K and the granule of a MUL step by the formats of A and B (R221). -/
def mulShape (fa fb : Nat) : Nat × Nat := if fa = 2 ∨ fb = 2 then (32, 16) else (64, 32)

/-- The counter of the innermost LOOP around an entry; 0 where there is none (R231). -/
def Mx.iteration (m : Mx) : Nat :=
  match (upto m.entries).find? (fun l => decide (m.i < l) && (let e := m.entryAt l; bits e 7 0 == 2 && decide (l - bits e 19 8 ≤ m.i) && bits e 19 8 != 0 && decide (bits e 19 8 ≤ l))) with
  | some l => (tget m.q.loops l).getD 0
  | none => 0

/-- The index of element (r, col) of B, whose first element or block is `eb` (R232). -/
def mulIndex (geom eb r col : Nat) : Nat :=
  if geom = 0 then eb + r * 128 + col
  else
    let (gk, gn) := geomShape geom
    (eb + (r / gk) * (128 / gn) + col / gn) * (gk * gn) + r % gk * gn + col % gn

/-- One element of a MUL step (R232), as F32 bits, from the accumulator's element (log 44, DEDUCED). -/
def mulElement (k g y : Nat) (a b : Nat → Val) : Nat :=
  (upto (k / g)).foldl (fun y j => f32.rne ((f32.decode y).add (exactDot ((upto g).map (fun i => (a (j * g + i), b (j * g + i))))))) y

/-- The first K of A and B that a MUL step reads: ITER adds the innermost counter times K (R231). -/
def Mx.mulFrom (m : Mx) (k field : Nat) : Nat := field + (if bit m.w 13 then m.iteration else 0) * k

/-- The tiles that a MUL names. -/
def Mx.tileA (m : Mx) : Tile := m.tm.tile (m.tileNo (bit m.w 14) (m.fld 21 16))
/-- The tile of B. -/
def Mx.tileB (m : Mx) : Tile := m.tm.tile (m.tileNo (bit m.w 15) (m.fld 27 22))

/-- The format of A: of its tile, or of the bypass buffer. -/
def Mx.fmtA (m : Mx) : Nat := if bit m.w 11 then m.q.bypassFmt else m.tileA.fmt.toNat

/-- K and the granule of a MUL. -/
def Mx.shape (m : Mx) : Nat × Nat := mulShape m.fmtA m.tileB.fmt.toNat

/-- Element (row, j) of A under the row's A scale (R232): of the bypass buffer or of the tile. -/
def Mx.mulA (m : Mx) (row j : Nat) : Val :=
  let ea := m.mulFrom m.shape.1 (m.fld 51 28)
  let v := if bit m.w 11 then (match fmtFormat m.fmtA with | some f => f.decode (sget m.q.bypass (row * 128 + ea + j)).toNat | none => .nan)
    else m.value m.tileA (ea + row * m.fld 63 52 + j)
  if !bit m.w 12 then v
  else
    let e := (nth m.q.ascale row 127#8).toNat
    if e = 255 then .nan else v.scale ((e : Int) - 127)

/-- The index of element (j, col) of B. -/
def Mx.placeB (m : Mx) (j col : Nat) : Nat := mulIndex m.tileB.geom.toNat (m.fld 87 64) (m.mulFrom m.shape.1 (m.fld 99 88) + j) col

/-- Element (j, col) of B. -/
def Mx.mulB (m : Mx) (col j : Nat) : Val := m.value m.tileB (m.placeB j col)

/-- What keeps a MUL from its step: a fault, a wait, or poison (R226, R227, R230, R405). -/
def Mx.mulStop (m : Mx) : Option MxStep :=
  let acc := m.fld 9 8
  let byp := bit m.w 11
  let ta := m.fld 21 16
  let lda := m.fld 63 52
  let fb := m.tileB.fmt.toNat
  let geom := m.tileB.geom.toNat
  let k := m.shape.1
  let ea := m.mulFrom k (m.fld 51 28)
  let aFault : Option Nat := if byp then none
    else ((m.tileFault (bit m.w 14) ta false).or (formatFault m.tileA.fmt.toNat m.tileA.geom.toNat)).or
      (firstFault [(m.tileA.geom != 0#4 || !([2, 4, 5].contains m.tileA.fmt.toNat), m.eng 9), (decide (m.tileA.elements ≤ ea + 127 * lda + k - 1), 88)])
  let bFault := ((m.tileFault (bit m.w 15) (m.fld 27 22) false).or (formatFault fb geom)).or
    (firstFault [(!([2, 4, 5, 9, 10, 11].contains fb), m.eng 9), (decide (m.tileB.elements ≤ m.placeB (k - 1) 127), 88)])
  let spare := isW fb && (upto k).any (fun r => (upto 128).any (fun c =>
    let p := elementAt fb geom (m.placeB r c)
    spareSet fb p (m.s.mem.readLE (sliceKey m.core (m.tileB.start + p.word)) 16)))
  match (firstFault [(m.reserved || (byp && ta != 0), m.eng 8), (m.accBad acc, m.enc 15)]).or (aFault.or bFault) with
  | some c => some (.fault c)
  | none =>
    if (!byp && !m.tileA.readable) ∨ !m.tileB.readable then some (.wait 64)
    else if byp ∧ (!m.q.bypassFull ∨ 127 < ea + k - 1) then some (.fault (m.eng 10))
    else if spare then some (.fault 153)
    else
      let hit := if m.s.poison.isEmpty then none
        else ((if byp then none else firstSome (fun row => m.poisonIn m.tileA ((ea + row * lda) * fmtWidth m.fmtA / 8) (k * fmtWidth m.fmtA / 8)) (upto 128)).or
          (firstSome (fun r => firstSome (fun c => m.poisonIn m.tileB (elementAt fb geom (m.placeB r c)).word 16) (upto 128)) (upto k)))
      (hit.or (if bit m.w 10 then none else m.tm.accHit acc 0 65536)).map MxStep.poisoned

/-- The accumulator that a MUL leaves: each element of the old one, or 0 under CLEAR, with the step's products added (R232). -/
def Mx.product (m : Mx) : SMap 32 :=
  elements128 (fun x => BitVec.ofNat 32 (mulElement m.shape.1 m.shape.2 (if bit m.w 10 then 0 else (sget (m.tm.accum (m.fld 9 8)) x).toNat)
    (m.mulA (x / 128)) (m.mulB (x % 128))))

/-- MUL (R230 to R232). -/
def mxMul (m : Mx) : MxStep := m.mulStop.getD (.done (m.setAcc m.s (m.fld 9 8) m.product) (m.i + 1))

/-! ### LOOP, COND, ZERO, SCALEA (R233) -/

/-- The loop counters that a LOOP leaves: the counter of one that goes back is kept (R233). -/
def Mx.loops (m : Mx) : Table Nat :=
  let c := (tget m.q.loops m.i).getD 0 + 1
  if c < m.fld 51 20 then tput m.q.loops m.i c else tdel m.q.loops m.i

/-- The fault of a LOOP (R226, R233). -/
def Mx.loopFault (m : Mx) : Option Nat :=
  firstFault [(m.reserved || m.fld 51 20 == 0, m.eng 8), (m.fld 19 8 == 0 || decide (m.i < m.fld 19 8), m.eng 11), (decide (4 < m.loops.length), m.eng 11)]

/-- LOOP (R233). -/
def mxLoop (m : Mx) : MxStep :=
  match m.loopFault with
  | some k => .fault k
  | none => .done (m.s.modSeq m.core (fun q => { q with loops := m.loops }))
      (if (tget m.q.loops m.i).getD 0 + 1 < m.fld 51 20 then m.i - m.fld 19 8 else m.i + 1)

/-- Whether a COND's test holds (R233). -/
def condTest (test x v : Nat) : Bool :=
  match test with | 0 => x == v | 1 => x != v | 2 => decide (x < v) | _ => decide (v ≤ x)

/-- The entry that a COND goes to where its test holds. -/
def Mx.target (m : Mx) : Int := m.i + (BitVec.ofNat 12 (m.fld 27 16)).toInt

/-- The word that a COND tests: a ring's counter, or 32 bits of an ATOMIC tile. -/
def Mx.tested (m : Mx) : Nat :=
  if m.fld 9 8 = 0 then (m.ring (m.fld 11 10)).c % 2 ^ 32
  else m.s.mem.readLE (sliceKey m.core ((m.tm.tile (m.fld 33 28)).start + m.fld 57 34)) 4

/-- What keeps a COND from its test (R226, R227, R233, R405). -/
def Mx.condStop (m : Mx) : Option MxStep :=
  let src := m.fld 9 8
  let tf := m.fld 33 28
  let off := m.fld 57 34
  let t := m.tm.tile tf
  let own := firstFault [(m.reserved || decide (2 ≤ src) || decide (4 ≤ m.fld 14 12) || (BitVec.ofNat 12 (m.fld 27 16)).toInt == 0 || (src == 1 && off % 4 != 0)
      || decide (m.target < 0) || decide ((m.entries : Int) ≤ m.target), m.eng 8), (src == 0 && !(m.ring (m.fld 11 10)).holds, m.eng 12)]
  let tile := if src = 1 then ((m.tileFault false tf true).or (formatFault t.fmt.toNat t.geom.toNat)).or (firstFault [(decide (t.bytes < off + 4), 88)])
    else none
  match own.or tile with
  | some k => some (.fault k)
  | none =>
    if src = 1 ∧ t.state ≠ .ready then some (.wait 64)
    else (if src = 1 then m.poisonIn t off 4 else none).map MxStep.poisoned

/-- COND (R233). -/
def mxCond (m : Mx) : MxStep :=
  m.condStop.getD (.done m.s (if condTest (m.fld 14 12) m.tested (m.fld 95 64) then m.target.toNat else m.i + 1))

/-- The accumulators that a ZERO names. -/
def Mx.zeroed (m : Mx) : List Nat := (upto 4).filter (fun a => bit m.w (8 + a))

/-- ZERO (R233). -/
def mxZero (m : Mx) : MxStep :=
  match firstFault [(m.reserved, m.eng 8), (m.zeroed.any m.accBad, m.enc 15)] with
  | some k => .fault k
  | none => .done (m.zeroed.foldl (fun s a => m.setAcc s a []) m.s) (m.i + 1)

/-- The tile that a SCALEA reads. -/
def Mx.scaleTile (m : Mx) : Tile := m.tm.tile (m.tileNo (bit m.w 9) (m.fld 15 10))

/-- What keeps a SCALEA from its effect (R226, R227, R233, R405). -/
def Mx.scaleaStop (m : Mx) : Option MxStep :=
  let off := m.fld 39 16
  let t := m.scaleTile
  let own := firstFault [(m.reserved || off % 16 != 0, m.eng 8)]
  let tile := if bit m.w 8 then none
    else ((m.tileFault (bit m.w 9) (m.fld 15 10) false).or (formatFault t.fmt.toNat t.geom.toNat)).or (firstFault [(decide (t.bytes < off + 128), 88)])
  match own.or tile with
  | some k => some (.fault k)
  | none =>
    if bit m.w 8 then none
    else if !t.readable then some (.wait 64)
    else (m.poisonIn t off 128).map MxStep.poisoned

/-- The A scales that a SCALEA leaves: all 127, or 128 bytes of its tile. -/
def Mx.scales (m : Mx) : List Byte :=
  if bit m.w 8 then List.replicate 128 127#8 else m.s.mem.readBytes (sliceKey m.core (m.scaleTile.start + m.fld 39 16)) 128

/-- SCALEA (R233). -/
def mxScalea (m : Mx) : MxStep := m.scaleaStop.getD (.done (m.s.modSeq m.core (fun q => { q with ascale := m.scales })) (m.i + 1))

/-! ### DRAIN and BYPASS (R233) -/

/-- The value of an accumulator's element under an output scale (R233): 0xFF gives NaN. -/
def scaledOut (w scale : Nat) : Val := if scale = 255 then .nan else (f32.decode w).scale (127 - (scale : Int))

/-- Convert values of one row in ascending column, drawing from the row's stochastic-rounding state under MODE 4 (R61, R233): the
words and the state after. -/
def convertRow (f : Format) (mode : Mode) : Word → List Val → List Nat × Word
  | st, [] => ([], st)
  | st, v :: vs =>
    let draws := decide (mode = .sr) && v.nonzeroFinite
    let st := if draws then srStep st else st
    let r := convertRow f mode st vs
    (f.encode mode .default (if draws then srBits st else 0) v :: r.1, r.2)

/-- Convert an accumulator (R233): element bits by row and column, and the rows' states after. `scale` is each row's. -/
def convertAcc (acc : SMap 32) (f : Format) (mode : Mode) (sr : SMap 32) (scale : Nat → Nat) : List (List Nat) × SMap 32 :=
  (upto 128).foldl (fun r row =>
    let c := convertRow f mode (sget sr row) ((upto 128).map (fun col => scaledOut (sget acc (row * 128 + col)).toNat (scale row)))
    (r.1 ++ [c.1], sput r.2 row c.2)) ([], sr)

/-- The tile that a DRAIN writes. -/
def Mx.drainTile (m : Mx) : Tile := m.tm.tile (m.tileNo (bit m.w 10) (m.fld 17 12))

/-- What keeps a DRAIN from its effect (R226, R227, R233, R405). -/
def Mx.drainStop (m : Mx) : Option MxStep :=
  let acc := m.fld 9 8
  let t := m.drainTile
  let own := firstFault [(m.reserved || decide (5 ≤ m.fld 56 54), m.eng 8), (m.accBad acc, m.enc 15)]
  let tile := (m.tileFault (bit m.w 10) (m.fld 17 12) false).or (firstFault [(t.geom != 0#4 || t.fmt.toNat == 0 || decide (8 < t.fmt.toNat)
      || (fmtFormat t.fmt.toNat).isNone, m.eng 9), (decide (t.elements ≤ m.fld 41 18 + 127 * m.fld 53 42 + 127), 88)])
  match own.or tile with
  | some k => some (.fault k)
  | none =>
    let n := m.tileNo (bit m.w 10) (m.fld 17 12)
    if t.state ≠ .ready then some (.wait (if m.q.waitsFor = n + 1 then n else 64))
    else if t.held ≠ 0 then some (.wait n)
    else (m.tm.accHit acc 0 65536).map MxStep.poisoned

/-- What a DRAIN converts its accumulator into: element bits by row and column, and the rows' states after. -/
def Mx.drained (m : Mx) (f : Format) : List (List Nat) × SMap 32 :=
  convertAcc (m.tm.accum (m.fld 9 8)) f (modeOf (m.fld 56 54)) m.q.srstate (fun _ => m.fld 71 64)

/-- Write a DRAIN's elements into its tile, and clear its accumulator where it says so. -/
def Mx.drainWrite (m : Mx) (f : Format) : State :=
  let s := ((m.drained f).1.zipIdx).foldl (fun s r => (r.1.zipIdx).foldl (fun s c =>
    s.storeLE (sliceKey m.core (m.drainTile.start + (m.fld 41 18 + r.2 * m.fld 53 42 + c.2) * (f.width / 8))) (f.width / 8) c.1) s) m.s
  if bit m.w 11 then m.setAcc s (m.fld 9 8) [] else s

/-- DRAIN (R227, R233). -/
def mxDrain (m : Mx) : MxStep :=
  let f := (fmtFormat m.drainTile.fmt.toNat).getD (.float f32)
  m.drainStop.getD (.done ((m.drainWrite f).modSeq m.core (fun q => { q with srstate := (m.drained f).2 })) (m.i + 1))

/-- The scale of a row under AUTOS: R214's rule applied to the row's absolute maximum; 0xFF for a NaN or an infinity (R233). -/
def autoScale (af : Nat) (row : List Nat) : Nat :=
  let (big, e) : Nat × Int := match af with | 0 => (448, 0) | 1 => (57344, 0) | _ => (255, 120)
  let top := (row.map (fun w => (f32.decode w).abs)).foldl Val.absMax (.fin false 0 0)
  match top with
  | .fin _ a x => ((upto 255).find? (fun (k : Nat) => !(Val.fin false big (e + (k : Int) - 127)).lt (.fin false a x))).getD 254
  | _ => 255

/-- What keeps a BYPASS from its effect (R226, R233, R405). -/
def Mx.bypassStop (m : Mx) : Option MxStep :=
  match firstFault [(m.reserved || m.fld 11 10 == 3 || decide (5 ≤ m.fld 14 12), m.eng 8), (m.accBad (m.fld 9 8), m.enc 15)] with
  | some k => some (.fault k)
  | none => (m.tm.accHit (m.fld 9 8) 0 65536).map MxStep.poisoned

/-- The FMT that a BYPASS leaves in the buffer: E4M3, E5M2 or BF16. -/
def Mx.bypassFmt (m : Mx) : Nat := match m.fld 11 10 with | 0 => 4 | 1 => 5 | _ => 2

/-- The scale of a row under a BYPASS. -/
def Mx.bypassScale (m : Mx) (row : Nat) : Nat :=
  if bit m.w 15 then autoScale (m.fld 11 10) ((upto 128).map (fun col => (sget (m.tm.accum (m.fld 9 8)) (row * 128 + col)).toNat)) else m.fld 31 24

/-- What a BYPASS converts its accumulator into. -/
def Mx.bypassed (m : Mx) : List (List Nat) × SMap 32 :=
  convertAcc (m.tm.accum (m.fld 9 8)) ((fmtFormat m.bypassFmt).getD (.float f32)) (modeOf (m.fld 14 12)) m.q.srstate m.bypassScale

/-- The sequencer after a BYPASS: the buffer is full, and holds the elements and their rows' scales. -/
def Mx.fillBypass (m : Mx) (q : Sequencer) : Sequencer :=
  { q with srstate := m.bypassed.2, bypassFmt := m.bypassFmt, bypassFull := true, ascale := (upto 128).map (fun r => BitVec.ofNat 8 (m.bypassScale r)),
           bypass := elements128 (fun x => BitVec.ofNat 32 (nth (nth m.bypassed.1 (x / 128) []) (x % 128) 0)) }

/-- BYPASS (R233). -/
def mxBypass (m : Mx) : MxStep :=
  m.bypassStop.getD (.done ((if bit m.w 16 then m.setAcc m.s (m.fld 9 8) [] else m.s).modSeq m.core m.fillBypass) (m.i + 1))

/-! ### Rings and SIGNAL (R233 to R235) -/

/-- Put a ring's held slot into its OUTQ and release it (R234); none while the channel is full. A put of a team that is ending is discarded (R106). -/
def State.releaseRing (s : State) (core slot r : Nat) : Option State :=
  let ring := nth (s.core core).seqr.rings r {}
  if !ring.holds then some s
  else match s.team? core slot with
    | none => some s
    | some tm =>
      if (tm.chan ring.outq).room = 0 ∧ tm.ending = false then none
      else some ((s.appendItem core slot ring.outq ring.slot).modSeq core (fun q =>
        { q with rings := q.rings.set r { ring with holds := false }, held := q.held.erase ring.slot }))

/-- Release every held slot (R234); none while some channel is full. -/
def State.releaseRings (s : State) (core slot : Nat) : Option State :=
  (upto 4).foldl (fun s r => s.bind (fun s => s.releaseRing core slot r)) (some s)

/-- The fault of a RINGWAIT: its slots are tiles that it names (R226, R234) (log 44, DEDUCED). -/
def Mx.ringFault (m : Mx) : Option Nat :=
  let (base, ns, inq, outq) := (m.fld 15 10, m.fld 19 16, m.fld 23 20, m.fld 27 24)
  let ring := m.ring (m.fld 9 8)
  let slots := (upto (ns + 1)).map (fun j => base + j)
  (firstFault [(m.reserved, m.eng 8),
      ((ring.defined && (ring.base != base || ring.ns != ns)) || decide (63 < base + ns) || (m.tm.chan inq).mode != 3 || (m.tm.chan outq).mode != 3, m.eng 12)]).or
    (firstSome (fun n => m.tileFault false n false) slots)

/-- A RINGWAIT first defines its ring and releases the slot that it holds (R234, R235); none while that channel is full. -/
def Mx.ringReady (m : Mx) : Option State :=
  let r := m.fld 9 8
  let (base, ns, inq, outq) := (m.fld 15 10, m.fld 19 16, m.fld 23 20, m.fld 27 24)
  (m.s.modSeq m.core (fun q => { q with rings := q.rings.set r { m.ring r with base := base, ns := ns, inq := inq, outq := outq, defined := true } })).releaseRing
    m.core m.slot r

/-- The slot that a RINGWAIT takes next. -/
def Mx.ringSlot (m : Mx) : Nat := m.fld 15 10 + (m.ring (m.fld 9 8)).c % (m.fld 19 16 + 1)

/-- RINGWAIT (R234, R235). -/
def mxRingwait (m : Mx) : MxStep :=
  match m.ringFault with
  | some k => .fault k
  | none =>
    match m.ringReady with
    | none => .wait 64
    | some s =>
      let c := match s.team? m.core m.slot with | some t => t.chan (m.fld 23 20) | none => {}
      if c.frozen ∨ c.count = 0 then .done s m.i
      else .done ((s.removeItems m.core m.slot (m.fld 23 20) [0]).modSeq m.core (fun q =>
        { q with rings := q.rings.modify (m.fld 9 8) (fun x => { x with c := ((m.ring (m.fld 9 8)).c + 1) % 2 ^ 32, holds := true, slot := m.ringSlot }),
                 held := m.ringSlot :: q.held })) (m.i + 1)

/-- The fault of a SIGNAL's own fields (R226, R233). -/
def Mx.signalFault (m : Mx) : Option Nat :=
  let act := m.fld 9 8
  let ctr := m.fld 127 64
  let ch := m.tm.chan (m.fld 16 13)
  firstFault [(m.reserved || act == 0 || act == 3 || (act == 1 && (opSpace ctr != 2 || ctr % 8 != 0))
    || (act == 2 && (ctr != 0 || ch.mode == 0 || !ch.peng || !(ch.size == 0 || ch.size == 3))), m.eng 8)]

/-- SIGNAL (R228, R233). -/
def mxSignal (m : Mx) : MxStep :=
  match m.signalFault with
  | some k => .fault k
  | none =>
    if m.fld 9 8 = 1 then
      match m.s.sliceCounter (opValue (m.fld 127 64)) with
      | .error _ => .fault 147
      | .ok none => .wait 64
      | .ok (some key) => match m.s.poisonAt key 8 with
        | some p => .poisoned p.bank
        | none => .done (m.s.counterAdd key (m.fld 12 10) m.core m.slot none 1 m.q.region) (m.i + 1)
    else if (m.tm.chan (m.fld 16 13)).room = 0 then .wait 64
    else .done (m.s.appendItem m.core m.slot (m.fld 16 13) (if (m.tm.chan (m.fld 16 13)).size = 3 then m.fld 37 32 else m.fld 63 32)) (m.i + 1)

/-- END (R225, R234): it waits while a held slot's channel is full (log 44, DEDUCED). -/
def mxEnd (m : Mx) : MxStep :=
  if m.reserved then .fault (m.eng 8)
  else match m.s.releaseRings m.core m.slot with
    | none => .wait 64
    | some s =>
      .done ((s.modSeq m.core (fun q => { q with state := .idle, held := [], waitsFor := 0 })).modTeam m.core m.slot
        (fun t => { t with mxChains := (t.mxChains + 1) % 256 })) m.i

/-! ### Performing an entry (R225, R226) -/

/-- An entry fault (R226): the sequencer enters FAULT and lets go of its tiles; TSTAT.MXFAULT is set, and the issuing group owes
MX_FAULTED with the MXSTAT word (log 44, DEDUCED). -/
def State.mxFault (s : State) (core slot cause : Nat) : State :=
  let s := s.modSeq core (fun q => { q with state := .fault, cause := cause, held := [], waitsFor := 0, rings := q.rings.map (fun r => { r with holds := false }) })
  let s := s.modTeam core slot (fun t => t.setSticky .mxfault)
  match (s.core core).seqr.issuer, s.team? core slot with
  | some g, some tm => s.owe g ⟨107, [], mxWord (s.core core).seqr slot tm 0, 0⟩
  | _, _ => s

/-- The chain tile of a sequencer: 64 stands for the trap tile of the group that issued the MXGO in handler mode (R361). -/
def Sequencer.chainTile (q : Sequencer) (tm : Team) : Tile :=
  if q.tc < 64 then tm.tile q.tc
  else match q.issuer.bind (fun g => tm.groups[g.grp]?) with
    | some grp => groupTile tm { grp with hm := true } 63
    | none => {}

/-- The entry that a sequencer stands at, when it may perform one: the chain tile must be readable (R227), the context must run
(log 44, DEDUCED). -/
def State.mxEntry (s : State) (core : Nat) : Option Mx :=
  let q := (s.core core).seqr
  match q.owner with
  | none => none
  | some slot => match s.team? core slot with
    | none => none
    | some tm =>
      if !(q.state == .running || q.state == .waiting) || !s.enginesRun tm.ctx then none
      else
        let t := q.chainTile tm
        some { s := s, core := core, slot := slot, tm := tm, q := q, chain := t, i := q.entry,
               w := s.mem.readLE (sliceKey core (t.start + q.off + 16 * q.entry)) 16 }

/-- Perform the subject core's present entry, of a kind, by its meaning; a KIND that no table lists faults under any (R226). -/
def State.runEntry (s : State) (kind : Nat) (f : Mx → MxStep) : State :=
  match s.mxEntry s.subject.g.core with
  | none => s
  | some m =>
    let here := m.fld 7 0
    let waitAt (n : Nat) : State := s.modSeq m.core (fun q => { q with state := .waiting, waitsFor := if n < 64 then n + 1 else 0 })
    if m.chain.state = .undef then s.mxFault m.core m.slot 91
    else if !m.chain.readable then waitAt 64
    else if m.entries ≤ m.i then s.mxFault m.core m.slot 88
    else if here = 0 ∨ 10 < here then s.mxFault m.core m.slot (m.eng 8)
    else if here ≠ kind then s
    else
      let poisoned (b : Nat) : State := match m.q.issuer with
        | some g =>
          let due := match s.group? g with | some x => x.owed.any (fun t => t.cause == 256 + 4 * b + 3) | none => true
          if due then s else s.owe g ⟨256 + 4 * b + 3, [], 0, b2n (!m.q.region)⟩
        | none => s
      match m.poisonIn m.chain (m.q.off + 16 * m.i) 16 with
      | some b => poisoned b
      | none => match f m with
        | .fault c => s.mxFault m.core m.slot c
        | .wait n => waitAt n
        | .poisoned b => poisoned b
        | .done s next => s.modSeq m.core (fun q =>
            { q with entry := next, waitsFor := 0, state := if q.state = .idle then .idle else if next = m.i then .waiting else .running })

/-- MUL: the subject names the core. -/
def execMul (s : State) : Host.Outcome State Fault Refusal := .next (s.runEntry 1 mxMul)
/-- LOOP. -/
def execLoop (s : State) : Host.Outcome State Fault Refusal := .next (s.runEntry 2 mxLoop)
/-- COND. -/
def execCond (s : State) : Host.Outcome State Fault Refusal := .next (s.runEntry 3 mxCond)
/-- RINGWAIT. -/
def execRingwait (s : State) : Host.Outcome State Fault Refusal := .next (s.runEntry 4 mxRingwait)
/-- ZERO. -/
def execZero (s : State) : Host.Outcome State Fault Refusal := .next (s.runEntry 5 mxZero)
/-- SCALEA. -/
def execScalea (s : State) : Host.Outcome State Fault Refusal := .next (s.runEntry 6 mxScalea)
/-- DRAIN. -/
def execDrain (s : State) : Host.Outcome State Fault Refusal := .next (s.runEntry 7 mxDrain)
/-- BYPASS. -/
def execBypass (s : State) : Host.Outcome State Fault Refusal := .next (s.runEntry 8 mxBypass)
/-- SIGNAL. -/
def execSignal (s : State) : Host.Outcome State Fault Refusal := .next (s.runEntry 9 mxSignal)
/-- END_ENTRY. -/
def execEndEntry (s : State) : Host.Outcome State Fault Refusal := .next (s.runEntry 10 mxEnd)

/-- A STOPPING sequencer reaches its interrupt point (R225, R240): its ring slots are released as at END, which waits while a channel
is full (log 44, DEDUCED). -/
def State.stopSequencer (s : State) (core : Nat) : State :=
  let q := (s.core core).seqr
  match q.owner with
  | none => s
  | some slot =>
    if q.state ≠ .stopping then s
    else match s.releaseRings core slot with
      | none => s
      | some s => s.modSeq core (fun q => { q with state := .stopped, held := [], waitsFor := 0 })

/-- MX_STOP_POINT: the subject names the core. -/
def execMxStopPoint (s : State) : Host.Outcome State Fault Refusal := .next (s.stopSequencer s.subject.g.core)

end Sys2Proof.Machine
end

