-- ==== Sys2Proof/Machine/Place.lean ====
section
/-!
DEFINITION. Room on a core (R85, R102 to R105, R247): lane-registers, accumulators, ranges of the slice, team slots; and what the
fold and the move of a group need of a kernel.
-/
namespace Sys2Proof.Machine

/-- Lane-registers of a core's file (R104). -/
def fileRegs (core : Nat) : Nat := if isLcore core then 32768 else 65536

/-- A role's record (R395). -/
def Kernel.role (k : Kernel) (r : Nat) : Role := if r = 1 then k.role1 else k.role0

/-- A role's full vector budget in the encoding of a core (R103). -/
def Kernel.vregs (k : Kernel) (core r : Nat) : Nat := if isLcore core then (k.role r).vregl else (k.role r).vregd

/-- A team's full tile allotment (R103). -/
def Kernel.tiles (k : Kernel) : Nat := min 64 (4 * (k.role0.tgran + k.role1.tgran))

/-- A team's full accumulator allotment on a core (R103). -/
def Kernel.accs (k : Kernel) (core : Nat) : Nat := if isLcore core then 0 else k.role0.acc + k.role1.acc

/-- Whether a kernel has an encoding for a core (R14). -/
def Kernel.runsOn (k : Kernel) (core : Nat) : Bool := if isLcore core then k.l9 else k.d9

/-- The teams of a core. -/
def State.coreTeams (s : State) (core : Nat) : List (Nat × Team) := (s.core core).teams

/-- Lane-registers in use on a core (R104) (log 49, DEDUCED). -/
def State.usedRegs (s : State) (core : Nat) : Nat :=
  ((s.coreTeams core).map (fun p => (p.2.groups.map (fun g => g.vallot * g.width)).sum)).sum

/-- Accumulators in use on a core. -/
def State.usedAccs (s : State) (core : Nat) : Nat := ((s.coreTeams core).map (fun p => p.2.accAllot)).sum

/-- A team's shortfall (R247): lane-registers up to its groups' full budgets, and accumulators; none once it has been granted. -/
def State.shortfall (s : State) (core : Nat) (t : Team) : Nat × Nat :=
  if t.granted then (0, 0)
  else match s.teamKernel? t with
    | none => (0, 0)
    | some k => ((t.groups.map (fun g => if g.vallot = 0 then 0 else (k.vregs core g.role - g.vallot) * g.width)).sum, k.accs core - t.accAllot)

/-- The ranges of a core's slice that its teams hold, in 256-byte units: windows, trap tiles, queue storage (R85, R303, R361). -/
def State.taken (s : State) (core : Nat) : List (Nat × Nat) :=
  ((s.coreTeams core).flatMap (fun p => [(p.2.window, p.2.wlen), (p.2.trapt, p.2.trapUnits), (p.2.storage, p.2.slen)])).filter (fun r => r.2 != 0)

/-- Whether a range is free (log 49, DEDUCED). -/
def rangeFree (taken : List (Nat × Nat)) (a n : Nat) : Bool := taken.all (fun r => !unitsOverlap a n r.1 r.2)

/-- Place ranges of given lengths one after another in the free part of a slice of `units` units; each place is one of the
machine's choices. None where one finds no room. -/
def State.placeRanges (s : State) (units : Nat) : List (Nat × Nat) → List Nat → Option (List Nat × State)
  | _, [] => some ([], s)
  | taken, n :: ns =>
    if n = 0 then (s.placeRanges units taken ns).map (fun r => (0 :: r.1, r.2))
    else match (upto (units + 1 - n)).filter (fun a => rangeFree taken a n) with
      | [] => none
      | a :: as =>
        let (i, s) := s.pick (as.length + 1)
        let at_ := nth (a :: as) i a
        (s.placeRanges units ((at_, n) :: taken) ns).map (fun r => (at_ :: r.1, r.2))

/-- Place what a team holds of a core's slice: its window with its trap tiles next to it, here after it (R361, log 54, DESIGN CHOICE), and the
storage of its queues; where window, trap tiles and storage begin. -/
def State.placeTeamRanges (s : State) (core wlen traps storage : Nat) : Option ((Nat × Nat × Nat) × State) :=
  match s.placeRanges (sliceBytes core / 256) (s.taken core) [wlen + traps, storage] with
  | some ([w, st], s) => some ((w, w + wlen, st), s)
  | _ => none

/-- The lowest free team slot of a core: a team holds a slot 0 to 15 (R302, R386, log 54, DESIGN CHOICE). -/
def State.freeTeamSlot (s : State) (core : Nat) : Option Nat := (upto 16).find? (fun n => (s.team? core n).isNone)

/-- Units of 256 bytes that hold some bytes. -/
def unitsFor (n : Nat) : Nat := (n + 255) / 256

/-- Bytes of a channel's queue (R303). -/
def Chan.storageBytes (c : Chan) : Nat := c.depth * itemBytes c.size

/-- Lay the queues that a team holds out in its storage, in ascending channel number (R303, log 54, DESIGN CHOICE). -/
def layQueues (core : Nat) : Nat → List (Nat × Chan) → List (Nat × Chan)
  | _, [] => []
  | at_, (q, c) :: l =>
    if c.remote then (q, c) :: layQueues core at_ l
    else (q, { c with qaddr := core * 2 ^ 21 + at_ }) :: layQueues core (at_ + c.storageBytes) l

/-- Units of the storage of a team's queues. -/
def queueUnits (cs : List (Nat × Chan)) : Nat := unitsFor ((cs.map (fun p => if p.2.remote then 0 else p.2.storageBytes)).sum)

/-- Whether a core is in its die's reserved rectangle (R337). -/
def State.coreReserved (s : State) (core : Nat) : Bool :=
  match (s.die (dieOf core)).reserved with | some r => r.2.contains core | none => false

/-- Lath hops between two cores of a die (R293). -/
def hops (a b : Nat) : Nat :=
  let d (x y : Nat) : Nat := (x - y) + (y - x)
  d (localOf a % 18) (localOf b % 18) + d (localOf a / 18) (localOf b / 18)

/-- The least of a list under a measure; of equals, the first. -/
def leastBy {α : Type} (f : α → Nat) : List α → Option α
  | [] => none
  | a :: l => match leastBy f l with
    | some b => if f b < f a then some b else some a
    | none => some a

end Sys2Proof.Machine
end

