-- ==== Sys2Proof/Machine/Chains.lean ====
section
/-!
DEFINITION. The move of a parked group to another core (R288 to R295, R297), and the folding and spreading of a chain (R313, R319
to R325).
-/
namespace Sys2Proof.Machine

/-! ### Location pairs (R289) -/

/-- A location: its kind, first number and count. -/
structure Loc where
  kind : Nat
  num : Nat
  cnt : Nat
  deriving DecidableEq, Repr

/-- A location word. -/
def locOf (w : Nat) : Loc := ⟨bits w 3 0, bits w 11 4, bits w 14 12 + 1⟩

/-- The pairs of a flashing table seen from a source core kind to a target kind; those absent on a side are left out. -/
def Flash.moves (f : Flash) (srcL dstL : Bool) : List (Loc × Loc) :=
  (f.pairs.map (fun p => (locOf (if srcL then p.2 else p.1), locOf (if dstL then p.2 else p.1)))).filter
    (fun p => p.1.kind != 0 && p.2.kind != 0)

/-- The single numbers that the pairs of one kind move. -/
def moveNums (ps : List (Loc × Loc)) (kind : Nat) : List (Nat × Nat) :=
  (ps.filter (fun p => p.1.kind == kind)).flatMap (fun p => (upto p.1.cnt).map (fun j => (p.1.num + j, p.2.num + j)))

/-- The flashing table of an EP trace (R287). -/
def State.flashOf (s : State) (ctx : Nat) (t : TRef) : Option Flash :=
  match s.object? ctx t.handle t.handle, s.trace? ctx t with
  | some o, some e => o.flashes[e.flash]?
  | _, _ => none

/-! ### The target (R293) -/

/-- What a parked group needs at a target: lane-registers, units for its tiles, the queues it consumes (in their new numbers), and
accumulators. -/
structure Needs where
  regs : Nat
  tiles : List (Nat × Nat × Tile)
  chans : List (Nat × Nat)
  accs : List Nat
  deriving DecidableEq, Repr

/-- The pairs of a parked group's move to a core. -/
def State.parkPairs (s : State) (g : GRef) (tm : Team) (p : Park) : List (Loc × Loc) :=
  match s.flashOf tm.ctx p.ep with | some f => f.moves (isLcore g.core) p.lcore | none => []

/-- Whether a group is an endpoint of a channel of its team, as producer or as consumer (R302). -/
def endpointOf (grp : Nat) (c : Chan) : Bool × Bool := (!c.peng && c.pgrp == grp, !c.ceng && c.cgrp == grp)

/-- What a parked group's move needs (R293). -/
def State.parkNeeds (s : State) (g : GRef) (tm : Team) (grp : Group) (p : Park) : Needs :=
  let ps := s.parkPairs g tm p
  let k := s.teamKernel? tm
  let full := match k with | some k => if p.lcore then (k.role grp.role).vregl else (k.role grp.role).vregd | none => 0
  { regs := full * grp.width
    tiles := ((moveNums ps 4).map (fun m => (m.1, m.2, tm.tile m.1))).filter (fun x => x.2.2.state != .undef)
    chans := (moveNums ps 5).filter (fun m => (tm.chan m.1).mode == 1 && ((endpointOf grp.num (tm.chan m.1)).1 || (endpointOf grp.num (tm.chan m.1)).2))
    accs := match s.flashOf tm.ctx p.ep with | some f => if p.lcore then [] else (upto 4).filter (fun a => bit f.acc a) | none => [] }

/-- Units of the window for carried tiles. -/
def Needs.window (n : Needs) : Nat := (n.tiles.map (fun x => x.2.2.len.toNat)).sum

/-- Units of the storage for the queues that the group consumes and brings. -/
def Needs.storage (n : Needs) (tm : Team) (grp : Nat) : Nat :=
  unitsFor ((n.chans.map (fun m => if (endpointOf grp (tm.chan m.1)).2 then (tm.chan m.1).storageBytes else 0)).sum)

/-- Whether a core qualifies as the target of a parked group (R293) (log 41, DESIGN CHOICE). -/
def State.qualifies (s : State) (grp : Group) (tm : Team) (n : Needs) (core : Nat) : Bool :=
  s.coreEnabled core && !s.coreReserved core && (s.freeTeamSlot core).isSome
    && decide (s.usedRegs core + n.regs ≤ fileRegs core)
    && (isLcore core || decide (s.usedAccs core + n.accs.length ≤ 4))
    && (s.placeTeamRanges core n.window (trapBytes grp.width / 256) (n.storage tm grp.num)).isSome

/-- The target of a parked group: the qualifying core of the kind on its die with the fewest hops, then the lowest number
(R293) (log 41, DESIGN CHOICE). -/
def State.parkTarget (s : State) (g : GRef) (tm : Team) (grp : Group) (p : Park) : Option Nat :=
  let n := s.parkNeeds g tm grp p
  leastBy (hops g.core) ((dieCores (dieOf g.core)).filter (fun c => isLcore c == p.lcore && s.qualifies grp tm n c))

/-! ### The move (R294) -/

/-- Whether a move may proceed (R294): returns applied, the group's jobs completed, no tile to carry FILLING, nothing of its commits
still to be performed. -/
def State.moveReady (s : State) (g : GRef) (tm : Team) (grp : Group) (n : Needs) : Bool :=
  grp.exec.isNone && grp.returns.isEmpty && grp.boundary.isNone && grp.sent.all (fun a => (tget s.sent a).isNone)
    && (s.die (dieOf g.core)).truss.all (fun j => !(j.2.core == g.core && j.2.slot == g.slot && j.2.grp == some g.grp) || j.2.state.completed)
    && n.tiles.all (fun x => x.2.2.state != .filling)
    && !tm.puts.any (fun p => p.grp == g.grp) && !tm.tasks.any (fun p => p.grp == g.grp)
    && (s.core g.core).succs.all (fun w => w.slot != g.slot)

/-- The registers of a group at its new place (R294 step 3): by the pairs, or all of them between cores of one kind. A vector register at or
above an allotment on either side, which the group could not read there, is not carried. -/
def movedRegs (grp : Group) (ps : List (Loc × Loc)) (same : Bool) (room : Nat) : Group :=
  if same then { grp with vallot := room }
  else
    let lanes := upto grp.width
    let vs := (moveNums ps 1).filter (fun p => decide (p.1 < grp.vallot ∧ p.2 < room))
    { grp with
      vallot := room
      regs := lanes.foldl (fun m l => bankMove grp.regs m (vs.map (fun p => (l * 256 + p.1, l * 256 + p.2)))) []
      uregs := bankMove grp.uregs [] (moveNums ps 2)
      preds := lanes.foldl (fun m l => bankMove grp.preds m ((moveNums ps 3).map (fun p => (l * 8 + p.1, l * 8 + p.2)))) [] }

/-- Where the poison of a register of the moving group goes; none where the register is not carried. -/
def movedPoison (ps : List (Loc × Loc)) (same : Bool) (r : Reg) : Option Reg :=
  let by_ (k n : Nat) (f : Nat → Reg) : Option Reg := if same then some (f n) else ((moveNums ps k).find? (fun p => p.1 == n)).map (fun p => f p.2)
  match r with
  | .v n => by_ 1 n .v
  | .k n => by_ 2 n .k
  | .p n => by_ 3 n .p
  | r => some r

/-- Lay carried tiles out one after another from a unit on; each keeps LEN, FMT, GEOM, SHARED and ATOMIC and is READY, or EMPTY as
its source (R294 step 2) (log 41, DESIGN CHOICE). -/
def layTiles : Nat → List (Nat × Nat × Tile) → List (Nat × Tile × Tile)
  | _, [] => []
  | at_, (_, n, t) :: l =>
    let new : Tile := { base := BitVec.ofNat 13 at_, len := t.len, fmt := t.fmt, geom := t.geom, shared := t.shared, atomic := t.atomic,
                        state := if t.state = .empty then .empty else .ready }
    (n, t, new) :: layTiles (at_ + t.len.toNat) l

/-- The entries of the new team for the channels that move with a group (R294 step 4): a queue it consumes lies in the new
storage from `base` on, one it only produces is REMOTE to its old team (log 41, DESIGN CHOICE). -/
def movedChans (g : GRef) (tm : Team) (grp target base : Nat) : Nat → List (Nat × Nat) → List (Nat × Chan)
  | _, [] => []
  | off, (n, m) :: l =>
    let c := tm.chan n
    if (endpointOf grp c).2 then (m, { c with qaddr := target * 2 ^ 21 + base * 256 + off, head := 0 }) :: movedChans g tm grp target base (off + c.storageBytes) l
    else (m, if c.remote then c else { c with remote := true, credit := c.depth - c.count, pq := n, pslot := g.slot, puid := tm.uid, count := 0, head := 0,
                                              qaddr := c.qaddr }) :: movedChans g tm grp target base off l

/-- The old team's entries after the move: of a queue that moved away to team `uid`, its producer's entry is REMOTE to that team; an entry
whose endpoints have both moved, the other one now or before (`away`), or that was REMOTE, is gone. -/
def leftChan (grp slot uid m qaddr : Nat) (away : List Nat) (c : Chan) : Chan :=
  match endpointOf grp c with
  | (true, true) => {}
  | (false, true) =>
    if c.peng || away.contains c.pgrp then {}
    else { c with remote := true, credit := c.depth - c.count, pq := m, pslot := slot, puid := uid, count := 0, head := 0, qaddr := qaddr }
  | (true, false) => if c.remote then {} else c
  | _ => c

/-- A queue that has moved (R294): core, slot, channel and team it moved from, and slot, channel, team and address it moved to. -/
structure QueueMove where
  core : Nat
  slot : Nat
  chan : Nat
  uid : Nat
  toSlot : Nat
  toChan : Nat
  toUid : Nat
  qaddr : Nat
  deriving DecidableEq, Repr

/-- Re-point an entry that is REMOTE to a queue that has moved (R294 step 4) (log 41, DESIGN CHOICE). -/
def QueueMove.repoint (m : QueueMove) (c : Chan) : Chan :=
  if c.remote ∧ (c.qaddr / 2 ^ 21, c.pslot, c.pq, c.puid) = (m.core, m.slot, m.chan, m.uid) then
    { c with qaddr := m.qaddr, pslot := m.toSlot, pq := m.toChan, puid := m.toUid }
  else c

/-- Re-point the entries of a core's teams to queues that have moved. -/
def Core.repoint (k : Core) (moves : List QueueMove) : Core :=
  let entry (c : Chan) : Chan := moves.foldl (fun c m => m.repoint c) c
  { k with teams := k.teams.map (fun (t : Nat × Team) => (t.1, { t.2 with chans := t.2.chans.map (fun (q : Nat × Chan) => (q.1, entry q.2)) })) }

/-- Move a parked group to a new team on a target core (R294) (log 41, DESIGN CHOICE). -/
def State.moveGroup (s : State) (g : GRef) (tm : Team) (grp : Group) (p : Park) (target : Nat) : State :=
  let n : Needs := s.parkNeeds g tm grp p
  let ps := s.parkPairs g tm p
  let same : Bool := isLcore g.core == p.lcore
  match s.freeTeamSlot target, s.placeTeamRanges target n.window (trapBytes grp.width / 256) (n.storage tm grp.num) with
  | some slot, some ((window, trapt, storage), s) =>
    let tiles := layTiles window n.tiles
    let chans := movedChans g tm grp.num target storage 0 n.chans
    let now := (s.core target).cycles
    let moved := movedRegs grp ps same (n.regs / max 1 grp.width)
    let moved : Group := { moved with
      park := none, buffers := [], migHist := [], epb := List.replicate 16 false, wait := none, sent := [], waited := 0,
      stays := none, lanes := moved.lanes.map (fun l => if l.live then { l with tr := p.ep, since := now, held := none, bindCall := none, acquires := [] } else l) }
    let new : Team := { tm with
      window := window, wlen := n.window, trapt := trapt, storage := storage, slen := n.storage tm grp.num, migrated := true, away := [],
      uid := s.nextAtomic, tstat := 0#32, tiles := (tiles.map (fun x => (x.1, x.2.2))).foldl (fun t x => tput t x.1 x.2) [], bars := [],
      chans := chans.foldl (fun t x => tput t x.1 x.2) [], puts := [], queues := [], tasks := [], fold := none,
      mxChains := 0, acc := n.accs.foldl (fun t a => match tget tm.acc a with | some v => tput t a v | none => t) [], accHold := [],
      accPoison := tm.accPoison.filter (fun p => n.accs.contains (p.key / 65536)), jobs := [],
      groups := [moved] }
    let s := { s with nextAtomic := s.nextAtomic + 1 }.setTeam target slot new
    let s := tiles.foldl (fun s x =>
      if x.2.1.state = .empty then s
      else s.copySegs [tileSeg g.core x.2.1 0 x.2.1.bytes] [tileSeg target x.2.2 0 x.2.2.bytes] []) s
    let frame := s.readTrapTile g 0 (trapBytes grp.width)
    let s := if grp.frame then s.writeTrapTile ⟨target, slot, 0⟩ 0 frame else s
    let s := (n.chans.zip chans).foldl (fun s x =>
      let c := tm.chan x.1.1
      if (endpointOf grp.num c).2 then s.putItems { x.2.2 with count := 0 } 0 (chanItems s c) else s) s
    let gone : GRef := ⟨target, slot, 0⟩
    let queues : List ((Nat × Nat) × Nat × Chan) := (n.chans.zip chans).filter (fun (x : (Nat × Nat) × Nat × Chan) => (endpointOf grp.num (tm.chan x.1.1)).2)
    let moves : List QueueMove := queues.map (fun x => ⟨g.core, g.slot, x.1.1, tm.uid, slot, x.1.2, new.uid, x.2.2.qaddr⟩)
    let s := { s with
      cores := s.cores.map (fun (k : Nat × Core) => (k.1, k.2.repoint moves)),
      regPoison := s.regPoison.filterMap (fun (r : RegPoison) => if r.g = g then (movedPoison ps same r.place.reg).map (fun x => { r with g := gone, place := { r.place with reg := x } }) else some r) }
    let left (cs : Table Chan) : Table Chan := (n.chans.zip chans).foldl (fun (t : Table Chan) (x : (Nat × Nat) × Nat × Chan) =>
      tput t x.1.1 (leftChan grp.num slot new.uid x.1.2 x.2.2.qaddr tm.away (tm.chan x.1.1))) cs
    (s.modTeam g.core g.slot (fun t => { t with
      away := grp.num :: t.away,
      chans := left t.chans,
      groups := t.groups.modify g.grp (fun y => { (y.retire y.live) with regs := [], preds := [], uregs := [], sr := [], vallot := 0, park := none, buffers := [], frame := false, hm := false, task := none }) })).noteEnded
      g.core g.slot
  | _, _ => s

/-- MIGRATION_MOVE: the subject names a parked group. The nearest qualifying core is its target; the move waits for what R294
says. -/
def execMigrationMove (s : State) : Host.Outcome State Fault Refusal :=
  let g := s.subject.g
  match s.team? g.core g.slot, s.group? g with
  | some tm, some grp =>
    match grp.park with
    | none => .next s
    | some p =>
      if s.moveReady g tm grp (s.parkNeeds g tm grp p) then
        match s.parkTarget g tm grp p with
        | some c => .next (s.moveGroup g tm grp p c)
        | none => .next s
      else .next s
  | _, _ => .next s

/-- PARK_LIMIT: the subject names a parked group for which no core qualifies, and whose limit is not "none" (R293, R297): MIGREF 6,
and every live lane goes to alt; a migration by the scheduler, whose alt is its ep, is not asked for there again (R298) (log 10, DESIGN
CHOICE). -/
def execParkLimit (s : State) : Host.Outcome State Fault Refusal :=
  let g := s.subject.g
  match s.team? g.core g.slot, s.group? g with
  | some tm, some grp =>
    match grp.park with
    | none => .next s
    | some p =>
      if bits (((s.ctx? tm.ctx).getD {}).migpol.toNat) 26 22 = 31 ∨ (s.parkTarget g tm grp p).isSome then .next s
      else .next ((s.modGroup g (fun x => { x.pendAt x.live p.alt (s.core g.core).cycles with
        park := none, migref := 6, stays := if p.ep = p.alt then some p.alt else none })).raisePlien (dieOf g.core) 10)
  | _, _ => .next s

/-! ### Parking a stage (R319) -/

/-- The spread queues of a team (R303). -/
def Team.spreadQueues (t : Team) : List (Nat × Chan) := t.chans.filter (fun p => p.2.mode == 1)

/-- The groups of a team's chain that have not ended, by group number, each with where it stands (R312, R313). -/
def State.chainGroups (s : State) (core slot : Nat) (tm : Team) : List (GRef × Group) :=
  ((s.chainTeams core slot tm).flatMap (fun p => match s.team? p.1 p.2 with
    | some t => (t.groups.zipIdx.filter (fun x => !x.1.live.isEmpty)).map (fun x => ((⟨p.1, p.2, x.2⟩ : GRef), x.1))
    | none => [])).mergeSort (fun a b => decide (a.2.num ≤ b.2.num))

/-- Whether a group of a chain, by its number, has parked for a fold or ended (R319). -/
def State.parkedOrEnded (s : State) (core slot : Nat) (tm : Team) (n : Nat) : Bool :=
  tm.parkedStages.contains (tm.stageOf n) || (s.chainGroups core slot tm).all (fun a => a.2.num != n)

/-- The EP at which every live lane of a group is pending, held by nothing (R319). -/
def State.commonEp (s : State) (ctx : Nat) (grp : Group) : Option TRef :=
  match grp.live with
  | [] => none
  | l0 :: _ =>
    let t := (grp.lane l0).tr
    if grp.live.all (fun l => let x := grp.lane l; decide (x.tr = t) && x.held.isNone && x.acquires.isEmpty && x.bindCall.isNone)
      ∧ ((s.trace? ctx t).map (·.ep)).getD false = true then some t else none

/-- Whether a group stage parks for a latched fold (R319 step 1). -/
def State.stageParks (s : State) (g : GRef) (tm : Team) (grp : Group) : Bool :=
  tm.foldLatched && !tm.folded && !tm.parkedStages.contains (tm.stageOf grp.num) && grp.exec.isNone && !grp.hm && !grp.frame && grp.park.isNone
    && (s.commonEp tm.ctx grp).isSome && (upto grp.num).all (s.parkedOrEnded g.core g.slot tm)
    && tm.spreadQueues.all (fun q => q.2.remote || !(endpointOf grp.num q.2).2 || decide (q.2.count ≤ grp.live.length))

/-- STAGE_PARK: the subject names a stage's group. -/
def execStagePark (s : State) : Host.Outcome State Fault Refusal :=
  let g := s.subject.g
  match s.team? g.core g.slot, s.group? g with
  | some tm, some grp =>
    if s.stageParks g tm grp then .next (s.modChain g.core g.slot (fun t => { t with parkedStages := t.stageOf grp.num :: t.parkedStages }))
    else .next s
  | _, _ => .next s

/-! ### The fold (R319, R320) -/

/-- The fold map of a parked stage in the encoding of its core: base and count (R319 step 3). -/
def State.foldMap (s : State) (core ctx : Nat) (grp : Group) : Nat × Nat :=
  match (s.commonEp ctx grp).bind (s.flashOf ctx) with
  | some f => if isLcore core then (f.lvbase, f.lvcount) else (f.dvbase, f.dvcount)
  | none => (0, 0)

/-- Whether no two ranges overlap and none passes a bound. -/
def rangesFit (room : Nat) : List (Nat × Nat) → Bool
  | [] => true
  | r :: l => decide (r.1 + r.2 ≤ room) && l.all (fun q => !unitsOverlap r.1 r.2 q.1 q.2) && rangesFit room l

/-- The spread queues of a chain where they are stored: the team that holds each queue, its number and its entry (R303). -/
def State.chainQueues (s : State) (core slot : Nat) (tm : Team) : List ((Nat × Nat) × Nat × Chan) :=
  (s.chainTeams core slot tm).flatMap (fun p => match s.team? p.1 p.2 with
    | some t => (t.spreadQueues.filter (fun q => !q.2.remote)).map (fun q => (p, q.1, q.2))
    | none => [])

/-- The live lanes of the stage that consumes a channel; none once it has ended. -/
def consumerLanes (act : List (GRef × Group)) (c : Chan) : List Nat := ((act.find? (fun a => a.2.num == c.cgrp)).map (fun a => a.2.live)).getD []

/-- The refusal that a fold meets (R320), as CHREF has it; 0 for none. `act` are the groups that have not ended (log 40, DEDUCED). -/
def State.foldRefusal (s : State) (core slot : Nat) (tm : Team) (act : List (GRef × Group)) : Nat :=
  if act.any (fun a => a.2.frame || a.2.hm || a.2.park.isSome) then 5
  else match act with
    | [] => 0
    | t :: _ =>
      if act.any (fun a => a.2.live != t.2.live || isLcore a.1.core != isLcore t.1.core) then 4
      else if (s.chainQueues core slot tm).any (fun q => decide ((consumerLanes act q.2.2).length < q.2.2.count)) then 3
      else if !rangesFit t.2.vallot (act.map (fun a => s.foldMap a.1.core tm.ctx a.2)) then 1
      else 0

/-- The thread's record and group for a fold of these groups (R315, R319 steps 2 to 4): the returns outstanding for a stage's registers are the
thread's, for the registers they have become (R170) (log 40, DEDUCED). -/
def State.foldRecord (s : State) (core slot : Nat) (tm : Team) (thread : Group) (act : List (GRef × Group)) : Fold × Group :=
  let ls := upto thread.width
  let st (g : Group) : Nat := tm.stageOf g.num
  let map (a : GRef × Group) : Nat × Nat := s.foldMap a.1.core tm.ctx a.2
  let base (n : Nat) : Nat × Nat := match act.find? (fun a => st a.2 == n) with | some a => map a | none => (0, 0)
  let regs := act.foldl (fun m a =>
    let (b, c) := map a
    ls.foldl (fun m l => bankMove a.2.regs m ((upto c).map (fun r => (l * 256 + r, l * 256 + b + r)))) m) thread.regs
  let items : List (Nat × Nat × Nat) := (s.chainQueues core slot tm).flatMap (fun q =>
    ((chanItems s q.2.2).zip (consumerLanes act q.2.2)).map (fun p => (p.2, q.2.1, p.1)))
  let fo : Fold := {
    thread := thread.num, stage := st thread, groups := act.map (·.2.num), last := st thread,
    sites := act.foldl (fun m a => tput m (st a.2) a.1) [],
    owed := act.flatMap (fun a => if a.2.num = thread.num then [] else a.2.owed.map (fun o => (st a.2, o))),
    vbase := (upto 8).map (fun n => (base n).1), vcount := (upto 8).map (fun n => (base n).2),
    cont := act.foldl (fun c a => ls.foldl (fun c l => tput c (st a.2 * 128 + l) (a.2.lane l)) c) [],
    kbank := act.foldl (fun m a => bankMove a.2.uregs m ((upto 24).map (fun n => (n, st a.2 * 32 + n)))) [],
    pbank := act.foldl (fun m a => ls.foldl (fun m l => sput m (st a.2 * 128 + l) (predByte a.2.preds l)) m) [],
    sbank := act.foldl (fun m a => bankMove a.2.sr m (ls.map (fun l => (l, st a.2 * 128 + l)))) [],
    slots := items.foldl (fun m i => sput m (slotKey i.1 i.2.1) (BitVec.ofNat 128 i.2.2)) [],
    full := items.foldl (fun m i => sput m (slotKey i.1 i.2.1) 1#1) [] }
  (fo, { thread with
    regs := regs, sent := act.flatMap (fun a => a.2.sent),
    returns := act.flatMap (fun a => a.2.returns.map (fun r => { r with dst := r.dst + (map a).1 })) })

/-- Where a register's poison goes at a fold: to the thread's register, or to the stage's bank (R319 step 3). -/
def State.foldPoison (s : State) (tm : Team) (act : List (GRef × Group)) (thread : GRef) (r : RegPoison) : RegPoison :=
  match act.find? (fun a => a.1 == r.g) with
  | none => r
  | some a => match r.place.reg with
    | .v n => { r with g := thread, place := { r.place with reg := .v (n + (s.foldMap a.1.core tm.ctx a.2).1) } }
    | _ => if r.g = thread then r else { r with g := { thread with grp := 128 + tm.stageOf a.2.num } }

/-- A dormant stage's group: what it held is the thread's (R315). -/
def Group.dormant (g : Group) : Group :=
  { g.modLanes (upto g.width) (fun _ => {}) with regs := [], preds := [], uregs := [], sr := [], buffers := [], owed := [], returns := [], sent := [] }

/-- The group to which a sent atomic or a held operation returns, where groups of a chain fold or spread. -/
def State.reSend (s : State) (to_ : Nat → GRef → GRef) : State :=
  { s with sent := s.sent.map (fun (a : Nat × SentAtomic) => (a.1, { a.2 with g := to_ a.1 a.2.g })),
           held := s.held.map (fun (h : HeldOp) => { h with g := to_ h.id h.g }) }

/-- A chain team's groups as a fold leaves them. -/
def foldGroups (core slot : Nat) (at_ : GRef) (thread : Group) (act : List (GRef × Group)) (gs : List Group) : List Group :=
  gs.mapIdx (fun i x =>
    let here : GRef := ⟨core, slot, i⟩
    if here = at_ then thread else if act.any (fun a => a.1 == here) then x.dormant else x)

/-- Perform a fold of these groups, of which `thread` is the thread (R319). In the thread's team every spread queue of the chain has an entry
(log 40, DEDUCED). -/
def State.foldInto (s : State) (g : GRef) (tm : Team) (thread : GRef × Group) (act : List (GRef × Group)) : State :=
  let (fo, grp) := s.foldRecord g.core g.slot tm thread.2 act
  let queues := s.chainQueues g.core g.slot tm
  let slots (cs : Table Chan) : Table Chan := cs.map (fun q => if q.2.mode = 1 then (q.1, { q.2 with mode := 2, count := 0, head := 0, owed := 0 }) else q)
  let all (cs : Table Chan) : Table Chan := queues.foldl (fun cs q => if (tget cs q.2.1).isSome then cs else tput cs q.2.1 q.2.2) cs
  let s := { s with regPoison := s.regPoison.map (s.foldPoison tm act thread.1) }.reSend (fun _ r => if act.any (fun a => a.1 == r) then thread.1 else r)
  (s.chainTeams g.core g.slot tm).foldl (fun s p => s.modTeam p.1 p.2 (fun t =>
    let mine : Bool := p.1 == thread.1.core && p.2 == thread.1.slot
    { t with
      foldLatched := false, parkedStages := [], folded := true, fold := if mine then some fo else none,
      chans := slots (if mine then all t.chans else t.chans), groups := foldGroups p.1 p.2 thread.1 grp act t.groups })) s

/-- Perform a fold, or refuse it: parked stages resume, the request is cleared and CHREF set (R319, R320). -/
def State.foldChain (s : State) (g : GRef) (tm : Team) : State :=
  let act := s.chainGroups g.core g.slot tm
  match s.foldRefusal g.core g.slot tm act, act with
  | 0, thread :: _ => s.foldInto g tm thread act
  | 0, [] => s.modChain g.core g.slot (fun t => { t with foldLatched := false, parkedStages := [] })
  | why, _ => s.modChain g.core g.slot (fun t => { t with foldLatched := false, parkedStages := [], chref := why })

/-- Whether no put or task instruction of a team's chain waits for an atomic, and none of its groups passes a boundary. -/
def State.chainPutsDone (s : State) (core slot : Nat) (tm : Team) : Bool :=
  (s.chainTeams core slot tm).all (fun p => match s.team? p.1 p.2 with
    | some t => t.puts.isEmpty && t.tasks.isEmpty && t.groups.all (fun x => x.boundary.isNone)
    | none => true)

/-- CHAIN_FOLD_PERFORM: the subject's team has a fold latched, every group stage of its chain has parked or ended (or is stopped, which
refuses the fold), and no put waits for an atomic. -/
def execChainFoldPerform (s : State) : Host.Outcome State Fault Refusal :=
  let g := s.subject.g
  match s.team? g.core g.slot with
  | some tm =>
    if tm.foldLatched && !tm.folded && s.chainPutsDone g.core g.slot tm
      && (s.chainGroups g.core g.slot tm).all (fun a => tm.parkedStages.contains (tm.stageOf a.2.num) || a.2.frame || a.2.hm || a.2.park.isSome)
    then .next (s.foldChain g tm)
    else .next s
  | none => .next s

/-! ### The spread (R321) -/

/-- Whether a spread takes place now: the thread has no execution and every continuation of a live lane is an EP. -/
def State.spreadable (s : State) (g : GRef) (tm : Team) (fo : Fold) (grp : Group) : Bool :=
  let ep (l : Lane) : Bool := !l.live || (l.bindCall.isNone && ((s.trace? tm.ctx l.tr).map (·.ep)).getD false)
  grp.exec.isNone && !grp.hm && !grp.frame && grp.lanes.all ep && fo.cont.all (fun p => p.1 / 128 == fo.stage || ep p.2)
    && s.chainPutsDone g.core g.slot tm

/-- The full slots of a folded channel, in ascending lane number. -/
def Fold.items (fo : Fold) (w q : Nat) : List Nat :=
  ((upto w).filter (fun l => sget fo.full (slotKey l q) == 1#1)).map (fun l => (sget fo.slots (slotKey l q)).toNat)

/-- The stage in whose range of the thread's registers a register lies (R315). -/
def Fold.stageOfReg (fo : Fold) (n : Nat) : Option Nat :=
  (fo.sites.map (·.1)).find? (fun st => decide (nth fo.vbase st 0 ≤ n ∧ n < nth fo.vbase st 0 + nth fo.vcount st 0))

/-- The thread's outstanding returns for registers of a stage, as the stage's group names them (R170, R321). -/
def Fold.returnsOf (fo : Fold) (th : Group) (st : Nat) : List Return :=
  (th.returns.filter (fun r => fo.stageOfReg r.dst == some st)).map (fun r => { r with dst := r.dst - nth fo.vbase st 0 })

/-- A stage's group as the spread gives it back (R321): its lanes, bank and registers, the returns due to them, and what its atomics' boundaries
wait for, which the thread does not tell apart. `th` is the thread in its own stage. -/
def spreadGroup (fo : Fold) (th : Group) (st : Nat) (x : Group) : Group :=
  let ls := upto x.width
  let back (m : SMap 32) : SMap 32 := ls.foldl (fun m l => bankMove th.regs m ((upto (nth fo.vcount st 0)).map (fun r => (l * 256 + nth fo.vbase st 0 + r, l * 256 + r)))) m
  if x.num = fo.thread then { th with regs := back th.regs, returns := fo.returnsOf th st }
  else { x with
    regs := back [], returns := fo.returnsOf th st, sent := th.sent,
    lanes := ls.map (fun l => (tget fo.cont (st * 128 + l)).getD {}),
    uregs := bankMove fo.kbank [] ((upto 24).map (fun n => (st * 32 + n, n))),
    preds := ls.foldl (fun m l => (upto 7).foldl (fun m n =>
      sput m (l * 8 + n) (BitVec.ofBool ((sget fo.pbank (st * 128 + l)).getLsbD n))) m) [],
    sr := bankMove fo.sbank [] (ls.map (fun l => (st * 128 + l, l))),
    owed := (fo.owed.filter (fun o => o.1 == st)).map (·.2) }

/-- The stage whose group stands at a place. -/
def Fold.stageAt (fo : Fold) (g : GRef) : Option Nat := (fo.sites.find? (fun p => p.2 == g)).map (·.1)

/-- Where a register's poison goes at a spread: back to the stage whose range holds it. -/
def spreadPoison (thread : GRef) (fo : Fold) (r : RegPoison) : RegPoison :=
  let back (p : (Nat × GRef) → Bool) (f : (Nat × GRef) → RegPoison) : RegPoison := match fo.sites.find? p with | some x => f x | none => r
  if r.g.core ≠ thread.core ∨ r.g.slot ≠ thread.slot then r
  else match r.place.reg with
    | .v n => if r.g ≠ thread then r
      else back (fun p => decide (nth fo.vbase p.1 0 ≤ n ∧ n < nth fo.vbase p.1 0 + nth fo.vcount p.1 0))
        (fun p => { r with g := p.2, place := { r.place with reg := .v (n - nth fo.vbase p.1 0) } })
    | _ => back (fun p => 128 + p.1 == r.g.grp) (fun p => { r with g := p.2 })

/-- A chain team's channels after a spread: a queue stored here holds the full slots, a producer away from its queue has the credit that its
items leave, and an entry with no end here was the thread's only. -/
def spreadChans (fo : Fold) (w : Nat) (gs : List Group) (cs : Table Chan) : Table Chan :=
  let here (n : Nat) : Bool := gs.any (fun g => g.num == n)
  (cs.filter (fun q => q.2.mode != 2 || q.2.peng || q.2.ceng || here q.2.pgrp || here q.2.cgrp)).map (fun q =>
    let n := (fo.items w q.1).length
    if q.2.mode = 2 then (q.1, { q.2 with mode := 1, head := 0, count := if q.2.remote then 0 else n, credit := if q.2.remote then q.2.depth - n else q.2.credit })
    else q)

/-- A chain team after a spread of the thread that stands at `at_`. -/
def Team.spread (t : Team) (core slot : Nat) (fo : Fold) (th : Group) : Team :=
  { t with
    spreadLatched := false, folded := false, fold := none, chans := spreadChans fo th.width t.groups t.chans,
    groups := t.groups.mapIdx (fun i x => match fo.stageAt ⟨core, slot, i⟩ with | some st => spreadGroup fo th st x | none => x) }

/-- Give every stage of a folded chain its group back (R321). The thread stands in its own stage. -/
def State.spreadOut (s : State) (g : GRef) (tm : Team) (fo : Fold) (th : Group) : State :=
  let thread : GRef := ⟨g.core, g.slot, tm.threadPlace fo⟩
  let home (id : Nat) (r : GRef) : GRef :=
    if r ≠ thread then r
    else (((th.returns.find? (fun x => x.id == id)).bind (fun x => fo.stageOfReg x.dst)).bind (fun st => tget fo.sites st)).getD r
  let s := { s with regPoison := s.regPoison.map (spreadPoison thread fo) }.reSend home
  let teams := s.chainTeams g.core g.slot tm
  let s := teams.foldl (fun s p => match s.team? p.1 p.2 with
    | none => s
    | some t =>
      let t' := t.spread p.1 p.2 fo th
      t'.chans.foldl (fun s q => if (t.chan q.1).mode = 2 ∧ !q.2.remote then s.putItems { q.2 with head := 0 } 0 (fo.items th.width q.1) else s)
        (s.setTeam p.1 p.2 t')) s
  teams.foldl (fun s p => s.noteEnded p.1 p.2) s

/-- Spread a folded chain, or refuse it with CHAIN_QUEUE where a channel has more full slots than DEPTH (R321) (log 40, DEDUCED). -/
def State.spreadChain (s : State) (g : GRef) (tm : Team) (fo : Fold) : State :=
  match tm.groups[tm.threadPlace fo]? with
  | none => s
  | some th0 =>
    if tm.chans.any (fun q => q.2.mode == 2 && decide (q.2.depth < (fo.items th0.width q.1).length)) then
      s.modChain g.core g.slot (fun t => { t with spreadLatched := false, chref := 3 })
    else
      let s := s.switchStage g.core g.slot (tm.stageOf fo.thread)
      match s.team? g.core g.slot with
      | none => s
      | some tm =>
        match tm.fold, tm.groups[tm.threadPlace fo]? with
        | some fo, some th => s.spreadOut g tm fo th
        | _, _ => s

/-- CHAIN_SPREAD_PERFORM: the subject's team has a spread latched and its thread may spread. -/
def execChainSpreadPerform (s : State) : Host.Outcome State Fault Refusal :=
  let g := s.subject.g
  match s.team? g.core g.slot with
  | some tm =>
    match tm.fold with
    | some fo =>
      if tm.folded && tm.spreadLatched && (match tm.groups[tm.threadPlace fo]? with | some th => s.spreadable g tm fo th | none => false) then
        .next (s.spreadChain g tm fo)
      else .next s
    | none => .next s
  | none => .next s

/-- SCHEDULER_CHAIN_LATCH: the scheduler latches a fold, or with `ok` a spread, for the subject's chain (R323). -/
def execSchedulerChainLatch (s : State) : Host.Outcome State Fault Refusal :=
  let g := s.subject.g
  match s.team? g.core g.slot with
  | some tm => if tm.stages.isEmpty then .next s else .next (s.latchChain g.core g.slot s.subject.ok)
  | none => .next s

end Sys2Proof.Machine
end

