-- ==== Sys2Proof/Machine/Launch.lean ====
section
/-!
DEFINITION. Host-visible queues and packets (R326 to R337, R440), the admission of teams and gangs (R246, R247, R335 to R337,
R346), the grant of ACQUIRE (R105, R247), and the end of a team (R106).
-/
namespace Sys2Proof.Machine

/-! ### Queues -/

/-- Change a queue. -/
def State.modQueue (s : State) (q : Nat) (f : HwQueue → HwQueue) : State :=
  match tget s.queues q with
  | some x => { s with queues := tput s.queues q (f x) }
  | none => s

/-- Change a claimed packet of a queue. -/
def State.modPacket (s : State) (q i : Nat) (f : Packet → Packet) : State :=
  s.modQueue q (fun x => { x with packets := x.packets.map (fun p => if p.idx = i then f p else p) })

/-- A claimed packet of a queue. -/
def State.packet? (s : State) (q i : Nat) : Option (HwQueue × Packet) :=
  match tget s.queues q with
  | none => none
  | some x => (x.packets.find? (fun p => p.idx == i)).map (fun p => (x, p))

/-- Stop a queue: QSTAT.QOVER is set, a QOVER event names the cause, and QUEUE_OVER is raised (R327, R448, R467). -/
def State.stopQueue (s : State) (q cause : Nat) : State :=
  match tget s.queues q with
  | none => s
  | some x => ((s.modQueue q (fun x => { x with qover := true })).postEvent 3 x.ctx (toBytesLE 2 q ++ toBytesLE 2 cause)).raisePlien 0 7

/-- DOORBELL: queue `a` is written value `b` (R327, R440). -/
def execDoorbell (s : State) : Host.Outcome State Fault Refusal :=
  let u := s.subject
  let v := u.b % 2 ^ 32
  match tget s.queues u.a with
  | none => .next s
  | some x =>
    if 2 ^ 31 ≤ (v + 2 ^ 32 - x.tail) % 2 ^ 32 then .next s
    else
      let s := s.modQueue u.a (fun x => { x with tail := v })
      if x.slots < (v + 2 ^ 32 - x.head) % 2 ^ 32 then .next (if x.qover then s else s.stopQueue u.a 0) else .next s

/-- Whether a context may run anything now: not stopped, descheduled or pre-empted (R334, R356, R360). -/
def State.ctxRuns (s : State) (ctx : Nat) : Bool :=
  match s.ctx? ctx with
  | none => false
  | some c => c.stopped.isNone && !c.descheduled && !c.preempted

/-- Whether a queue's packets may start (R334, R440). -/
def State.queueServes (s : State) (x : HwQueue) : Bool := x.mapped && !x.qover && !x.removing && s.ctxRuns x.ctx

/-- Whether a packet may go on (R327, R331, R334): one that has started does while its context runs, whatever has become of its queue. -/
def State.packetServes (s : State) (x : HwQueue) (p : Packet) : Bool := if p.started then s.ctxRuns x.ctx else s.queueServes x

/-- The queues of a fallback scheduler from the one after its last on, going round (R357). -/
def Die.fallbackOrder (d : Die) : List Nat := d.fbQueues.filter (fun q => decide (d.fbLast < q)) ++ d.fbQueues.filter (fun q => decide (q ≤ d.fbLast))

/-- Whether an agent of a core claims slots of a queue (R357): on a die that the fallback scheduler serves, only the COMMAND queue whose turn
it is, of those mapped when it began that have a slot to claim and none whose read still waits. -/
def State.mayClaim (s : State) (core q : Nat) : Bool :=
  let d := s.die (dieOf core)
  let claimable (k : Nat) : Bool := match tget s.queues k with | some x => x.kind == 1 && x.next != x.tail && s.queueServes x && x.packets.all (fun p => !p.bytes.isEmpty) | none => false
  !d.fallback || d.fallbackOrder.find? claimable == some q

/-- The address of a slot (R327). -/
def HwQueue.slotVa (x : HwQueue) (i : Nat) : Nat := x.base + 64 * (i % max 1 x.slots)

/-- The context's KEYPERM, under which the serving agent reaches memory (R34, R327). -/
def State.keypermOf (s : State) (ctx : Nat) : BitVec 64 := ((s.ctx? ctx).map (·.keyperm)).getD 0#64

/-- What an agent's access to memory for a queue gives. -/
inductive Reach where
  | ok (key : Nat)
  | later
  | bad (cause : Nat)
  deriving DecidableEq, Repr

/-- Whether Plien may cure a cause (R33, R359, R464): NOT_PRESENT, HOST_PAGE or ATS_TIMEOUT. -/
def curable (cause : Nat) : Bool := cause == 134 || cause == 143 || cause == 158

/-- Reach `n` bytes at an address for a queue (R55, R327, R331): a page that is NOT_PRESENT, or a host page that PRI may cure, posts a fault
record with JOB 0 and an ELEM, and the packet waits on the page. -/
def State.reach (s : State) (q i core ctx va n acc elem : Nat) : Reach × State :=
  match s.translateBytes { core := core, who := asks 6 q i, ctx := ctx, va := va, acc := acc, keyperm := s.keypermOf ctx } n with
  | (.ok key _, s) => (.ok key, s)
  | (.wait _, s) => (.later, s)
  | (.fail c tier, s) =>
    if curable c then
      let r : FaultRecord := { cause := c, srck := 0, ctx := ctx, va := va, elem := elem, acc := if acc = 2 then 2 else acc, tier := tier, core := core }
      (.later, (s.postRecord (dieOf core) r).modPacket q i (fun p => { p with die := dieOf core, page := some (va / 4096), va := va, elem := elem }))
    else (.bad c, s)

/-- Claim the next slot of a queue for the agent of a core (R333), and read it (R327). A slot whose read waits stays claimed with
no bytes. -/
def State.claim (s : State) (q core : Nat) : State :=
  match tget s.queues q with
  | none => s
  | some x =>
    match x.packets.find? (fun p => p.bytes.isEmpty) with
    | some p =>
      if p.page.isSome ∨ !s.queueServes x then s
      else match s.reach q p.idx core x.ctx (x.slotVa p.idx) 64 0 0xFE20 with
        | (.ok key, s) => s.modPacket q p.idx (fun p => { p with bytes := s.mem.readBytes key 64 })
        | (.later, s) => s
        | (.bad c, s) => s.stopQueue q c
    | none =>
      if x.next = x.tail ∨ !s.queueServes x ∨ !s.mayClaim core q then s
      else
        let s := s.modDie (dieOf core) (fun d => { d with fbLast := q })
        let s := s.modQueue q (fun x => { x with next := (x.next + 1) % 2 ^ 32, packets := x.packets ++ [{ idx := x.next, bytes := [], die := dieOf core }] })
        match s.reach q x.next core x.ctx (x.slotVa x.next) 64 0 0xFE20 with
        | (.ok key, s) => s.modPacket q x.next (fun p => { p with bytes := s.mem.readBytes key 64 })
        | (.later, s) => s
        | (.bad c, s) => s.stopQueue q c

/-- Whether the fallback scheduler, where it serves the agent's die, serves a packet (R357): not a LAUNCH with GANG. -/
def State.agentServes (s : State) (core : Nat) (p : List Byte) : Bool :=
  !(s.die (dieOf core)).fallback || !(leAt p 0 1 == 1 && bit (leAt p 1 1) 3)

/-- Whether a packet or record may start (R331, R346): every earlier one has started, and with BARRIER or BAR every earlier one
has completed. -/
def HwQueue.mayStart (x : HwQueue) (p : Packet) (barrier : Bool) : Bool :=
  let before := x.packets.takeWhile (fun r => r.idx != p.idx)
  before.all (fun r => r.started) && (!barrier || before.all (fun r => r.completed))

/-- Whether some bytes of a packet are all zero. -/
def zeroBytes (p : List Byte) (l : List (Nat × Nat)) : Bool := l.all (fun r => leAt p r.1 r.2 == 0)

/-- Whether a packet's header and trailer break R328. -/
def headerBad (p : List Byte) : Bool :=
  let t := leAt p 0 1
  t == 0 || decide (3 < t) || !zeroBytes p [(2, 2), (49, 7)] || bits (leAt p 1 1) 7 4 != 0 || (t != 1 && bit (leAt p 1 1) 3)

/-- PACKET_CLAIM: the agent of the subject's core claims the next slot of COMMAND queue `a`; or a malformed packet whose turn to start has
come fails (R331, R332). -/
def execPacketClaim (s : State) : Host.Outcome State Fault Refusal :=
  let u := s.subject
  match tget s.queues u.a with
  | none => .next s
  | some x =>
    if x.kind ≠ 1 then .next s
    else
      match x.packets.find? (fun p => !p.bytes.isEmpty && !p.started && p.status == 0 && headerBad p.bytes && s.queueServes x
          && x.mayStart p (bit (leAt p.bytes 1 1) 0)) with
      | some p => .next (s.modPacket u.a p.idx (fun p => { p with started := true, status := 2 }))
      | none => .next (s.claim u.a u.g.core)

/-! ### A packet's fields -/

/-- The extents of a LAUNCH (R329). -/
def launchExtents (p : List Byte) : Nat × Nat × Nat := (leAt p 16 4, leAt p 20 4, leAt p 24 4)

/-- The kernel that a LAUNCH names. -/
def State.launchKernel (s : State) (ctx : Nat) (p : List Byte) : Option Kernel :=
  let h := leAt p 8 4
  if h = 0 then none else (s.object? ctx h h).bind (fun o => o.kernels[leAt p 4 4]?)

/-- Whether a kernel has an encoding for some enabled core kind of the part (R14, R332, R346). -/
def State.hasKind (s : State) (k : Kernel) : Bool := k.d9 || (k.l9 && s.featmask.getLsbD 2)

/-- The STATUS with which a LAUNCH fails before it starts (R332); 0 where it does not. -/
def State.launchFault (s : State) (ctx : Nat) (p : List Byte) : Nat :=
  let (x, y, z) := launchExtents p
  let gang := bit (leAt p 1 1) 3
  let gw := bits (leAt p 28 1) 3 0
  let gh := bits (leAt p 28 1) 7 4
  if !zeroBytes p [(12, 4), (29, 3), (40, 8)] ∨ x * y * z = 0 ∨ 2 ^ 32 < x * y * z ∨ (!gang && leAt p 28 1 != 0) = true
      ∨ (gang && (gw == 0 || gh == 0 || decide (12 < gw) || decide (12 < gh) || decide (12 < gw * gh))) = true then 2
  else match s.launchKernel ctx p with
    | none => 2
    | some k =>
      if (gang && !k.d9 && decide (1 < gw)) = true ∨ (k.argu ≠ 0 ∧ leAt p 32 8 % 256 ≠ 0) then 2
      else if !s.hasKind k then 6
      else 0

/-- LAUNCH: packet `b` of queue `a` is a LAUNCH that may start: it fails, or its grid is known and its teams may be admitted (R331,
R332, R335). -/
def execLaunch (s : State) : Host.Outcome State Fault Refusal :=
  let u := s.subject
  match s.packet? u.a u.b with
  | none => .next s
  | some (x, p) =>
    if p.started || p.status != 0 || p.teams != 0 || p.bytes.isEmpty || leAt p.bytes 0 1 != 1 || !s.queueServes x
        || !s.agentServes (512 * p.die) p.bytes || !x.mayStart p (bit (leAt p.bytes 1 1) 0) then .next s
    else
      let (a, b, c) := launchExtents p.bytes
      match s.launchFault x.ctx p.bytes with
      | 0 => .next { s.modPacket u.a u.b (fun p => { p with teams := a * b * c, since := s.waits }) with waits := s.waits + 1 }
      | k => .next (s.modPacket u.a u.b (fun p => { p with started := true, status := k }))

/-- NOP_PACKET: packet `b` of queue `a` is a NOP that may start: it completes at once (R331). -/
def execNopPacket (s : State) : Host.Outcome State Fault Refusal :=
  let u := s.subject
  match s.packet? u.a u.b with
  | none => .next s
  | some (x, p) =>
    if p.started || p.bytes.isEmpty || leAt p.bytes 0 1 != 3 || !s.queueServes x || !x.mayStart p (bit (leAt p.bytes 1 1) 0) then .next s
    else .next (s.modPacket u.a u.b (fun p => { p with started := true, status := if zeroBytes p.bytes [(4, 44)] then 1 else 2 }))

/-- The team that a FEED names, if its grid is still running (R330, R332): none where there is no such grid, or no such team
task queue of it. -/
def State.feedGrid (s : State) (ctx : Nat) (p : List Byte) : Option Packet :=
  match s.packet? (leAt p 16 2) (leAt p 20 4) with
  | none => none
  | some (x, l) =>
    if x.ctx ≠ ctx ∨ l.completed ∨ l.status ≠ 0 ∨ l.teams = 0 ∨ l.teams ≤ leAt p 8 4 ∨ leAt l.bytes 0 1 ≠ 1 then none
    else match s.launchKernel ctx l.bytes with
      | some k => if k.tqs.any (fun q => q.queue == leAt p 12 1) then some l else none
      | none => none

/-- FEED: packet `b` of queue `a` is a FEED that may start: it fails where it is malformed or has no target (R330, R332). -/
def execFeed (s : State) : Host.Outcome State Fault Refusal :=
  let u := s.subject
  match s.packet? u.a u.b with
  | none => .next s
  | some (x, p) =>
    if p.started || p.status != 0 || p.teams != 0 || p.bytes.isEmpty || leAt p.bytes 0 1 != 2 || !s.queueServes x
        || !x.mayStart p (bit (leAt p.bytes 1 1) 0) then .next s
    else
      let b := p.bytes
      let fail (k : Nat) : Host.Outcome State Fault Refusal := .next (s.modPacket u.a u.b (fun p => { p with started := true, status := k }))
      if !zeroBytes b [(13, 3), (18, 2), (32, 16)] || decide (16 ≤ leAt b 12 1) || leAt b 4 4 == 0 || decide (65536 < leAt b 4 4)
          || leAt b 24 8 % 64 != 0 then fail 2
      else match s.feedGrid x.ctx b with
        | none => fail 3
        | some _ => .next (s.modPacket u.a u.b (fun p => { p with teams := 1 }))

/-- FEED_APPEND: the agent of the subject's core appends the next record of FEED packet `b` of queue `a`, when its queue has room; the
packet starts with its first record (R330, R331, R345). -/
def execFeedAppend (s : State) : Host.Outcome State Fault Refusal :=
  let u := s.subject
  match s.packet? u.a u.b with
  | none => .next s
  | some (x, p) =>
    let b := p.bytes
    if p.teams == 0 || p.status != 0 || p.page.isSome || leAt b 0 1 != 2 || !s.packetServes x p then .next s
    else match s.resolveTeam x.ctx (leAt b 16 2) (leAt b 20 4) (0, 0) false (leAt b 8 4) with
      | .later => .next s
      | .never => .next (s.modPacket u.a u.b (fun p => { p with started := true, status := 3 }))
      | .here core slot =>
        if s.tqRoom core slot (leAt b 12 1) = 0 then .next s
        else match s.reach u.a u.b u.g.core x.ctx (leAt b 24 8 + 64 * p.appended) 64 0 0xFE20 with
          | (.later, s) => .next s
          | (.bad _, s) => .next (s.modPacket u.a u.b (fun p => { p with started := true, status := 4 }))
          | (.ok key, s) =>
            .next ((s.tqAppend core slot (leAt b 12 1) (s.mem.readBytes key 64)).modPacket u.a u.b (fun p =>
              { p with started := true, appended := p.appended + 1, status := if p.appended + 1 = leAt b 4 4 then 1 else 0 }))

/-! ### Completion (R331) -/

/-- The resident or saved teams that a packet or record created, those migrated from them included. -/
def State.gridTeams (s : State) (q i : Nat) : List Team :=
  let mine (t : Team) : Bool := t.lqueue == q && t.lslot == i
  (s.residents.filterMap (fun p => s.team? p.1 p.2)).filter mine ++ (s.ctxs.flatMap (fun c => c.2.saved.map (·.team))).filter mine

/-- Whether what a packet or record started has ended, with its STATUS (R331, R346). -/
def State.packetDone (s : State) (q : Nat) (x : HwQueue) (p : Packet) : Option Nat :=
  if p.status ≠ 0 then some p.status
  else if !p.started then none
  else if x.kind = 2 then
    if (s.gridTeams q p.idx).all (fun t => t.groups.all (fun g => g.task.isNone || g.taskQueue != 16)) then some 1 else none
  else if leAt p.bytes 0 1 = 1 ∧ p.created = p.teams ∧ (s.gridTeams q p.idx).isEmpty then some 1
  else none

/-- Advance HEAD past every completed packet that follows it without a gap (R331). -/
def HwQueue.advance (x : HwQueue) : Nat → HwQueue
  | 0 => x
  | fuel + 1 => match x.packets with
    | p :: ps => if p.idx = x.head ∧ p.completed then { x with head := (x.head + 1) % 2 ^ 32, packets := ps }.advance fuel else x
    | [] => x

/-- A packet has completed (log 42, DEDUCED). -/
def State.packetEnds (s : State) (q i : Nat) : State :=
  (s.modPacket q i (fun p => { p with completed := true })).modQueue q (fun x => x.advance x.packets.length)

/-- The SIGNAL of a packet (R328, R331): none to add, a counter's key, a wait, or one that cannot be reached (log 42, DEDUCED). -/
def State.signalKey (s : State) (q i core ctx : Nat) (v : Nat) : Reach × State :=
  if opSpace v ≠ 0 then (.bad 193, s)
  else if 2 ^ 49 ≤ opValue v then (.bad 128, s)
  else if v % 8 ≠ 0 then (.bad 149, s)
  else s.reach q i core ctx v 8 2 0xFE21

/-- PACKET_COMPLETE: packet `b` of queue `a` has ended: its SIGNAL is translated, STATUS written, SIGNAL incremented with release at
SYSTEM, and HEAD advanced (R331). A record of a TASK queue has neither (R346). The subject's core is the agent's. -/
def execPacketComplete (s : State) : Host.Outcome State Fault Refusal :=
  let u := s.subject
  match s.packet? u.a u.b with
  | none => .next s
  | some (x, p) =>
    match s.packetDone u.a x p with
    | none => .next s
    | some k =>
      if p.completed || p.page.isSome || p.failed then .next s
      else if x.kind = 2 then .next (s.packetEnds u.a u.b)
      else
        let sig := leAt p.bytes 56 8
        let r : Reach × State := if sig = 0 ∨ p.unsignalled then (.ok 0, s) else s.signalKey u.a u.b u.g.core x.ctx sig
        match r with
        | (.later, s) => .next s
        | (r, s) =>
          let k := match r with | .bad _ => if k = 1 then 4 else k | _ => k
          match s.reach u.a u.b u.g.core x.ctx (x.slotVa u.b + 48) 8 1 0xFE20 with
          | (.later, s) => .next s
          | (.bad c, s) => .next ((s.stopQueue u.a c).modPacket u.a u.b (fun p => { p with failed := true }))
          | (.ok key, s) =>
            let s := s.storeLE key 8 k
            let s := match r with
              | .ok at_ => if sig = 0 ∨ p.unsignalled then s else s.counterAdd at_ 7 u.g.core 0 none 1 false
              | _ => s
            .next (s.packetEnds u.a u.b)

end Sys2Proof.Machine
end

