-- ==== Sys2Proof/Machine/Admit.lean ====
section
/-!
DEFINITION. The creation of teams (R60, R85, R101, R246, R302, R335, R340, R346), their admission (R104, R247), gangs (R336,
R337), the grant of ACQUIRE (R105), and the end of a team (R106).
-/
namespace Sys2Proof.Machine

/-! ### A team to be created -/

/-- What a team is created from (R246, R335, R346): its context, object and kernel, the packet or record, its place in its grid,
its argument pointer, its base class, and the record its groups hold. -/
structure Spec where
  ctx : Nat
  handle : Nat
  kern : Nat
  k : Kernel
  queue : Nat
  idx : Nat
  n : Nat
  x : Nat
  y : Nat
  z : Nat
  arg : Nat
  cls : Nat
  start : TRef
  record : Option (List Byte) := none
  count : Nat := 0
  deriving DecidableEq, Repr

/-- A kernel's group width (R395). -/
def Kernel.width (k : Kernel) : Nat := 16 * 2 ^ k.wave

/-- The stage of each group of a chain kernel (R312): the group stages in order. -/
def Kernel.groupStages (k : Kernel) : List Nat :=
  match k.chain with
  | some c => (c.stages.zipIdx.filter (fun p => !p.1.2)).map (·.2)
  | none => []

/-- The trace at which group `n` starts: TARGET of a record; else its stage's entry, or trace 0 (R263, R312, R346). -/
def Spec.startOf (p : Spec) (n : Nat) : TRef :=
  if p.record.isSome then p.start
  else match p.k.chain with
    | some c => { p.start with idx := ((c.stages[nth p.k.groupStages n 0]?).map (·.1)).getD 0 }
    | none => p.start

/-- The roles of the groups of a new team, producers first (R245); a record asks for a number of its single role (R346). -/
def Spec.roles (p : Spec) : List Nat :=
  if p.record.isSome then List.replicate p.count 0
  else List.replicate p.k.role0.groups 0 ++ List.replicate (if p.k.roles then p.k.role1.groups else 0) 1

/-- A new group (R101, R246, R346): registers zero but for k0 and k1, or the record in k0 to k15; every lane live. -/
def Spec.group (p : Spec) (now n role : Nat) : Group :=
  let u : SMap 32 := match p.record with
    | some r => deliverRecord [] (some r) false
    | none => sput (sput [] 0 (BitVec.ofNat 32 p.arg)) 1 (BitVec.ofNat 32 (p.arg / 2 ^ 32))
  let g : Group := {
    width := p.k.width, num := n, role := role, cls := p.cls, vallot := 16, uregs := u, shadow := p.k.shadow,
    lanes := List.replicate p.k.width { live := true, tr := p.startOf n, since := now },
    task := p.record, taskQueue := if p.record.isSome then 16 else 0, taskAccepted := p.record.isSome }
  g.seed 0#32

/-- The channels of a new team (R303, R312): spread queues between group stages, engine rings otherwise. -/
def Kernel.channels (k : Kernel) : List (Nat × Chan) :=
  match k.chain with
  | none => []
  | some c =>
    let engine (st : Nat) : Bool := ((c.stages[st]?).map (·.2)).getD false
    let group (st : Nat) : Nat := k.groupStages.idxOf st
    (c.chans.map (fun x =>
      let peng : Bool := x.peng || engine x.pstage
      let ceng := engine x.cstage
      (x.qn, ({ mode := if peng || ceng then 3 else 1, size := x.size, depth := x.depth, pgrp := if peng then 0 else group x.pstage,
                peng := peng, cgrp := if ceng then 0 else group x.cstage, ceng := ceng } : Chan)))).mergeSort (fun a b => decide (a.1 ≤ b.1))

/-- The tiles of a new team (R246, R340): t0 at window offset 0, EMPTY until its fill is released, then the task queues at the next
free offsets. -/
def Kernel.firstTiles (k : Kernel) (window : Nat) : List (Nat × Tile) :=
  let arg : List (Nat × Tile) := if k.argu = 0 then [] else [(0, { base := BitVec.ofNat 13 window, len := BitVec.ofNat 14 k.argu, state := .empty })]
  let place (acc : Nat × List (Nat × Tile)) (q : TqDecl) : Nat × List (Nat × Tile) :=
    let n := unitsFor q.bytes
    (acc.1 + n, acc.2 ++ [(q.tile, { base := BitVec.ofNat 13 acc.1, len := BitVec.ofNat 14 n, state := .ready, atomic := true })])
  (k.tqs.foldl place (window + k.argu, arg)).2

/-- Slots of a declared task queue: BYTES = 256 + 64 × n (R340). -/
def TqDecl.slots (q : TqDecl) : Nat := (q.bytes - 256) / 64

/-- The header of a new task queue as bytes written (R340): SLOTS, and each port's OSLOTS and OUTBOX. -/
def State.initQueue (s : State) (core arg : Nat) (q : TqDecl) (tiles : List (Nat × Tile)) : State :=
  match tiles.find? (fun t => t.1 == q.tile) with
  | none => s
  | some (_, t) =>
    let key := sliceKey core t.start
    (q.ports.zipIdx).foldl (fun s p =>
      if p.1.2 = 0 then s
      else (s.storeLE (key + 0x48 + 0x20 * p.2) 4 p.1.2).storeLE (key + 0x50 + 0x20 * p.2) 8 ((arg + p.1.1) % 2 ^ 64)) (s.storeLE (key + 8) 4 q.slots)

/-- The card of the FILL that loads the argument tile (R67, R246). -/
def argCard (arg n : Nat) : List Byte :=
  let src := if arg < 2 ^ 49 then arg else 2 ^ 61 + arg % 2 ^ 61
  toBytesLE 1 1 ++ toBytesLE 1 0 ++ toBytesLE 2 0 ++ toBytesLE 4 n ++ toBytesLE 8 src ++ toBytesLE 8 (2 ^ 62) ++ toBytesLE 8 0
    ++ toBytesLE 8 (arg / 256 % 2 ^ 41 + 2 ^ 43 + n * 2 ^ 44) ++ List.replicate 24 0#8

/-- The units of the window of a new team (R85). -/
def Spec.wlen (p : Spec) : Nat := p.k.role0.slice + (if p.k.roles then p.k.role1.slice else 0)

/-- Places on a core for a new team's window, trap tiles and queue storage (R85, R303, R361). -/
def State.placeSpec (s : State) (p : Spec) (core : Nat) : Option ((Nat × Nat × Nat) × State) :=
  s.placeTeamRanges core p.wlen (p.roles.length * (trapBytes p.k.width / 256)) (queueUnits p.k.channels)

/-- Operations that the I/O die holds for a team are performed when it comes to be; those for a team that never will are dropped
(R341, R355). -/
def State.flushHeld (s : State) : State :=
  let ops := s.held
  ops.foldl (fun s h => s.namedOp h false) { s with held := [] }

/-- Create a team on a core at given places in its slice (R60, R101, R246, R302, R335, R340, R346). -/
def State.createTeam (s : State) (p : Spec) (core slot window trapt storage : Nat) : State :=
  let now := (s.core core).cycles
  let tiles := p.k.firstTiles window
  let t : Team := {
    ctx := p.ctx, handle := p.handle, kernel := p.kern, teamno := p.n % 2 ^ 32, gx := p.x, gy := p.y, gz := p.z, lqueue := p.queue, lslot := p.idx,
    fromTask := p.record.isSome, prio := p.cls, window := window, wlen := p.wlen, trapt := trapt,
    storage := storage, slen := queueUnits p.k.channels, tiles := tiles.foldl (fun m x => tput m x.1 x.2) [],
    chans := (layQueues core (storage * 256) p.k.channels).foldl (fun m x => tput m x.1 x.2) [],
    queues := p.k.tqs.foldl (fun m q => tput m q.queue { tile := q.tile, slots := q.slots, ports := q.ports.map (fun r => ⟨r.1, r.2⟩) }) [],
    stages := p.k.groupStages, uid := s.nextAtomic, groups := p.roles.zipIdx.map (fun r => { p.group now r.2 r.1 with uid := 16 * s.nextAtomic + r.2 }) }
  let s := { s with nextAtomic := s.nextAtomic + 1 }.setTeam core slot t
  let s := p.k.tqs.foldl (fun s q => s.initQueue core p.arg q tiles) s
  if p.k.argu = 0 then s
  else
    let card := argCard p.arg p.k.argu
    ((s.releaseCard core slot none card (s.keypermOf p.ctx) false p.k.shadow).2).modTeam core slot (Team.releaseTiles core (cardOf card))

/-! ### Admission (R104, R247) -/

/-- Whether a core admits a new team (R104, R247, R337); `own` is the gang that asks, which its own reservation does not keep out. -/
def State.admits (s : State) (p : Spec) (core : Nat) (own : Option Nat) : Bool :=
  let ts := s.coreTeams core
  let pro := (p.roles.map (fun _ => 16 * p.k.width)).sum
  let shortRegs := (p.roles.map (fun r => (p.k.vregs core r - 16) * p.k.width)).sum
  let used := s.usedRegs core + pro
  let short := (shortRegs, p.k.accs core) :: ts.map (fun t => s.shortfall core t.2)
  let reservedElse : Bool := match (s.die (dieOf core)).reserved with | some r => r.2.contains core && some r.1 != own | none => false
  s.coreEnabled core && p.k.runsOn core && !reservedElse && s.ctxRuns p.ctx && (s.freeTeamSlot core).isSome
    && decide (used ≤ fileRegs core) && !ts.any (fun t => t.2.grantAsked.isSome && !t.2.granted)
    && short.all (fun x => decide (used + x.1 ≤ fileRegs core) && (decide (x.2 = 0) || decide (s.usedAccs core + x.2 ≤ 4)))
    && (p.k.argu == 0 || decide ((s.die (dieOf core)).uncompleted < 4096))
    && (s.placeSpec p core).isSome

/-- Admit a team to a core that admits it, and count it in its packet; held operations that wait for it are performed. -/
def State.admitTeam (s : State) (p : Spec) (core : Nat) : State :=
  match s.freeTeamSlot core, s.placeSpec p core with
  | some slot, some ((window, trapt, storage), s) =>
    ((s.createTeam p core slot window trapt storage).modPacket p.queue p.idx (fun r => { r with started := true, created := r.created + 1 })).flushHeld
  | _, _ => s

/-- The next team of a LAUNCH's grid (R335). -/
def State.launchSpec (s : State) (q : Nat) (x : HwQueue) (p : Packet) (n : Nat) : Option Spec :=
  let (a, b, _) := launchExtents p.bytes
  let h := leAt p.bytes 8 4
  (s.launchKernel x.ctx p.bytes).map (fun k =>
    { ctx := x.ctx, handle := h, kern := leAt p.bytes 4 4, k := k, queue := q, idx := p.idx, n := n, x := n % max 1 a, y := n / max 1 a % max 1 b,
      z := n / max 1 (a * b), arg := leAt p.bytes 32 8, cls := max x.prio (bits (leAt p.bytes 1 1) 2 1), start := ⟨h, leAt p.bytes 4 4, 0⟩ })

/-- Whether a packet is a LAUNCH some of whose teams have still to be admitted, in gangs or alone. -/
def Packet.awaits (p : Packet) (gang : Bool) : Bool :=
  leAt p.bytes 0 1 == 1 && p.status == 0 && decide (p.created < p.teams) && bit (leAt p.bytes 1 1) 3 == gang

/-- Whether a packet is a LAUNCH whose next team waits to be admitted, in a gang or alone. -/
def State.launching (s : State) (x : HwQueue) (p : Packet) (gang : Bool) : Bool := p.awaits gang && s.packetServes x p

/-- Whether a gang's deadlines run (R337): while it waits to be admitted, and also while its context is descheduled (R356). -/
def State.gangWaits (s : State) (x : HwQueue) (p : Packet) : Bool :=
  p.awaits true && (s.packetServes x p || (match s.ctx? x.ctx with | some c => c.descheduled && c.stopped.isNone | none => false))

/-- TEAM_ADMIT: the next team of packet `b` of queue `a` is admitted to core `c`, if that core admits it (R247, R335). -/
def execTeamAdmit (s : State) : Host.Outcome State Fault Refusal :=
  let u := s.subject
  match s.packet? u.a u.b with
  | none => .next s
  | some (x, p) =>
    match s.launchSpec u.a x p p.created with
    | some n => if s.launching x p false && s.admits n u.c none then .next (s.admitTeam n u.c) else .next s
    | none => .next s

/-! ### Records that create groups (R346) -/

/-- The team that a record of a TASK queue creates; none where the record is dropped with TASK_TARGET: also where its groups and their shadows would
take more than the team's 16 places (R346, R406) (log 27, DESIGN CHOICE). -/
def State.recordSpec (s : State) (q : Nat) (x : HwQueue) (p : Packet) : Option Spec :=
  let b := p.bytes
  let h := leAt b 4 4
  let tr : TRef := ⟨h, 0, leAt b 0 4⟩
  let gang := bits (leAt b 22 2) 6 3
  if 2 ^ 31 ≤ h ∨ h = 0 then none
  else match s.kernel? x.ctx tr with
    | none => none
    | some k =>
      if (s.trace? x.ctx tr).isNone || k.roles || !s.hasKind k || (k.argu != 0 && leAt b 8 8 % 256 != 0) || (k.shadow && decide (8 < gang)) then none
      else some { ctx := x.ctx, handle := h, kern := 0, k := k, queue := q, idx := p.idx, n := leAt b 16 2 + 65536 * leAt b 18 2, x := leAt b 16 2,
                  y := leAt b 18 2, z := leAt b 20 2, arg := leAt b 8 8, cls := x.prio, start := tr, record := some b,
                  count := if gang = 0 then 1 else gang }

/-- TASK_RECORD_CREATE: the agent of the subject's core takes the next record of TASK queue `a`: it reads it, drops it with TASK_TARGET, or
creates its team on core `c` if that core admits it (R346). A fallback scheduler serves no record (R357). -/
def execTaskRecordCreate (s : State) : Host.Outcome State Fault Refusal :=
  let u := s.subject
  match tget s.queues u.a with
  | none => .next s
  | some x =>
    if x.kind ≠ 2 ∨ (s.die (dieOf u.g.core)).fallback then .next s
    else match x.packets.find? (fun p => !p.started && !p.bytes.isEmpty) with
      | none => .next (s.claim u.a u.g.core)
      | some p =>
        if !s.queueServes x || !x.mayStart p (bit (leAt p.bytes 22 2) 0) then .next s
        else match s.recordSpec u.a x p with
          | none =>
            .next ((s.modPacket u.a p.idx (fun p => { p with started := true, status := 1 })).postRecord (dieOf u.g.core)
              { cause := engCause u.g.core 13, ctx := x.ctx, va := x.slotVa p.idx, elem := 0xFE20, core := u.g.core })
          | some n => if s.admits n u.c none then .next (s.admitTeam n u.c) else .next s

/-! ### Gangs (R336, R337) -/

/-- The rectangles of a die for a gang, by their lowest core: DCOREs in columns 1 to 16, or LCOREs in column 0 or 17 (R336). -/
def rectangles (d w h : Nat) (lcore : Bool) : List (List Nat) :=
  ((upto 16).flatMap (fun y => (upto 18).map (fun x => (x, y)))).filterMap (fun p =>
    let ok : Bool := decide (p.2 + h ≤ 16) && (if lcore then w == 1 && (p.1 == 0 || p.1 == 17) else decide (1 ≤ p.1) && decide (p.1 + w ≤ 17))
    if ok then some ((upto h).flatMap (fun j => (upto w).map (fun i => 512 * d + 18 * (p.2 + j) + (p.1 + i)))) else none)

/-- Cores of a rectangle that hold no resident team (R337). -/
def State.score (s : State) (r : List Nat) : Nat := (r.filter (fun c => (s.coreTeams c).isEmpty)).length

/-- The best-scoring rectangle; of equals, the first (R336, R337). -/
def State.bestOf (s : State) (rs : List (List Nat)) : Option (List Nat) := leastBy (fun r => 1000 - s.score r) rs

/-- The gang's shape (R329). -/
def gangShape (p : Packet) : Nat × Nat := (bits (leAt p.bytes 28 1) 3 0, bits (leAt p.bytes 28 1) 7 4)

/-- The name of a gang's reservation. -/
def gangKey (q i : Nat) : Nat := q * 2 ^ 32 + i

/-- The teams of a packet's next gang (R336); the last may be smaller. -/
def State.gangSpecs (s : State) (q : Nat) (x : HwQueue) (p : Packet) : List Spec :=
  let (w, h) := gangShape p
  (upto (min (w * h) (p.teams - p.created))).filterMap (fun j => s.launchSpec q x p (p.created + j))

/-- The rectangles of some dies that can take a gang at one instant, the Truss of the die with room for every argument fill (R74), DCORE rectangles first where the kernel has both encodings. -/
def State.gangRects (s : State) (q : Nat) (x : HwQueue) (p : Packet) : List (List Nat) :=
  let (w, h) := gangShape p
  let specs := s.gangSpecs q x p
  let fills := (specs.filter (fun y => y.k.argu != 0)).length
  let fits (r : List Nat) : Bool := (specs.zip r).all (fun y => s.admits y.1 y.2 (some (gangKey q p.idx)))
    && decide ((s.die (dieOf (r.headD 0))).uncompleted + fills ≤ 4096)
  let kind (l : Bool) : List (List Nat) := (upto 4).flatMap (fun d => (rectangles d w h l).filter fits)
  match specs with
  | [] => []
  | _ => if (kind false).isEmpty then kind true else kind false

/-- GANG_ADMIT: the next gang of packet `b` of queue `a` is admitted whole on the best-scoring rectangle that can take it (R336)
(log 42, DEDUCED). -/
def execGangAdmit (s : State) : Host.Outcome State Fault Refusal :=
  let u := s.subject
  match s.packet? u.a u.b with
  | none => .next s
  | some (x, p) =>
    if !s.launching x p true || !s.agentServes (512 * p.die) p.bytes then .next s
    else match s.bestOf (s.gangRects u.a x p) with
      | none => .next s
      | some r =>
        let s := ((s.gangSpecs u.a x p).zip r).foldl (fun s y => s.admitTeam y.1 y.2) s
        .next { s.modPacket u.a u.b (fun p => { p with since := s.waits }) with waits := s.waits + 1, dies := s.dies.map (fun (d : Nat × Die) => (d.1, match d.2.reserved with
          | some v => if v.1 = gangKey u.a u.b then { d.2 with reserved := none } else d.2
          | none => d.2)) }

/-- RESV of a context (R337). -/
def State.resvOf (s : State) (ctx : Nat) : Nat := bits ((s.ctx? ctx).elim 0 (fun c => c.gangwait.toNat)) 15 0

/-- Whether another gang has waited longer than one that has reached its RESV, and so has reached its own: it reserves first (R337). -/
def State.gangAhead (s : State) (q : Nat) (x : HwQueue) (p : Packet) : Bool :=
  s.queues.any (fun y => y.2.packets.any (fun r => (y.1 != q || r.idx != p.idx) && s.gangWaits y.2 r && decide (r.since < p.since)
    && decide (s.resvOf y.2.ctx ≤ s.resvOf x.ctx) && !(upto 4).any (fun d => ((s.die d).reserved.map (·.1)) == some (gangKey y.1 r.idx))))

/-- Whether a die's reservation, if it holds one, is that of a gang that has waited less, or waits no longer (R337). -/
def State.reservable (s : State) (d : Nat) (p : Packet) : Bool :=
  match (s.die d).reserved with
  | none => true
  | some v => match s.packet? (v.1 / 2 ^ 32) (v.1 % 2 ^ 32) with
    | some (_, r) => decide (p.since < r.since)
    | none => true

/-- GANG_RESERVE: a gang, packet `b` of queue `a`, has waited RESV units, and no other longer: die `c` reserves its best-scoring rectangle; a
die holds one reservation, that of the gang that has waited longest (R337) (log 10, DESIGN CHOICE, log 42, DEDUCED). -/
def execGangReserve (s : State) : Host.Outcome State Fault Refusal :=
  let u := s.subject
  match s.packet? u.a u.b with
  | none => .next s
  | some (x, p) =>
    if !s.gangWaits x p || !s.reservable u.c p || s.gangAhead u.a x p || !(s.gangRects u.a x p).isEmpty || decide (4 ≤ u.c) then .next s
    else
      let (w, h) := gangShape p
      let d9 := ((s.launchKernel x.ctx p.bytes).map (·.d9)).getD false
      match s.bestOf ((rectangles u.c w h (!d9)).filter (fun r => r.all s.coreEnabled)) with
      | some r => .next (s.modDie u.c (fun d => { d with reserved := some (gangKey u.a u.b, r) }))
      | none => .next s

/-- GANG_STARVED: the rectangle that die `c` holds reserved is still not free STARVE units after its reservation (R337)
(log 10, DESIGN CHOICE). -/
def execGangStarved (s : State) : Host.Outcome State Fault Refusal :=
  let u := s.subject
  match s.packet? u.a u.b, (s.die u.c).reserved with
  | some (x, p), some r =>
    if r.1 = gangKey u.a u.b ∧ (s.gangRects u.a x p).isEmpty then .next (s.raisePlien u.c 0) else .next s
  | _, _ => .next s

/-! ### ACQUIRE (R105, R247) -/

/-- Grant a team its full budget (R105): vectors of its live groups, tiles, accumulators. -/
def Team.grant (t : Team) (k : Kernel) (core : Nat) : Team :=
  { t with granted := true, tileAllot := k.tiles, accAllot := k.accs core,
           groups := t.groups.map (fun g => if g.vallot = 0 then g else { g with vallot := max g.vallot (k.vregs core g.role) }) }

/-- ACQUIRE_GRANT: the oldest ungranted request of the subject's core is granted when its shortfall is free (R247). -/
def execAcquireGrant (s : State) : Host.Outcome State Fault Refusal :=
  let core := s.subject.g.core
  let asking := (s.coreTeams core).filter (fun t => t.2.grantAsked.isSome && !t.2.granted)
  match leastBy (fun (t : Nat × Team) => t.2.grantAsked.getD 0) asking with
  | none => .next s
  | some (slot, t) =>
    let need := s.shortfall core t
    match s.teamKernel? t with
    | some k =>
      if s.usedRegs core + need.1 ≤ fileRegs core ∧ (need.2 = 0 ∨ s.usedAccs core + need.2 ≤ 4) then
        .next (s.modTeam core slot (fun t => t.grant k core))
      else .next s
    | none => .next s

/-! ### The end of a team (R106) -/

/-- Whether an ending team holds nothing up any longer: its sequencer has stopped, the jobs its groups released have completed, and
what its commits handed on has been performed (log 42, DEDUCED). -/
def State.teamDone (s : State) (core slot : Nat) (t : Team) : Bool :=
  let q := (s.core core).seqr
  t.ending && !(q.owner == some slot && q.state.busy) && t.jobs.isEmpty && t.puts.isEmpty && t.tasks.isEmpty
    && (s.core core).succs.all (fun w => !(w.slot == slot && w.ctx == t.ctx))
    && t.groups.all (fun g => g.sent.all (fun a => (tget s.sent a).isNone))

/-- A team has ended: its packet knows, and its window, trap tiles, storage and accumulators are freed and zeroed (R106, R432). -/
def State.endTeam (s : State) (core slot : Nat) (t : Team) : State :=
  let s := if t.migrated ∨ t.fromTask then s else s.modPacket t.lqueue t.lslot (fun p => { p with ended := p.ended ++ [t.teamno] })
  let s := s.modCore core (fun k => if k.seqr.owner = some slot then { k with seqr := {} } else k)
  let s := { s with held := s.held.map (fun (h : HeldOp) => if h.g.core = core ∧ h.g.slot = slot then { h with g := ⟨2 ^ 16, 0, 0⟩ } else h) }
  (s.removeTeam core slot).flushHeld

/-- TEAM_END: the subject names the team's core and slot. -/
def execTeamEnd (s : State) : Host.Outcome State Fault Refusal :=
  let g := s.subject.g
  match s.team? g.core g.slot with
  | some t => if s.teamDone g.core g.slot t then .next (s.endTeam g.core g.slot t) else .next s
  | none => .next s

end Sys2Proof.Machine
end

