-- ==== Sys2Proof/Machine/Tasks.lean ====
section
/-!
DEFINITION. The transfer engine's work for team task queues: the pulls of ports (R344), and the successor work of TASKDONE (R350).
-/
namespace Sys2Proof.Machine

/-! ### Ports (R344) -/

/-- A pull has failed: a record with ELEM 0xFE00 + P, and the pulls of the port stop (R344). -/
def State.pullFails (s : State) (g : GRef) (tm : Team) (q p cause tier va : Nat) : State :=
  (s.postRecord (dieOf g.core) { cause := cause, ctx := tm.ctx, va := va, elem := 0xFE00 + p, tier := tier, core := g.core }).modTeam g.core g.slot
    (fun t => match tget t.queues q with
      | some x => { t with queues := tput t.queues q { x with stopped := tput x.stopped p (va / 4096) } }
      | none => t)

/-- The access that pulls the next record of a port (R344). -/
def State.pullAccess (s : State) (g : GRef) (tm : Team) (tq : TaskQueue) (q p : Nat) : Access :=
  let at_ := 0x40 + 0x20 * p
  let pulled := s.tq g.core g.slot q (at_ + 4)
  let n := (nth tq.ports p ⟨0, 0⟩).slots
  { core := g.core, who := asks 5 (g.slot * 16 + q) p, ctx := tm.ctx, va := s.mem.readLE (tqKey g.core tm q (at_ + 0x10)) 8 + 64 * (pulled % max 1 n), acc := 0,
    keyperm := s.keypermOf tm.ctx, shadowed := ((s.teamKernel? tm).map (·.shadow)).getD false }

/-- Put a record that a port has pulled at TAIL, and count it (R344). -/
def State.pulled (s : State) (g : GRef) (tm : Team) (tq : TaskQueue) (q p : Nat) (segs : List Seg) : State :=
  let at_ := 0x40 + 0x20 * p
  let tail := s.tq g.core g.slot q 4
  let dst : Seg := { key := tqKey g.core tm q (0x100 + 64 * (tail % max 1 tq.slots)), n := 64, fmt := 0, geom := 0 }
  ((s.copySegs segs [dst] []).setTq g.core g.slot q 4 ((tail + 1) % 2 ^ 32)).setTq g.core g.slot q (at_ + 4) ((s.tq g.core g.slot q (at_ + 4) + 1) % 2 ^ 32)

/-- Pull one record through a port (R344). -/
def State.pull (s : State) (g : GRef) (tm : Team) (tq : TaskQueue) (q p : Nat) : State :=
  let a := s.pullAccess g tm tq q p
  match s.translateRange a 64 3 0 [] with
  | (.wait, s) => s
  | (.fail c tier va _, s) => s.pullFails g tm q p c tier va
  | (.ok segs, s) =>
    match s.loadFault (segForm segs) true segs with
    | some c => s.pullFails g tm q p c.cause c.tier (a.va + c.off)
    | none => s.pulled g tm tq q p segs

/-- PORT_PULL: the subject's team, its queue `a` and port `b`. -/
def execPortPull (s : State) : Host.Outcome State Fault Refusal :=
  let u := s.subject
  let g := u.g
  match s.team? g.core g.slot with
  | none => .next s
  | some tm =>
    match tget tm.queues u.a with
    | none => .next s
    | some tq =>
      let at_ := 0x40 + 0x20 * u.b
      if (nth tq.ports u.b ⟨0, 0⟩).slots ≠ 0 ∧ (tget tq.stopped u.b).isNone ∧ !tm.ending ∧ s.enginesRun tm.ctx
          ∧ s.tq g.core g.slot u.a (at_ + 4) ≠ s.tq g.core g.slot u.a at_ ∧ s.tqRoom g.core g.slot u.a ≠ 0
      then .next (s.pull g tm tq u.a u.b) else .next s

/-! ### Successors (R350) -/

/-- Change a piece of successor work of a core. -/
def State.modSucc (s : State) (core i : Nat) (f : Successor → Successor) : State :=
  s.modCore core (fun k => { k with succs := k.succs.modify i f })

/-- Successor work is over: DONE of the queue that delivered the record counts it (R350). -/
def State.succDone (s : State) (core i : Nat) (w : Successor) : State :=
  let s := s.modCore core (fun k => { k with succs := k.succs.eraseIdx i })
  match s.team? core w.slot with
  | some _ => if w.queue = 16 then s else s.setTq core w.slot w.queue 16 ((s.tq core w.slot w.queue 16 + 1) % 2 ^ 32)
  | none => s

/-- Successor work is dropped: QDROP is set in the team, and a record names the cause (R350). -/
def State.succDropped (s : State) (core i : Nat) (w : Successor) (elem cause tier va : Nat) : State :=
  let s := if cause = 0 then s
    else s.postRecord (dieOf core) { cause := cause, ctx := w.ctx, va := va, elem := elem, acc := if elem = 0xFE10 then 2 else 0, tier := tier, core := core }
  (s.qdrop core w.slot).succDone core i w

/-- A piece of successor work met a cause: a page that may be cured is waited for, any other drops it (R350, R359). -/
def State.succFails (s : State) (core i : Nat) (w : Successor) (elem cause tier va : Nat) : State :=
  if curable cause then
    (s.postRecord (dieOf core) { cause := cause, ctx := w.ctx, va := va, elem := elem, acc := if elem = 0xFE10 then 2 else 0, tier := tier,
                                 core := core }).modSucc core i (fun w => { w with parkedPage := some (va / 4096) })
  else s.succDropped core i w elem cause tier va

/-- Take one off a successor counter at its home, with release at PACK (R350). -/
def State.takeOne (s : State) (core i : Nat) (w : Successor) (key : Nat) : State :=
  match s.poisonAt key 4 with
  | some b => (s.owe ⟨core, w.slot, w.grp⟩ ⟨256 + 4 * b.bank + 2, [], 0, 0⟩).succDropped core i w 0xFE10 0 0 0
  | none =>
    let v := (s.mem.readLE key 4 + 2 ^ 32 - 1) % 2 ^ 32
    let s := ((s.atomicWrite key 4 v).tag key ⟨5, core, 0, 0, 0, 1⟩).notifyBinds key
    if v = 0 ∧ w.record ≠ 0 then s.modSucc core i (fun w => { w with decremented := true, zero := true })
    else s.succDone core i w

/-- SUCCESSOR_DECREMENT: the subject's core, and its piece of successor work `a` whose counter has not been taken. -/
def execSuccessorDecrement (s : State) : Host.Outcome State Fault Refusal :=
  let core := s.subject.g.core
  let i := s.subject.a
  match (s.core core).succs[i]? with
  | none => .next s
  | some w =>
    let v := w.counter
    if w.decremented || w.parkedPage.isSome || !s.enginesRun w.ctx then .next s
    else if opSpace v = 2 then
      if v % 4 ≠ 0 then .next (s.succDropped core i w 0xFE10 149 0 v)
      else match s.sliceCounter (opValue v) with
        | .error c => .next (s.succDropped core i w 0xFE10 c 0 v)
        | .ok none => .next s
        | .ok (some key) => .next (s.takeOne core i w key)
    else if opSpace v ≠ 0 then .next (s.succDropped core i w 0xFE10 (engCause core 1) 0 v)
    else if v % 4 ≠ 0 then .next (s.succDropped core i w 0xFE10 149 0 v)
    else match s.translate { core := core, who := asks 4 w.slot w.grp, ctx := w.ctx, va := opValue v, acc := 2, keyperm := s.keypermOf w.ctx } with
      | (.ok key _, s) => .next (s.takeOne core i w key)
      | (.fail c tier, s) => .next (s.succFails core i w 0xFE10 c tier v)
      | (.wait _, s) => .next s

/-- Append a successor record to the TASK hardware queue that delivered the record: at TAIL, which it advances, waiting while the queue is
full (R327, R346, R350) (log 42, DEDUCED). -/
def State.succPublish (s : State) (core i : Nat) (w : Successor) (q : Nat) (bs : List Byte) : State :=
  match tget s.queues q with
  | none => s.succDropped core i w 0xFE11 0 0 0
  | some x =>
    if x.slots ≤ (x.tail + 2 ^ 32 - x.head) % 2 ^ 32 then s
    else match s.translateBytes { core := core, who := asks 4 w.slot w.grp, ctx := w.ctx, va := x.slotVa x.tail, acc := 1, keyperm := s.keypermOf w.ctx } 64 with
      | (.ok key _, s) => ((s.store key bs).modQueue q (fun x => { x with tail := (x.tail + 1) % 2 ^ 32 })).succDone core i w
      | (.fail c tier, s) => s.succFails core i w 0xFE11 c tier (x.slotVa x.tail)
      | (.wait _, s) => s

/-- Append a successor record that has been read to the queue that delivered the record, when it has room; what is appended to a queue of an ending team is
dropped (R106, R346, R350). -/
def State.succAppend (s : State) (core i : Nat) (w : Successor) (bs : List Byte) : State :=
  match s.team? core w.slot with
  | none => s.succDone core i w
  | some t =>
    if w.queue = 16 then s.succPublish core i w t.lqueue bs
    else if t.ending then s.succDropped core i w 0xFE11 0 0 0
    else if (tget t.queues w.queue).isNone then s.succDropped core i w 0xFE11 0 0 0
    else if s.tqRoom core w.slot w.queue = 0 then s
    else (s.tqAppend core w.slot w.queue bs).succDone core i w

/-- SUCCESSOR_APPEND: the subject's core, and its piece of successor work `a` whose counter has reached 0: the record is read, then
appended. -/
def execSuccessorAppend (s : State) : Host.Outcome State Fault Refusal :=
  let core := s.subject.g.core
  let i := s.subject.a
  match (s.core core).succs[i]? with
  | none => .next s
  | some w =>
    let v := w.record
    if !w.zero || w.parkedPage.isSome || !s.enginesRun w.ctx then .next s
    else match w.bytes with
      | some bs => .next (s.succAppend core i w bs)
      | none =>
        if opSpace v ≠ 0 ∨ v % 64 ≠ 0 then .next (s.succDropped core i w 0xFE11 (engCause core 1) 0 v)
        else match s.translateBytes { core := core, who := asks 4 w.slot w.grp, ctx := w.ctx, va := opValue v, acc := 0, keyperm := s.keypermOf w.ctx } 64 with
          | (.ok key _, s) =>
            let bs := s.mem.readBytes key 64
            .next ((s.modSucc core i (fun w => { w with bytes := some bs })).succAppend core i { w with bytes := some bs } bs)
          | (.fail c tier, s) => .next (s.succFails core i w 0xFE11 c tier v)
          | (.wait _, s) => .next s

end Sys2Proof.Machine
end

