-- ==== Sys2Proof/Machine/SaveArea.lean ====
section
/-!
DEFINITION. Firmware's own memory: the frames it takes for tables, code and save areas (R28), and the save area of a context, byte for
byte (R115, R241, R325, R384 to R386).
-/
namespace Sys2Proof.Machine

/-! ### Frames of firmware (log 19, DESIGN CHOICE) -/

/-- The HBM offset of the first frame that firmware takes for tables, code and save areas (log 19, DESIGN CHOICE). -/
def fwBase : Nat := 7 * 2 ^ 36 + 32 * 10 ^ 9 / 65536 * 65536

/-- Take `n` zeroed 4 KiB frames aligned to `align` frames: their HBM offset (log 19, DESIGN CHOICE). -/
def State.takeFrames (s : State) (n align : Nat) : Nat × State :=
  let at_ := (s.fwNext + align - 1) / align * align
  let a := fwBase + 4096 * at_
  let s := { s with fwNext := at_ + n, mem := s.mem.clear (memKey .hbm a) (4096 * n) }
  (a, { s with poison := s.poison.filterMap (fun p => p.after (memKey .hbm a) (4096 * n)) })

/-! ### The parts of a save area -/

/-- Bytes filled with zeros to a length. -/
def padTo (n : Nat) (b : List Byte) : List Byte := b ++ List.replicate (n - b.length) 0#8

/-- Bytes filled with zeros to a multiple of 256 (R384). -/
def pad256 (b : List Byte) : List Byte := padTo ((b.length + 255) / 256 * 256) b

/-- A channel entry as 32 bytes (R302). -/
def Chan.bytes (c : Chan) : List Byte :=
  padTo 32 (toBytesLE 8 (c.mode % 4 + c.size % 4 * 2 ^ 2 + c.depth % 256 * 2 ^ 4 + c.pgrp % 16 * 2 ^ 12 + b2n c.peng * 2 ^ 16 + c.cgrp % 16 * 2 ^ 17
      + b2n c.ceng * 2 ^ 21 + b2n c.remote * 2 ^ 22 + b2n c.frozen * 2 ^ 23 + c.count % 256 * 2 ^ 24 + c.qaddr % 2 ^ 32 * 2 ^ 32)
    ++ toBytesLE 8 (c.head % 256 + c.credit % 256 * 2 ^ 8 + c.pq % 16 * 2 ^ 16 + c.pslot % 16 * 2 ^ 20))

/-- A barrier as 8 bytes (R282). -/
def Barrier.bytes (b : Barrier) : List Byte := toBytesLE 8 (b.exp % 256 + b.cnt % 256 * 2 ^ 8 + b2n b.ph * 2 ^ 16 + b2n b.tp * 2 ^ 17)

/-- The team control words of a team that leaves a core (R385). NPROD counts the groups of role 0 (log 21, DESIGN CHOICE). -/
def Team.thdr (t : Team) (core : Nat) : List Byte :=
  padTo 256 (toBytesLE 4 t.tstat.toNat
    ++ toBytesLE 4 (t.groups.length % 32 + (t.groups.filter (fun g => g.role == 0)).length % 32 * 2 ^ 5 + b2n t.granted * 2 ^ 10)
    ++ toBytesLE 4 (t.handle % 2 ^ 31) ++ toBytesLE 4 t.kernel
    ++ toBytesLE 4 t.teamno ++ toBytesLE 4 t.gx ++ toBytesLE 4 t.gy ++ toBytesLE 4 t.gz
    ++ toBytesLE 4 (t.window % 2 ^ 13 + t.wlen % 2 ^ 14 * 2 ^ 16) ++ toBytesLE 4 (t.trapt % 2 ^ 13)
    ++ toBytesLE 4 (t.tileAllot % 128 + (2 ^ t.accAllot - 1) % 16 * 2 ^ 8)
    ++ toBytesLE 4 (b2n t.foldLatched + b2n t.spreadLatched * 2 + b2n t.folded * 4 + t.chref % 8 * 8)
    ++ toBytesLE 4 (core % 2 ^ 11))

/-- The team record (R115); the accumulators of a DCORE team follow its words. -/
def Team.record (t : Team) (core : Nat) : List Byte :=
  let words := padTo 0x800 (t.thdr core ++ (upto 64).flatMap (fun n => toBytesLE 16 (t.tile n).word) ++ (upto 16).flatMap (fun n => (t.chan n).bytes)
    ++ (upto 16).flatMap (fun n => (t.bar n).bytes))
  if isLcore core then words
  else words ++ (upto 4).flatMap (fun a => (upto 16384).flatMap (fun i =>
    toBytesLE 4 (if a < t.accAllot then sget ((tget t.acc a).getD []) i else 0#32).toNat))

/-- A ring as 8 bytes (R241). -/
def Ring.bytes (r : Ring) : List Byte :=
  toBytesLE 4 (r.base % 64 + r.ns % 16 * 2 ^ 6 + r.inq % 16 * 2 ^ 10 + r.outq % 16 * 2 ^ 14 + b2n r.defined * 2 ^ 18 + b2n r.holds * 2 ^ 19) ++ toBytesLE 4 r.c

/-- The state of the sequencer of a DCORE team (R241): that of the team that owns it, and the team's own CHAINS otherwise. `idle` is the
ENTRY of a sequencer in IDLE. -/
def Team.sequencer (t : Team) (slot : Nat) (q : Option Sequencer) (idle : Nat) : List Byte :=
  padTo 0x8400 (match q with
    | none => toBytesLE 4 (mxWord {} slot t idle)
    | some q =>
      padTo 0x10 (toBytesLE 4 (mxWord q slot t idle) ++ toBytesLE 4 (min q.tc 63 + q.off % 2 ^ 24 * 2 ^ 8) ++ toBytesLE 4 q.entry
        ++ toBytesLE 2 ((q.issuer.bind (fun g => (t.groups[g.grp]?).bind (fun x => if x.live.isEmpty then none else some x.num))).getD 0xFFFF))
      ++ padTo 0x20 ((q.loops.take 4).flatMap (fun l => toBytesLE 4 (l.1 % 4096 + 2 ^ 31) ++ toBytesLE 4 l.2))
      ++ padTo 0x50 (q.rings.flatMap Ring.bytes) ++ q.ascale
      ++ (upto 128).flatMap (fun r => toBytesLE 4 (sget q.srstate r).toNat)
      ++ padTo 0x100 (toBytesLE 4 (q.bypassFmt % 4 + b2n q.bypassFull * 4))
      ++ (upto 16384).flatMap (fun i => toBytesLE 2 (sget q.bypass i).toNat))

/-- The number of a reason to be halted (R386). -/
def Halt.num : Halt → Nat
  | .none => 0 | .request => 1 | .instruction => 2 | .step => 3 | .breakpoint => 4

/-- The group control words (R386): `parked` says that it has parked for a fold (R319, R324). -/
def Group.ghdr (g : Group) (parked : Bool) : List Byte :=
  let halted : Bool := g.halt != .none
  padTo 64 (toBytesLE 4 ((if halted then 2 else if g.park.isSome || parked then 3 else b2n g.hm) + b2n g.frame * 4 + g.halt.num * 8 + b2n (halted && g.hm) * 64)
    ++ toBytesLE 4 (g.width % 256 + g.role % 2 * 2 ^ 8 + g.num % 16 * 2 ^ 9 + g.cls % 4 * 2 ^ 13) ++ toBytesLE 4 (g.vallot % 256)
    ++ toBytesLE 4 g.mode.toNat ++ toBytesLE 4 g.srseed.toNat
    ++ toBytesLE 4 (laneMask ((upto 16).filter (fun n => nth g.epb n false)) + (match g.wait with | some b => b % 16 * 2 ^ 16 + 2 ^ 20 | none => 0))
    ++ toBytesLE 4 (b2n g.task.isSome + b2n g.taskAccepted * 2 + g.taskQueue % 16 * 4)
    ++ toBytesLE 4 (g.migHist.sum % 2 ^ 16 + g.migHist.length % 2 ^ 16 * 2 ^ 16))

/-- Where the vector granules of a group record begin (R115). -/
def granuleBase (w : Nat) : Nat := (0x0C0 + 5 * w + 255) / 256 * 256

/-- The group record (R115). -/
def Group.record (g : Group) (parked : Bool) : List Byte :=
  padTo (granuleBase g.width) (g.ghdr parked ++ padTo 0x80 ((upto 24).flatMap (fun n => toBytesLE 4 (sget g.uregs n).toNat))
    ++ (upto g.width).map (fun l => predByte g.preds l ||| 0x80#8) ++ (upto g.width).flatMap (fun l => toBytesLE 4 (sget g.sr l).toNat))
  ++ (upto (g.vallot / 8)).flatMap (fun n => (upto g.width).flatMap (fun l => (upto 8).flatMap (fun j =>
      toBytesLE 4 (sget g.regs (l * 256 + 8 * n + j)).toNat)))

/-- HELD and HCAUSE of a lane (R386): an acquire that is incomplete is cause 11. Waits at a bind table have no HCAUSE, and are written as lanes
not held (log 38, DEDUCED). -/
def Lane.hcause (l : Lane) : Option Nat :=
  match l.held with
  | some h => if h.cause < 12 then some h.cause else none
  | none => if l.acquires.isEmpty then none else some 11

/-- A lane's word of a group tail (R386). -/
def Lane.word (l : Lane) (own : Nat) : Nat :=
  l.tr.idx % 2 ^ 17 + b2n l.live * 2 ^ 17 + (match l.hcause with | some c => 2 ^ 18 + c * 2 ^ 19 | none => 0)
    + (if l.tr.handle = own then 0 else l.tr.handle % 2 ^ 31 * 2 ^ 32)

/-- The group tail (R386): the held record, the lanes, and `image`, the trap tile, where there is a frame. -/
def Group.tail (g : Group) (own : Nat) (image : List Byte) : List Byte :=
  pad256 (padTo 64 (g.task.getD []) ++ (upto g.width).flatMap (fun l => toBytesLE 8 ((g.lane l).word own))) ++ (if g.frame then image else [])

/-- The fold record of a team's thread (R325): the current stage's continuation is the thread's own, and it has no bank. -/
def Fold.record (fo : Fold) (t : Team) (th : Group) : List Byte :=
  let cont (st l : Nat) : Nat :=
    let x := if st = fo.stage then th.lane l else (tget fo.cont (st * 128 + l)).getD {}
    x.tr.idx % 2 ^ 17 + b2n x.live * 2 ^ 31
  let bank (st n : Nat) : Nat := if st = fo.stage then 0 else n
  padTo 0x100 (toBytesLE 8 (fo.stage % 8) ++ toBytesLE 8 (laneMask (fo.groups.map t.stageOf).eraseDups)
      ++ (upto 8).map (fun st => BitVec.ofNat 8 (nth fo.vbase st 0)) ++ (upto 8).map (fun st => BitVec.ofNat 8 (nth fo.vcount st 0)))
    ++ (upto 8).flatMap (fun st => padTo 0x80 ((upto 24).flatMap (fun n => toBytesLE 4 (bank st (sget fo.kbank (st * 32 + n)).toNat))))
    ++ (upto th.width).flatMap (fun l =>
      padTo 0x100 ((upto 8).flatMap (fun st => toBytesLE 4 (cont st l)) ++ (upto 8).map (fun st => BitVec.ofNat 8 (bank st (sget fo.pbank (st * 128 + l)).toNat))
        ++ toBytesLE 8 (laneMask ((upto 16).filter (fun c => sget fo.full (slotKey l c) == 1#1)))
        ++ (upto 8).flatMap (fun st => toBytesLE 4 (bank st (sget fo.sbank (st * 128 + l)).toNat)))
      ++ (upto 16).flatMap (fun c => toBytesLE 16 (sget fo.slots (slotKey l c)).toNat))

/-- What a team's save area holds, part by part (R384): its record, the sequencer's state, its groups, its slice image. -/
def SavedTeam.bytes (v : SavedTeam) (idle : Nat) : List Byte :=
  let t := v.team
  let trapTile (g : Group) : List Byte :=
    match v.image.find? (fun r => r.1 == t.trapt * 256) with
    | some r => (r.2.drop (t.placeOf g.num * trapBytes g.width)).take (trapBytes g.width)
    | none => []
  pad256 (t.record v.core) ++ (if isLcore v.core then [] else pad256 (t.sequencer v.slot v.seqr idle))
    ++ t.groups.flatMap (fun g => pad256 (g.record (t.foldLatched && t.parkedStages.contains (t.stageOf g.num) && !g.live.isEmpty))
      ++ (match t.folded, t.fold with | true, some fo => if fo.thread = g.num then pad256 (fo.record t g) else [] | _, _ => [])
      ++ pad256 (g.tail t.handle (trapTile g)))
    ++ v.image.flatMap (fun r => pad256 r.2)

/-- Put a saved team into its place of a save area: ascending die, die-local core and slot (R384). -/
def insertSaved (v : SavedTeam) : List SavedTeam → List SavedTeam
  | [] => [v]
  | w :: l => if v.core * 16 + v.slot < w.core * 16 + w.slot then v :: w :: l else w :: insertSaved v l

/-- Once no Gutter lists a context any more, its save area is complete: its teams in order, in frames of firmware's own, which the
context's descriptor names (R384, log 21, DESIGN CHOICE). -/
def State.fileSaveArea (s : State) (ctx : Nat) : State :=
  match s.ctx? ctx with
  | none => s
  | some c =>
    if c.saved.isEmpty || (upto 4).any (fun d => (s.die d).gutter.any (fun g => g.ctx == ctx)) then s
    else
      let saved := c.saved.foldl (fun l v => insertSaved v l) []
      let b := saved.zipIdx.flatMap (fun v => v.1.bytes (Config.freeWord (s.free + v.2)).toNat)
      let (a, s) := s.takeFrames ((b.length + 4095) / 4096) 1
      { s with mem := s.mem.writeBytes (memKey .hbm a) b, free := s.free + saved.length }.modCtx ctx (fun c => { c with saved := saved, saveAt := a })

end Sys2Proof.Machine
end

