-- ==== Sys2Proof/Machine/Preempt.lean ====
section
/-!
DEFINITION. Pre-emption and restoration (R334, R381 to R388), token buckets (R356), heartbeats and the fallback scheduler (R357,
R452).
-/
namespace Sys2Proof.Machine

/-! ### The request (R382) -/

/-- The uncompleted jobs of a context on a die. -/
def State.openJobs (s : State) (d ctx : Nat) : List (Nat × Job) := (s.die d).truss.filter (fun j => j.2.ctx == ctx && !j.2.state.completed)

/-- Post a pre-emption of a context to the Gutters of the dies that it involves: each lists the cores that hold its teams, and, by
4,096 + slot, the near-memory jobs that run (R382) (log 47, DEDUCED). -/
def State.preempt (s : State) (ctx : Nat) : State :=
  let s := s.modCtx ctx (fun c => { c with preempted := true })
  (upto 4).foldl (fun s d =>
    let cores := ((s.teamsOf ctx).filter (fun p => dieOf p.1 == d)).map (·.1)
    let jobs := s.openJobs d ctx
    let nmv := (jobs.filter (fun j => (cardOf j.2.card).kind == 7 && j.2.state == .running && !j.2.absent)).map (fun j => 4096 + j.1)
    if cores.isEmpty && jobs.isEmpty then s
    else s.modDie d (fun x => { x with gutter := x.gutter.filter (fun g => g.ctx != ctx) ++ [{ ctx := ctx, due := cores.eraseDups ++ nmv, done := false }] })) s

/-- PREEMPT: Plien posts a pre-emption of context `a`. -/
def execPreempt (s : State) : Host.Outcome State Fault Refusal :=
  let c := s.subject.a
  match s.ctx? c with
  | none => .next s
  | some x => if x.preempted then .next s else .next (s.preempt c)

/-- NMV_PREEMPT_STOP: the near-memory unit of die `a` that runs the job in slot `b` stops, and acknowledges (R243, R381). -/
def execNmvPreemptStop (s : State) : Host.Outcome State Fault Refusal :=
  let u := s.subject
  .next (s.modDie u.a (fun d => { d with gutter := d.gutter.map (fun g => { g with due := g.due.filter (fun x => x != 4096 + u.b) }) }))

/-- HANDLER_TIMEOUT: the subject's group is in handler mode, its context is pre-empted and its time is up: the trapped execution is
discarded, ABORTED is set in the frame, and HANDLER_TIMEOUT is raised (R383, R467) (log 10, DESIGN CHOICE, log 47, DEDUCED). -/
def execHandlerTimeout (s : State) : Host.Outcome State Fault Refusal :=
  let g := s.subject.g
  match s.team? g.core g.slot, s.group? g with
  | some tm, some grp =>
    if grp.hm ∧ !grp.timedOut ∧ ((s.ctx? tm.ctx).map (·.preempted)).getD false then
      let flags := leAt (s.readTrapTile g 3 1) 0 1
      let s := (s.writeTrapTile g 3 (toBytesLE 1 (flags ||| 9))).dropTrapped g
      .next ((s.modGroup g (fun y => { y with trapped := none, timedOut := true })).raisePlien (dieOf g.core) 6)
    else .next s
  | _, _ => .next s

/-! ### The save (R382, R384) -/

/-- The ranges of a slice that a team holds, as byte offset and length. -/
def Team.ranges (t : Team) : List (Nat × Nat) :=
  [(t.window * 256, t.wlen * 256), (t.trapt * 256, t.trapUnits * 256), (t.storage * 256, t.slen * 256)]

/-- Whether a core has acknowledged the pre-emption of a context: no execution of it is in progress, no handler has time left, and the
sequencer, if a team of it owns it, is not stopping (R382, R383). -/
def State.coreStopped (s : State) (ctx core : Nat) : Bool :=
  (s.coreTeams core).all (fun p => p.2.ctx != ctx || p.2.groups.all (fun g => g.exec.isNone && (!g.hm || g.timedOut)))
    && (match (s.core core).seqr.owner with
        | some slot => !(((s.team? core slot).map (·.ctx)) == some ctx && (s.core core).seqr.state == .stopping)
        | none => true)

/-- Save a team (R384, log 21, DESIGN CHOICE): its record, its slice image and its sequencer; what it held is freed and zeroed. A group that a debugger
has asked to halt is saved halted (R380). -/
def State.saveTeam (s : State) (core slot : Nat) : State :=
  match s.team? core slot with
  | none => s
  | some t0 =>
    let t : Team := { t0 with groups := t0.groups.map (fun x => x.haltIfAsked (s.core core).cycles) }
    let rs := t.ranges.filter (fun r => r.2 != 0)
    let inRange (p : Poison) : Bool := rs.any (fun r => decide (sliceKey core r.1 ≤ p.key ∧ p.key < sliceKey core (r.1 + r.2)))
    let mine : Bool := (s.core core).seqr.owner == some slot
    let sv : SavedTeam := {
      core := core, slot := slot, team := t, image := rs.map (fun r => (r.1, s.mem.readBytes (sliceKey core r.1) r.2)),
      seqr := if mine then some (s.core core).seqr else none,
      poison := (s.poison.filter inRange).map (fun p => { p with key := p.key - sliceKey core 0 }),
      regPoison := s.regPoison.filter (fun p => p.g.core == core && p.g.slot == slot) }
    let s := if mine then s.modCore core (fun k => { k with seqr := {} }) else s
    (s.removeTeam core slot).modCtx t.ctx (fun c => { c with saved := c.saved ++ [sv] })

/-- PREEMPT_COMPLETE: the Gutter of die `a` holds every acknowledgement for context `b`: its teams on the die are saved in ascending
order of core and slot, and the die reports completion (R382, R384). With the last die's, the context's save area is complete. -/
def execPreemptComplete (s : State) : Host.Outcome State Fault Refusal :=
  let u := s.subject
  match (s.die u.a).gutter.find? (fun g => g.ctx == u.b) with
  | none => .next s
  | some g =>
    if g.due.all (fun x => decide (x < 4096) && s.coreStopped u.b x) then
      let s := ((s.teamsOf u.b).filter (fun p => dieOf p.1 == u.a)).foldl (fun s p => s.saveTeam p.1 p.2) s
      .next ((s.modDie u.a (fun d => { d with gutter := d.gutter.filter (fun x => x.ctx != u.b) })).fileSaveArea u.b)
    else .next s

/-! ### The restoration (R387, R388) -/

/-- Whether the resources that a saved team needs are free on a core; on its own core its very ranges and slot. -/
def State.restorable (s : State) (v : SavedTeam) (core : Nat) : Bool :=
  let t := v.team
  s.coreEnabled core
    && decide (s.usedRegs core + (t.groups.map (fun g => g.vallot * g.width)).sum ≤ fileRegs core)
    && (decide (t.accAllot = 0) || decide (s.usedAccs core + t.accAllot ≤ 4)) && (v.seqr.isNone || (s.core core).seqr.owner.isNone)
    && (if core = v.core then
          (s.team? core v.slot).isNone && [(t.window, t.wlen), (t.trapt, t.trapUnits), (t.storage, t.slen)].all (fun r => r.2 == 0 || rangeFree (s.taken core) r.1 r.2)
        else (s.freeTeamSlot core).isSome && (s.placeTeamRanges core t.wlen t.trapUnits t.slen).isSome)

/-- A lane restored: one held for a page or at a bind table tests its cause again as its trace is dispatched again (R41, R387); every other
cause is tested where it is held. -/
def Lane.restored (l : Lane) (since : Nat) : Lane :=
  { l with since := since, held := l.held.filter (fun h => !([3, 7, 16, 17].contains h.cause)) }

/-- A restored group: pending times restart in ascending lane order (R387), and a stochastic-rounding state of 0 becomes 1 (R116). -/
def Group.restored (g : Group) (now : Nat) : Group :=
  { g with buffers := [], lanes := g.lanes.mapIdx (fun i l => l.restored (now + i)),
           sr := (upto g.width).foldl (fun m l => if sget m l = 0#32 then sput m l 1#32 else m) g.sr }

/-- Put a saved team back at a place (R387): its slice image, registers, sequencer and poison. -/
def State.placeTeam (s : State) (v : SavedTeam) (core slot window trapt storage : Nat) : State :=
  let t := v.team
  let now := (s.core core).cycles
  let shift (off : Nat) : Nat :=
    if t.window * 256 ≤ off ∧ off < (t.window + t.wlen) * 256 then off - t.window * 256 + window * 256
    else if t.trapt * 256 ≤ off ∧ off < (t.trapt + t.trapUnits) * 256 then off - t.trapt * 256 + trapt * 256
    else off - t.storage * 256 + storage * 256
  let moved : Bool := core != v.core
  let tile (x : Tile) : Tile :=
    let x := { x with base := BitVec.ofNat 13 (x.base.toNat - t.window + window) }
    if moved ∧ x.opened then { x with opened := false, recl := false }.settle else x
  let chan (c : Chan) : Chan :=
    if c.remote ∨ c.mode = 0 then c else { c with qaddr := core * 2 ^ 21 + shift (c.qaddr % 2 ^ 21) }
  let t' : Team := { t with
    window := window, trapt := trapt, storage := storage,
    tiles := t.tiles.map (fun p => (p.1, if p.2.state = .undef then p.2 else tile p.2)),
    chans := t.chans.map (fun p => (p.1, chan p.2)), groups := t.groups.map (fun g => g.restored now),
    fold := t.fold.map (fun fo => { fo with cont := fo.cont.map (fun p => (p.1, p.2.restored (now + p.1 % 128))) }) }
  let s := s.setTeam core slot (if moved then t'.setSticky .moved else t')
  let s := { s with mem := v.image.foldl (fun m r => m.writeBytes (sliceKey core (shift r.1)) r.2) s.mem,
                    poison := v.poison.map (fun p => { p with key := sliceKey core (shift p.key), gone := p.gone }) ++ s.poison,
                    regPoison := v.regPoison.map (fun p => { p with g := { p.g with core := core, slot := slot } }) ++ s.regPoison }
  match v.seqr with
  | some q => s.modCore core (fun k => { k with seqr := { q with owner := some slot, issuer := q.issuer.map (fun g => { g with core := core, slot := slot }) } })
  | none => s

/-- Re-name a team's place in what refers to it, when its restoration moves it (R388). -/
def reGroup (from_ to_ : Nat × Nat) (g : GRef) : GRef := if (g.core, g.slot) = from_ then { g with core := to_.1, slot := to_.2 } else g

/-- A lane that waits for a tile of a moved team waits for it where it is now (R256, R387). -/
def Lane.reSite (from_ to_ : Nat × Nat) (l : Lane) : Lane :=
  { l with held := l.held.map (fun h => if h.cause = 4 ∧ (h.obj / 1024, h.obj % 1024 / 64) = from_ then { h with obj := to_.1 * 1024 + to_.2 * 64 + h.obj % 64 } else h) }

/-- The places of a folded chain's groups that name a moved team follow it, and what its lanes wait for (R320, R387, R388). -/
def Team.reSite (t : Team) (from_ to_ : Nat × Nat) : Team :=
  { t with
    groups := t.groups.map (fun g => { g with lanes := g.lanes.map (Lane.reSite from_ to_) }),
    fold := t.fold.map (fun fo => { fo with sites := fo.sites.map (fun x => (x.1, reGroup from_ to_ x.2)),
                                            cont := fo.cont.map (fun p => (p.1, p.2.reSite from_ to_)) }) }

/-- Every reference to a moved team follows it: jobs, atomics, held operations, successor work (R388). -/
def State.renameTeam (s : State) (ctx : Nat) (from_ to_ : Nat × Nat) : State :=
  let job (j : Job) : Job :=
    if j.ctx ≠ ctx then j
    else { j with
      core := if (j.core, j.slot) = from_ then to_.1 else j.core, slot := if (j.core, j.slot) = from_ then to_.2 else j.slot,
      claimed := j.claimed.map (fun p => if (p.1, p.2 / 64) = from_ then (to_.1, to_.2 * 64 + p.2 % 64) else p),
      counted := j.counted.map (fun p => if (p.1, p.2 / 64) = from_ then (to_.1, to_.2 * 64 + p.2 % 64) else p) }
  let work := (s.core from_.1).succs.filter (fun w => w.slot == from_.2 && w.ctx == ctx)
  let s := { s with
    dies := s.dies.map (fun (d : Nat × Die) => (d.1, { d.2 with
      truss := d.2.truss.map (fun (j : Nat × Job) => (j.1, job j.2)),
      bindWait := d.2.bindWait.map (fun (w : BindWait) => { w with g := reGroup from_ to_ w.g }) })),
    cores := s.cores.map (fun (k : Nat × Core) => (k.1, { k.2 with teams := k.2.teams.map (fun (t : Nat × Team) => (t.1, if t.2.ctx = ctx then t.2.reSite from_ to_ else t.2)) })),
    ctxs := s.ctxs.map (fun (c : Nat × Ctx) => (c.1, if c.1 = ctx then { c.2 with saved := c.2.saved.map (fun (v : SavedTeam) =>
      { v with team := v.team.reSite from_ to_ }) } else c.2)) }
  let s := { s with
    sent := s.sent.map (fun (a : Nat × SentAtomic) => (a.1, if a.2.ctx = ctx then { a.2 with g := reGroup from_ to_ a.2.g } else a.2)),
    held := s.held.map (fun (h : HeldOp) => if h.ctx = ctx then { h with g := reGroup from_ to_ h.g } else h) }
  (s.modCore from_.1 (fun k => { k with succs := k.succs.filter (fun w => !(w.slot == from_.2 && w.ctx == ctx)) })).modCore to_.1
    (fun k => { k with succs := k.succs ++ work.map (fun w => { w with slot := to_.2 }) })

/-- Every REMOTE entry of the context that names a moved team's queues names their new storage and its new slot (R388). -/
def State.repointTeam (s : State) (ctx : Nat) (t : Team) (from_ to_ : Nat × Nat) : State :=
  let moves : List QueueMove :=
    (t.chans.filter (fun c => !c.2.remote && c.2.mode != 0)).map (fun c => ⟨from_.1, from_.2, c.1, t.uid, to_.2, c.1, t.uid, c.2.qaddr⟩)
  let entry (c : Chan) : Chan := moves.foldl (fun c m => m.repoint c) c
  { s with
    cores := s.cores.map (fun (k : Nat × Core) => (k.1, k.2.repoint moves)),
    ctxs := s.ctxs.map (fun (c : Nat × Ctx) => (c.1, if c.1 = ctx then { c.2 with saved := c.2.saved.map (fun (v : SavedTeam) =>
      { v with team := { v.team with chans := v.team.chans.map (fun q => (q.1, entry q.2)) } }) } else c.2)) }

/-- Whether a job names a core's slice through SPACE 2 or an SP 1 region (R387, R388). -/
def Job.namesSlice (j : Job) (core : Nat) : Bool :=
  let c := cardOf j.card
  [c.src, c.dst, if c.ca = 1 then c.catgt else 0].any (fun v => opSpace v == 2 && opValue v / 2 ^ 21 == core)
    || (c.fps.filterMap regionOf).any (fun r => r.sp && decide (r.lo < (core + 1) * 2 ^ 21) && decide (core * 2 ^ 21 < r.hi))

/-- Complete an uncompleted job FAULTED from whatever state it is in, as firmware does at a move (R79, R387): its first unfinished element, or
its completion action, fails with the cause. -/
def State.forceFault (s : State) (d n : Nat) (j : Job) (cause : Nat) : State :=
  let first := ((upto j.elems).find? (fun e => !bit j.mask e)).getD 65535
  let j := { j with state := .partialDone, causes := tput j.causes first cause }
  (s.modJob d n (fun _ => j)).faultJob d n j

/-- The end of a context's restoration: the jobs that name a slice its teams have left are completed FAULTED with SLICE_RANGE, and its
groups may start (R387, R388). -/
def State.endRestore (s : State) (ctx : Nat) (left : List Nat) : State :=
  let s := (upto 4).foldl (fun s d => (s.openJobs d ctx).foldl (fun s p =>
    match tget (s.die d).truss p.1 with
    | some j => if !j.state.completed ∧ left.any j.namesSlice then s.forceFault d p.1 j 146 else s
    | none => s) s) s
  let s := (s.teamsOf ctx).foldl (fun s p => s.modTeam p.1 p.2 (fun t => { t with groups := t.groups.map (fun g => { g with timedOut := false }) })) s
  (s.modCtx ctx (fun c => { c with preempted := false, movedFrom := [] })).flushHeld

/-- Plien pre-empts whatever occupies what a saved team needs on the core that it left (R387): the other contexts with teams there. -/
def State.clearCore (s : State) (ctx core : Nat) : State :=
  let others := ((s.coreTeams core).map (fun t => t.2.ctx)).eraseDups.filter (fun c => c != ctx && !((s.ctx? c).map (·.preempted)).getD true)
  others.foldl (fun s c => s.raiseTurn .preempt { a := c }) s

/-- Restore the next saved team of a context, to the core it left, or to `core` where that has been disabled (R387). -/
def State.restoreNext (s : State) (ctx : Nat) (c : Ctx) (core : Nat) : State :=
  match c.saved with
  | [] => s.endRestore ctx c.movedFrom
  | v :: rest =>
    let home := s.coreEnabled v.core
    let at_ := if home then v.core else core
    let covered : Bool := match s.teamKernel? v.team with | some k => k.feat &&& s.coreCaps at_ % 65536 == k.feat | none => true
    let fits : Bool := home || (isLcore at_ == isLcore v.core && dieOf at_ == dieOf v.core && covered)
    if !fits then s
    else if !s.restorable v at_ then (if home then s.clearCore ctx at_ else s)
    else
      let s := s.modCtx ctx (fun c => { c with saved := rest, movedFrom := if home then c.movedFrom else v.core :: c.movedFrom })
      let s :=
        if home then s.placeTeam v v.core v.slot v.team.window v.team.trapt v.team.storage
        else match s.freeTeamSlot at_, s.placeTeamRanges at_ v.team.wlen v.team.trapUnits v.team.slen with
          | some slot, some ((window, trapt, storage), s) =>
            let s := (s.placeTeam v at_ slot window trapt storage).renameTeam ctx (v.core, v.slot) (at_, slot)
            (match s.team? at_ slot with | some t => s.repointTeam ctx t (v.core, v.slot) (at_, slot) | none => s)
          | _, _ => s
      if rest.isEmpty then s.endRestore ctx (if home then c.movedFrom else v.core :: c.movedFrom) else s

/-- CONTEXT_RESTORE: the next saved team of context `a` is restored; `c` is the core for a team whose own has been disabled. -/
def execContextRestore (s : State) : Host.Outcome State Fault Refusal :=
  let u := s.subject
  match s.ctx? u.a with
  | none => .next s
  | some c =>
    let waiting : Bool := (upto 4).any (fun d => (s.die d).gutter.any (fun g => g.ctx == u.a))
    let turn : Bool := s.queues.all (fun q => q.2.ctx != u.a || q.2.mapped)
    if c.preempted ∧ !c.descheduled ∧ c.stopped.isNone ∧ !waiting ∧ turn then .next (s.restoreNext u.a c u.c) else .next s

/-! ### The run list (R334) -/

/-- The processes of the run list, in ascending context number: the contexts that own queues. -/
def State.runList (s : State) : List Nat := (s.ctxs.map (·.1)).filter (fun c => s.queues.any (fun q => q.2.ctx == c))

/-- QUANTUM_EXPIRY: the current process's turn ends: the next one's queues are mapped, its own unmapped, and its teams are pre-empted
(R334). A run list of one never rotates; where the process that ran has left the list, the next one's turn begins (log 10, DESIGN
CHOICE). -/
def execQuantumExpiry (s : State) : Host.Outcome State Fault Refusal :=
  let rl := s.runList
  if rl.length < 2 ∧ (rl = [] ∨ rl.contains s.runNext) then .next s
  else
    let next := ((rl.find? (fun c => decide (s.runNext < c))).or rl.head?).getD 0
    let prev := s.runNext
    if next = prev then .next s
    else
      let s := { s with runNext := next,
                        queues := s.queues.map (fun (q : Nat × HwQueue) => (q.1, { q.2 with mapped := if q.2.ctx = next then true else if q.2.ctx = prev then false else q.2.mapped })) }
      .next (match s.ctx? prev with | some c => if c.preempted then s else s.preempt prev | none => s)

/-! ### Token buckets (R356) -/

/-- BUCKET_REFILL: each enabled bucket gains RATE up to CAP, and a descheduled context all of whose enabled LEVELs reach RESUME is
resumed (log 10, DESIGN CHOICE). -/
def execBucketRefill (s : State) : Host.Outcome State Fault Refusal :=
  let fill (b : Bucket) : Bucket := if b.cap = 0 then b else { b with level := min (b.level + b.rate) b.cap }
  let ctx (c : Ctx) : Ctx :=
    let bs := c.buckets.map fill
    { c with buckets := bs, descheduled := c.descheduled && !bs.all (fun b => b.cap == 0 || decide (b.resume ≤ b.level)) }
  .next { s with ctxs := s.ctxs.map (fun (c : Nat × Ctx) => (c.1, ctx c.2)) }

/-- BUCKET_CHARGE: a charge reaches bucket `b` of context `a`: the bytes performed since the last, for bucket 1; else `c` core-cycles or
microjoules. A context with an enabled LEVEL at or below 0 is descheduled and pre-empted (R356). -/
def execBucketCharge (s : State) : Host.Outcome State Fault Refusal :=
  let u := s.subject
  match s.ctx? u.a with
  | none => .next s
  | some c =>
    let charge (b : Bucket) (n : Nat) : Bucket := if n = u.b then { b with level := b.level - (if n = 1 then b.due else u.c), due := if n = 1 then 0 else b.due } else b
    let bs := c.buckets.mapIdx (fun n b => if b.cap = 0 then { b with due := if n = u.b then 0 else b.due } else charge b n)
    let empty := bs.any (fun b => b.cap != 0 && decide (b.level ≤ 0))
    let s := s.modCtx u.a (fun c => { c with buckets := bs, descheduled := c.descheduled || empty })
    if empty ∧ !c.descheduled then .next ((if c.preempted then s else s.preempt u.a).raisePlien 0 5) else .next s

/-! ### Heartbeats (R357, R452) -/

/-- A die's heartbeat word. -/
def State.heart (s : State) (d : Nat) : BitVec 64 := nth s.bar0.hb d 0#64

/-- HB_INCREMENT: Plien's agents of die `a` advance its heartbeat; the first of a reloaded Plien reports PLIEN_RESTART, and the first of a
degraded start START_DEGRADED (R435, R452). -/
def execHbIncrement (s : State) : Host.Outcome State Fault Refusal :=
  let d := s.subject.a
  let s := { s with bar0 := { s.bar0 with hb := s.bar0.hb.set d (s.heart d + 1#64) } }
  let s := match s.boot.reloaded with
    | some k => { s with boot := { s.boot with reloaded := none } }.postEvent 4 0 (toBytesLE 1 k)
    | none => s
  if s.boot.degraded then .next ({ s with boot := { s.boot with degraded := false } }.raisePlien 0 15) else .next s

/-- FALLBACK_BEGIN: the heartbeat of die `a` has stood still for 100 µs (R357, R448, R467) (log 10, DESIGN CHOICE). -/
def execFallbackBegin (s : State) : Host.Outcome State Fault Refusal :=
  let d := s.subject.a
  if (s.die d).fallback then .next s
  else
    let s := s.modDie d (fun x => { x with fallback := true, hbSeen := (s.heart d).toNat, fbLast := 65536,
                                           fbQueues := (s.queues.filter (fun q => q.2.mapped)).map (·.1) })
    .next ((s.postEvent 5 0 (toBytesLE 1 d ++ [1#8])).raisePlien d 3)

/-- FALLBACK_END: the heartbeat of die `a` has advanced again (R357). -/
def execFallbackEnd (s : State) : Host.Outcome State Fault Refusal :=
  let d := s.subject.a
  if (s.die d).fallback ∧ (s.die d).hbSeen ≠ (s.heart d).toNat then
    .next ((s.modDie d (fun x => { x with fallback := false })).postEvent 5 0 (toBytesLE 1 d ++ [0#8]))
  else .next s

end Sys2Proof.Machine
end

