-- ==== Sys2Proof/Machine/PageTables.lean ====
section
/-!
DEFINITION. The page tables as Plien writes them (R21 to R24, R28, R29, R442): conflicts of page sizes, the write of a leaf, and its
removal.
-/
namespace Sys2Proof.Machine

/-- Write a table entry (R28). -/
def State.setEntry (s : State) (at_ v : Nat) : State := { s with mem := s.mem.writeLE (memKey .hbm at_) 8 v }

/-! ### Page sizes -/

/-- The bytes of a page of PSIZE (R444). -/
def pageBytes (psize : Nat) : Nat := match psize with | 0 => 2 ^ 12 | 1 => 2 ^ 16 | 2 => 2 ^ 21 | _ => 2 ^ 30

/-- The entries of a level-0 table (R21). -/
def leafEntries (gran : Bool) : Nat := if gran then 32 else 512

/-- The index of an address at a level (R21). -/
def levelIndex (va level : Nat) (gran : Bool) : Nat :=
  match level with
  | 3 => bits va 48 39
  | 2 => bits va 38 30
  | 1 => bits va 29 21
  | _ => if gran then bits va 20 16 else bits va 20 12

/-- Whether an entry of level 2 or 1 is a pointer (R22). -/
def isPointer (e : Nat) : Bool := bits e 3 1 == 0

/-! ### The leaves of a table -/

/-- Every valid leaf below a table: its virtual page, its size, the leaf (R21, R22). -/
def State.leaves (s : State) : Nat → Nat → Nat → Bool → List (Nat × Nat × Nat)
  | 0, table, va, gran =>
    (upto (leafEntries gran)).filterMap (fun i =>
      let e := s.entry (table + 8 * i)
      let n := pageBytes (b2n gran)
      if bit e 0 then some (va + i * n, n, e) else none)
  | l + 1, table, va, _ =>
    let n := 2 ^ (12 + 9 * (l + 1))
    (upto (if l = 2 then 1024 else 512)).flatMap (fun i =>
      let e := s.entry (table + 8 * i)
      if !bit e 0 then []
      else if l = 2 ∨ isPointer e then s.leaves l (bits e 47 12 * 4096) (va + i * n) (bit e 4)
      else [(va + i * n, n, e)])

/-- Every valid leaf of a context. -/
def State.ctxLeaves (s : State) (ctx : Nat) : List (Nat × Nat × Nat) :=
  match s.ctx? ctx with
  | none => []
  | some c => s.leaves 3 c.root 0 false

/-! ### Conflicts of size (R442) -/

/-- Whether a page conflicts with the tables in place (R442): a valid leaf of another size overlaps it, or the level-1 range that holds
it holds a valid leaf under the other GRAN. -/
def State.sizeClash (s : State) (ctx va psize : Nat) : Bool :=
  let n := pageBytes psize
  let range := if psize ≤ 1 then 2 ^ 21 else n
  (s.ctxLeaves ctx).any (fun l => l.2.1 != n && decide (l.1 < va / range * range + range) && decide (va / range * range < l.1 + l.2.1))

/-! ### Writing and removing leaves (R28, R29) -/

/-- The table below an entry, made where there is none, and made anew where a valid entry is no pointer of the granule asked: no
valid leaf stands below it (R442). -/
def State.tableBelow (s : State) (at_ : Nat) (level : Nat) (gran : Bool) : Nat × State :=
  let e := s.entry at_
  if bit e 0 ∧ (level = 3 ∨ isPointer e) ∧ (level ≠ 1 ∨ bit e 4 = gran) then (bits e 47 12 * 4096, s)
  else
    let (t, s) := s.takeFrames 1 1
    (t, s.setEntry at_ (1 + 16 * b2n (gran && level == 1) + t))

/-- The address of the entry of a page's leaf, its tables made (R21). -/
def State.entryFor (s : State) (root va psize : Nat) : Nat × State :=
  let a3 := root + 8 * levelIndex va 3 false
  let (t2, s) := s.tableBelow a3 3 false
  let a2 := t2 + 8 * levelIndex va 2 false
  if psize = 3 then (a2, s)
  else
    let (t1, s) := s.tableBelow a2 2 false
    let a1 := t1 + 8 * levelIndex va 1 false
    if psize = 2 then (a1, s)
    else
      let (t0, s) := s.tableBelow a1 1 (psize == 1)
      (t0 + 8 * levelIndex va 0 (psize == 1), s)

/-- Write the leaf of a page of a context (R28). -/
def State.putLeaf (s : State) (ctx va psize leaf : Nat) : State :=
  match s.ctx? ctx with
  | none => s
  | some c =>
    let (at_, s) := s.entryFor c.root va psize
    s.setEntry at_ leaf

/-- Remove the valid leaf of a page of that size, if there is one (R442). -/
def State.dropLeaf (s : State) (ctx va psize : Nat) : State :=
  match s.walk ctx va with
  | (c, _, at_, base, size) => if c = 0 ∧ base = va ∧ size = pageBytes psize then s.setEntry at_ 0 else s

/-- Map pages from a leaf template (R442, R444): page `i` takes FRAME + i × page size, with V set; then the range is invalidated
(R29). -/
def State.mapPages (s : State) (ctx va n psize leaf : Nat) : State :=
  ((upto n).foldl (fun s i => s.putLeaf ctx (va + i * pageBytes psize) psize (leaf + i * pageBytes psize + 1)) s).invalidate ctx va (n * pageBytes psize)

/-- Unmap pages: every leaf of that size in the range, by the sequence of R29. -/
def State.unmapPages (s : State) (ctx va n psize : Nat) : State :=
  ((upto n).foldl (fun s i => s.dropLeaf ctx (va + i * pageBytes psize) psize) s).invalidate ctx va (n * pageBytes psize)

/-- Whether a template is one that MAP refuses with BADREQ (R442): it is checked as the walk would check it, and at the sizes of
levels 2 and 1 an entry that permits nothing would be read as a pointer (R22) (log 46, DEDUCED). -/
def templateBad (leaf psize : Nat) : Bool :=
  bits leaf 0 0 != 0 || bits leaf 5 4 != 0 || (leafFault (pageBytes psize) leaf).isSome || (decide (2 ≤ psize) && isPointer leaf)

end Sys2Proof.Machine
end

