-- ==== Sys2Proof/Machine/Loader.lean ====
section
/-!
DEFINITION. The loader (R389 to R403): the image of a code object, its checks in the order of R392, what it recomputes (R93, R299,
R312, R314), and the placing of an accepted object.
-/
namespace Sys2Proof.Machine

/-! ### The image (R389) -/

/-- An object image in host memory: its address and length (R444). -/
structure Image where
  mem : Memory
  base : Nat
  len : Nat
  deriving DecidableEq, Repr

/-- A little-endian number of the image; 0 beyond its end. -/
def Image.le (im : Image) (a n : Nat) : Nat := if im.len < a + n then 0 else im.mem.readLE (hostKey (im.base + a)) n

/-- Bytes of the image. -/
def Image.slice (im : Image) (a n : Nat) : List Byte := im.mem.readBytes (hostKey (im.base + a)) (min n (im.len - a))

/-- Whether bytes of the image are zero. -/
def Image.zero (im : Image) (l : List (Nat × Nat)) : Bool := l.all (fun r => (im.slice r.1 r.2).all (· == 0#8))

/-- Header fields (R389). -/
def Image.nkern (im : Image) : Nat := im.le 16 4
/-- Offset of the kernel table. -/
def Image.ktoff (im : Image) : Nat := im.le 20 4
/-- Number of flashing tables. -/
def Image.nflash (im : Image) : Nat := im.le 24 2
/-- Number of bind-table entries. -/
def Image.nbind (im : Image) : Nat := im.le 32 4

/-- The sections that the header names: offset and bytes (R389). -/
def Image.sections (im : Image) : List (Nat × Nat) :=
  [(0, 96), (im.ktoff, 128 * im.nkern), (im.le 28 4, 4 * im.nflash), (im.le 36 4, 16 * im.nbind), (im.le 48 4, im.le 52 4),
   (im.le 56 4, im.le 60 4), (im.le 68 4, 16 * im.le 64 4)]

/-- Whether sections lie in the image at multiples of 16 and do not overlap (R389). -/
def Image.sectionsOk (im : Image) (l : List (Nat × Nat)) : Bool :=
  let l := l.filter (fun r => r.2 != 0)
  l.all (fun r => r.1 % 16 == 0 && decide (r.1 + r.2 ≤ im.len))
    && l.zipIdx.all (fun x => l.zipIdx.all (fun y => x.2 == y.2 || decide (x.1.1 + x.1.2 ≤ y.1.1 ∨ y.1.1 + y.1.2 ≤ x.1.1)))

/-- Check 1 (R392): MAGIC, reserved header bytes, bounds and alignment of the header's sections (log 45, DEDUCED). -/
def Image.headerOk (im : Image) : Bool :=
  decide (96 ≤ im.len) && im.le 0 4 == 0x4F394E48 && im.zero [(6, 2), (12, 4), (26, 2), (72, 24)]
    && decide (1 ≤ im.nkern ∧ im.nkern ≤ 4096) && decide (im.nflash ≤ 1024) && decide (im.nbind ≤ 65536) && im.sectionsOk im.sections

/-! ### Kernel records (R395) -/

/-- The offset of kernel `i`'s record. -/
def Image.kernel (im : Image) (i : Nat) : Nat := im.ktoff + 128 * i

/-- A role record (R395). -/
def Image.role (im : Image) (a : Nat) : Role :=
  { groups := im.le a 1, vregd := im.le (a + 1) 1, vregl := im.le (a + 2) 1, tgran := im.le (a + 3) 1, acc := im.le (a + 4) 1, slice := im.le (a + 6) 2 }

/-- Whether a role record keeps its limits (R395). -/
def Image.roleOk (im : Image) (a : Nat) (d9 l9 : Bool) : Bool :=
  let r := im.role a
  decide (1 ≤ r.groups ∧ r.groups ≤ 16) && (d9 || r.vregd == 0) && (l9 || r.vregl == 0) && decide (1 ≤ r.tgran ∧ r.tgran ≤ 16)
    && decide (r.acc ≤ 4) && (d9 || r.acc == 0) && im.zero [(a + 5, 1), (a + 8, 8)]

/-- A task-queue declaration (R340, R395). -/
def Image.tq (im : Image) (a : Nat) : TqDecl :=
  { tile := bits (im.le a 1) 5 0, queue := bits (im.le (a + 1) 1) 3 0, bytes := im.le (a + 4) 4,
    ports := (upto 6).map (fun p => (bits (im.le (a + 8 + 4 * p) 4) 15 0 * 64, bits (im.le (a + 8 + 4 * p) 4) 24 16)) }

/-- Whether a declaration keeps its limits (R340, R395). -/
def Image.tqOk (im : Image) (a : Nat) : Bool :=
  let q := im.tq a
  decide (im.le a 1 < 64) && decide (im.le (a + 1) 1 < 16) && im.zero [(a + 2, 2)]
    && decide (256 + 64 ≤ q.bytes ∧ q.bytes ≤ 256 + 64 * 4096) && q.bytes % 64 == 0
    && (upto 6).all (fun p => bits (im.le (a + 8 + 4 * p) 4) 31 25 == 0) && q.ports.all (fun p => decide (p.2 ≤ 256) && (p.2 != 0 || p.1 == 0))

/-- A chain descriptor, its FOLDOK not yet set (R400). -/
def Image.chain (im : Image) (a : Nat) : Chain :=
  { stages := (upto (bits (im.le a 1) 3 0)).map (fun st => let w := im.le (a + 8 + 8 * st) 8; (bits w 16 0, bit w 17)),
    chans := (upto (bits (im.le (a + 1) 1) 4 0)).map (fun c =>
      let w := im.le (a + 72 + 8 * c) 8
      ({ qn := bits w 3 0, size := bits w 5 4, depth := bits w 13 6, pstage := bits w 16 14, peng := bit w 17, cstage := bits w 20 18 } : ChainChan)),
    foldok := false }

/-- The bytes of a chain descriptor with `n` channels. -/
def chainBytes (n : Nat) : Nat := 72 + 8 * n

/-- Whether a chain descriptor keeps its limits (R312, R400). -/
def Image.chainOk (im : Image) (a ntrace : Nat) (d9 : Bool) : Bool :=
  let c := im.chain a
  let ns := c.stages.length
  decide (1 ≤ ns ∧ ns ≤ 8) && bits (im.le a 1) 7 4 == 0 && decide (c.chans.length ≤ 16) && bits (im.le (a + 1) 1) 7 5 == 0 && im.zero [(a + 2, 6)]
    && (upto 8).all (fun st => let w := im.le (a + 8 + 8 * st) 8; if st < ns then bits w 63 18 == 0 else w == 0)
    && decide ((c.stages.filter (·.2)).length ≤ (if d9 then 1 else 0)) && c.stages.all (fun x => if x.2 then x.1 == 0 else decide (x.1 < ntrace))
    && (upto c.chans.length).all (fun i => bits (im.le (a + 72 + 8 * i) 8) 63 21 == 0)
    && c.chans.all (fun x => decide (1 ≤ x.depth) && decide (x.pstage < ns) && decide (x.cstage < ns) && (!x.peng || x.pstage == 0))
    && (c.chans.map (·.qn)).eraseDups.length == c.chans.length

/-- A kernel's record, its traces as the table records them (R395, R396). -/
def Image.kernelOf (im : Image) (i : Nat) : Kernel :=
  let k := im.kernel i
  let choff := im.le (k + 48) 4
  { d9 := bit (im.le (k + 8) 1) 0, l9 := bit (im.le (k + 8) 1) 1, dsel := bits (im.le (k + 8) 1) 3 2, wave := bits (im.le (k + 9) 1) 1 0,
    roles := bit (im.le (k + 10) 1) 0, shadow := bit (im.le (k + 10) 1) 1, argu := im.le (k + 11) 1, feat := im.le (k + 12) 2,
    role0 := im.role (k + 16), role1 := im.role (k + 32), chain := if choff = 0 then none else some (im.chain choff),
    tqs := (upto (im.le (k + 52) 4)).map (fun n => im.tq (im.le (k + 56) 4 + 32 * n)),
    traces := (upto (im.le k 4)).map (fun t =>
      let a := im.le (k + 4) 4 + 32 * t
      ({ d9off := im.le a 4, l9off := im.le (a + 4) 4, tmask := im.le (a + 8) 16, req := im.le (a + 24) 2, freq := im.le (a + 26) 2,
         acct := bit (im.le (a + 28) 1) 0, stage := bits (im.le (a + 28) 1) 3 1, staged := bit (im.le (a + 28) 1) 4 } : TraceEntry)) }

/-- The parts of a kernel outside its record: its trace table, its declarations and its chain descriptor. -/
def Image.kernelSections (im : Image) (i : Nat) : List (Nat × Nat) :=
  let k := im.kernel i
  let choff := im.le (k + 48) 4
  [(im.le (k + 4) 4, 32 * im.le k 4), (im.le (k + 56) 4, 32 * im.le (k + 52) 4),
   (choff, if choff = 0 then 0 else chainBytes (bits (im.le (choff + 1) 1) 4 0))]

/-- Whether a kernel's record keeps its limits (R395, R400 to R403) (log 45, DEDUCED). -/
def Image.kernelOk (im : Image) (i : Nat) : Bool :=
  let k := im.kernel i
  let n := im.kernelOf i
  let legacy := n.dsel == 1 || n.dsel == 2
  let groups := n.role0.groups + (if n.roles then n.role1.groups else 0)
  let slice := n.role0.slice + (if n.roles then n.role1.slice else 0)
  decide (1 ≤ im.le k 4 ∧ im.le k 4 ≤ 131072) && bits (im.le (k + 8) 1) 7 4 == 0 && bits (im.le (k + 9) 1) 7 2 == 0 && bits (im.le (k + 10) 1) 7 2 == 0
    && im.zero [(k + 14, 2), (k + 60, 68)] && (n.d9 || n.l9) && n.dsel != 3 && (!legacy || (n.d9 && !n.l9)) && (n.dsel != 2 || n.wave == 1)
    && decide (n.argu ≤ 64) && im.roleOk (k + 16) n.d9 n.l9 && (if n.roles then im.roleOk (k + 32) n.d9 n.l9 else im.zero [(k + 32, 16)])
    && decide (groups ≤ 16) && decide (1 ≤ slice) && decide (im.le (k + 52) 4 ≤ 16)
    && (upto (im.le (k + 52) 4)).all (fun q => im.tqOk (im.le (k + 56) 4 + 32 * q))
    && (n.tqs.map (·.queue)).eraseDups.length == n.tqs.length && (n.tqs.map (·.tile)).eraseDups.length == n.tqs.length
    && !(n.argu != 0 && n.tqs.any (fun q => q.tile == 0))
    && (match n.chain with
        | none => true
        | some c => !legacy && !n.roles && n.role0.groups == (c.stages.filter (fun x => !x.2)).length && im.chainOk (im.le (k + 48) 4) (im.le k 4) n.d9)
    && n.feat == n.traces.foldl (fun m t => m ||| t.req) 0
    && (upto (im.le k 4)).all (fun t => im.zero [(im.le (k + 4) 4 + 32 * t + 29, 3)] && bits (im.le (im.le (k + 4) 4 + 32 * t + 28) 1) 7 5 == 0)
    && n.traces.all (fun t => (n.d9 || t.d9off == 0xFFFFFFFF) && (n.l9 || t.l9off == 0xFFFFFFFF))

/-! ### Flashing tables (R288, R289, R399) -/

/-- A flashing table (R288). -/
def Image.flash (im : Image) (i : Nat) : Flash :=
  let a := im.le (im.le 28 4 + 4 * i) 4
  { acc := im.le (a + 2) 1, dvbase := im.le (a + 4) 1, dvcount := im.le (a + 5) 1, lvbase := im.le (a + 6) 1, lvcount := im.le (a + 7) 1,
    pairs := (upto (im.le a 2)).map (fun n => (im.le (a + 16 + 8 * n) 4, im.le (a + 20 + 8 * n) 4)) }

/-- The place of a flashing table. -/
def Image.flashSection (im : Image) (i : Nat) : Nat × Nat :=
  let a := im.le (im.le 28 4 + 4 * i) 4
  (a, 16 + 8 * im.le a 2)

/-- Whether a flashing table keeps the limits of R288. -/
def Image.flashOk (im : Image) (i : Nat) : Bool :=
  let a := im.le (im.le 28 4 + 4 * i) 4
  let f := im.flash i
  decide (im.le a 2 ≤ 1024) && decide (f.acc < 16) && im.zero [(a + 3, 1), (a + 8, 8)] && [f.dvbase, f.dvcount, f.lvbase, f.lvcount].all (· % 8 == 0)
    && decide (f.dvbase ≤ 208 ∧ f.dvcount ≤ 216 ∧ f.lvbase ≤ 32 ∧ f.lvcount ≤ 40)

/-- Check 4 (R392): the records. -/
def Image.recordsOk (im : Image) : Bool :=
  (upto im.nkern).all im.kernelOk && (upto im.nflash).all im.flashOk
    && im.sectionsOk (im.sections ++ (upto im.nkern).flatMap im.kernelSections ++ (upto im.nflash).map im.flashSection)
    && (if im.nbind = 0 then im.zero [(40, 8)] else decide (im.le 40 4 < im.nkern) && decide (im.le 44 4 < im.le (im.kernel (im.le 40 4)) 4))

/-! ### The bodies of a trace -/

/-- One body of a trace: its encoding, header, and the opcode and fields of each word. -/
structure LoadBody where
  enc : Enc
  h : Header
  ws : List (Nat × Fields)
  deriving DecidableEq, Repr

/-- A trace as the loader reads it: its recorded entry and its bodies; `whole` is clear where one runs past its section or
stands at a wrong alignment (R37, R396). -/
structure LoadTrace where
  e : TraceEntry
  bodies : List LoadBody
  whole : Bool
  deriving DecidableEq, Repr

/-- The body of a trace in a code section; none where it does not lie in the section (R396). -/
def Image.body (im : Image) (e : Enc) (secOff secLen off : Nat) : Option LoadBody :=
  if off % (if e = .l9 then 4 else 8) ≠ 0 ∨ secLen ≤ off then none
  else (takeTrace e (im.slice (secOff + off) (min (secLen - off) 1544))).map (fun r =>
    ⟨e, r.1, r.2.map (fun w => ((unpackWord e w).1.toNat, (unpackWord e w).2))⟩)

/-- A trace of a kernel. -/
def Image.trace (im : Image) (k : Kernel) (e : TraceEntry) : LoadTrace :=
  let de : Enc := if k.dsel = 1 then .d8 else if k.dsel = 2 then .d7 else .d9
  let d := if k.d9 then [im.body de (im.le 48 4) (im.le 52 4) e.d9off] else []
  let l := if k.l9 then [im.body .l9 (im.le 56 4) (im.le 60 4) e.l9off] else []
  let h := ((d ++ l).filterMap id).head?
  { e := { e with ep := (h.map (·.h.ep)).getD false, flash := (h.map (·.h.flash)).getD 0 }, bodies := (d ++ l).filterMap id, whole := (d ++ l).all (·.isSome) }

/-! ### What a word uses -/

/-- The operands of a word; none where its opcode has no row. -/
def wordOperands (w : Nat × Fields) : Option (OpInfo × Operands) := (rowOf w.1 w.2).map (fun r => (r, (readFields w.1 r w.2).1))

/-- The registers of an operand. -/
def operandRegs : Operand → List Reg
  | .reg r => [r]
  | .pair a b => [a, b]
  | _ => []

/-- The registers a word writes; a GET writes as many as its channel's SIZE says (R134, R308). -/
def wordWrites (sizes : Nat → Nat) (w : Nat × Fields) : List Reg :=
  match wordOperands w with
  | none => []
  | some (r, o) =>
    if r.dstSrc then []
    else if w.1 = 0xC3 then (match o.dst, o.sa with | .reg (.v n), .chan q _ => (upto (sizes q)).map (fun j => .v (n + j)) | _, _ => operandRegs o.dst)
    else operandRegs o.dst

/-- The registers a word reads; a PUT reads as many as its channel's SIZE says (R308). -/
def wordReads (sizes : Nat → Nat) (w : Nat × Fields) : List Reg :=
  match wordOperands w with
  | none => []
  | some (r, o) =>
    (o.sources r).flatMap operandRegs
      ++ (if w.1 = 0xC4 then (match o.dst, o.sa with | .chan q _, .reg r => ((upto (sizes q)).drop 1).map r.next | _, _ => []) else [])

/-- The successors that a word names by terminator reference, in a kernel of `n` traces (R124, R264, R299): END.IND names every one. -/
def wordSuccs (n : Nat) (w : Nat × Fields) : List Nat :=
  let (op, f) := w
  let one := immField f % 2 ^ 17
  (if op = 0x04 then upto n else if op = 0x03 ∨ op = 0xD8 then [one, secondRef f] else if op = 0x02 then [one] else []).filter (· < n)

/-- The traces a word names by terminator or guard reference (R124, R299). -/
def wordRefs (n : Nat) (w : Nat × Fields) : List Nat :=
  if w.1 = 0x06 ∨ w.1 = 0x07 then [immField w.2 % 2 ^ 17].filter (· < n) else wordSuccs n w

/-- The tiles a word uses, with their codes (R93). -/
def wordTiles (w : Nat × Fields) : List (Nat × Nat) :=
  match wordOperands w with
  | none => []
  | some (_, o) =>
    let of (x : Operand) (code : Nat) : List (Nat × Nat) := match x with | .tile n => [(n, code)] | _ => []
    if [0xA0, 0xA2, 0xA3, 0xD7, 0xD0, 0xD3].contains w.1 then of o.sa 1
    else if w.1 = 0xA1 ∨ w.1 = 0xA4 then of o.sa 2
    else if w.1 = 0xA7 then of o.dst 2
    else if w.1 = 0xA5 then of o.dst 3
    else []

/-- The codes that the words of a trace's bodies call for, of a tile (R93). -/
def LoadTrace.tileCodes (t : LoadTrace) (n : Nat) : List Nat :=
  (t.bodies.flatMap (fun b => b.ws.flatMap wordTiles)).filterMap (fun u => if u.1 = n then some u.2 else none)

/-- The code of a tile whose uses call for some codes: the highest, but 1 and 3 together give 2 (R93). -/
def tileCode (codes : List Nat) : Nat := if codes.contains 1 ∧ codes.contains 3 then 2 else codes.foldl max 0

/-- Whether a recorded code is the code of the body's uses together with some declaration of fill (3), drain (2) and read (1), which
the words do not show (R93, R162, R348). -/
def codeFollows (body : List Nat) (recorded : Nat) : Bool :=
  [[], [1], [2], [3], [1, 2], [1, 3], [2, 3], [1, 2, 3]].any (fun d => tileCode (body ++ d) == recorded)

/-- REQ of a trace (R299). -/
def LoadTrace.req (t : LoadTrace) : Nat := b2n (t.bodies.any (fun b => b.ws.any (fun w => decide (0xD3 ≤ w.1 ∧ w.1 ≤ 0xD7))))

/-- ACCT of a trace (R238, R396). -/
def LoadTrace.acct (t : LoadTrace) : Bool := t.bodies.any (fun b => b.ws.any (fun w => w.1 == 0xD6 || w.1 == 0xD7))

/-- The traces that a trace names. -/
def LoadTrace.refs (t : LoadTrace) (n : Nat) : List Nat := t.bodies.flatMap (fun b => b.ws.flatMap (wordRefs n))

/-- What can be reached from some traces by references (R299, R312). -/
def reachAll (succ : Nat → List Nat) : Nat → List Nat → List Nat → List Nat
  | 0, _, seen => seen
  | fuel + 1, front, seen =>
    let new := ((front.flatMap succ).filter (fun t => !seen.contains t)).eraseDups
    if new.isEmpty then seen else reachAll succ fuel new (seen ++ new)

/-- What can be reached from a trace of a kernel. -/
def reachFrom (ts : List LoadTrace) (t : Nat) : List Nat :=
  reachAll (fun i => match ts[i]? with | some x => x.refs ts.length | none => []) ts.length [t] [t]

/-- The group stages of a chain from which a trace is reached (R312). -/
def stagesOf (c : Chain) (ts : List LoadTrace) (t : Nat) : List Nat :=
  (upto c.stages.length).filter (fun st => match c.stages[st]? with | some (e, false) => (reachFrom ts e).contains t | _ => false)

/-! ### Check 5: the traces (R392) -/

/-- The registers that an item of a channel fills (R308), by the SIZE that the kernel's chain declares; 1 where it declares none (R134). -/
def Kernel.getRegs (k : Kernel) (q : Nat) : Nat :=
  match k.chain.bind (fun c => c.chans.find? (fun x => x.qn == q)) with
  | some x => itemBytes x.size / 4
  | none => 1

/-- Whether a count of R134 exceeds a header's field. -/
def LoadBody.overBudget (b : LoadBody) (sizes : Nat → Nat) : Bool :=
  let num (p : Nat → Bool) : Nat := (b.ws.filter (fun w => p w.1)).length
  let wset := ((b.ws.flatMap (wordWrites sizes)).filter Reg.isV).eraseDups.length
  let stw := (b.ws.map (fun w => if w.1 = 0xA1 then (if w.2.fn.toNat % 8 = 5 then 2 else 1) else if w.1 = 0xA4 ∨ w.1 = 0xD7 then 1 else 0)).sum
  let puts := (b.ws.filter (fun w => w.1 == 0xC4 || w.2.dst.cls)).length
  decide (b.h.wset < wset) || decide (b.h.stw < stw) || decide (b.h.atom < num (fun o => o == 0xB0 || o == 0xB1 || o == 0xB2))
    || decide (b.h.puts < puts) || decide (b.h.jobs < num (fun o => o == 0xD0 || o == 0xC6 || o == 0xC8))
    || decide (b.h.arr < num (fun o => o == 0xC0 || o == 0xC1))

/-- Whether a body holds 24 instructions in a row without an RB (R135). -/
def longRun : Nat → List (Nat × Fields) → Bool
  | _, [] => false
  | n, w :: ws => if w.2.rb then longRun 0 ws else decide (24 ≤ n + 1) || longRun (n + 1) ws

/-- Whether a body reads a window temporary that none of the 7 instructions before names as destination (R108). -/
def staleTemp (sizes : Nat → Nat) (b : LoadBody) : Bool :=
  b.ws.zipIdx.any (fun w => (wordReads sizes w.1).any (fun r => match r with
    | .t n => !((b.ws.take w.2).drop (w.2 - 7)).any (fun p => (wordWrites (fun _ => 1) p).contains (.t n))
    | _ => false))

/-- Whether a body breaks check 5 (R392): R108, R132, R134, R135, R224, R296, R402 (log 45, DEDUCED). -/
def bodyBad (k : Kernel) (ts : List LoadTrace) (b : LoadBody) : Bool :=
  b.h.malformed b.enc || b.overBudget k.getRegs || longRun 0 b.ws || staleTemp k.getRegs b || decide (1 < (b.ws.filter (fun w => w.1 == 0xD3)).length)
    || b.ws.any (fun w => w.1 == 0xD8 && (match ts[immField w.2 % 2 ^ 17]? with | some x => !x.e.ep | none => false))

/-- Whether the headers of a trace's bodies differ where R397 has them agree. -/
def LoadTrace.headersDiffer (t : LoadTrace) : Bool :=
  t.bodies.any (fun a => t.bodies.any (fun b => a.h.head != b.h.head || a.h.arg != b.h.arg || a.h.ep != b.h.ep || a.h.flash != b.h.flash))

/-- Whether a trace breaks check 5 (R392, R396 to R399) (log 45, DEDUCED). -/
def traceBad (k : Kernel) (ts : List LoadTrace) (nflash i : Nat) (t : LoadTrace) : Bool :=
  !t.whole || t.bodies.any (bodyBad k ts) || t.headersDiffer || (t.e.ep && decide (nflash ≤ t.e.flash))
    || !(upto 64).all (fun n => codeFollows (t.tileCodes n) (maskCode t.e.tmask n)) || t.e.req != t.req
    || t.e.freq != (if t.e.ep then (reachFrom ts i).foldl (fun m j => m ||| ((ts[j]?).map (·.req)).getD 0) 0 else 0) || t.e.acct != t.acct
    || (match k.chain with
        | none => t.e.staged || t.e.stage != 0
        | some c => match stagesOf c ts i with
          | [] => t.e.staged || t.e.stage != 0
          | [st] => !t.e.staged || t.e.stage != st
          | _ => false)

/-! ### Check 6: budgets and fits (R392) -/

/-- Whether a role's registers keep R103 (and R402 for a D7 kernel). -/
def roleFits (k : Kernel) (r : Role) : Bool :=
  (!k.d9 || (r.vregd % 8 == 0 && decide (16 ≤ r.vregd ∧ r.vregd ≤ (if k.dsel = 2 then 128 else 216))))
    && (!k.l9 || (r.vregl % 8 == 0 && decide (16 ≤ r.vregl ∧ r.vregl ≤ 40)))

/-- The roles of a kernel. -/
def Kernel.roleList (k : Kernel) : List Role := if k.roles then [k.role0, k.role1] else [k.role0]

/-- Whether a team at full budget fits a core of a kind (R103, R104); `core` is one of that kind. -/
def coreFits (k : Kernel) (core : Nat) : Bool :=
  let groups := (k.roleList.map (·.groups)).sum
  decide ((k.roleList.map (fun r => r.groups * (if isLcore core then r.vregl else r.vregd) * k.width)).sum ≤ fileRegs core)
    && decide ((k.roleList.map (·.slice)).sum + groups * (trapBytes k.width / 256) + queueUnits k.channels ≤ sliceBytes core / 256)

/-- Whether a location lies in what the kernel has: its largest vector budget and its tile allotment (R103, R289). -/
def locOk (k : Kernel) (l9 : Bool) (w : Nat) : Bool :=
  let l := locOf w
  let top := (k.roleList.map (fun r => if l9 then r.vregl else r.vregd)).foldl max 0
  (l.kind != 1 || decide (l.num + l.cnt ≤ top)) && (l.kind != 4 || decide (l.num < k.tiles))

/-- The single places that a location word names. -/
def locPlaces (w : Nat) : List (Nat × Nat) := let l := locOf w; if l.kind = 0 then [] else (upto l.cnt).map (fun j => (l.kind, l.num + j))

/-- Whether a location word keeps its layout and names registers of its encoding (R120, R128, R289). -/
def locShape (l9 : Bool) (w : Nat) : Bool :=
  let l := locOf w
  decide (w < 2 ^ 15) && (match l.kind with
    | 0 => w == 0
    | 1 => decide (l.num + l.cnt ≤ (if l9 then 40 else 216))
    | 2 => decide (l.num + l.cnt ≤ 24)
    | 3 => l.cnt == 1 && decide (l.num < 7)
    | 4 => l.cnt == 1 && decide (l.num < 64)
    | 5 => l.cnt == 1 && decide (l.num < 16)
    | _ => false)

/-- Whether the words of a pair agree: both absent is no pair, one is absent, or their KIND and CNT are the same (R289). -/
def pairShape (p : Nat × Nat) : Bool :=
  let a := locOf p.1
  let b := locOf p.2
  (a.kind != 0 || b.kind != 0) && (a.kind == 0 || b.kind == 0 || (a.kind == b.kind && a.cnt == b.cnt))

/-- Whether a flashing table keeps the rules of R289 that need no kernel, as every table of an object must (log 45, DEDUCED). -/
def Flash.tableOk (f : Flash) : Bool :=
  f.pairs.all (fun p => locShape false p.1 && locShape true p.2 && pairShape p)
    && (f.pairs.flatMap (fun p => locPlaces p.1)).eraseDups.length == (f.pairs.flatMap (fun p => locPlaces p.1)).length
    && (f.pairs.flatMap (fun p => locPlaces p.2)).eraseDups.length == (f.pairs.flatMap (fun p => locPlaces p.2)).length
    && (f.dvcount == 0 || decide (f.dvbase + f.dvcount ≤ 216)) && (f.lvcount == 0 || decide (f.lvbase + f.lvcount ≤ 40))

/-- Whether a flashing table suits a kernel whose EPs name it (R289) (log 45, DEDUCED). -/
def flashFits (k : Kernel) (f : Flash) : Bool :=
  f.tableOk && f.pairs.all (fun p => locOk k false p.1 && locOk k true p.2
      && (if k.d9 then (locOf p.1).kind != 0 else p.1 == 0) && (if k.l9 then (locOf p.2).kind != 0 else p.2 == 0))
    && decide (f.acc < 2 ^ (if k.d9 then (k.roleList.map (·.acc)).sum else 0))

/-- The number of the trace with which a kernel breaks check 6 (R392): R103, R246, R289, R312, R340, R406; none where it keeps it. -/
def fitFault (k : Kernel) (ts : List LoadTrace) (flashes : List Flash) : Option Nat :=
  let groups := (k.roleList.map (·.groups)).sum
  if !k.roleList.all (roleFits k) ∨ 4 < (k.roleList.map (·.acc)).sum ∨ (k.d9 && !coreFits k 1) = true ∨ (k.l9 && !coreFits k 0) = true then some 0
  else if (k.roleList.map (·.slice)).sum < k.argu + (k.tqs.map (fun q => unitsFor q.bytes)).sum ∨ k.tqs.any (fun q => decide (k.tiles ≤ q.tile)) then some 0
  else if k.shadow ∧ (8 < groups ∨ k.chain.isSome ∨ ts.any (fun t => t.e.ep)) then some 0
  else match (ts.zipIdx).find? (fun t => t.1.e.ep && (match flashes[t.1.e.flash]? with | some f => !flashFits k f | none => false)) with
    | some t => some t.2
    | none => match k.chain with
      | none => none
      | some c => (upto ts.length).find? (fun i => decide (1 < (stagesOf c ts i).length))

/-- The spread queues of a chain (R303). -/
def Chain.spread (c : Chain) : List Nat :=
  let engine (st : Nat) : Bool := ((c.stages[st]?).map (·.2)).getD false
  (c.chans.filter (fun x => !x.peng && !engine x.pstage && !engine x.cstage)).map (·.qn)

/-- The spread queues a word pops, peeks or puts: the number, and whether it puts or pops (R119). -/
def wordChannels (w : Nat × Fields) : List (Nat × Bool × Bool) :=
  match wordOperands w with
  | none => []
  | some (r, o) =>
    (match o.dst with | .chan q _ => if r.dstSrc then [] else [(q, true, false)] | _ => [])
      ++ [o.sa, o.sb, o.sc].filterMap (fun x => match x with | .chan q pk => some (q, false, !pk) | _ => none)

/-- FOLDOK (R314) (log 45, DEDUCED). -/
def foldOk (k : Kernel) (c : Chain) (ts : List LoadTrace) (flashes : List Flash) : Bool :=
  let sp := c.spread
  let uses (b : LoadBody) : List (Nat × Bool × Bool) := (b.ws.flatMap wordChannels).filter (fun u => sp.contains u.1)
  let ep (i : Nat) : Bool := ((ts[i]?).map (fun t => t.e.ep)).getD false
  let once (b : LoadBody) : Bool := sp.all (fun q =>
    decide (((uses b).filter (fun u => u.1 == q && u.2.1)).length ≤ 1) && decide (((uses b).filter (fun u => u.1 == q && u.2.2)).length ≤ 1))
  let traceOk (t : LoadTrace) : Bool := t.bodies.all (fun b =>
    once b && ((uses b).isEmpty && !(b.h.head == 2 && sp.contains (b.h.arg % 16)) || t.e.ep)
      && (!(uses b).any (fun u => u.2.1) || (b.ws.flatMap (wordSuccs ts.length)).all ep))
  let stageOk (st : Nat) : Bool :=
    let mine := (ts.zipIdx.filter (fun t => (stagesOf c ts t.2).contains st)).map (·.1)
    let maps := ((mine.filter (fun t => t.e.ep)).filterMap (fun t => flashes[t.e.flash]?)).map (fun f => (f.dvbase, f.dvcount, f.lvbase, f.lvcount))
    match maps.eraseDups with
    | [m] => mine.all (fun t => t.bodies.all (fun b => (b.ws.flatMap (fun w => wordWrites k.getRegs w ++ wordReads k.getRegs w)).all (fun r => match r with
        | .v n => decide (n < (if b.enc = .l9 then m.2.2.2 else m.2.1))
        | _ => true)))
    | _ => false
  ts.all traceOk && (upto c.stages.length).all (fun st => ((c.stages[st]?).map (·.2)).getD true || stageOk st)

/-! ### The checks in order (R392) -/

/-- The must-understand bits that an object's contents require (R390). -/
def Image.needs (im : Image) : Nat :=
  let ks := (upto im.nkern).map im.kernelOf
  let ep := ks.any (fun k => k.traces.any (fun e => (im.trace k e).bodies.any (fun b => b.h.ep)))
  b2n (ks.any (·.l9)) + 2 * b2n (ep || im.nflash != 0) + 4 * b2n (ks.any (·.chain.isSome)) + 8 * b2n (im.nbind != 0)
    + 16 * b2n (ks.any (fun k => k.argu != 0 || !k.tqs.isEmpty)) + 32 * b2n (ks.any (fun k => k.dsel == 1 || k.dsel == 2))

/-- What the checks give: the object, not yet placed, or a status and a result (R443). -/
inductive Checked where
  | ok (o : CodeObject)
  | fail (status result : Nat)
  deriving DecidableEq, Repr

/-- The first trace of the kernels that breaks check 5, and the first kernel that breaks check 6, as a result (R443). -/
def badTrace (nflash : Nat) : Nat → List (Kernel × List LoadTrace) → Option Nat
  | _, [] => none
  | i, (k, ts) :: l => match ts.zipIdx.find? (fun t => traceBad k ts nflash t.2 t.1) with
    | some t => some (i + t.2 * 2 ^ 32)
    | none => badTrace nflash (i + 1) l

/-- The first kernel that breaks check 6. -/
def badFit (flashes : List Flash) : Nat → List (Kernel × List LoadTrace) → Option Nat
  | _, [] => none
  | i, (k, ts) :: l => match fitFault k ts flashes with
    | some t => some (i + t * 2 ^ 32)
    | none => badFit flashes (i + 1) l

/-- A kernel as loaded: its traces with EP and FLASH, its chain with FOLDOK (R314, R396). -/
def Kernel.loaded (k : Kernel) (ts : List LoadTrace) (flashes : List Flash) : Kernel :=
  { k with traces := ts.map (·.e), chain := k.chain.map (fun c => { c with foldok := foldOk k c ts flashes }) }

/-- Checks 1 to 6 of R392; `force` skips check 3 (R393). A table that no EP names and that breaks R289 refuses the object with
LOAD_FIT and RESULT 0 (log 45, DEDUCED). -/
def Image.check (im : Image) (force : Bool) : Checked :=
  if !im.headerOk then .fail 5 0
  else if im.le 4 1 ≠ 9 then .fail 6 0
  else
    let mask := im.le 8 4
    let bad := (mask / 64 * 64) ||| (im.needs - (im.needs &&& mask))
    if bad ≠ 0 ∧ !force then .fail 7 (((upto 32).find? (fun n => bit bad n)).getD 0)
    else if !im.recordsOk then .fail 5 0
    else
      let ks := (upto im.nkern).map (fun i => let k := im.kernelOf i; (k, k.traces.map (im.trace k)))
      let flashes := (upto im.nflash).map im.flash
      match badTrace im.nflash 0 ks with
      | some r => .fail 8 r
      | none => match badFit flashes 0 ks with
        | some r => .fail 9 r
        | none =>
          if !flashes.all Flash.tableOk then .fail 9 0
          else
            .ok { kernels := ks.map (fun p => p.1.loaded p.2 flashes), flashes := flashes, nbind := im.nbind, bckern := im.le 40 4,
                  bctrace := im.le 44 4, forced := force }

/-! ### Placing an object (R392, R398) -/

/-- A free range of `n` pages of 64 KiB in a context's address space, from a start on (R398, log 19, DESIGN CHOICE). -/
def freeVa (leaves : List (Nat × Nat × Nat)) (n : Nat) : Nat → Nat → Option Nat
  | 0, _ => none
  | fuel + 1, p =>
    let a := 65536 * (p % 2 ^ 33)
    let e := a + 65536 * n
    if e ≤ 2 ^ 49 ∧ leaves.all (fun l => decide (e ≤ l.1 ∨ l.1 + l.2.1 ≤ a)
        && (l.2.1 == 65536 || decide ((e + 2 ^ 21 - 1) / 2 ^ 21 * 2 ^ 21 ≤ l.1 ∨ l.1 + l.2.1 ≤ a / 2 ^ 21 * 2 ^ 21))) then some a
    else freeVa leaves n fuel (p + 1)

/-- Place bytes in pages of firmware's own with the permissions given, at an address that the machine chooses: the address, 0 where
there are no bytes; none where no range is free. -/
def State.placeBytes (s : State) (ctx perm : Nat) (bs : List Byte) : Option (Nat × State) :=
  let n := (bs.length + 65535) / 65536
  if n = 0 then some (0, s)
  else
    let (p, s) := s.pick (2 ^ 33)
    match freeVa (s.ctxLeaves ctx) n (2 ^ 33) (p + 1) with
    | none => none
    | some va =>
      let (frame, s) := s.takeFrames (16 * n) 16
      some (va, (s.store (memKey .hbm frame) bs).mapPages ctx va n 1 (frame + perm))

/-- The image without its code sections and bind table, FOLDOK set in its chain descriptors (R392, R400). -/
def Image.rest (im : Image) (o : CodeObject) : List Byte :=
  let out := [(im.le 36 4, 16 * im.nbind), (im.le 48 4, im.le 52 4), (im.le 56 4, im.le 60 4)]
  let folds := (upto im.nkern).filterMap (fun i => match (o.kernels[i]?).bind (·.chain) with
    | some c => if c.foldok then some (im.le (im.kernel i + 48) 4 + 2) else none
    | none => none)
  (im.slice 0 im.len).mapIdx (fun a b => if out.any (fun r => decide (r.1 ≤ a ∧ a < r.1 + r.2)) then 0#8 else if folds.contains a then b ||| 1#8 else b)

/-- The bind table with every STATE 0 (R392). -/
def Image.bindTable (im : Image) : List Byte := (im.slice (im.le 36 4) (16 * im.nbind)).mapIdx (fun a b => if a % 16 < 4 then 0#8 else b)

/-- The pages that hold some bytes. -/
def placedAt (va n : Nat) : List (Nat × Nat) := if n = 0 then [] else [(va, (n + 65535) / 65536 * 65536)]

/-- Place an accepted object (R392, R398): code and every other part readable and executable, the bind table readable and
writable, each apart. -/
def State.placeObject (s : State) (ctx : Nat) (im : Image) (o : CodeObject) : Option (CodeObject × State) :=
  let d := im.slice (im.le 48 4) (im.le 52 4)
  let l := im.slice (im.le 56 4) (im.le 60 4)
  let r := im.rest o
  let b := im.bindTable
  (s.placeBytes ctx 10 d).bind (fun (dv, s) => (s.placeBytes ctx 10 l).bind (fun (lv, s) => (s.placeBytes ctx 10 r).bind (fun (rv, s) =>
    (s.placeBytes ctx 6 b).map (fun (bv, s) =>
      ({ o with d9va := dv, l9va := lv, bindVa := bv,
                placed := placedAt dv d.length ++ placedAt lv l.length ++ placedAt rv r.length ++ placedAt bv b.length }, s)))))

/-- MRn ← SHA-384(MRn ‖ value) (R429, log 15, DESIGN CHOICE). -/
def extend (mr : BitVec 384) (v : List Byte) : BitVec 384 := Config.sha384 (toBytesLE 48 mr.toNat ++ v)

/-- Load the object at an I/O virtual address (R392, R393): the status, the result and the state. Whether the tenant's policy admits
the pages and the bind registration is the machine's choice (log 25, DEDUCED). -/
def State.loadObject (s : State) (ctx obj len : Nat) (force : Bool) : Nat × Nat × State :=
  match s.ctx? ctx with
  | none => (4, 0, s)
  | some c =>
    if force ∧ !c.debug then (2, 0, s)
    else
      let im : Image := ⟨s.mem, obj, len⟩
      match im.check force with
      | .fail st r => (st, r, s)
      | .ok o =>
        let (denied, s) := s.pick 2
        if denied = 1 ∨ 2 ^ 31 ≤ c.nextHandle then (2, 0, s)
        else match s.placeObject ctx im o with
          | none => (2, 0, s)
          | some (o, s) =>
            let m := extend c.measure (toBytesLE 48 (Config.sha384 (im.slice 0 len)).toNat)
            (1, c.nextHandle, s.modCtx ctx (fun c =>
              { c with objects := tput c.objects c.nextHandle o, nextHandle := c.nextHandle + 1, measure := m }))

/-! ### Unloading (R394) -/

/-- Whether a packet or record of a queue names an object (R394): a LAUNCH names HANDLE, a record its target's handle. -/
def namesHandle (kind : Nat) (p : List Byte) (h : Nat) : Bool :=
  if kind = 2 then leAt p 4 4 % 2 ^ 31 == h else leAt p 0 1 == 1 && leAt p 8 4 == h

/-- Whether the packet or record in a slot that has not been read names an object; one whose page cannot be read may (log 46, DEDUCED). -/
def State.slotNames (s : State) (x : HwQueue) (i h : Nat) : Bool :=
  let va := x.slotVa i
  let r := s.walk x.ctx va
  r.1 != 0 || namesHandle x.kind (s.mem.readBytes (leafKey r.2.1 (placeIn r.2.1 r.2.2.2.1 va)) 64) h

/-- Whether an uncompleted packet or record of a context names an object, claimed or still in its slot. -/
def State.queued (s : State) (ctx h : Nat) : Bool :=
  s.queues.any (fun q => q.2.ctx == ctx
    && (q.2.packets.any (fun p => !p.completed && (if p.bytes.isEmpty then s.slotNames q.2 p.idx h else namesHandle q.2.kind p.bytes h))
      || (upto ((q.2.tail + 2 ^ 32 - q.2.next) % 2 ^ 32)).any (fun j => s.slotNames q.2 ((q.2.next + j) % 2 ^ 32) h)))

/-- Whether a team, resident or saved, keeps an object loaded (R394): it runs it, or a group of it is in handler mode at a TRAPBASE that names it. -/
def Team.keeps (t : Team) (h : Nat) : Bool := t.handle == h || t.groups.any (fun g => g.hm && g.handler == h)

/-- Whether an unload must wait (R29, R394): a group in handler mode counts for the TRAPBASE that it entered at. -/
def State.unloadWaits (s : State) (ctx h : Nat) (c : Ctx) : Bool :=
  s.queued ctx h || ((tget c.objects h).map (fun o => o.placed.any (fun r => s.inFlight ctx r.1 r.2))).getD false || (s.teamsOf ctx).any (fun p => match s.team? p.1 p.2 with
    | some t => t.keeps h
    | none => false) || c.saved.any (fun v => v.team.keeps h)

/-- Unload an object: its pages are unmapped and its handle names nothing (R394). -/
def State.unloadObject (s : State) (ctx h : Nat) (o : CodeObject) : State :=
  (o.placed.foldl (fun s r => s.unmapPages ctx r.1 (r.2 / 65536) 1) s).modCtx ctx (fun c => { c with objects := tdel c.objects h })

end Sys2Proof.Machine
end

