-- ==== Sys2Proof/Machine/Requests.lean ====
section
/-!
DEFINITION. The management interface (R437, R441 to R446): the request ring, the requests, and the registers that the host writes.
-/
namespace Sys2Proof.Machine

/-! ### The ring (R441) -/

/-- Whether a ring size runs its ring (R437). -/
def ringSize (n : Nat) : Bool := decide (2 ≤ n ∧ n ≤ 4096) && n &&& (n - 1) == 0

/-- The memory key of request slot `i`. -/
def Bar0.slot (b : Bar0) (i : Nat) : Nat := hostKey (b.mrbase.toNat + 64 * (i % max 1 b.mrsize.toNat))

/-- The record of request `i`. -/
def State.record (s : State) (i : Nat) : List Byte := s.mem.readBytes (s.bar0.slot i) 64

/-- The requests published and not yet completed, in ring order. -/
def State.waiting (s : State) : List Nat :=
  let b := s.bar0
  if !ringSize b.mrsize.toNat then []
  else ((upto ((b.mrtail - b.mrhead).toNat)).map (fun j => (b.mrhead.toNat + j) % 2 ^ 32)).filter (fun i => !b.done.contains i)

/-- The context that a request names. -/
def State.requestCtx (s : State) (i : Nat) : Nat := leAt (s.record i) 2 2

/-- Request `i`, where it waits and every earlier one that names its context has completed (R441). -/
def State.request? (s : State) (i : Nat) : Option (List Byte) :=
  let w := s.waiting
  let earlier := w.takeWhile (fun j => j != i)
  if w.contains i ∧ (24 < s.boot.step ∨ s.boot.halted) ∧ earlier.all (fun j => s.requestCtx j != s.requestCtx i) then some (s.record i) else none

/-- Advance MRHEAD past every completed request that follows it without a gap (R441). -/
def Bar0.advance (b : Bar0) : Nat → Bar0
  | 0 => b
  | fuel + 1 => if b.done.contains b.mrhead.toNat then
      Bar0.advance { b with done := b.done.filter (fun i => i != b.mrhead.toNat), mrhead := b.mrhead + 1#32 } fuel
    else b

/-- Complete request `i`: RESULT, then STATUS, then MRHEAD (R441). -/
def State.complete (s : State) (i status result : Nat) : State :=
  let at_ := s.bar0.slot i
  let s := { s with mem := (s.mem.writeLE (at_ + 8) 8 result).writeLE (at_ + 4) 4 status }
  let b : Bar0 := { s.bar0 with done := i :: s.bar0.done }
  { s with bar0 := b.advance b.done.length }

/-- What performing a request gives: its STATUS and RESULT, or none while it waits; and the state. -/
abbrev Answer := Option (Nat × Nat) × State

/-- Whether some bytes of ARGS outside those listed are not zero (R444). -/
def argsBad (b : List Byte) (used : List (Nat × Nat)) : Bool :=
  ((b.zipIdx).drop 16).any (fun x => x.1 != 0#8 && !used.any (fun r => decide (r.1 ≤ x.2 ∧ x.2 < r.1 + r.2)))

/-- Perform request `a` of the subject where its OP is `op` and it may be performed: NOCTX where it acts on a context that does not
live, BADREQ for a flag its OP has not or an unlisted byte of ARGS, else what `body` gives for the context and the record (R441 to R444). -/
def State.perform (s : State) (op flags : Nat) (onCtx : Bool) (used : List (Nat × Nat)) (body : Nat → List Byte → Answer) : State :=
  match s.request? s.subject.a with
  | none => s
  | some b =>
    let ctx := leAt b 2 2
    if leAt b 0 1 ≠ op then s
    else if onCtx ∧ (s.ctx? ctx).isNone then s.complete s.subject.a 4 0
    else if leAt b 1 1 - (leAt b 1 1 &&& flags) ≠ 0 ∨ argsBad b used then s.complete s.subject.a 3 0
    else match body ctx b with
      | (none, t) => t
      | (some (st, r), t) => t.complete s.subject.a st r

/-- BADREQ: request `a` names no operation (R443). -/
def execBadreq (s : State) : Host.Outcome State Fault Refusal :=
  match s.request? s.subject.a with
  | none => .next s
  | some b => .next (if leAt b 0 1 = 0 ∨ 16 < leAt b 0 1 then s.complete s.subject.a 3 0 else s)

/-! ### Contexts (R444 to R446) -/

/-- An entry of a grant table (R445); none where it is malformed. -/
def grantOf (b : List Byte) : Option Grant :=
  let g : Grant := { tier := leAt b 0 1, perm := leAt b 1 1, pack := leAt b 2 2, base := leAt b 8 8, len := leAt b 16 8 }
  if 3 < g.tier ∨ 8 ≤ g.perm ∨ (if g.tier = 3 then decide (143 < g.pack) else g.pack != 0) = true ∨ leAt b 4 4 ≠ 0 ∨ leAt b 24 8 ≠ 0
      ∨ g.base % 4096 ≠ 0 ∨ g.len = 0 ∨ g.len % 4096 ≠ 0 then none
  else some g

/-- Whether a TIER 0 or TIER 1 grant overlaps another (R445). -/
def Grant.overlaps (a b : Grant) : Bool := a.tier == b.tier && decide (a.tier ≤ 1) && decide (a.base < b.base + b.len) && decide (b.base < a.base + a.len)

/-- The grants of a CTX_CREATE; none where GTAB, NGRANT or an entry is malformed (R444, R445). -/
def State.grantTable (s : State) (b : List Byte) : Option (List Grant) :=
  let gtab := leAt b 16 8
  let n := leAt b 24 2
  if gtab % 32 ≠ 0 ∨ n = 0 ∨ 256 < n then none
  else (upto n).mapM (fun i => grantOf (s.mem.readBytes (hostKey (gtab + 32 * i)) 32))

/-- Keys from the complex's random generator (R429): free values (log 12, DESIGN CHOICE). -/
def drawKeys (n : Nat) : KeySlot :=
  { xts := BitVec.ofNat 512 (ofBytesLE ((upto 64).map (fun i => Config.freeByte (n + i)))),
    gcm := BitVec.ofNat 256 (ofBytesLE ((upto 32).map (fun i => Config.freeByte (n + 64 + i)))) }

/-- The effect of CTX_CREATE (R444, R445, R429): the lowest free number, its root table, and a key drawn for it (log 46, DEDUCED). -/
def State.createContext (s : State) (b : List Byte) : Answer :=
  match s.grantTable b with
  | none => (some (3, 0), s)
  | some gs =>
    let conf := bit (leAt b 1 1) 1
    let clash := s.ctxs.any (fun c => (conf || c.2.conf) && c.2.grants.any (fun x => gs.any (fun y => x.overlaps y)))
    match (upto 4096).find? (fun n => n != 0 && (s.ctx? n).isNone) with
    | none => (some (2, 0), s)
    | some n =>
      if clash then (some (2, 0), s)
      else
        let (root, s) := s.takeFrames 2 2
        let c : Ctx := { root := root, grants := gs, qmax := leAt b 26 2, quantum := if leAt b 28 2 = 0 then 20 else leAt b 28 2, conf := conf,
                         debug := bit (leAt b 1 1) 2, keyGen := s.free }
        (some (1, n), { s with ctxs := tput s.ctxs n c, keySlots := tput s.keySlots n (drawKeys s.free), free := s.free + 96 })

/-- CTX_CREATE: request `a`. -/
def execCtxCreate (s : State) : Host.Outcome State Fault Refusal :=
  .next (s.perform 1 6 false [(16, 14)] (fun ctx b => if ctx ≠ 0 then (some (3, 0), s) else s.createContext b))

/-- CTX_DESTROY: request `a`: the context ends, and its later waiting requests complete NOCTX (R446). -/
def execCtxDestroy (s : State) : Host.Outcome State Fault Refusal :=
  .next (s.perform 2 0 true [] (fun ctx _ =>
    let later := s.waiting.filter (fun j => j != s.subject.a && s.requestCtx j == ctx)
    (some (1, 0), later.foldl (fun s j => s.complete j 4 0) (s.destroyContext ctx))))

/-- CTX_RESUME: request `a`: a stopped context runs again (R360). -/
def execCtxResume (s : State) : Host.Outcome State Fault Refusal :=
  .next (s.perform 3 0 true [] (fun ctx _ => (some (1, 0), s.modCtx ctx (fun c => { c with stopped := none }))))

/-! ### MAP and UNMAP (R442, R445) -/

/-- The pages of a MAP or UNMAP: first address, number and PSIZE; none where an argument is bad (R444). -/
def pagesOf (b : List Byte) : Option (Nat × Nat × Nat) :=
  let va := leAt b 16 8
  let len := leAt b 24 8
  let ps := leAt b 40 1
  if 4 ≤ ps ∨ va % pageBytes ps ≠ 0 ∨ len = 0 ∨ len % pageBytes ps ≠ 0 ∨ 2 ^ 49 < va + len then none else some (va, len / pageBytes ps, ps)

/-- Whether a grant covers a range of frames under a leaf's permissions (R445). Firmware's own frames are in no tenant's grant: only
firmware writes them (R28, log 46, DEDUCED). -/
def Grant.covers (g : Grant) (leaf frame n : Nat) : Bool :=
  let tier := bits leaf 8 6
  let at_ := if tier = 3 then bits frame 39 0 else frame
  g.tier == tier && (tier != 0 || decide (frame + n ≤ fwBase ∨ 2 ^ 39 ≤ frame)) && (tier != 3 || g.pack == bits frame 47 40) && decide (g.base ≤ at_ ∧ at_ + n ≤ g.base + g.len)
    && bits leaf 3 1 &&& g.perm == bits leaf 3 1

/-- Whether another context has mapped a TIER 0 or TIER 1 frame of a range (R445). -/
def State.mappedElsewhere (s : State) (ctx leaf frame n : Nat) : Bool :=
  decide (bits leaf 8 6 ≤ 1) && s.ctxs.any (fun c => c.1 != ctx && (s.ctxLeaves c.1).any (fun l =>
    bits l.2.2 8 6 == bits leaf 8 6 && decide (bits l.2.2 47 12 * 4096 < frame + n ∧ frame < bits l.2.2 47 12 * 4096 + l.2.1)))

/-- Bytes that were encrypted under a key that is no longer theirs (R429, R431, R446): those of HBM and of LPDDR decrypt to nothing known, and
the blocks of CXL memory fail their tags. -/
def State.unreadable (s : State) (tier lo n : Nat) : State :=
  if tier = 1 ∧ s.part = 4 then (upto (n / 64)).foldl (fun s i => s.setPoison (memKey .tier2 (lo + 64 * i)) 64 14) s
  else
    { s with mem := s.mem.writeBytes (memKey (if tier = 0 then .hbm else .tier2) lo) ((upto n).map (fun i => Config.freeByte (s.free + i))),
             free := s.free + n }

/-- Whether a range shares a byte with another. -/
def FrameKey.meets (k : FrameKey) (tier base len : Nat) : Bool := k.tier == tier && decide (k.base < base + len ∧ base < k.base + k.len)

/-- What of a range lies outside another. -/
def FrameKey.outside (k : FrameKey) (tier base len : Nat) : List FrameKey :=
  if !k.meets tier base len then [k]
  else [{ k with len := base - k.base }, { k with base := base + len, len := k.base + k.len - (base + len) }].filter (fun x => x.len != 0)

/-- A range of HBM or tier-2 memory is mapped to a context: its key is the one from now on, and what other keys wrote there is unreadable
(R431) (log 58, DEDUCED). -/
def State.rekey (s : State) (ctx gen tier base len : Nat) : State :=
  if 1 < tier then s
  else
    let s := (s.keys.filter (fun k => k.meets tier base len && !(k.ctx == ctx && k.gen == gen))).foldl (fun s k =>
      s.unreadable tier (max base k.base) (min (base + len) (k.base + k.len) - max base k.base)) s
    { s with keys := { tier := tier, base := base, len := len, ctx := ctx, gen := gen } :: s.keys.flatMap (fun k => k.outside tier base len) }

/-- The effect of MAP (R442, R445). It waits for the accesses in flight of its range (R29) (log 46, DEDUCED). -/
def State.map (s : State) (ctx : Nat) (b : List Byte) : Answer :=
  match s.ctx? ctx, pagesOf b with
  | some c, some (va, n, ps) =>
    let leaf := leAt b 32 8
    let size := pageBytes ps
    let frame := bits leaf 47 12 * 4096
    let frames := (upto n).map (fun i => (va + i * size, frame + i * size))
    if templateBad leaf ps ∨ 2 ^ 48 < frame + n * size then (some (3, 0), s)
    else if c.objects.any (fun o => o.2.placed.any (fun r => decide (r.1 < va + n * size ∧ va < r.1 + r.2))) then (some (2, 0), s)
    else if frames.any (fun f => s.sizeClash ctx f.1 ps) then (some (3, 0), s)
    else if !frames.all (fun f => c.grants.any (fun g => g.covers leaf f.2 size) && !s.mappedElsewhere ctx leaf f.2 size) then (some (2, 0), s)
    else if s.inFlight ctx va (n * size) then (none, s)
    else (some (1, 0), (s.rekey ctx c.keyGen (bits leaf 8 6) frame (n * size)).mapPages ctx va n ps leaf)
  | _, _ => (some (3, 0), s)

/-- MAP: request `a`. -/
def execMap (s : State) : Host.Outcome State Fault Refusal := .next (s.perform 4 0 true [(16, 25)] s.map)

/-- The effect of UNMAP (R442). It waits for the accesses in flight of its range (R29) (log 46, DEDUCED). -/
def State.unmap (s : State) (ctx : Nat) (b : List Byte) : Answer :=
  match pagesOf b with
  | some (va, n, ps) =>
    let size := pageBytes ps
    if (s.ctxLeaves ctx).any (fun l => l.2.1 != size && decide (l.1 < va + n * size ∧ va < l.1 + l.2.1)) then (some (3, 0), s)
    else if s.inFlight ctx va (n * size) then (none, s)
    else (some (1, 0), s.unmapPages ctx va n ps)
  | none => (some (3, 0), s)

/-- UNMAP: request `a`. -/
def execUnmap (s : State) : Host.Outcome State Fault Refusal := .next (s.perform 5 0 true [(16, 16), (40, 1)] s.unmap)

/-! ### Queues (R326, R442) -/

/-- The effect of Q_CREATE (R326, R334): a slot on a resident page of TIER 1 or 3 is BADREQ; a free number of the machine's choice; the queues of the process that runs are mapped
(log 17, DESIGN CHOICE, log 46, DEDUCED). -/
def State.createQueue (s : State) (ctx : Nat) (b : List Byte) : Answer :=
  match s.ctx? ctx with
  | none => (some (4, 0), s)
  | some c =>
    let base := leAt b 16 8
    let slots := leAt b 24 4
    let kind := leAt b 28 1
    let prio := leAt b 29 1
    let tierBad : Bool := (upto ((64 * slots + 4095) / 4096)).any (fun k => match s.leafOf ctx (base + 4096 * k) with
      | some l => leafTier l == 1 || leafTier l == 3
      | none => false)
    if base % 4096 ≠ 0 ∨ 2 ^ 49 ≤ base ∨ slots < 2 ∨ 65536 < slots ∨ slots &&& (slots - 1) ≠ 0 ∨ kind = 0 ∨ 2 < kind ∨ 3 < prio then (some (3, 0), s)
    else if tierBad then (some (3, 0), s)
    else if c.qmax ≤ (s.queues.filter (fun q => q.2.ctx == ctx)).length then (some (2, 0), s)
    else
      let (p, s) := s.pick 65536
      match ((upto 65536).map (fun i => (p + i) % 65536)).find? (fun i => (tget s.queues i).isNone) with
      | none => (some (2, 0), s)
      | some n =>
        let alone := s.queues.all (fun q => q.2.ctx == ctx)
        let run := if alone then ctx else s.runNext
        let q : HwQueue := { base := base, slots := slots, kind := kind, prio := prio, ctx := ctx, mapped := run == ctx }
        let mapped := if alone then s.queues.map (fun (x : Nat × HwQueue) => (x.1, { x.2 with mapped := true })) else s.queues
        (some (1, n), { s with queues := tput mapped n q, runNext := run })

/-- Q_CREATE: request `a`. -/
def execQCreate (s : State) : Host.Outcome State Fault Refusal := .next (s.perform 6 0 true [(16, 14)] s.createQueue)

/-- The effect of Q_DESTROY (R442): no further packet starts, and the queue is removed once its started packets have completed. -/
def State.destroyQueue (s : State) (ctx : Nat) (b : List Byte) : Answer :=
  let n := leAt b 16 2
  match tget s.queues n with
  | none => (some (3, 0), s)
  | some q =>
    if q.ctx ≠ ctx then (some (3, 0), s)
    else if q.packets.all (fun p => !p.started || p.completed || p.failed) then (some (1, 0), { s.dropReservations (· == n) with queues := tdel s.queues n })
    else (none, s.modQueue n (fun q => { q with removing := true }))

/-- Q_DESTROY: request `a`. -/
def execQDestroy (s : State) : Host.Outcome State Fault Refusal := .next (s.perform 7 0 true [(16, 2)] s.destroyQueue)

/-! ### Objects (R392 to R394) -/

/-- LOAD: request `a` (R392, R393). -/
def execLoad (s : State) : Host.Outcome State Fault Refusal :=
  .next (s.perform 8 1 true [(16, 16)] (fun ctx b =>
    let (st, r, s) := s.loadObject ctx (leAt b 16 8) (leAt b 24 8) (bit (leAt b 1 1) 0)
    (some (st, r), s)))

/-- UNLOAD: request `a` (R394). -/
def execUnload (s : State) : Host.Outcome State Fault Refusal :=
  .next (s.perform 9 0 true [(16, 4)] (fun ctx b =>
    let h := leAt b 16 4
    match s.ctx? ctx with
    | none => (some (4, 0), s)
    | some c => match tget c.objects h with
      | none => (some (3, 0), s)
      | some o => if s.unloadWaits ctx h c then (none, s) else (some (1, 0), s.unloadObject ctx h o)))

/-! ### EXPORT, CORE_INFO, BUCKET (R439, R444, R451, R356) -/

/-- EXPORT: request `a`. -/
def execExportWindow (s : State) : Host.Outcome State Fault Refusal :=
  .next (s.perform 10 0 true [(16, 20)] (fun ctx b =>
    let w : ExportWindow := { ctx := ctx, va := leAt b 16 8, len := leAt b 24 8, pack := leAt b 32 2, ictx := leAt b 34 2 }
    if w.va % 4096 ≠ 0 ∨ w.len % 4096 ≠ 0 ∨ 2 ^ 40 < w.len ∨ 143 < w.pack ∨ 4096 ≤ w.ictx then (some (3, 0), s)
    else (some (1, 0), { s with exports := w :: s.exports })))

/-- CORE_INFO: request `a`. -/
def execCoreInfo (s : State) : Host.Outcome State Fault Refusal :=
  .next (s.perform 12 0 false [(16, 1), (18, 2)] (fun _ b =>
    let d := leAt b 16 1
    let n := leAt b 18 2
    if 3 < d ∨ 287 < n then (some (3, 0), s) else (some (1, s.coreCaps (512 * d + n)), s)))

/-- A 64-bit number as signed. -/
def signed64 (n : Nat) : Int := (BitVec.ofNat 64 n).toInt

/-- A bucket rewritten (R356): LEVEL becomes CAP where CAP leaves 0, and is capped otherwise. -/
def Bucket.rewrite (k : Bucket) (cap rate : Nat) (resume : Int) : Bucket :=
  { k with cap := cap, rate := rate, resume := resume, level := if k.cap = 0 ∧ cap ≠ 0 then cap else min k.level cap }

/-- BUCKET: request `a`. -/
def execBucket (s : State) : Host.Outcome State Fault Refusal :=
  .next (s.perform 14 0 true [(16, 1), (24, 24)] (fun ctx b =>
    if 2 < leAt b 16 1 then (some (3, 0), s)
    else (some (1, 0), s.modCtx ctx (fun c => { c with buckets := c.buckets.modify (leAt b 16 1) (fun k =>
      k.rewrite (leAt b 24 8) (leAt b 32 8) (signed64 (leAt b 40 8))) }))))

/-! ### DEBUG (R378, R379, R442, R444) -/

/-- The group that a DEBUG request names; none where it names no group of its context (R444). -/
def State.debugGroup (s : State) (ctx : Nat) (b : List Byte) : Option GRef :=
  let g : GRef := ⟨leAt b 18 2, leAt b 20 1, leAt b 21 1⟩
  match s.team? g.core g.slot with
  | some t => if t.ctx = ctx ∧ (t.groups[g.grp]?).isSome then some g else none
  | none => none

/-- Perform DEBUG request `a` where its DOP is one of `dops`: DENIED but for a context with DEBUG and without CONF (R442). -/
def State.debug (s : State) (dops : Nat → Bool) (body : Nat → List Byte → Answer) : State :=
  match s.request? s.subject.a with
  | none => s
  | some b =>
    if !dops (leAt b 16 1) then s
    else s.perform 11 0 true [(16, 1), (18, 5), (24, 4), (32, 8)] (fun ctx b =>
      match s.ctx? ctx with
      | none => (some (4, 0), s)
      | some c => if !c.debug || c.conf then (some (2, 0), s) else if 8 < leAt b 16 1 then (some (3, 0), s) else body ctx b)

/-- A debug operation on a group. -/
def State.onGroup (s : State) (ctx : Nat) (b : List Byte) (f : GRef → Answer) : Answer :=
  match s.debugGroup ctx b with
  | none => (some (3, 0), s)
  | some g => f g

/-- DEBUG_HALT: request `a`, DOP 0: the group halts at its trace boundary (R378). A DOP that names nothing completes BADREQ (R444). -/
def execDebugHalt (s : State) : Host.Outcome State Fault Refusal :=
  .next (s.debug (fun d => d == 0 || decide (8 < d)) (fun ctx b => s.onGroup ctx b (fun g =>
    (some (1, 0), s.modGroup g (fun (x : Group) => if x.halt != Halt.none then x else if x.exec.isSome then { x with haltAsked := true } else (x.haltFor .request).unpark (s.core g.core).cycles)))))

/-- A halted group resumes (R378, R379): one halted at a breakpoint acts as RETT; each cause that holds a lane is tested again. -/
def State.resume (s : State) (g : GRef) : State :=
  match s.group? g with
  | none => s
  | some x =>
    let s := if x.halt = .breakpoint then (s.returnTrap g false none).noteEnded g.core g.slot else s
    let now := (s.core g.core).cycles
    let s := s.modGroup g (fun x => { x with halt := .none, haltAsked := false })
    let s := s.mapLanes g (fun _ l => match l.held with | some h => if h.cause = 3 ∨ h.cause = 7 then l.release now else l | none => l)
    s.releaseCleared g

/-- DEBUG_RESUME: request `a`, DOP 1. -/
def execDebugResume (s : State) : Host.Outcome State Fault Refusal :=
  .next (s.debug (· == 1) (fun ctx b => s.onGroup ctx b (fun g => (some (1, 0), match s.group? g with
    | some x => if x.halt = Halt.none then s.modGroup g (fun x => { x with haltAsked := false }) else s.resume g
    | none => s))))

/-- DEBUG_STEP: request `a`, DOP 2: the group runs one execution and halts (R378) (log 46, DEDUCED). -/
def execDebugStep (s : State) : Host.Outcome State Fault Refusal :=
  .next (s.debug (· == 2) (fun ctx b => s.onGroup ctx b (fun g => (some (1, 0), (match s.group? g with
    | some x => if x.halt = Halt.none then s else s.resume g
    | none => s).modGroup g (fun x => { x with stepping := true })))))

/-- Whether FOFF names a word of a group's trap tile (R444). -/
def State.frameOffset (s : State) (g : GRef) (b : List Byte) : Bool :=
  leAt b 24 4 % 8 == 0 && decide (leAt b 24 4 + 8 ≤ trapBytes ((s.group? g).elim 16 (·.width)))

/-- DEBUG_READ_FRAME: request `a`, DOP 3. -/
def execDebugReadFrame (s : State) : Host.Outcome State Fault Refusal :=
  .next (s.debug (· == 3) (fun ctx b => s.onGroup ctx b (fun g =>
    (some (if s.frameOffset g b then (1, ofBytesLE (s.readTrapTile g (leAt b 24 4) 8)) else (3, 0)), s))))

/-- DEBUG_WRITE_FRAME: request `a`, DOP 4. -/
def execDebugWriteFrame (s : State) : Host.Outcome State Fault Refusal :=
  .next (s.debug (· == 4) (fun ctx b => s.onGroup ctx b (fun g =>
    if s.frameOffset g b then (some (1, 0), s.writeTrapTile g (leAt b 24 4) (toBytesLE 8 (leAt b 32 8))) else (some (3, 0), s))))

/-- DEBUG_READ_BRK: request `a`, DOP 5. -/
def execDebugReadBrk (s : State) : Host.Outcome State Fault Refusal :=
  .next (s.debug (· == 5) (fun ctx b =>
    (some (if 3 < leAt b 22 1 then (3, 0) else (1, (nth (((s.ctx? ctx).map (·.brk)).getD []) (leAt b 22 1) 0#64).toNat)), s)))

/-- DEBUG_WRITE_BRK: request `a`, DOP 6. Reserved bits keep 0, as for CSRW (R372, R374). -/
def execDebugWriteBrk (s : State) : Host.Outcome State Fault Refusal :=
  .next (s.debug (· == 6) (fun ctx b =>
    if 3 < leAt b 22 1 then (some (3, 0), s)
    else
      let v := leAt b 32 8
      let w := csrAfter 0x10 (csrAfter 0x10 0 false (v % 2 ^ 32)) true (v / 2 ^ 32)
      (some (1, 0), s.modCtx ctx (fun c => { c with brk := c.brk.set (leAt b 22 1) (BitVec.ofNat 64 w) }))))

/-- DEBUG_READ_MODE: request `a`, DOP 7. -/
def execDebugReadMode (s : State) : Host.Outcome State Fault Refusal :=
  .next (s.debug (· == 7) (fun ctx b => s.onGroup ctx b (fun g => (some (1, ((s.group? g).elim 0#32 (·.mode)).toNat), s))))

/-- DEBUG_WRITE_MODE: request `a`, DOP 8: the writable bits (R371). -/
def execDebugWriteMode (s : State) : Host.Outcome State Fault Refusal :=
  .next (s.debug (· == 8) (fun ctx b => s.onGroup ctx b (fun g =>
    (some (1, 0), s.modGroup g (fun x => { x with mode := BitVec.ofNat 32 (csrAfter 2 x.mode.toNat false (leAt b 32 8 % 2 ^ 32)) })))))

/-! ### Registers that the host writes (R417, R437) -/

/-- A write of a plain register of BAR0: at offset `o`, a value of `n` bytes (R437). A DEADLINE of 0 leaves DEADLINE as it is
(log 26, DESIGN CHOICE). -/
def Bar0.write (r : Bar0) (o n v : Nat) : Bar0 :=
  if o = 0x40 ∧ n = 8 then { r with mrbase := BitVec.ofNat 64 v }
  else if o = 0x48 ∧ n = 4 then { r with mrsize := BitVec.ofNat 32 v }
  else if o = 0x4C ∧ n = 4 then (if (v + 2 ^ 32 - r.mrtail.toNat) % 2 ^ 32 < 2 ^ 31 then { r with mrtail := BitVec.ofNat 32 v } else r)
  else if o = 0x58 ∧ n = 8 then { r with evbase := BitVec.ofNat 64 v }
  else if o = 0x60 ∧ n = 4 then { r with evsize := BitVec.ofNat 32 v }
  else if o = 0x64 ∧ n = 4 then { r with evhead := BitVec.ofNat 32 v }
  else if o = 0x70 ∧ n = 4 then
    let d := if v % 65536 = 0 then r.scrubcfg.toNat % 65536 else v % 65536
    { r with scrubcfg := BitVec.ofNat 32 (d + bits v 16 16 * 65536 + bits r.scrubcfg.toNat 17 17 * 131072) }
  else r

/-- REGISTER_WRITE: offset `a` of BAR0, value `b`, `c` bytes. Another offset or size is ignored. -/
def execRegisterWrite (s : State) : Host.Outcome State Fault Refusal :=
  let u := s.subject
  .next { s with bar0 := s.bar0.write u.a u.c u.b }

/-- ERRSTAT_CLEAR: 1 is written to ERRSTAT.V of bank `a`: the whole bank is cleared (R417). -/
def execErrstatClear (s : State) : Host.Outcome State Fault Refusal := .next { s with banks := s.banks.modify s.subject.a (fun _ => {}) }

/-- EVLOST_CLEAR: 1 is written to EVLOST.OVF: the whole register is cleared (R437). -/
def execEvlostClear (s : State) : Host.Outcome State Fault Refusal := .next { s with bar0 := { s.bar0 with evlost := 0#32 } }

end Sys2Proof.Machine
end

