-- ==== Sys2Proof/Machine/Answer.lean ====
section
/-!
DEFINITION. Plien's answers to fault records (R33, R43, R77, R78, R359, R436), and its reload (R452).
-/
namespace Sys2Proof.Machine

/-! ### Mapping a page for a record (R43, R359) -/

/-- Plien maps the page of a record from a leaf template of the tenant's policy, as a MAP of one page would (R28, R442); a template of
0 asks for nothing. -/
def State.mapFor (s : State) (ctx va leaf psize : Nat) : Option State :=
  if leaf = 0 then some s
  else
    let at_ := va / pageBytes psize * pageBytes psize
    match s.map ctx (List.replicate 16 0#8 ++ toBytesLE 8 at_ ++ toBytesLE 8 (pageBytes psize) ++ toBytesLE 8 leaf ++ toBytesLE 1 psize) with
    | (some (1, _), s) => some s
    | _ => none

/-! ### What an answer does (R359) -/

/-- A cured record: its job is replayed once every record of it has been answered, or its page is retried. -/
def State.cured (s : State) (d : Nat) (r : FaultRecord) : State :=
  if r.job = 0 then s.retryPage d r.ctx (r.va / 4096)
  else match s.job? r.ctx r.job with
    | some (jd, n, j) =>
      let j' := { j with records := j.records - 1 }
      let s := s.modJob jd n (fun _ => j')
      if j'.records = 0 then s.replay jd n j' else s
    | none => s

/-- The lanes of a group that a record's page holds at its trace (R256, R359). -/
def Group.heldOn (x : Group) (r : FaultRecord) : List Nat :=
  x.live.filter (fun l => (x.lane l).tr.idx == r.trace && (match (x.lane l).held with
    | some h => (h.cause == 3 || h.cause == 7) && h.obj == r.va / 4096
    | none => false))

/-- A trap with a record's cause at the head where its lanes are held (R359), in the first of the stages that holds some (R317). -/
def State.headCause (s : State) (r : FaultRecord) (g : GRef) : List Nat → State
  | [] => s
  | st :: rest =>
    let s1 := s.switchStage g.core g.slot st
    match s1.group? g with
    | none => s
    | some x => match x.heldOn r with
      | [] => s.headCause r g rest
      | l :: ls =>
        (s1.modGroup g (fun x => x.modLanes (l :: ls) (Lane.release (s1.core g.core).cycles))).stopAtHead g ⟨r.cause, l :: ls, r.va, 0⟩ (x.lane l).tr (l :: ls)

/-- A pull of a port that cannot be cured: the port stays stopped until its RTAIL is written, and QDROP is set (R344). -/
def State.portDropped (s : State) (r : FaultRecord) : State :=
  let p := r.elem - 0xFE00
  (s.coreTeams r.core).foldl (fun s x =>
    if x.2.ctx = r.ctx ∧ x.2.queues.any (fun q => tget q.2.stopped p == some (r.va / 4096)) then
      (s.qdrop r.core x.1).modTeam r.core x.1 (fun t => { t with queues := t.queues.map (fun q =>
        (q.1, if tget q.2.stopped p = some (r.va / 4096) then { q.2 with stopped := tput q.2.stopped p (2 ^ 61) } else q.2)) })
    else s) s

/-- Successor work that cannot be cured is dropped (R350). -/
def State.succUncured (s : State) (r : FaultRecord) : State :=
  match (s.core r.core).succs.zipIdx.find? (fun w => w.1.ctx == r.ctx && w.1.parkedPage == some (r.va / 4096) && w.1.zero == (r.elem == 0xFE11)) with
  | some (w, i) => s.succDropped r.core i w r.elem 0 0 0
  | none => s

/-- A packet's access that cannot be cured (R327, R330, R331): a slot read or STATUS write stops the queue, a FEED's record fails the
FEED, and a SIGNAL makes STATUS FAULTED in place of DONE. -/
def State.packetUncured (s : State) (d : Nat) (r : FaultRecord) : State :=
  s.queues.foldl (fun s q =>
    if q.2.ctx ≠ r.ctx then s
    else match q.2.packets.find? (fun p => p.die == d && p.page.isSome && p.va == r.va && p.elem == r.elem) with
      | none => s
      | some p =>
        let s := s.modPacket q.1 p.idx (fun p => { p with page := none })
        if r.elem = 0xFE21 then
          s.modPacket q.1 p.idx (fun p => { p with status := if p.status ≤ 1 then 4 else p.status, unsignalled := true })
        else if !p.bytes.isEmpty ∧ leAt p.bytes 0 1 = 2 ∧ p.status = 0 ∧ q.2.kind = 1 then
          s.modPacket q.1 p.idx (fun p => { p with started := true, status := 4 })
        else (s.stopQueue q.1 r.cause).modPacket q.1 p.idx (fun p => { p with failed := true })) s

/-- A record that Plien cannot cure (R359). -/
def State.uncured (s : State) (d : Nat) (r : FaultRecord) : State :=
  if r.job ≠ 0 then
    match s.job? r.ctx r.job with
    | some (jd, n, j) => s.faultJob jd n j
    | none => s
  else if r.srck = 3 ∨ r.srck = 4 then
    let g : GRef := ⟨r.core, r.group / 16, r.group % 16⟩
    match s.team? g.core g.slot, s.group? g with
    | some tm, some x => s.headCause r g (stagesToTry tm x)
    | _, _ => s
  else if r.elem < 0xFE10 then s.portDropped r
  else if r.elem < 0xFE20 then s.succUncured r
  else s.packetUncured d r

/-! ### PRI (R33, R436) -/

/-- Whether an answer may be given now: a job is completed FAULTED only when it is PARTIAL, and a trap is taken at a head only while its
group runs nothing. -/
def State.answerable (s : State) (r : FaultRecord) : Bool :=
  if r.job ≠ 0 then (match s.job? r.ctx r.job with
    | some (_, _, j) => j.state == .partialDone || j.state.completed
    | none => true)
  else if r.srck = 3 ∨ r.srck = 4 then (match s.group? ⟨r.core, r.group / 16, r.group % 16⟩ with
    | some x => x.exec.isNone
    | none => true)
  else true

/-- The page request of an element of the list as a message to the host. -/
def PriRequest.message (p : PriRequest) : List Byte := toBytesLE 2 p.ctx ++ toBytesLE 8 p.page

/-- Page requests that an I/O die may have outstanding (R436). -/
def priRoom : Nat := 512

/-- Whether the request at place `i` of the list has gone out: fewer than 512 of its I/O die stand before it (R436). -/
def priSent (l : List PriRequest) (i : Nat) (p : PriRequest) : Bool :=
  decide (((l.take i).filter (fun q => ioDie q.die == ioDie p.die)).length < priRoom)

/-- Ask the host for the page of a record: the request goes out while its I/O die has a place free, and waits for one otherwise; the last
place taken raises PRI_FULL to the die that hears of it (R33, R436, R467). -/
def State.askPage (s : State) (d : Nat) (r : FaultRecord) : State :=
  let w := s.walk r.ctx r.va
  let p : PriRequest := { ctx := r.ctx, page := placeIn w.2.1 w.2.2.2.1 r.va / 4096, die := d, record := r }
  let n := (s.priOut.filter (fun q => ioDie q.die == ioDie d)).length
  let s := { s with priOut := s.priOut ++ [p] }
  let s := if n < priRoom then s.tellHost 2 p.message else s
  if n + 1 = priRoom then s.raisePlien (ioDie d) 8 else s

/-- PRI_RESPONSE: for context `a` and I/O page `b`, code `c`: 0 Success cures the records that asked, once the page's old translation is
gone; Invalid Request and Response Failure leave them uncured, and Plien acts on that once each may be answered: a job once it is PARTIAL
(R33, R78). Requests that waited for a place go out. -/
def execPriResponse (s : State) : Host.Outcome State Fault Refusal :=
  let u := s.subject
  let hit (p : PriRequest) : Bool := p.ctx == u.a && p.page == u.b
  let sent := s.priOut.zipIdx.filter (fun x => priSent s.priOut x.2 x.1)
  let asked := (sent.filter (fun x => hit x.1)).map (·.1)
  let left := s.priOut.zipIdx.filter (fun x => !(hit x.1 && sent.contains x))
  let list := left.map (·.1)
  if u.c ≠ 0 ∧ !asked.all (fun p => s.answerable p.record) then .next s
  else
    let s := { s with priOut := list, ats := if u.c = 0 then s.ats.filter (fun e => !(e.ctx == u.a && e.page == u.b)) else s.ats }
    let s := (left.zipIdx.filter (fun x => !sent.contains x.1 && priSent list x.2 x.1.1)).foldl (fun s x => s.tellHost 2 x.1.1.message) s
    .next (asked.foldl (fun s p => if u.c = 0 then s.cured p.die p.record else s.uncured p.die p.record) s)

/-! ### FAULT_RECORD_ANSWER (R359) -/

/-- Plien clears FRQOVF and scans every PARTIAL job of the die: one whose posted records have all been answered is replayed (R77)
(log 43, DEDUCED). -/
def State.scanPartial (s : State) (d : Nat) : State :=
  (s.die d).truss.foldl (fun s p => match tget (s.die d).truss p.1 with
    | some j => if j.state = .partialDone ∧ j.records = 0 then s.replay d p.1 j else s
    | none => s) (s.modDie d (fun x => { x with frqovf := false }))

/-- FAULT_RECORD_ANSWER: Plien answers the oldest record of die `a` (R77, R359). The page of a HOST_PAGE or ATS_TIMEOUT record it asks the host
for, whose response decides (R33, R464). Of another record, `b` is 0 to map its page from template `c` and PSIZE `d`, or 0 where it is mapped
already, and cure it; 1 where it cannot cure it. A REPLAY_LOOP record whose leaf has been changed, so that the page is resident now, is
answered by a replay; any other ends the job (R43). A queue that holds no record and has overflowed is scanned. -/
def execFaultRecordAnswer (s : State) : Host.Outcome State Fault Refusal :=
  let u := s.subject
  match (s.die u.a).frq with
  | [] => .next (if (s.die u.a).frqovf then s.scanPartial u.a else s)
  | r :: rest =>
    let pop (s : State) : State := s.modDie u.a (fun d => { d with frq := rest })
    if r.cause = 143 ∨ r.cause = 158 then .next ((pop s).askPage u.a r)
    else if u.b = 0 then
      match s.mapFor r.ctx r.va u.c u.d with
      | some t => .next (if r.cause = 155 ∧ (t.leafOf r.ctx r.va).isNone then s else (pop t).cured u.a r)
      | none => .next s
    else if r.cause = 155 ∧ (s.leafOf r.ctx r.va).isSome then .next ((pop s).cured u.a r)
    else .next (if s.answerable r then (pop s).uncured u.a r else s)

/-! ### PLIEN_RELOAD (R452) -/

/-- PLIEN_RELOAD: the heartbeat of die `a` has stood still for 1 ms: the boot engine reloads Plien, which resumes from its state in HBM.
`ok` says whether the reload succeeds; a third that fails in one start restarts the package, with step 22 recorded as failed. -/
def State.reloadPlien (s : State) (d : Nat) (ok : Bool) (restart : State → State) : State :=
  let s := s.raisePlien d 4
  if ok then { s with boot := { s.boot with reloaded := some d } }
  else if s.boot.reloads < 2 then { s with boot := { s.boot with reloads := s.boot.reloads + 1 } }
  else restart s

end Sys2Proof.Machine
end

