-- ==== Sys2Proof/Machine/Reliability.lean ====
section
/-!
DEFINITION. Reliability and start: storage errors and scrub (R404, R405, R416 to R419), the steps of the start and their policies (R433
to R435), the loss of power, and the reload of Plien (R452).
-/
namespace Sys2Proof.Machine

/-! ### Storage errors (R404, R418) -/

/-- A storage error: its KIND (R417), where it is, and whether it cannot be corrected. For a register, a group, a lane and the number
it has in D9 (R120), 256 + n for pn. For an accumulator, a group's team, the accumulator and the byte. `sub` tells apart what one KIND covers: of a
register, 0 the committed one and n + 1 the result in the TRS of the instruction at offset n; of a cache, 0 that of a core or its die and 1 or 2 that
of IO0 or IO1; of a tag, 0 that of a host block and 1 that of a CXL block. -/
structure StorageError where
  kind : Nat
  at_ : Nat
  g : GRef
  lane : Nat
  sub : Nat := 0
  uc : Bool
  scrub : Bool
  deriving DecidableEq, Repr

/-- The register of a number (R120). -/
def regOf (n : Nat) : Reg := if n < 216 then .v n else if n < 232 then .t (n - 216) else if n < 256 then .k (n - 232) else .p (n - 256)

/-- The bank that covers an error (R416). -/
def StorageError.bank (e : StorageError) : Nat :=
  match e.kind with
  | 0 => bits e.at_ 38 36
  | 1 => 8 + e.at_ / 2 ^ 30 % 4
  | 2 => 8 + dieOf e.g.core % 4
  | 3 => 8 + dieOf e.g.core % 4
  | 4 => if e.sub = 0 then 8 + dieOf e.g.core % 4 else 11 + min 2 e.sub
  | 5 => 14
  | 6 => if e.sub = 1 then 14 else 15
  | _ => 15

/-- ADDR of an error's record (R417). -/
def StorageError.addr (e : StorageError) : Nat :=
  match e.kind with
  | 2 => e.g.core % 2048 + e.at_ % 256 * 65536
  | 3 => e.g.core % 2048 + e.lane % 256 * 65536
  | 4 => e.at_
  | _ => e.at_

/-- Poison the granule of an error (R404). -/
def State.poisonGranule (s : State) (e : StorageError) : State :=
  match e.kind with
  | 0 => s.setPoison (memKey .hbm (e.at_ / 64 * 64)) 64 e.bank
  | 1 => s.setPoison (memKey .slice (e.at_ / 8 * 8)) 8 e.bank
  | 2 => { s with regPoison := ⟨e.g, placeOf e.lane (regOf e.at_), e.bank, e.sub⟩ ::
      s.regPoison.filter (fun p => !(p.g == e.g && p.place == placeOf e.lane (regOf e.at_) && p.trs == e.sub)) }
  | 3 =>
    let p : Poison := { key := e.lane * 65536 + e.at_ / 8 * 8, size := 8, bank := e.bank }
    s.modTeam e.g.core e.g.slot (fun t => { t with accPoison := p :: t.accPoison.filter (fun q => q.key != p.key) })
  | 5 => s.setPoison (memKey .tier2 (e.at_ / 64 * 64)) 64 e.bank
  | 6 => s.setPoison (if e.sub = 1 then memKey .tier2 (e.at_ / 64 * 64) else hostKey (e.at_ / 64 * 64)) 64 e.bank
  | 7 => s.setPoison (memKey .peer (e.at_ / 64 * 64)) 64 e.bank
  | _ => s

/-- A detected error in a cache drops the line or entry of an address, which is fetched or walked again (R404): in an I/O die's cache, the entry of
an I/O virtual address. -/
def State.dropCached (s : State) (core sub va : Nat) : State :=
  if sub ≠ 0 then { s with ats := s.ats.filter (fun e => !(e.io + 1 == sub && e.page == va / 4096)) }
  else
  let tlb (l : List TlbEntry) : List TlbEntry := l.filter (fun e => !decide (e.page ≤ va ∧ va < e.page + e.size))
  let code (l : List CodeLine) : List CodeLine := l.filter (fun c => c.va != va / 64 * 64)
  (s.modCore core (fun k => { k with tlb := tlb k.tlb, code := code k.code })).modDie (dieOf core) (fun d => { d with tlb := tlb d.tlb, code := code d.code })

/-- A detected error (R404, R418): a corrected one is counted, one that is not poisons its granule; one in a cache is dropped and
counted as corrected (log 28, DEDUCED). -/
def State.storageError (s : State) (e : StorageError) : State :=
  if e.kind = 4 then (s.dropCached e.g.core e.sub e.at_).recordError e.bank 4 e.addr false e.scrub
  else
    let s := s.recordError e.bank e.kind e.addr e.uc e.scrub
    if e.uc then s.poisonGranule e else s

/-- ECC_ERROR: an error of KIND `a` at `b`, of the subject's group and `c` for a register (lane) or accumulator, and `d` where one KIND covers
several; `ok` says that it was corrected. A failed tag of a host, CXL or peer block is one that cannot be (R404, R431). -/
def execEccError (s : State) : Host.Outcome State Fault Refusal :=
  let u := s.subject
  if 7 < u.a then .next s
  else .next (s.storageError { kind := u.a, at_ := u.b, g := u.g, lane := u.c, sub := u.d, uc := !u.ok || decide (6 ≤ u.a), scrub := false })

/-- Granules of HBM: 64-byte blocks of 8 stacks of 64 GiB (R15, R404). -/
def hbmGranules : Nat := 2 ^ 33

/-- Granules of on-module LPDDR, which the HN9M-L has (R1, R404). -/
def State.lpddrGranules (s : State) : Nat := if s.part = 3 then s.tier2Bytes / 64 else 0

/-- The granule at an index of a list of cores' slices: its global slice address (R83, R404). -/
def sliceGranule : List Nat → Nat → Option Nat
  | [], _ => none
  | c :: l, n => if n < sliceBytes c / 8 then some (c * 2 ^ 21 + 8 * n) else sliceGranule l (n - sliceBytes c / 8)

/-- The cores of the package. -/
def allCores : List Nat := (upto 4).flatMap dieCores

/-- The granules of a pass of the scrubber, and the one at a place in it: its KIND and its address. The order within a pass is the model's: HBM, LPDDR,
slices, by rising address (R419; log 28, DESIGN CHOICE). -/
def State.scrubPass (s : State) : Nat := hbmGranules + s.lpddrGranules + (allCores.map (fun c => sliceBytes c / 8)).sum

/-- The granule at a place of a pass. -/
def State.scrubGranule (s : State) (n : Nat) : Nat × Nat :=
  if n < hbmGranules then (0, 64 * n)
  else if n < hbmGranules + s.lpddrGranules then (5, 64 * (n - hbmGranules))
  else (1, (sliceGranule allCores (n - hbmGranules - s.lpddrGranules)).getD 0)

/-- Whether the pass is behind schedule (R419): the fraction of it still to do exceeds the fraction of DEADLINE still left. Times are in nanoseconds. -/
def scrubBehind (todo pass deadline spent : Nat) : Bool := decide ((deadline - spent) * pass < todo * deadline)

/-- SCRUB_ACCESS: the patrol scrubber reads the next granule of its pass, `d` nanoseconds of IO0's local time after the last one; `c` is 0 where it is
clean, 1 for an error that it corrects, 2 for one that it cannot. BEHIND follows, and a pass that is done begins anew (R419; log 10, DESIGN CHOICE). -/
def execScrubAccess (s : State) : Host.Outcome State Fault Refusal :=
  let u := s.subject
  let cfg := s.bar0.scrubcfg.toNat
  if !bit cfg 16 then .next s
  else
    let (kind, at_) := s.scrubGranule s.scrub
    let s := if u.c = 0 then s else s.storageError { kind := kind, at_ := at_, g := ⟨at_ / 2 ^ 21, 0, 0⟩, lane := 0, uc := decide (1 < u.c), scrub := true }
    let ended := decide (s.scrubPass ≤ s.scrub + 1)
    let s := { s with scrub := if ended then 0 else s.scrub + 1, scrubTime := if ended then 0 else s.scrubTime + u.d }
    let behind := !ended && scrubBehind (s.scrubPass - s.scrub) s.scrubPass (cfg % 65536 * 60 * 10 ^ 9) s.scrubTime
    let s := { s with bar0 := { s.bar0 with scrubcfg := BitVec.ofNat 32 (bits cfg 16 0 + 131072 * b2n behind) } }
    .next (if behind ∧ !bit cfg 17 then s.raisePlien 0 12 else s)

/-- UE_CONSUME: the subject's group, which owes the consumption of an uncorrectable error and runs nothing, consumes it at its next head
(R405, R413, R414). The errors that instructions, fetches and returns meet are consumed where they are met. -/
def execUeConsume (s : State) : Host.Outcome State Fault Refusal :=
  let g := s.subject.g
  match s.group? g with
  | none => .next s
  | some x =>
    match x.owed.find? (fun t => decide (256 ≤ t.cause ∧ t.cause < 320)) with
    | none => .next s
    | some t => if x.exec.isSome then .next s
      else .next ((s.modGroup g (fun y => { y with owed := y.owed.erase t })).consume g t.cause (t.info1 == 0))

/-! ### The start record (R434) -/

/-- The entry of a step. -/
def StartCopy.entry (c : StartCopy) (step : Nat) : StartEntry := nth c.entries (step - 1) {}

/-- An entry as a word (R434). -/
def StartEntry.word (e : StartEntry) : Nat := e.outcome % 8 + e.mode % 4 * 8 + e.tries % 4 * 32 + e.reason % 256 * 256

/-- Bytes 0 to 123 of a copy (R434). -/
def StartCopy.body (c : StartCopy) : List Byte :=
  toBytesLE 4 c.gen ++ List.replicate 4 0#8 ++ c.entries.flatMap (fun e => toBytesLE 4 e.word) ++ List.replicate 20 0#8

/-- The 128 bytes of a copy, as STARTREC shows those of the copy in force (R434, R437). -/
def StartCopy.bytes (c : StartCopy) : List Byte := c.body ++ toBytesLE 4 (Config.crc32 c.body).toNat

/-- The number of the copy in force: the one with the higher GEN whose CRC holds (R434). -/
def Boot.inForce (b : Boot) : Nat :=
  let x := nth b.copies 0 {}
  let y := nth b.copies 1 {}
  if !y.good then 0 else if !x.good then 1 else if x.gen < y.gen then 1 else 0

/-- The copy in force. -/
def Boot.record (b : Boot) : StartCopy := nth b.copies b.inForce {}

/-- Write the other copy with GEN + 1 (R434) (log 47, DEDUCED). -/
def Boot.write (b : Boot) (entries : List StartEntry) : Boot :=
  { b with copies := b.copies.set (1 - b.inForce) { gen := b.record.gen + 1, entries := entries, good := true } }

/-! ### Policies (R433, R435) -/

/-- What a step does when it fails (R433). -/
inductive Policy where
  | halt | skip
  | alternate (exhaustedHalts : Bool)
  deriving DecidableEq, Repr

/-- The policy of a step (R433). -/
def policyOf (step : Nat) : Policy :=
  match step with
  | 2 => .alternate true | 10 => .alternate true | 13 => .skip | 14 => .skip | 15 => .skip
  | 16 => .alternate false | 18 => .alternate true | 19 => .alternate false | 20 => .alternate true
  | 21 => .alternate true | 22 => .alternate true
  | _ => .halt

/-- Whether a part lacks the unit that a step brings up (R1, R433): 0 HN9P-8F, 1 HN9P-8S, 2 HN9P-4E, 3 HN9M-L, 4 HN9M-X (log 1, DESIGN CHOICE). -/
def stepAbsent (part step : Nat) : Bool :=
  match step with
  | 13 => part == 2 | 14 => part == 1 || part == 2 | 15 => part == 2
  | 16 => decide (part < 3) | 19 => part == 2
  | _ => false

/-- An entry at the next start (R435): a failed step takes TRIES + 1, and its policy's action. -/
def StartEntry.next (e : StartEntry) (step : Nat) : StartEntry :=
  if e.outcome ≠ 2 then e
  else match policyOf step with
    | .skip => { e with tries := min 3 (e.tries + 1), mode := 2, outcome := 3 }
    | .alternate false => if e.tries = 3 then { e with mode := 2, outcome := 3 } else { e with tries := e.tries + 1, mode := 1 }
    | .alternate true => { e with tries := min 3 (e.tries + 1), mode := 1 }
    | .halt => { e with tries := min 3 (e.tries + 1) }

/-- Whether a step that fails with an entry stops the boot engine there (R435). -/
def StartEntry.stops (e : StartEntry) (step : Nat) : Bool :=
  e.tries == 3 && (match policyOf step with | .halt => true | .alternate b => b | .skip => false)

/-- The step at which a start has stopped, as the record shows until the host clears it (R435): one that failed with TRIES at 3 and whose policy
stops the boot engine. -/
def Boot.stoppedAt (b : Boot) : Option Nat :=
  (b.record.entries.zipIdx.find? (fun p => p.1.outcome == 2 && p.1.stops (p.2 + 1))).map (fun p => p.2 + 1)

/-! ### The restart of a package -/

/-- The package after a restart or a loss of power (R434, R435): all of it as after reset, but for the record, the part, and what lies
outside it (log 47, DEDUCED). -/
def State.restart (s : State) : State :=
  { State.reset with
    mem := s.mem.filter (fun c => decide (memKey .host 0 ≤ c.1 ∧ c.1 < memKey .slice 0)), windows := s.windows, out := s.out,
    boot := { copies := s.boot.copies }, part := s.part, picks := s.picks, free := s.free, agenda := s.agenda }

/-- Record the outcome of a step in the start record (R434) (log 17, DESIGN CHOICE). -/
def State.outcome (s : State) (step : Nat) (f : StartEntry → StartEntry) : State :=
  { s with boot := s.boot.write (s.boot.record.entries.modify (step - 1) f) }

/-! ### What a step brings up (R433, R438, R429) -/

/-- Bytes of tier-2 memory once it is trained (R1): 3,072 GB on HN9M-L, and up to that on HN9M-X (log 1, DESIGN CHOICE). -/
def State.trainTier2 (s : State) : State :=
  let all := 3072 * 10 ^ 9
  if s.part = 3 then { s with tier2Bytes := all }
  else if s.part = 4 then let (p, s) := s.pick (all / 4096); { s with tier2Bytes := all - 4096 * p }
  else s

/-- Extend a measurement register (R429). -/
def State.extendMr (s : State) (n : Nat) (v : List Byte) : State := { s with mrs := s.mrs.modify n (fun m => extend m v) }

/-- Disable cores of a kind that fail their self-test, of the machine's choice (R433). -/
def State.testCores (s : State) (lcores : Bool) : State :=
  let (n, s) := s.pick 1024
  (upto n).foldl (fun s _ =>
    let (c, s) := s.pick 2048
    if localOf c < 288 ∧ isLcore c = lcores then s.modCore c (fun k => { k with disabled := true }) else s) s

/-- Whether some die keeps fewer than 240 DCOREs (R433). -/
def State.fewCores (s : State) : Bool := (upto 4).any (fun d => decide (((dieCores d).filter (fun c => !isLcore c && s.coreEnabled c)).length < 240))

/-- Whether a step's unit is in use: it has passed. -/
def State.stepPassed (s : State) (step : Nat) : Bool := (s.boot.record.entry step).outcome == 1

/-- FEATMASK as the start found the units (R438). There is no tier-2 memory where its controller is absent or disabled (R2). -/
def State.features (s : State) : Nat :=
  let kind := if !s.stepPassed 15 || !s.stepPassed 16 then 0 else if s.part = 3 then 1 else if s.part = 4 then 2 else 0
  b2n (s.stepPassed 14) + 2 * b2n (s.stepPassed 15) + 4 * b2n (s.anyCore true) + 8 * b2n (s.stepPassed 19) + 16 * kind

/-- The compute die that events of a link are raised to (R467): CD0 for IO0's links 0 to 17, else CD1 (log 53, DEDUCED). -/
def linkDie (n : Nat) : Nat := if n < 18 then 0 else 1

/-- A link has gone up or down: LINK_CHANGE is raised and a LINK event posted (R447 to R449, R467) (log 53, DEDUCED). -/
def State.linkReport (s : State) (n : Nat) (up : Bool) (packid : Nat) : State :=
  (s.raisePlien (linkDie n) 13).postEvent 6 0 (toBytesLE 1 n ++ toBytesLE 1 (b2n up) ++ toBytesLE 1 (if up then packid else 0))

/-- Bring up some Eave links (R449): each is up, with the package number that its training has learned, and reports it. -/
def State.raiseLinks (s : State) (lo hi : Nat) : State :=
  (upto (hi - lo)).foldl (fun s k => ({ s with links := s.links.modify (lo + k) (fun l => { l with up := true }) }).linkReport (lo + k) true s.packid.toNat) s

/-- MR1 holds Plien's image of a slot (R429): that of slot B where step 21 or step 22 runs its alternate (R433). -/
def State.measurePlien (s : State) (slotB : Bool) : State :=
  { s with mrs := s.mrs.set 1 (extend 0#384 (toBytesLE 48 (Config.image (2 + b2n slotB)).toNat)) }

/-- Whether an image that a step brings up verifies (R430, R433): both its signatures must, and whether each does is the machine's choice
(log 17, DESIGN CHOICE). -/
def State.imageVerifies (s : State) (step : Nat) : Bool × State :=
  if step = 2 ∨ step = 21 ∨ (step = 22 ∧ (s.boot.record.entry 22).mode = 1) then
    let (rsa, s) := s.pick 2
    let (slh, s) := s.pick 2
    (rsa == 0 && slh == 0, s)
  else (true, s)

/-- The effect of a step that passes (R429, R433). -/
def State.stepEffect (s : State) (step : Nat) : State :=
  match step with
  | 2 => { s with boot := { s.boot with slotB := (s.boot.record.entry 2).mode == 1 } }
  | 3 => ((({ s with mrs := List.replicate 16 0#384, identity := { rsa := Config.identity 0, slh := Config.identity 1, chains := [Config.identity 2, Config.identity 3] } }).extendMr 0 (toBytesLE 48 (Config.image (b2n s.boot.slotB)).toNat)).extendMr 3
      (toBytesLE 48 (Config.image 4).toNat))
  | 13 => s
  | 16 => if s.stepPassed 15 then s.trainTier2 else s
  | 18 => let (p, s) := s.pick 144; { s with packid := BitVec.ofNat 32 p }.raiseLinks 0 18
  | 19 => s.raiseLinks 18 36
  | 21 => s.measurePlien ((s.boot.record.entry 21).mode == 1)
  | 22 => if (s.boot.record.entry 22).mode = 1 ∧ (s.boot.record.entry 21).mode ≠ 1 then s.measurePlien true else s
  | 23 =>
    let s := { s with featmask := BitVec.ofNat 32 s.features }
    s.extendMr 2 (s.boot.record.bytes ++ toBytesLE 4 s.featmask.toNat)
  | 24 => { s with spdm := { s.spdm with stage := 1 }, boot := { s.boot with degraded := s.boot.record.entries.any (fun e => e.mode != 0) } }
  | _ => s

/-- A step that fails (R435): the start ends, the failure is recorded, and the package restarts, or the boot engine stops there and
reports START_HALTED. -/
def State.stepFails (s : State) (step reason : Nat) : State :=
  let e := s.boot.record.entry step
  let s := s.outcome step (fun e => { e with outcome := 2, reason := reason % 256 })
  if e.stops step then { s with boot := { s.boot with halted := true }, out := s.out ++ [⟨4, 0, toBytesLE 1 step⟩] } else s.restart

/-- The step that the boot engine is at. `fails` is the outcome of the unit's bring-up, `reason` its failure code. -/
def State.runStep (s : State) (fails : Bool) (reason : Nat) : State :=
  let step := s.boot.step
  let to_ (s : State) : State := { s with boot := { s.boot with step := step + 1 } }
  if step = 0 then
    match s.boot.stoppedAt with
    | some n => { s with boot := { s.boot with halted := true, step := n }, out := s.out ++ [⟨4, 0, toBytesLE 1 n⟩] }
    | none => to_ { s with boot := s.boot.write (s.boot.record.entries.mapIdx (fun i e => e.next (i + 1))), lcores := s.part != 2 }
  else
    let e := s.boot.record.entry step
    if stepAbsent s.part step then to_ (s.outcome step (fun e => { e with outcome := 4 }))
    else if e.mode = 2 then to_ ((if step = 13 then { s with lcores := false } else s).outcome step (fun e => { e with outcome := 3 }))
    else
      let s := if step = 12 then s.testCores false else if step = 13 then s.testCores true else s
      let (good, s) := s.imageVerifies step
      if fails ∨ !good ∨ (step = 12 ∧ s.fewCores) then s.stepFails step reason
      else to_ ((s.outcome step (fun e => { e with outcome := 1, tries := 0 })).stepEffect step)

/-- PACKAGE_START: the boot engine reads the record, or runs its next step; whether the step passes is the machine's choice (R433,
R435). A start that is over or stopped does nothing. -/
def execPackageStart (s : State) : Host.Outcome State Fault Refusal :=
  if !s.starting then .next s
  else
    let (f, s) := s.pick 2
    let (r, s) := s.pick 256
    .next (s.runStep (f == 1) r)

/-- POWER_LOSS: the package loses power and starts anew; `ok` says that the loss came while a copy of the record was being written, which
leaves the older copy in force (R434) (log 47, DEDUCED). -/
def execPowerLoss (s : State) : Host.Outcome State Fault Refusal :=
  let b := s.boot
  let other := 1 - b.inForce
  .next ({ s with boot := if s.subject.ok then { b with copies := b.copies.modify other (fun c => { c with good := false }) } else b }).restart

/-- PLIEN_RELOAD: the heartbeat of die `a` has stood still for 1 ms; `ok` says that the reload succeeds. The third that fails in one start
restarts the package, with step 22 recorded as failed (R435, R452). -/
def execPlienReload (s : State) : Host.Outcome State Fault Refusal :=
  let u := s.subject
  if s.boot.step ≤ 24 then .next s
  else .next (s.reloadPlien u.a u.ok (fun s => (s.outcome 22 (fun e => { e with outcome := 2 })).restart))

/-- The record as START_CLEAR leaves it (R435): alternate and disabled modes and failures are cleared (log 47, DEDUCED). -/
def clearedEntry (e : StartEntry) : StartEntry := if e.mode ≠ 0 ∨ e.outcome = 2 then {} else e

/-- START_CLEAR: request `a`: the record is cleared, and a stopped start begins anew (R435, R444) (log 47, DEDUCED). -/
def execStartClear (s : State) : Host.Outcome State Fault Refusal :=
  .next (s.perform 13 0 false [] (fun _ _ =>
    (some (1, 0), { s with boot := { (s.boot.write (s.boot.record.entries.map clearedEntry)) with
      halted := false, step := if s.boot.halted then 0 else s.boot.step } })))

/-! ### What the host reads (R437, R440) -/

/-- The register of BAR0 at an offset: its width in bytes and its value (R437). -/
def State.bar0Reg (s : State) (o : Nat) : Nat × Nat :=
  let b := s.bar0
  if o = 0x0 then (4, s.featmask.toNat)
  else if o = 0x4 then (4, s.packid.toNat)
  else if 0x10 ≤ o ∧ o < 0x30 ∧ o % 8 = 0 then (8, (nth b.hb ((o - 0x10) / 8) 0#64).toNat)
  else if o = 0x40 then (8, b.mrbase.toNat)
  else if o = 0x48 then (4, b.mrsize.toNat)
  else if o = 0x50 then (4, b.mrhead.toNat)
  else if o = 0x58 then (8, b.evbase.toNat)
  else if o = 0x60 then (4, b.evsize.toNat)
  else if o = 0x64 then (4, b.evhead.toNat)
  else if o = 0x68 then (4, b.evtail.toNat)
  else if o = 0x6C then (4, b.evlost.toNat)
  else if o = 0x70 then (4, b.scrubcfg.toNat)
  else if 0x100 ≤ o ∧ o < 0x200 ∧ o % 16 = 0 then (8, (nth s.banks ((o - 0x100) / 16) {}).stat.toNat)
  else if 0x100 ≤ o ∧ o < 0x200 ∧ o % 16 = 8 then (8, (nth s.banks ((o - 0x100) / 16) {}).addr.toNat)
  else (0, 0)

/-- What a read of BAR0 of `n` bytes at offset `o` gives (R437): zero for an offset that is not listed, for the write-only MRTAIL, and for a size that
is not the register's; any bytes of STARTREC (log 26, DESIGN CHOICE). -/
def State.bar0Read (s : State) (o n : Nat) : Nat :=
  if 0x200 ≤ o ∧ o + n ≤ 0x280 then leAt s.boot.record.bytes (o - 0x200) n
  else if (s.bar0Reg o).1 = n then (s.bar0Reg o).2 else 0

/-- What a read of `n` bytes at offset `o` of a queue's doorbell page gives (R440). -/
def State.doorbellRead (s : State) (queue o n : Nat) : Nat :=
  match tget s.queues queue with
  | none => 0
  | some q => if n ≠ 4 then 0
    else if o = 4 then q.head % 2 ^ 32
    else if o = 8 then 1 + 2 * b2n q.mapped + 4 * b2n q.qover
    else 0

end Sys2Proof.Machine
end

