-- ==== Sys2Proof/Machine/Fabric.lean ====
section
/-!
DEFINITION. The Eave fabric (R431, R449 to R451): links going up and down, packets received, key updates, and the accesses that
peers make to the windows this package exports.
-/
namespace Sys2Proof.Machine

/-! ### Links (R431, R449) -/

/-- Whether the package has a link: 36, or 18 where EAVEHI is 0 (R438, R449). -/
def State.hasLink (s : State) (n : Nat) : Bool := decide (n < 36) && (decide (n < 18) || s.featmask.getLsbD 3)

/-- Change a link. -/
def State.modLink (s : State) (n : Nat) (f : Link → Link) : State := { s with links := s.links.modify n f }

/-- A link goes up: its training has told PACKID; it reaches some peers and carries a session with those of `peers` (R431, R449). -/
def State.linkUp (s : State) (n packid : Nat) (reach peers : List Nat) : State :=
  ({ s.modLink n (fun l => { l with up := true, reach := reach, peers := peers, packets := 0, failures := 0, keyGen := l.keyGen + 1 }) with
     packid := BitVec.ofNat 32 (packid % 256) }).linkReport n true packid

/-- A link goes down. Accesses in flight move to another plane; none is in flight between two steps of the model (R450, log 14, DESIGN CHOICE). -/
def State.linkDown (s : State) (n : Nat) : State := (s.modLink n (fun l => { l with up := false, reach := [], peers := [] })).linkReport n false 0

/-- LINK_CHANGE: link `a` goes up (`ok`), with PACKID `b`, or down. It reaches the peers in `bytes`, with the first `c` of which no session is made
yet. For a link that is up already it says which peers it reaches and which sessions it carries from now on, with their keys (R431). -/
def execLinkChange (s : State) : Host.Outcome State Fault Refusal :=
  let u := s.subject
  match s.links[u.a]? with
  | some l =>
    if !s.hasLink u.a then .next s
    else
      let peers := u.bytes.map (·.toNat)
      if l.up = u.ok then .next (if u.ok then s.modLink u.a (fun l => { l with reach := peers, peers := peers.drop u.c, keyGen := l.keyGen + 1 }) else s)
      else .next (if u.ok then s.linkUp u.a u.b peers (peers.drop u.c) else s.linkDown u.a)
  | none => .next s

/-- A packet of a link has been received: a bad tag has it resent, and the eighth failure in a row takes the link down (R431). Bank 15 records a
failure, corrected where the packet is resent, with the link's number as ADDR (R416, R417; log 28, DESIGN CHOICE). -/
def State.linkPacket (s : State) (n besides : Nat) (good : Bool) (l : Link) : State :=
  if good then s.modLink n (fun l => { l with packets := l.packets + besides + 1, failures := 0 })
  else
    let s := (s.modLink n (fun l => { l with packets := l.packets + besides + 1, failures := l.failures + 1 })).recordError 15 8 n (decide (7 ≤ l.failures)) false
    if 7 ≤ l.failures then s.linkDown n else { s with out := s.out ++ [⟨1, n, [0#8]⟩] }

/-- The pages of a window that answer with a cause, from 10 bytes each: the page's number and the cause. -/
def windowCauses : Nat → List Byte → List (Nat × Nat)
  | 0, _ => []
  | n + 1, bs => if bs.length < 10 then [] else (leAt bs 0 8, leAt bs 8 2) :: windowCauses n (bs.drop 10)

/-- A peer answers from now on for a window that it has exported to a context of this package, or for one whose pages it has mapped otherwise (R451). -/
def State.learnWindow (s : State) (pack ctx n : Nat) (causes : List (Nat × Nat)) : State :=
  { s with windows := { pack := pack, ctx := ctx, bytes := min n (2 ^ 40), causes := causes } :: s.windows.filter (fun w => !(w.pack == pack && w.ctx == ctx)) }

/-- LINK_PACKET_RECEIVE: a packet arrives on link `a`, its tag right if `ok`; `b` packets have passed besides since the last one. Where `c` is not 0 it
comes of what a peer's Plien has done: package `t.handle` exports to this package's context `t.kern` a window of `d` bytes, or maps pages of it, and
the pages that `bytes` lists answer with a cause (R451, log 14, DESIGN CHOICE). -/
def execLinkPacketReceive (s : State) : Host.Outcome State Fault Refusal :=
  let u := s.subject
  match s.links[u.a]? with
  | some l =>
    if !l.up then .next s
    else
      let s := s.linkPacket u.a u.b u.ok l
      .next (if u.ok ∧ u.c ≠ 0 ∧ l.peers.contains u.t.handle then s.learnWindow u.t.handle u.t.kern u.d (windowCauses (u.bytes.length / 10) u.bytes) else s)
  | none => .next s

/-- LINK_KEY_UPDATE: link `a` has carried 2^32 packets since its last key update (R431). -/
def execLinkKeyUpdate (s : State) : Host.Outcome State Fault Refusal :=
  let n := s.subject.a
  match s.links[n]? with
  | some l =>
    if l.up ∧ 2 ^ 32 ≤ l.packets then .next (s.modLink n (fun l => { l with packets := l.packets - 2 ^ 32, keyGen := l.keyGen + 1 })) else .next s
  | none => .next s

/-! ### Accesses of peers (R451) -/

/-- Translate an incoming access through the exporting context's own tables (R25, R451): no core's caches take part. -/
def State.translatePeer (s : State) (a : Access) : Translated × State :=
  if 2 ^ 49 ≤ a.va then (.fail 128 0, s)
  else
    let (cause, leaf, at_, base, _) := s.walk a.ctx a.va
    if cause ≠ 0 then (.fail cause (leafTier leaf), s)
    else
      let addr := placeIn leaf base a.va
      match (s.tierFault leaf addr).or (a.fault leaf) with
      | some c => (.fail c (leafTier leaf), s)
      | none => (s.setAD a at_).beyondWalk a leaf addr

/-- The answer to an access of a peer: its cause, whether the bytes read are poisoned, and the bytes. -/
def State.answerPeer (s : State) (pack cause : Nat) (data : List Byte) (poisoned : Bool := false) : State :=
  { s with out := s.out ++ [⟨1, pack, toBytesLE 2 cause ++ [BitVec.ofNat 8 (b2n poisoned)] ++ data⟩] }

/-- What a peer's access performs at a home: 0 a read of `n` bytes, 1 a write of bytes, 2 an atomic. A poisoned block leaves an atomic
unperformed, with the cause of a far atomic that met an error (R405, R466). -/
def State.performPeer (s : State) (pack key : Nat) (acc n : Nat) (bytes : List Byte) (a : Atomic) : State :=
  match acc with
  | 0 => s.answerPeer pack 0 (s.mem.readBytes key n) (s.poisonAt key n).isSome
  | 1 => (s.store key bytes).answerPeer pack 0 []
  | _ => match s.poisonAt key a.bytes with
    | some p => s.answerPeer pack (256 + 4 * p.bank + 2) []
    | none =>
      let old := s.mem.readLE key a.bytes
      let s := s.atomicWrite key a.bytes (a.result old)
      let s := if a.order = 2 ∨ a.order = 3 then (s.tag key ⟨a.scope, 4096 * (pack + 1), 0, 0, 0, 1⟩).notifyBinds key else s
      s.answerPeer pack 0 (toBytesLE a.bytes old)

/-- An access of a peer through the newest window exported to it (R451). `acc` is as in R77; the die whose queue takes a NOT_PRESENT
record is the machine's choice (log 53, DEDUCED). -/
def State.peerAccess (s : State) (pack ictx off acc n : Nat) (bytes : List Byte) (a : Atomic) : State :=
  match s.exports.find? (fun w => w.pack == pack && w.ictx == ictx) with
  | none => s.answerPeer pack 137 []
  | some w =>
    let len := if acc = 0 then n else if acc = 1 then bytes.length else a.bytes
    if w.len < off + len ∨ (s.ctx? w.ctx).isNone then s.answerPeer pack 137 []
    else
      match s.translatePeer { core := 0, who := asks 7 pack ictx, ctx := w.ctx, va := w.va + off, acc := acc, keyperm := ((s.ctx? w.ctx).getD {}).keyperm } with
      | (.ok key _, s) => s.performPeer pack key acc n bytes a
      | (.wait _, s) => s
      | (.fail 134 tier, s) =>
        let (p, s) := s.pick 4
        (s.postRecord p { cause := 134, ctx := w.ctx, va := w.va + off, acc := acc, tier := tier }).answerPeer pack 151 []
      | (.fail c _, s) => s.answerPeer pack c []

/-- PEER_ACCESS: package `a`'s context `b` accesses offset `c` of the window exported to it, within one 64-byte block (R450): a read of
`d` bytes, a write of `bytes` (`ok`), or, where `g.grp` is not 0, the atomic whose operation, type, order and scope are `t.handle`,
`t.kern`, `t.idx` and `g.slot`, and whose value and comparand are 8 bytes each of `bytes`. -/
def execPeerAccess (s : State) : Host.Outcome State Fault Refusal :=
  let u := s.subject
  let acc := if u.g.grp ≠ 0 then 2 else b2n u.ok
  let atom : Atomic := { op := u.t.handle % 8, typ := u.t.kern % 6, scope := u.g.slot % 8, order := u.t.idx % 4, addr := 0, space := 0,
                         value := leAt u.bytes 0 8, cmp := leAt u.bytes 8 8, dst := none }
  let len := if acc = 0 then u.d else if acc = 1 then u.bytes.length else atom.bytes
  if len = 0 ∨ 64 < u.c % 64 + len ∨ !s.links.any (fun l => l.up && l.peers.contains u.a) then .next s
  else .next (s.peerAccess u.a u.b u.c acc u.d u.bytes atom)

end Sys2Proof.Machine
end

