-- ==== Sys2Proof/Machine/Collective.lean ====
section
/-!
DEFINITION. Collectives (R420 to R428): communicators, the chunks of an operation and their checks, membership, and spares. What
other members do arrives as chunks and messages (log 14, DESIGN CHOICE); which hops a chunk takes the spec leaves open (log 29, DESIGN CHOICE).
-/
namespace Sys2Proof.Machine

/-! ### Elements (R422, R424) -/

/-- FP64, in which trailers are summed (R423). -/
def f64 : FloatFormat := ⟨64, 52, 1023, 0x7FEFFFFFFFFFFFFF, true, 0x7FF8000000000000⟩

/-- The float format of a descriptor's FMT; none for S32 (R422, R44). -/
def collFloat : Nat → Option FloatFormat
  | 1 => some f32
  | 2 => some bf16
  | 3 => some f16
  | _ => none

/-- Bytes of an element of a descriptor's FMT. -/
def collSize (fmt : Nat) : Nat := if fmt = 2 ∨ fmt = 3 then 2 else 4

/-- The elements of a payload. -/
def collElements (fmt : Nat) (b : List Byte) : List Nat := (upto (b.length / collSize fmt)).map (fun i => leAt b (i * collSize fmt) (collSize fmt))

/-- A signed 32-bit number. -/
def signed32 (n : Nat) : Int := (BitVec.ofNat 32 n).toInt

/-- Two elements combined by an operation (R423, R426): a sum with RNE or modulo 2^32, the greater, or the less. -/
def collCombine (op fmt x y : Nat) : Nat :=
  match collFloat fmt with
  | some f => if op = 1 then f.pickOf true x y else if op = 2 then f.pickOf false x y else f.rne ((f.decode x).add (f.decode y))
  | none =>
    if op = 1 then (if signed32 x ≤ signed32 y then y else x)
    else if op = 2 then (if signed32 x ≤ signed32 y then x else y)
    else (x + y) % 2 ^ 32

/-- Two payloads combined element by element. -/
def collMerge (op fmt : Nat) (a b : List Byte) : List Byte :=
  ((collElements fmt a).zip (collElements fmt b)).flatMap (fun p => toBytesLE (collSize fmt) (collCombine op fmt p.1 p.2))

/-- A sum of two FP64 numbers with RNE. -/
def addF64 (x y : Nat) : Nat := f64.rne ((f64.decode x).add (f64.decode y))

/-- Whether a value is a NaN or an infinity. -/
def Val.special : Val → Bool
  | .fin _ _ _ => false
  | .inf _ => true
  | .nan => true

/-! ### Trailers (R423, R424) -/

/-- What a trailer says of its chunk: SUMC, ABSC, M and SPEC. -/
structure Checksum where
  sumc : Nat
  absc : Nat
  m : Nat
  spec : Nat
  deriving DecidableEq, Repr

/-- SUMC, ABSC and SPEC of a payload, in ascending element order. -/
def checksumOf (fmt m : Nat) (b : List Byte) : Checksum :=
  let es := collElements fmt b
  match collFloat fmt with
  | some f =>
    let vs := es.map f.decode
    let finite := vs.filter (fun v => !v.special)
    { sumc := finite.foldl (fun a v => f64.rne ((f64.decode a).add v)) 0, absc := finite.foldl (fun a v => f64.rne ((f64.decode a).add v.abs)) 0,
      m := m, spec := vs.length - finite.length }
  | none => { sumc := ((es.foldl (fun a e => a + signed32 e) (0 : Int)) % 2 ^ 64).toNat, absc := 0, m := m, spec := 0 }

/-- The checksums of chunks that a SUM hop combines (R423). -/
def Checksum.merge (fmt : Nat) (a b : Checksum) : Checksum :=
  match collFloat fmt with
  | some _ => { sumc := addF64 a.sumc b.sumc, absc := addF64 a.absc b.absc, m := a.m + b.m, spec := a.spec + b.spec }
  | none => { sumc := (a.sumc + b.sumc) % 2 ^ 64, absc := 0, m := a.m + b.m, spec := a.spec + b.spec }

/-- A trailer's checksum. -/
def checksumIn (t : List Byte) : Checksum := { sumc := leAt t 16 8, absc := leAt t 24 8, m := leAt t 32 4, spec := leAt t 36 4 }

/-- The trailer of a chunk. -/
def trailerOf (comm idx epoch seq : Nat) (c : Checksum) : List Byte :=
  toBytesLE 2 comm ++ toBytesLE 2 idx ++ toBytesLE 4 epoch ++ toBytesLE 8 seq ++ toBytesLE 8 c.sumc ++ toBytesLE 8 c.absc ++ toBytesLE 4 c.m
    ++ toBytesLE 4 c.spec ++ List.replicate 24 0#8

/-- The exponent of u (R424): −24 for F32, −8 for BF16, −11 for F16. -/
def unitExp (fmt : Nat) : Int := if fmt = 1 then -24 else if fmt = 2 then -8 else -11

/-- Whether a chunk passes its check (R424). -/
def chunkPasses (fmt : Nat) (b : List Byte) (t : Checksum) : Bool :=
  let r := checksumOf fmt t.m b
  r.spec == t.spec && (match collFloat fmt with
    | none => r.sumc == t.sumc
    | some _ =>
      let diff := ((f64.decode r.sumc).add (f64.decode t.sumc).neg).abs
      let bound := ((Val.fin false t.m (unitExp fmt)).add (.fin false (b.length / collSize fmt + t.m) (-52))).mul (f64.decode t.absc)
      !diff.special && !bound.special && !bound.lt diff)

/-! ### Operations -/

/-- Bytes of payload of a full chunk (R423). -/
def chunkBytes : Nat := 2 ^ 18

/-- OP of a descriptor (R422). -/
def opOf (desc : List Byte) : Nat := leAt desc 0 1 % 16
/-- FMT of a descriptor. -/
def collFmt (desc : List Byte) : Nat := leAt desc 0 1 / 16
/-- SEQ of a descriptor. -/
def seqOf (desc : List Byte) : Nat := leAt desc 8 8
/-- Bytes that a member contributes. -/
def contribBytes (desc : List Byte) : Nat := leAt desc 4 4 * collSize (collFmt desc)

/-- Whether the members of an operation add into one result (R422): not for an allgather or a broadcast. -/
def reduces (desc : List Byte) : Bool := decide (opOf desc < 4)

/-- The members an operation is for (R427): by the mask in force from EFFSEQ on, or the one before. -/
def Comm.members (c : Comm) (desc : List Byte) : List Nat := if c.effseq ≤ seqOf desc then c.live else c.before

/-- The ranks whose contribution an operation holds. -/
def Comm.contributors (c : Comm) (o : CollOp) : List Nat :=
  let l := (c.members o.desc).filter (fun r => !o.excluded.contains r)
  if opOf o.desc = 5 then l.filter (fun r => r == leAt o.desc 40 4) else l

/-- Chunks of the vector that is exchanged. -/
def chunksOf (desc : List Byte) : Nat := (contribBytes desc + chunkBytes - 1) / chunkBytes

/-- A chunk of a vector. -/
def chunkOf (b : List Byte) (idx : Nat) : List Byte := (b.drop (idx * chunkBytes)).take chunkBytes

/-- The communicator of a number that is live on the package (R420). -/
def State.comm? (s : State) (n : Nat) : Option Comm := s.comms.find? (fun c => c.num == n)

/-- Change a communicator. -/
def State.modComm (s : State) (n : Nat) (f : Comm → Comm) : State := { s with comms := s.comms.map (fun c => if c.num = n then f c else c) }

/-- Change a communicator's operation in flight. -/
def State.modOp (s : State) (n : Nat) (f : CollOp → CollOp) : State := s.modComm n (fun c => { c with op := c.op.map f })

/-- PATH, PACK, SENDQ, RECVQ and ADBELL of a member (R420). -/
def Comm.member (c : Comm) (r : Nat) : List Byte := (c.table.drop (32 * r)).take 32

/-- The die that events of a collective engine are raised to (R467): engines 0 and 1 are on IO0, 2 and 3 on IO1 (log 53, DEDUCED). -/
def engineDie (eng : Nat) : Nat := if eng < 2 then 0 else 1

/-- The chunk that a member passes on: its own part and the partial chunks it has received, combined (R423); none where it holds nothing. -/
def CollOp.partialChunk (o : CollOp) (rank idx : Nat) : Option (List Byte × Checksum) :=
  let op := opOf o.desc
  let fmt := collFmt o.desc
  let mine : List (List Byte × Checksum) := if o.excluded.contains rank ∨ o.job.isNone then [] else
    let b := chunkOf o.own idx
    [(b, checksumOf fmt 1 b)]
  let others := (o.received.filter (fun p => p.2.1 == idx)).map (fun p => (p.2.2.1, checksumIn p.2.2.2))
  match mine ++ others with
  | [] => none
  | x :: l =>
    let (b, c) := l.foldl (fun a y => (collMerge op fmt a.1 y.1, a.2.merge fmt y.2)) x
    some (b, if op = 0 ∨ op = 3 then c else checksumOf fmt c.m b)

/-- A chunk of the result, where this member has it (R422): received as such, its own part of an allgather or broadcast, or the
combination of every contribution. -/
def Comm.resultChunk (c : Comm) (o : CollOp) (part idx : Nat) : Option (List Byte) :=
  match o.results.find? (fun r => r.1 == part && r.2.1 == idx) with
  | some r => some r.2.2
  | none =>
    if reduces o.desc then match o.partialChunk c.rank idx with
      | some (b, k) => if k.m = (c.contributors o).length then some b else none
      | none => none
    else if part = c.rank ∧ o.job.isSome ∧ !o.excluded.contains c.rank then some (chunkOf o.own idx)
    else none

/-- What the trailer of a chunk of the result says (R423): in a sum, the sums that the hops have added up; else what its payload gives. -/
def Comm.resultSum (c : Comm) (o : CollOp) (idx : Nat) (b : List Byte) : Checksum :=
  let n := if reduces o.desc then (c.contributors o).length else 1
  if opOf o.desc = 0 ∨ opOf o.desc = 3 then match tget o.sums idx, o.partialChunk c.rank idx with
    | some t, _ => checksumIn t
    | none, some (_, k) => k
    | none, none => checksumOf (collFmt o.desc) n b
  else checksumOf (collFmt o.desc) n b

/-- The parts of the result: the contributors of an allgather, the root of a broadcast, or one (0) of a reduction. -/
def Comm.parts (c : Comm) (o : CollOp) : List Nat := if reduces o.desc then [0] else c.contributors o

/-! ### COLL (R421, R422) -/

/-- An engine's job that the subject names, running and of kind COLL. -/
def State.collJob (s : State) (d n : Nat) : Option (Job × Team) :=
  match tget (s.die d).truss n with
  | some j => match s.team? j.core j.slot with
    | some tm => if j.state = .running ∧ j.started ∧ (cardOf j.card).kind = 8 ∧ !j.full ∧ s.enginesRun j.ctx then some (j, tm) else none
    | none => none
  | none => none

/-- An access of a collective engine fails (R76, R421): a record with SRCK 1, and the job is left PARTIAL; one that JCANCEL found in flight
is CANCELLED, its operation over (R165). -/
def State.collFails (s : State) (d n : Nat) (j : Job) (cause tier acc va : Nat) (seen : List Seg) : State :=
  let s := s.elementFails d n j 0 1 cause tier acc va (pagesOfSegs seen)
  if j.cancelled then
    (s.endOp d n).endJob d n j .cancelled
  else s

/-- The pieces of an operand of the job that its engine reaches (R55, R71, R91): with a cause none, and the element left unfinished. -/
def State.collReach (s : State) (d n : Nat) (j : Job) (tm : Team) (v off len acc : Nat) : Option (List Seg) × State :=
  match s.reachFault j (cardOf j.card) v off len (acc == 1) with
  | some k => (none, s.collFails d n j k 0 acc (v + off) [])
  | none => match s.sideOf j tm 0 v off len acc with
    | (.fail k tier va seen, s) => (none, s.collFails d n j k tier acc va seen)
    | (.wait, s) => (none, s)
    | (.ok l, s) => match faultIn l 145 (fun g i => g.blockBad (off == 0 && i == 0)) with
      | some k => (none, s.collFails d n j k.cause k.tier acc (v + off + k.off) l)
      | none => (some l, s)

/-- Write a byte string of an operand of the job, as raw bytes (R422): the state, with whether it was written. `read` are the ranges of keys
of its contribution, where an overlap leaves free values (R81). -/
def State.collWrite (s : State) (d n : Nat) (j : Job) (tm : Team) (v off : Nat) (b : List Byte) (read : List (Nat × Nat)) : Bool × State :=
  match s.collReach d n j tm v off b.length 1 with
  | (none, s) => (false, s)
  | (some l, s) => (true, l.foldl (fun s g => s.charge j.ctx g.key g.n) (s.writeSegs l read b))

/-- A COLL job ends with a STATUS that is no result (R422, R465): STATUS is written, its record posted, and the job completes. -/
def State.collStatus (s : State) (d n : Nat) (j : Job) (tm : Team) (status : Nat) : State :=
  match s.collWrite d n j tm (cardOf j.card).src 64 (toBytesLE 1 status) [] with
  | (false, s) => s
  | (true, s) =>
    let s := s.postRecord d { cause := engCause j.core (if status = 4 then 14 else 15), srck := 1, ctx := j.ctx, job := handleOf d n j.gen,
                              va := (cardOf j.card).src, elem := 65535, acc := 1, core := j.core }
    let s := s.elementDone d n 0 [] none
    match tget (s.die d).truss n with
    | some j => s.completeJob d n j
    | none => s

/-- The operation in flight of a member that has been excluded ends with STATUS 3 (R427); it stays until STATUS has been written. -/
def State.collAbort (s : State) (d n : Nat) (j : Job) (tm : Team) (num : Nat) : State :=
  let s := s.collStatus d n j tm 3
  if ((tget (s.die d).truss n).map (fun k => k.full)).getD true then s.modComm num (fun c => { c with op := none }) else s

/-- Whether a field of a descriptor is bad (R422) (log 29, DESIGN CHOICE). -/
def descBad (core nmemb : Nat) (b : List Byte) : Bool :=
  let operand (o : Nat) : Bool := opSpace (leAt b o 8) == 1 || opSpace (leAt b o 8) == 3 || (operandFault core (leAt b o 8)).isSome
  decide (5 < opOf b) || !([1, 2, 3, 8].contains (collFmt b)) || leAt b 4 4 == 0 || operand 16 || operand 24 || operand 32
    || decide (opOf b = 5 ∧ nmemb ≤ leAt b 40 4) || (upto 128).any (fun i => (i == 1 || (decide (44 ≤ i) && decide (i < 64)) || (decide (65 ≤ i) && decide (i < 68)) || decide (76 ≤ i))
      && nth b i 0#8 != 0#8)

/-- A communicator begins an operation: its contribution and the ranks left out of it are known, and its journal holds the descriptor. -/
def Comm.begins (c : Comm) (d n : Nat) (desc own : List Byte) (read : List (Nat × Nat)) (out : List Nat) : Comm :=
  { c with op := some { job := some (d, n), desc := desc, own := own, read := read, excluded := out }, lastSeq := max c.lastSeq (seqOf desc),
           journal := (c.journal ++ [(desc.take 64, c.epoch)]).drop (c.journal.length + 1 - 64) }

/-- Start an operation (R421, R422): its contribution is read; one that is poisoned, of a reduction, excludes the member (R425). -/
def State.collStart (s : State) (d n : Nat) (j : Job) (tm : Team) (c : Comm) (desc : List Byte) : State :=
  let src := leAt desc 16 8
  let len := contribBytes desc
  let contributes : Bool := opOf desc != 5 || leAt desc 40 4 == c.rank
  let begin_ (s : State) (own : List Byte) (read : List (Nat × Nat)) (out : List Nat) : State := s.modComm c.num (fun c => c.begins d n desc own read out)
  if !contributes then begin_ s [] [] []
  else match s.collReach d n j tm src 0 len 0 with
    | (none, s) => s
    | (some l, s) =>
      match s.loadFault (segForm l) true l with
      | some k => s.collFails d n j k.cause k.tier 0 (src + k.off) l
      | none =>
        let poisoned := reduces desc && !(s.gatherPoison l 0).isEmpty
        let s := l.foldl (fun s g => s.charge j.ctx g.key g.n) s
        begin_ s (s.gatherBytes l) (l.map (fun g => (g.key, g.key + g.n))) (if poisoned then [c.rank] else [])

/-- The elements of a reduce-scatter's result that a rank receives: first element and number (log 29, DESIGN CHOICE). -/
def shareOf (rank nmemb nelem : Nat) : Nat × Nat :=
  if nelem % nmemb = 0 then (rank * (nelem / nmemb), nelem / nmemb) else Config.collShare rank nmemb nelem

/-- The bytes of the result that a member receives (R422). -/
def Comm.resultBytes (c : Comm) (desc : List Byte) : Nat :=
  if opOf desc = 4 then c.nmemb * contribBytes desc
  else if opOf desc = 3 then (shareOf c.rank c.nmemb (leAt desc 4 4)).2 * collSize (collFmt desc)
  else contribBytes desc

/-- The tiles of its own team that an operation's operands name through SPACE 2: those of its result and mask, and READY ones of its
contribution (R91). -/
def Comm.tilesOf (c : Comm) (j : Job) (tm : Team) (desc : List Byte) : List Nat × List Nat :=
  let own (at_ n : Nat) : List Nat := ownTiles j.core tm (leAt desc at_ 8) n
  ((own 24 (c.resultBytes desc) ++ own 32 ((c.nmemb + 7) / 8)).eraseDups, ((own 16 (contribBytes desc)).filter (fun n => (tm.tile n).state == .ready)).eraseDups)

/-- A COLL job claims its own team's tiles that the operation writes and counts itself in those that it only reads, as though it named them
through SPACE 1 (R91, R99); none while one to be claimed is FILLING, DRAINING or held. -/
def State.collClaim (s : State) (d n : Nat) (j : Job) (tm : Team) (c : Comm) (desc : List Byte) : Option State :=
  let key (n : Nat) : Nat × Nat := (j.core, j.slot * 64 + n)
  let tiles := c.tilesOf j tm desc
  let claims := tiles.1.filter (fun n => !j.claimed.contains (key n))
  let counts := tiles.2.filter (fun n => !tiles.1.contains n && !(j.claimed ++ j.counted).contains (key n))
  let busy (n : Nat) : Bool := !(((tm.tile n).state == .empty || (tm.tile n).state == .ready) && (tm.tile n).held == 0)
  if claims.any busy then none
  else
    let s := claims.foldl (fun s n => s.modTileAt (key n) Tile.fillReleased) s
    let s := counts.foldl (fun s n => s.modTileAt (key n) (Tile.sourceReleased false)) s
    some (s.modJob d n (fun j => { j with claimed := j.claimed ++ claims.map key, counted := j.counted ++ counts.map key }))

/-- COLL: the job of die `a`, Truss slot `b`, begins: its descriptor is read and checked. A communicator carries out one operation at
a time (log 29, DESIGN CHOICE). -/
def execColl (s : State) : Host.Outcome State Fault Refusal :=
  let d := s.subject.a
  let n := s.subject.b
  match s.collJob d n with
  | none => .next s
  | some (j, tm) =>
    let card := cardOf j.card
    match s.reachFault j card card.src 0 128 true with
    | some k => .next (s.collFails d n j k 0 0 card.src [])
    | none => match s.collReach d n j tm card.src 0 128 0 with
      | (none, s) => .next s
      | (some l, s) =>
        let desc := s.gatherBytes l
        match s.comm? (leAt desc 2 2) with
        | none => .next (s.collStatus d n j tm 4)
        | some c =>
          if c.ctx ≠ j.ctx ∨ c.eng ≠ card.count ∨ descBad j.core c.nmemb desc then .next (s.collStatus d n j tm 4)
          else if c.op.bind (fun o => o.job) = some (d, n) ∧ !c.live.contains c.rank then .next (s.collAbort d n j tm c.num)
          else if !(c.members desc).contains c.rank then .next (s.collStatus d n j tm 3)
          else if c.op.isSome then .next s
          else match s.collClaim d n j tm c desc with
            | none => .next s
            | some s => .next (s.collStart d n j tm c desc)

/-! ### Chunks (R420, R423 to R425) -/

/-- Whether an operation of the communicator is in flight and its engine runs (R381, R426). -/
def State.commRuns (s : State) (c : Comm) : Bool := c.op.isSome && s.enginesRun c.ctx

/-- The ring of an adapter: TAIL, HEAD and SLOTS (R420); none where SLOTS names no ring. -/
def State.ring (s : State) (a : Nat) : Option (Nat × Nat × Nat) :=
  let slots := s.mem.readLE (hostKey (a + 8)) 4
  if slots < 2 ∨ 256 < slots ∨ slots &&& (slots - 1) ≠ 0 then none
  else some (s.mem.readLE (hostKey a) 4, s.mem.readLE (hostKey (a + 4)) 4, slots)

/-- The address of a ring's slot (R420). -/
def ringSlot (a slots i : Nat) : Nat := a + 0x1000 + i % slots * 0x41000

/-- Send a message to a member (R420): over a plane that is up and carries a session with it, or through its SENDQ, whose adapter is
told the new TAIL. A chunk is a payload and a trailer; it is not sent while no plane or no slot is free. -/
def State.sendChunk (s : State) (c : Comm) (r : Nat) (payload trailer : List Byte) : State :=
  let m := c.member r
  if leAt m 0 1 = 0 then
    let pack := leAt m 2 2
    if s.links.any (fun l => l.up && l.peers.contains pack) then { s with out := s.out ++ [⟨1, pack, payload ++ trailer⟩] } else s
  else
    let q := leAt m 8 8
    match s.ring q with
    | none => s
    | some (tail, head, slots) =>
      if (tail + 2 ^ 32 - head) % 2 ^ 32 ≥ slots then s
      else
        let at_ := ringSlot q slots tail
        let next := (tail + 1) % 2 ^ 32
        let s := ((s.store (hostKey at_) payload).store (hostKey (at_ + 0x40000)) trailer).storeLE (hostKey q) 4 next
        { s with out := s.out ++ [⟨2, leAt m 24 8, toBytesLE 4 next⟩] }

/-- A message of a communicator to a member that is no chunk (R425, R427, R428): over the planes what it says alone, through a ring with the trailer
of no contribution; what it says is the model's record of it (log 14, DESIGN CHOICE, log 29, DESIGN CHOICE). -/
def State.tellMember (s : State) (c : Comm) (r : Nat) (b : List Byte) : State :=
  s.sendChunk c r b (if leAt (c.member r) 0 1 = 0 then [] else trailerOf c.num 65535 c.epoch 0 ⟨0, 0, 0, 0⟩)

/-- A member leaves its own contribution out of the operation in flight (R425). -/
def Comm.leaveOut (c : Comm) (o : CollOp) : CollOp := { o with excluded := if o.excluded.contains c.rank then o.excluded else o.excluded ++ [c.rank] }

/-- COLL_CHUNK_SEND: communicator `a` sends chunk `c` to rank `b`: a chunk of the result (`ok`; of an allgather or a broadcast that of rank
`d`), or what it has combined; where `b` has asked for it a second time (`g.grp` 1), what it has received, without its own contribution, which it
leaves out of the operation (R425) (log 29, DESIGN CHOICE). -/
def execCollChunkSend (s : State) : Host.Outcome State Fault Refusal :=
  let u := s.subject
  match s.comm? u.a with
  | none => .next s
  | some c => match c.op with
    | none => .next s
    | some o =>
      if !s.commRuns c ∨ !(c.members o.desc).contains u.b ∨ u.b = c.rank ∨ chunksOf o.desc ≤ u.c then .next s
      else
        let o := if u.g.grp = 1 then c.leaveOut o else o
        let s := s.modOp c.num (fun _ => o)
        let chunk : Option (List Byte × Checksum) :=
          if u.ok ∨ !reduces o.desc then (c.resultChunk o (if reduces o.desc then 0 else u.d) u.c).map (fun b => (b, c.resultSum o u.c b))
          else o.partialChunk c.rank u.c
        match chunk with
        | none => .next s
        | some (b, k) => .next (s.sendChunk c u.b b (trailerOf c.num u.c c.epoch (seqOf o.desc) k))

/-- A rank's contribution is left out of an operation (R425): what holds it already is not used. -/
def CollOp.drop (o : CollOp) (r : Nat) : CollOp :=
  if o.excluded.contains r then o
  else { o with excluded := o.excluded ++ [r], received := o.received.filter (fun x => x.1 != r),
                results := if reduces o.desc then [] else o.results.filter (fun x => x.1 != r), sums := [] }

/-- A chunk from a rank has arrived (R424, R425). A bad one is asked for once more; a second time its sender's contribution is left
out, and the sender is asked for what it has received. -/
def CollOp.receive (o : CollOp) (r : Nat) (whole : Nat) (bad : Bool) (b t : List Byte) : CollOp :=
  let idx := leAt t 2 2
  if bad then
    let o := { o with retried := o.retried ++ [(r, idx)] }
    if (o.retried.filter (fun x => x == (r, idx))).length = 2 then o.drop r else o
  else if !reduces o.desc then { o with results := (r, idx, b) :: o.results.filter (fun x => !(x.1 == r && x.2.1 == idx)) }
  else if (checksumIn t).m = whole then { o with results := (0, idx, b) :: o.results.filter (fun x => x.2.1 != idx), sums := tput o.sums idx t }
  else { o with received := o.received.filter (fun x => !(x.1 == r && x.2.1 == idx)) ++ [(r, idx, b, t)] }

/-- The ranks of a mask. -/
def maskRanks (nmemb mask : Nat) : List Nat := (upto nmemb).filter (fun r => bit mask r)

/-- COLL_CHUNK_RECEIVE: communicator `a` receives the chunk in `bytes`, payload then trailer, from rank `b` (of an allgather or broadcast,
the rank whose part it is); it is poisoned if `ok`; `d` is the mask of the ranks that its sender has left out of the operation
(log 29, DESIGN CHOICE). -/
def execCollChunkReceive (s : State) : Host.Outcome State Fault Refusal :=
  let u := s.subject
  match s.comm? u.a with
  | none => .next s
  | some c => match c.op with
    | none => .next s
    | some o =>
      let n := u.bytes.length - 64
      let b := u.bytes.take n
      let t := u.bytes.drop n
      if !s.commRuns c ∨ !(c.members o.desc).contains u.b ∨ u.b = c.rank ∨ leAt t 0 2 ≠ c.num ∨ leAt t 8 8 ≠ seqOf o.desc ∨ chunksOf o.desc ≤ leAt t 2 2
      then .next s
      else
        let o := { o with excluded := (o.excluded ++ (maskRanks c.nmemb u.d).filter (fun r => !o.excluded.contains r)) }
        let bad : Bool := u.ok || n != min chunkBytes (contribBytes o.desc - leAt t 2 2 * chunkBytes) || !chunkPasses (collFmt o.desc) b (checksumIn t)
        let before := (o.retried.filter (fun x => x == (u.b, leAt t 2 2))).length
        let s := s.modOp c.num (fun _ => o.receive u.b (c.contributors o).length bad b t)
        .next (if bad ∧ before < 2 then s.tellMember c u.b (t.take 16 ++ [BitVec.ofNat 8 before]) else s)

/-- RECVQ_POLL: communicator `a` reads the RECVQ of rank `b` while an operation is in flight (R420): it consumes the next slot, whose chunk
is then received. -/
def execRecvqPoll (s : State) : Host.Outcome State Fault Refusal :=
  let u := s.subject
  match s.comm? u.a with
  | none => .next s
  | some c =>
    let q := leAt (c.member u.b) 16 8
    if !s.commRuns c ∨ leAt (c.member u.b) 0 1 ≠ 1 then .next s
    else match s.ring q with
      | none => .next s
      | some (tail, head, slots) =>
        if tail = head then .next s
        else
          let at_ := ringSlot q slots head
          let t := s.mem.readBytes (hostKey (at_ + 0x40000)) 64
          let desc := (c.op.map (·.desc)).getD []
          let n := min chunkBytes (contribBytes desc - leAt t 2 2 * chunkBytes)
          let b := s.mem.readBytes (hostKey at_) n
          let bad := (s.poisonAt (hostKey at_) n).isSome || (s.poisonAt (hostKey (at_ + 0x40000)) 64).isSome
          let s := s.storeLE (hostKey (q + 4)) 4 ((head + 1) % 2 ^ 32)
          .next (s.raiseTurn .collChunkReceive { a := u.a, b := u.b, ok := bad, bytes := b ++ t })

/-! ### The end of an operation (R422) -/

/-- The result of an operation, as offsets from DSTA and bytes; none while a chunk is missing. -/
def Comm.result (c : Comm) (o : CollOp) : Option (List (Nat × List Byte)) :=
  let whole (part : Nat) : Option (List Byte) := ((upto (chunksOf o.desc)).mapM (fun i => c.resultChunk o part i)).map List.flatten
  (c.parts o).mapM (fun p => (whole p).map (fun b =>
    if opOf o.desc = 4 then (p * contribBytes o.desc, b)
    else if opOf o.desc = 3 then
      let (lo, k) := shareOf c.rank c.nmemb (leAt o.desc 4 4)
      let e := collSize (collFmt o.desc)
      (0, (b.drop (lo * e)).take (k * e))
    else (0, b)))

/-- The bytes of the member mask (R422): bit r set when rank r contributed. -/
def maskBytes (nmemb : Nat) (ranks : List Nat) : List Byte := toBytesLE ((nmemb + 7) / 8) (ranks.foldl (fun m r => m ||| (1 <<< r)) 0)

/-- Write a job's results: each run of bytes at its offset, with the checks of R36 and R55 for the first; whether all was written. `read` is as
in `collWrite` (R81). -/
def State.collResults (s : State) (d n : Nat) (j : Job) (tm : Team) (dst fmt : Nat) (read : List (Nat × Nat)) : List (Nat × List Byte) → Bool × State
  | [] => (true, s)
  | (off, b) :: rest =>
    match s.collReach d n j tm dst off b.length 1 with
      | (none, s) => (false, s)
      | (some l, s) => match storeFault fmt 0 (off == 0) l with
        | some k => (false, s.collFails d n j k.cause k.tier 1 (dst + off + k.off) l)
        | none => (l.foldl (fun s g => s.charge j.ctx g.key g.n) (s.writeSegs l read b)).collResults d n j tm dst fmt read rest

/-- Poison what an allgather or broadcast copies from a poisoned contribution of its own member (R405). -/
def State.carryOwn (s : State) (j : Job) (tm : Team) (c : Comm) (o : CollOp) : State :=
  if reduces o.desc ∨ s.poison.isEmpty then s
  else match s.sideOf j tm 0 (leAt o.desc 16 8) 0 (contribBytes o.desc) 0 with
    | (.ok src, s) =>
      match s.sideOf j tm 0 (leAt o.desc 24 8) (if opOf o.desc = 4 then c.rank * contribBytes o.desc else 0) (contribBytes o.desc) 1 with
      | (.ok dst, s) => s.scatterPoison dst 0 (s.gatherPoison src 0)
      | (_, s) => s
    | (_, s) => s

/-- The end of an operation that has a job: result, mask, then STATUS, NCONTRIB and EPOCH, and the job completes (R422). -/
def State.collFinish (s : State) (d n : Nat) (j : Job) (tm : Team) (c : Comm) (o : CollOp) (res : List (Nat × List Byte)) : State :=
  let who := c.contributors o
  match s.collResults d n j tm (leAt o.desc 24 8) (collFmt o.desc) o.read res with
  | (false, s) => s
  | (true, s) => match (if o.own.isEmpty then s else s.carryOwn j tm c o).collWrite d n j tm (leAt o.desc 32 8) 0 (maskBytes c.nmemb who) o.read with
    | (false, s) => s
    | (true, s) =>
      let status := if o.excluded.isEmpty then 1 else 2
      match s.collWrite d n j tm (cardOf j.card).src 64 (toBytesLE 1 status ++ List.replicate 3 0#8 ++ toBytesLE 4 who.length ++ toBytesLE 4 c.epoch) [] with
      | (false, s) => s
      | (true, s) =>
        let s := (s.modComm c.num (fun c => { c with op := none })).elementDone d n 0 [] none
        match tget (s.die d).truss n with
        | some j => s.completeJob d n j
        | none => s

/-- The tiles of a slice range that a spare's engine writes (R85, R91, R99): none where a byte lies in no tile, with FOOTPRINT_MISS, or a tile
is not SHARED, with TILE_SHARE; `true` while one is FILLING, DRAINING or held. Each is claimed and completed in the one step of the
write (log 29, DESIGN CHOICE). -/
def State.spareTiles (s : State) (core lo n : Nat) : Except Nat Bool :=
  let met := s.tilesOver core lo (lo + n)
  if !s.inTiles core (lo + n) 128 lo then .error (engCause core 3)
  else if met.any (fun t => !t.2.2.shared) then .error (engCause core 4)
  else .ok (met.any (fun t => !((t.2.2.state == .empty || t.2.2.state == .ready) && t.2.2.held == 0)))

/-- A spare's write of a part of a result has failed: a record without a job, and the result waits for the page (R25, R428) (log 29,
DESIGN CHOICE). -/
def State.spareFails (s : State) (c : Comm) (cause tier va : Nat) : State :=
  (s.postRecord (engineDie c.eng) { cause := cause, srck := 1, ctx := c.ctx, va := va, acc := 1, tier := tier, core := 512 * engineDie c.eng }).modOp c.num
    (fun o => { o with parked := some (va / 4096) })

/-- The access of a collective engine that has no job (R428). -/
def State.spareAccess (s : State) (c : Comm) (va acc : Nat) : Access :=
  { core := 512 * engineDie c.eng, who := asks 3 0 (65536 + c.num), ctx := c.ctx, va := va, acc := acc, keyperm := s.keypermOf c.ctx }

/-- Write a part of a result that a spare replays (R428): through its context's tables with the checks of R25, R36 and R55, or into SHARED
tiles; whether it was written. -/
def State.sparePut (s : State) (c : Comm) (fmt dst off : Nat) (b : List Byte) : Bool × State :=
  let at_ := opValue dst + off
  if opSpace dst = 2 then
    let parts := sliceParts at_ b.length
    if parts.any (fun p => s.sliceRange (p.1 * 2 ^ 21 + p.2.1) || s.sliceRange (p.1 * 2 ^ 21 + p.2.2 - 1)) then (false, s.spareFails c 146 0 (dst + off))
    else match parts.mapM (fun p => s.spareTiles p.1 p.2.1 (p.2.2 - p.2.1)) with
      | .error k => (false, s.spareFails c k 0 (dst + off))
      | .ok busy =>
        if busy.contains true then (false, s)
        else
          let keys := parts.flatMap (fun p => (s.tilesOver p.1 p.2.1 p.2.2).map (fun t => (p.1, t.1 * 64 + t.2.1)))
          (true, keys.foldl (fun s p => (s.modTileAt p Tile.fillReleased).modTileAt p (Tile.fillCompleted none)) (s.store (memKey .slice at_) b))
  else
    match s.translateRange (s.spareAccess c at_ 1) b.length (b.length / 4096 + 2) 0 [] with
    | (.fail k tier va _, s) => (false, s.spareFails c k tier va)
    | (.wait, s) => (false, s)
    | (.ok l, s) => match storeFault fmt 0 (off == 0) l with
      | some k => (false, s.spareFails c k.cause k.tier (at_ + k.off))
      | none => (true, l.foldl (fun s g => s.charge c.ctx g.key g.n) (s.scatterBytes l b))

/-- The parts of a result that a spare replays, in order; whether all were written. -/
def State.sparePuts (s : State) (c : Comm) (fmt dst : Nat) : List (Nat × List Byte) → Bool × State
  | [] => (true, s)
  | r :: rest => match s.sparePut c fmt dst r.1 r.2 with
    | (true, s) => s.sparePuts c fmt dst rest
    | (false, s) => (false, s)

/-- The end of an operation that a spare replays (R428): the result is written, and the operation is over. -/
def State.replayFinish (s : State) (c : Comm) (o : CollOp) (res : List (Nat × List Byte)) : State :=
  if o.parked.isSome then s
  else match s.sparePuts c (collFmt o.desc) (leAt o.desc 24 8) res with
    | (true, s) => s.modComm c.num (fun c => { c with op := none })
    | (false, s) => s

/-- COLL_COMPLETE: communicator `a` has every chunk of its operation's result (log 29, DESIGN CHOICE). -/
def execCollComplete (s : State) : Host.Outcome State Fault Refusal :=
  match s.comm? s.subject.a with
  | none => .next s
  | some c => match c.op with
    | none => .next s
    | some o =>
      if !s.commRuns c then .next s
      else match c.result o with
        | none => .next s
        | some res => match o.job with
          | none => .next (s.replayFinish c o res)
          | some (d, n) => match s.collJob d n with
            | none => .next s
            | some (j, tm) => .next (s.collFinish d n j tm c o res)

/-! ### Membership (R427) -/

/-- The root as a member sees it: the lowest live rank that it does not itself suspect (R427). -/
def Comm.actingRoot (c : Comm) : Nat := nth (c.live.filter (fun r => !c.suspected.contains r)) 0 0

/-- KEEPALIVE_SEND: communicator `a` sends a keep-alive to each live peer it reaches over the planes, whether or not its context is
resident. -/
def execKeepaliveSend (s : State) : Host.Outcome State Fault Refusal :=
  match s.comm? s.subject.a with
  | none => .next s
  | some c => .next ((c.live.filter (fun r => r != c.rank && leAt (c.member r) 0 1 == 0)).foldl (fun s r => s.tellMember c r (toBytesLE 2 c.num)) s)

/-- MEMBER_SUSPECT: communicator `a` has heard nothing from rank `b` for SUSPECT_TIME, or rank `b` is reported to this package as root:
the root broadcasts, another member reports it to the root (log 10, DESIGN CHOICE). -/
def execMemberSuspect (s : State) : Host.Outcome State Fault Refusal :=
  let u := s.subject
  match s.comm? u.a with
  | none => .next s
  | some c =>
    if !c.live.contains u.b ∨ u.b = c.rank ∨ !c.live.contains c.rank then .next s
    else
      let c := { c with suspected := if c.suspected.contains u.b then c.suspected else c.suspected ++ [u.b] }
      let s := s.modComm c.num (fun _ => c)
      if c.actingRoot = c.rank then .next (s.raiseTurn .membershipBroadcast { a := u.a, ok := true })
      else .next (s.tellMember c c.actingRoot (toBytesLE 2 c.num ++ toBytesLE 4 u.b))

/-- A member learns that it has been excluded: its open operation completes with STATUS 3 (R427), at once or, where its job does not
run at the moment, when it runs again. -/
def State.excludedSelf (s : State) (c : Comm) : State :=
  match c.op.map (fun o => o.job) with
  | none => s
  | some none => s.modComm c.num (fun c => { c with op := none })
  | some (some (d, n)) => match s.collJob d n with
    | none => s
    | some (j, tm) => s.collAbort d n j tm c.num

/-- Apply a mask (R427): for operations from EFFSEQ on; one in flight completes without the contribution of those it leaves out. -/
def State.applyMask (s : State) (c : Comm) (epoch effseq root : Nat) (live : List Nat) : State :=
  let gone := c.live.filter (fun r => !live.contains r)
  let c' := { c with
    epoch := epoch, effseq := effseq, root := root, live := live, before := c.live, suspected := c.suspected.filter (fun r => live.contains r),
    op := c.op.map (fun o => { o with excluded := o.excluded ++ gone.filter (fun r => !o.excluded.contains r && (c.members o.desc).contains r) }) }
  let s := (s.modComm c.num (fun _ => c')).raisePlien (engineDie c.eng) 14
  if gone.contains c.rank then s.excludedSelf c' else s

/-- MEMBERSHIP_BROADCAST: of communicator `a`, this package broadcasts as root (`ok`), admitting the ranks of the mask `c`; or it hears the
broadcast of root `g.core`: EPOCH `b`, mask `c`, EFFSEQ `d`. The higher EPOCH wins, then the lower root. -/
def execMembershipBroadcast (s : State) : Host.Outcome State Fault Refusal :=
  let u := s.subject
  match s.comm? u.a with
  | none => .next s
  | some c =>
    if u.ok then
      let joins := (maskRanks c.nmemb u.c).filter (fun r => !c.live.contains r)
      if c.actingRoot ≠ c.rank ∨ !c.live.contains c.rank ∨ (c.suspected.isEmpty ∧ joins.isEmpty) then .next s
      else
        let live := (upto c.nmemb).filter (fun r => (c.live.contains r && !c.suspected.contains r) || joins.contains r)
        let msg := toBytesLE 2 c.num ++ toBytesLE 4 (c.epoch + 1) ++ toBytesLE 8 (c.lastSeq + 1) ++ maskBytes c.nmemb live
        let told := (upto c.nmemb).filter (fun r => r != c.rank && (c.live.contains r || joins.contains r))
        .next ((told.foldl (fun s r => s.tellMember c r msg) s).applyMask c (c.epoch + 1) (c.lastSeq + 1) c.rank live)
    else if u.b < c.epoch ∨ (u.b = c.epoch ∧ c.root ≤ u.g.core) then .next s
    else .next (s.applyMask c u.b u.d u.g.core (maskRanks c.nmemb u.c))

/-! ### Spares (R428) -/

/-- The journal in the bytes of a message: 64 bytes of a descriptor, then 8 of its EPOCH, each. -/
def journalOf (b : List Byte) : List (List Byte × Nat) := (upto (b.length / 72)).map (fun i => ((b.drop (72 * i)).take 64, leAt b (72 * i + 64) 8))

/-- The bytes of a journal, as `journalOf` reads them. -/
def journalBytes (j : List (List Byte × Nat)) : List Byte := j.flatMap (fun e => (e.1 ++ List.replicate 64 0#8).take 64 ++ toBytesLE 8 e.2)

/-- SPARE_JOIN: of communicator `a`, a live member sends its journal to the spare that asks for it with JOIN, rank `b` (`c` = 3); a spare
sends JOIN to its neighbour, rank `b` (`c` = 0); it receives that neighbour's journal in `bytes`
(`c` = 1), which lacks an operation it needs if `ok`: the join ends with JOURNAL_GAP, and nothing is replayed; or it replays the next operation of
the journal in SEQ order, as a participant that only receives (`c` = 2). -/
def execSpareJoin (s : State) : Host.Outcome State Fault Refusal :=
  let u := s.subject
  match s.comm? u.a with
  | none => .next s
  | some c =>
    if u.c = 3 then
      .next (if c.live.contains c.rank ∧ u.b < c.nmemb ∧ !c.live.contains u.b then s.tellMember c u.b (toBytesLE 2 c.num ++ journalBytes c.journal) else s)
    else if c.live.contains c.rank then .next s
    else if u.c = 0 then .next (if c.live.contains u.b then s.tellMember c u.b (toBytesLE 2 c.num ++ toBytesLE 4 c.rank) else s)
    else if u.c = 1 then
      if u.ok then .next ((s.modComm c.num (fun c => { c with gap := true, replay := [] })).raisePlien (engineDie c.eng) 11)
      else
        let j := journalOf u.bytes
        .next (s.modComm c.num (fun c => { c with gap := false, journal := j, replay := j.mergeSort (fun a b => decide (seqOf a.1 ≤ seqOf b.1)) }))
    else match c.op, c.replay with
      | none, (desc, _) :: rest =>
        .next (s.modComm c.num (fun c => { c with replay := rest, lastSeq := max c.lastSeq (seqOf desc), op := some { job := none, desc := desc } }))
      | _, _ => .next s

/-! ### Communicators (R420) -/

/-- The effect of COMM_CREATE (R420, R444) (log 29, DESIGN CHOICE). -/
def State.createComm (s : State) (ctx : Nat) (b : List Byte) : Answer :=
  let num := leAt b 16 2
  let eng := leAt b 18 1
  let flags := leAt b 19 1
  let rank := leAt b 20 4
  let n := leAt b 24 4
  let suspect := leAt b 28 2
  if 4096 ≤ num ∨ 3 < eng ∨ 1 < flags ∨ n = 0 ∨ 65536 < n ∨ n ≤ rank ∨ (suspect ≠ 0 ∧ suspect < 10) ∨ (s.comm? num).isSome then (some (3, 0), s)
  else
    let table := s.mem.readBytes (hostKey (leAt b 32 8)) (32 * n)
    let live := (upto n).filter (fun r => !(flags == 1 && r == rank))
    let c : Comm := { ctx := ctx, num := num, eng := eng, rank := rank, nmemb := n, suspect := if suspect = 0 then 200 else suspect, table := table,
                      live := live, before := live }
    (some (1, 0), { s with comms := s.comms ++ [c] })

/-- COMM_CREATE: request `a`. -/
def execCommCreate (s : State) : Host.Outcome State Fault Refusal := .next (s.perform 15 0 true [(16, 14), (32, 8)] s.createComm)

/-- COMM_DESTROY: request `a`: it waits while an operation of the communicator is in flight. -/
def execCommDestroy (s : State) : Host.Outcome State Fault Refusal :=
  .next (s.perform 16 0 true [(16, 2)] (fun ctx b =>
    match s.comm? (leAt b 16 2) with
    | none => (some (3, 0), s)
    | some c =>
      if c.ctx ≠ ctx then (some (3, 0), s)
      else if c.op.isSome then (none, s)
      else (some (1, 0), { s with comms := s.comms.filter (fun x => x.num != c.num) })))

end Sys2Proof.Machine
end

