-- ==== Sys2Proof/Machine/Spdm.lean ====
section
/-!
DEFINITION. The attestation responder (R430): SPDM 1.3 requests over DOE. The spec names the messages and the algorithms; the order
of the connection states and the bodies are SPDM's own (log 15, DESIGN CHOICE).
-/
namespace Sys2Proof.Machine

/-- An SPDM response leaves over DOE: a code, a body, and the Izoracor element of a signed response (R430, log 15, DESIGN CHOICE). -/
def State.respond (s : State) (code : Nat) (body : List Byte) : State := { s with out := s.out ++ [⟨3, code, body⟩] }

/-- The bodies of responses that carry signatures hold both: RSASSA-PSS, then SLH-DSA over the same transcript hash, in an Izoracor
element of the OpaqueData (R430). -/
def signedBody (code : Nat) (req held : List Byte) : List Byte := Config.spdmBody code req held ++ Config.spdmBody (code + 256) req held

/-- What a response reports of the security complex (R429, R430): the certificate chains for digests, certificates and a challenge; MR0 to MR15 and
the contexts' measurements for measurements; and for a response that it signs, it signs with both identity keys. -/
def State.evidence (s : State) (code : Nat) (signed : Bool) : List Byte :=
  (if code = 0x81 ∨ code = 0x82 ∨ code = 0x83 then s.identity.chains.flatMap id else [])
    ++ (if code = 0xE0 then s.mrs.flatMap (fun m => toBytesLE 48 m.toNat) ++ s.ctxs.flatMap (fun c => toBytesLE 2 c.1 ++ toBytesLE 48 c.2.measure.toNat) else [])
    ++ (if signed then s.identity.rsa ++ s.identity.slh else [])

/-- Answer request `code` of the subject's bytes: an ERROR response (code 0x7F) where the responder cannot take it now or where the
bytes do not make it, else the response `code − 0x80` with `body`, and the responder's next state (log 15, DESIGN CHOICE). -/
def State.spdmRequest (s : State) (code : Nat) (ready : Spdm → Bool) (signed : Bool) (after : Spdm → Spdm) : State :=
  let req := s.subject.bytes
  if s.spdm.stage = 0 then s
  else if !ready s.spdm then s.respond 0x7F [4#8]
  else if !Config.spdmAccepts code req then s.respond 0x7F [1#8]
  else ({ s with spdm := after s.spdm }).respond (code - 0x80) (if signed then signedBody code req (s.evidence code true) else Config.spdmBody code req (s.evidence code false))

/-- GET_VERSION: it starts the connection anew. -/
def execGetVersion (s : State) : Host.Outcome State Fault Refusal :=
  .next (s.spdmRequest 0x84 (fun _ => true) false (fun p => { stage := 2, keyGen := p.keyGen }))
/-- GET_CAPABILITIES: after GET_VERSION. -/
def execGetCapabilities (s : State) : Host.Outcome State Fault Refusal :=
  .next (s.spdmRequest 0xE1 (fun p => p.stage == 2) false (fun p => { p with stage := 3 }))
/-- NEGOTIATE_ALGORITHMS: after GET_CAPABILITIES. -/
def execNegotiateAlgorithms (s : State) : Host.Outcome State Fault Refusal :=
  .next (s.spdmRequest 0xE3 (fun p => p.stage == 3) false (fun p => { p with stage := 4 }))
/-- Whether the algorithms have been negotiated. -/
def Spdm.negotiated (p : Spdm) : Bool := p.stage == 4
/-- GET_DIGESTS. -/
def execGetDigests (s : State) : Host.Outcome State Fault Refusal := .next (s.spdmRequest 0x81 Spdm.negotiated false id)
/-- GET_CERTIFICATE. -/
def execGetCertificate (s : State) : Host.Outcome State Fault Refusal := .next (s.spdmRequest 0x82 Spdm.negotiated false id)
/-- CHALLENGE: its response is signed. -/
def execChallenge (s : State) : Host.Outcome State Fault Refusal := .next (s.spdmRequest 0x83 Spdm.negotiated true id)
/-- GET_MEASUREMENTS: its response is signed. -/
def execGetMeasurements (s : State) : Host.Outcome State Fault Refusal := .next (s.spdmRequest 0xE0 Spdm.negotiated true id)
/-- KEY_EXCHANGE: the handshake of a session begins; its response is signed. -/
def execKeyExchange (s : State) : Host.Outcome State Fault Refusal :=
  .next (s.spdmRequest 0xE4 (fun p => p.negotiated && !p.session && !p.handshaking) true (fun p => { p with handshaking := true }))
/-- FINISH: the handshake ends and the session is open. -/
def execFinish (s : State) : Host.Outcome State Fault Refusal :=
  .next (s.spdmRequest 0xE5 (fun p => p.handshaking) false (fun p => { p with handshaking := false, session := true, keyGen := p.keyGen + 1 }))
/-- HEARTBEAT: it keeps an open session alive. -/
def execHeartbeat (s : State) : Host.Outcome State Fault Refusal := .next (s.spdmRequest 0xE8 (fun p => p.session) false id)
/-- KEY_UPDATE: new keys for an open session. -/
def execKeyUpdate (s : State) : Host.Outcome State Fault Refusal :=
  .next (s.spdmRequest 0xE9 (fun p => p.session) false (fun p => { p with keyGen := p.keyGen + 1 }))
/-- END_SESSION: the session ends. -/
def execEndSession (s : State) : Host.Outcome State Fault Refusal :=
  .next (s.spdmRequest 0xEC (fun p => p.session) false (fun p => { p with session := false }))

end Sys2Proof.Machine
end

