-- ==== Sys2Proof/Machine/Dispatch.lean ====
section
/-!
DEFINITION. The dispatch of the steps of the opcode table: one arm for each constructor of `Instr`.
-/
namespace Sys2Proof.Machine

/-- One step of the table: an instruction of the focused group's execution, or an event of the machine about `s.subject`. -/
def exec (i : Instr) (s : State) : Host.Outcome State Fault Refusal :=
  match i with
  | .traceFetch => Sys2Proof.Machine.execTraceFetch s
  | .traceDispatch => Sys2Proof.Machine.execTraceDispatch s
  | .bindNotify => Sys2Proof.Machine.execBindNotify s
  | .bindRetryTimer => Sys2Proof.Machine.execBindRetryTimer s
  | .requeueRelease => Sys2Proof.Machine.execRequeueRelease s
  | .requeueTimer => Sys2Proof.Machine.execRequeueTimer s
  | .priorityAging => Sys2Proof.Machine.execPriorityAging s
  | .atomicPerform => Sys2Proof.Machine.execAtomicPerform s
  | .atomicReturn => Sys2Proof.Machine.execAtomicReturn s
  | .acquireComplete => Sys2Proof.Machine.execAcquireComplete s
  | .phaseBoundaryComplete => Sys2Proof.Machine.execPhaseBoundaryComplete s
  | .barrierTurn => Sys2Proof.Machine.execBarrierTurn s
  | .channelPutPerform => Sys2Proof.Machine.execChannelPutPerform s
  | .creditReturn => Sys2Proof.Machine.execCreditReturn s
  | .trussAccept => Sys2Proof.Machine.execTrussAccept s
  | .jobStart => Sys2Proof.Machine.execJobStart s
  | .fillElem => Sys2Proof.Machine.execFillElem s
  | .storeElem => Sys2Proof.Machine.execStoreElem s
  | .copyElem => Sys2Proof.Machine.execCopyElem s
  | .moveElem => Sys2Proof.Machine.execMoveElem s
  | .gatherElem => Sys2Proof.Machine.execGatherElem s
  | .scatterElem => Sys2Proof.Machine.execScatterElem s
  | .nmv => Sys2Proof.Machine.execNmv s
  | .nmvPreemptStop => Sys2Proof.Machine.execNmvPreemptStop s
  | .jobComplete => Sys2Proof.Machine.execJobComplete s
  | .completionPutWait => Sys2Proof.Machine.execCompletionPutWait s
  | .replayCommand => Sys2Proof.Machine.execReplayCommand s
  | .jobFaultComplete => Sys2Proof.Machine.execJobFaultComplete s
  | .faultRecordAnswer => Sys2Proof.Machine.execFaultRecordAnswer s
  | .pageRetry => Sys2Proof.Machine.execPageRetry s
  | .translationWalk => Sys2Proof.Machine.execTranslationWalk s
  | .walkComplete => Sys2Proof.Machine.execWalkComplete s
  | .translationInvalidate => Sys2Proof.Machine.execTranslationInvalidate s
  | .atsInvalidation => Sys2Proof.Machine.execAtsInvalidation s
  | .priResponse => Sys2Proof.Machine.execPriResponse s
  | .atsTimeout => Sys2Proof.Machine.execAtsTimeout s
  | .tileDeferredEmpty => Sys2Proof.Machine.execTileDeferredEmpty s
  | .mul => Sys2Proof.Machine.execMul s
  | .loop => Sys2Proof.Machine.execLoop s
  | .cond => Sys2Proof.Machine.execCond s
  | .ringwait => Sys2Proof.Machine.execRingwait s
  | .zero => Sys2Proof.Machine.execZero s
  | .scalea => Sys2Proof.Machine.execScalea s
  | .drain => Sys2Proof.Machine.execDrain s
  | .bypass => Sys2Proof.Machine.execBypass s
  | .signal => Sys2Proof.Machine.execSignal s
  | .endEntry => Sys2Proof.Machine.execEndEntry s
  | .mxStopPoint => Sys2Proof.Machine.execMxStopPoint s
  | .coll => Sys2Proof.Machine.execColl s
  | .collChunkSend => Sys2Proof.Machine.execCollChunkSend s
  | .collChunkReceive => Sys2Proof.Machine.execCollChunkReceive s
  | .collComplete => Sys2Proof.Machine.execCollComplete s
  | .recvqPoll => Sys2Proof.Machine.execRecvqPoll s
  | .keepaliveSend => Sys2Proof.Machine.execKeepaliveSend s
  | .memberSuspect => Sys2Proof.Machine.execMemberSuspect s
  | .membershipBroadcast => Sys2Proof.Machine.execMembershipBroadcast s
  | .spareJoin => Sys2Proof.Machine.execSpareJoin s
  | .migrationMove => Sys2Proof.Machine.execMigrationMove s
  | .parkLimit => Sys2Proof.Machine.execParkLimit s
  | .schedMigrate => Sys2Proof.Machine.execSchedMigrate s
  | .stagePark => Sys2Proof.Machine.execStagePark s
  | .chainFoldPerform => Sys2Proof.Machine.execChainFoldPerform s
  | .chainSpreadPerform => Sys2Proof.Machine.execChainSpreadPerform s
  | .doorbell => Sys2Proof.Machine.execDoorbell s
  | .packetClaim => Sys2Proof.Machine.execPacketClaim s
  | .launch => Sys2Proof.Machine.execLaunch s
  | .feed => Sys2Proof.Machine.execFeed s
  | .feedAppend => Sys2Proof.Machine.execFeedAppend s
  | .nopPacket => Sys2Proof.Machine.execNopPacket s
  | .packetComplete => Sys2Proof.Machine.execPacketComplete s
  | .teamAdmit => Sys2Proof.Machine.execTeamAdmit s
  | .gangAdmit => Sys2Proof.Machine.execGangAdmit s
  | .gangReserve => Sys2Proof.Machine.execGangReserve s
  | .gangStarved => Sys2Proof.Machine.execGangStarved s
  | .acquireGrant => Sys2Proof.Machine.execAcquireGrant s
  | .teamEnd => Sys2Proof.Machine.execTeamEnd s
  | .taskRecordCreate => Sys2Proof.Machine.execTaskRecordCreate s
  | .portPull => Sys2Proof.Machine.execPortPull s
  | .successorDecrement => Sys2Proof.Machine.execSuccessorDecrement s
  | .successorAppend => Sys2Proof.Machine.execSuccessorAppend s
  | .quantumExpiry => Sys2Proof.Machine.execQuantumExpiry s
  | .bucketRefill => Sys2Proof.Machine.execBucketRefill s
  | .bucketCharge => Sys2Proof.Machine.execBucketCharge s
  | .hbIncrement => Sys2Proof.Machine.execHbIncrement s
  | .fallbackBegin => Sys2Proof.Machine.execFallbackBegin s
  | .fallbackEnd => Sys2Proof.Machine.execFallbackEnd s
  | .plienReload => Sys2Proof.Machine.execPlienReload s
  | .preempt => Sys2Proof.Machine.execPreempt s
  | .preemptComplete => Sys2Proof.Machine.execPreemptComplete s
  | .handlerTimeout => Sys2Proof.Machine.execHandlerTimeout s
  | .contextRestore => Sys2Proof.Machine.execContextRestore s
  | .shadowCompare => Sys2Proof.Machine.execShadowCompare s
  | .ueConsume => Sys2Proof.Machine.execUeConsume s
  | .eccError => Sys2Proof.Machine.execEccError s
  | .scrubAccess => Sys2Proof.Machine.execScrubAccess s
  | .packageStart => Sys2Proof.Machine.execPackageStart s
  | .linkChange => Sys2Proof.Machine.execLinkChange s
  | .linkPacketReceive => Sys2Proof.Machine.execLinkPacketReceive s
  | .peerAccess => Sys2Proof.Machine.execPeerAccess s
  | .ctxCreate => Sys2Proof.Machine.execCtxCreate s
  | .ctxDestroy => Sys2Proof.Machine.execCtxDestroy s
  | .ctxResume => Sys2Proof.Machine.execCtxResume s
  | .map => Sys2Proof.Machine.execMap s
  | .unmap => Sys2Proof.Machine.execUnmap s
  | .qCreate => Sys2Proof.Machine.execQCreate s
  | .qDestroy => Sys2Proof.Machine.execQDestroy s
  | .load => Sys2Proof.Machine.execLoad s
  | .unload => Sys2Proof.Machine.execUnload s
  | .exportWindow => Sys2Proof.Machine.execExportWindow s
  | .debugHalt => Sys2Proof.Machine.execDebugHalt s
  | .debugResume => Sys2Proof.Machine.execDebugResume s
  | .debugStep => Sys2Proof.Machine.execDebugStep s
  | .debugReadFrame => Sys2Proof.Machine.execDebugReadFrame s
  | .debugWriteFrame => Sys2Proof.Machine.execDebugWriteFrame s
  | .debugReadBrk => Sys2Proof.Machine.execDebugReadBrk s
  | .debugWriteBrk => Sys2Proof.Machine.execDebugWriteBrk s
  | .debugReadMode => Sys2Proof.Machine.execDebugReadMode s
  | .debugWriteMode => Sys2Proof.Machine.execDebugWriteMode s
  | .coreInfo => Sys2Proof.Machine.execCoreInfo s
  | .startClear => Sys2Proof.Machine.execStartClear s
  | .bucket => Sys2Proof.Machine.execBucket s
  | .commCreate => Sys2Proof.Machine.execCommCreate s
  | .commDestroy => Sys2Proof.Machine.execCommDestroy s
  | .errstatClear => Sys2Proof.Machine.execErrstatClear s
  | .evlostClear => Sys2Proof.Machine.execEvlostClear s
  | .registerWrite => Sys2Proof.Machine.execRegisterWrite s
  | .getVersion => Sys2Proof.Machine.execGetVersion s
  | .getCapabilities => Sys2Proof.Machine.execGetCapabilities s
  | .negotiateAlgorithms => Sys2Proof.Machine.execNegotiateAlgorithms s
  | .getDigests => Sys2Proof.Machine.execGetDigests s
  | .getCertificate => Sys2Proof.Machine.execGetCertificate s
  | .challenge => Sys2Proof.Machine.execChallenge s
  | .getMeasurements => Sys2Proof.Machine.execGetMeasurements s
  | .keyExchange => Sys2Proof.Machine.execKeyExchange s
  | .finish => Sys2Proof.Machine.execFinish s
  | .heartbeat => Sys2Proof.Machine.execHeartbeat s
  | .keyUpdate => Sys2Proof.Machine.execKeyUpdate s
  | .endSession => Sys2Proof.Machine.execEndSession s
  | .endTrace f => Sys2Proof.Machine.execEndTrace f s
  | .endSel f => Sys2Proof.Machine.execEndSel f s
  | .endInd f => Sys2Proof.Machine.execEndInd f s
  | .endIndL9 a r => Sys2Proof.Machine.execEndIndL9 a r s
  | .retire f => Sys2Proof.Machine.execRetire f s
  | .retireL9 r => Sys2Proof.Machine.execRetireL9 r s
  | .guard f => Sys2Proof.Machine.execGuard f s
  | .abortTrace f => Sys2Proof.Machine.execAbortTrace f s
  | .nop f => Sys2Proof.Machine.execNop f s
  | .nopL9 r => Sys2Proof.Machine.execNopL9 r s
  | .add f => Sys2Proof.Machine.execAdd f s
  | .addL9 f d a b r => Sys2Proof.Machine.execAddL9 f d a b r s
  | .sub f => Sys2Proof.Machine.execSub f s
  | .subL9 f d a b r => Sys2Proof.Machine.execSubL9 f d a b r s
  | .mullo f => Sys2Proof.Machine.execMullo f s
  | .mulloL9 d a b r => Sys2Proof.Machine.execMulloL9 d a b r s
  | .mulhi f => Sys2Proof.Machine.execMulhi f s
  | .mulhiL9 f d a b r => Sys2Proof.Machine.execMulhiL9 f d a b r s
  | .mad f => Sys2Proof.Machine.execMad f s
  | .min f => Sys2Proof.Machine.execMin f s
  | .minL9 f d a b r => Sys2Proof.Machine.execMinL9 f d a b r s
  | .max f => Sys2Proof.Machine.execMax f s
  | .maxL9 f d a b r => Sys2Proof.Machine.execMaxL9 f d a b r s
  | .abs f => Sys2Proof.Machine.execAbs f s
  | .absL9 d a r => Sys2Proof.Machine.execAbsL9 d a r s
  | .neg f => Sys2Proof.Machine.execNeg f s
  | .negL9 f d a r => Sys2Proof.Machine.execNegL9 f d a r s
  | .aadd f => Sys2Proof.Machine.execAadd f s
  | .aaddL9 d a b r => Sys2Proof.Machine.execAaddL9 d a b r s
  | .amad f => Sys2Proof.Machine.execAmad f s
  | .and f => Sys2Proof.Machine.execAnd f s
  | .andL9 d a b r => Sys2Proof.Machine.execAndL9 d a b r s
  | .or f => Sys2Proof.Machine.execOr f s
  | .orL9 d a b r => Sys2Proof.Machine.execOrL9 d a b r s
  | .xor f => Sys2Proof.Machine.execXor f s
  | .xorL9 d a b r => Sys2Proof.Machine.execXorL9 d a b r s
  | .andn f => Sys2Proof.Machine.execAndn f s
  | .andnL9 d a b r => Sys2Proof.Machine.execAndnL9 d a b r s
  | .not f => Sys2Proof.Machine.execNot f s
  | .notL9 d a r => Sys2Proof.Machine.execNotL9 d a r s
  | .shl f => Sys2Proof.Machine.execShl f s
  | .shlL9 d a b r => Sys2Proof.Machine.execShlL9 d a b r s
  | .shr f => Sys2Proof.Machine.execShr f s
  | .shrL9 f d a b r => Sys2Proof.Machine.execShrL9 f d a b r s
  | .rot f => Sys2Proof.Machine.execRot f s
  | .rotL9 d a b r => Sys2Proof.Machine.execRotL9 d a b r s
  | .bfx f => Sys2Proof.Machine.execBfx f s
  | .bfxL9 f d a b r => Sys2Proof.Machine.execBfxL9 f d a b r s
  | .bfi f => Sys2Proof.Machine.execBfi f s
  | .popc f => Sys2Proof.Machine.execPopc f s
  | .popcL9 d a r => Sys2Proof.Machine.execPopcL9 d a r s
  | .clz f => Sys2Proof.Machine.execClz f s
  | .clzL9 d a r => Sys2Proof.Machine.execClzL9 d a r s
  | .ctz f => Sys2Proof.Machine.execCtz f s
  | .ctzL9 d a r => Sys2Proof.Machine.execCtzL9 d a r s
  | .brev f => Sys2Proof.Machine.execBrev f s
  | .brevL9 d a r => Sys2Proof.Machine.execBrevL9 d a r s
  | .icmp n32 f => Sys2Proof.Machine.execIcmp n32 f s
  | .icmpL9 z c d a b r => Sys2Proof.Machine.execIcmpL9 z c d a b r s
  | .sel f => Sys2Proof.Machine.execSel f s
  | .mov f => Sys2Proof.Machine.execMov f s
  | .movL9 d a r => Sys2Proof.Machine.execMovL9 d a r s
  | .movi f => Sys2Proof.Machine.execMovi f s
  | .movh f => Sys2Proof.Machine.execMovh f s
  | .movx f => Sys2Proof.Machine.execMovx f s
  | .movxL9 d a r => Sys2Proof.Machine.execMovxL9 d a r s
  | .sreg f => Sys2Proof.Machine.execSreg f s
  | .umov f => Sys2Proof.Machine.execUmov f s
  | .pand f => Sys2Proof.Machine.execPand f s
  | .pandL9 d a b r => Sys2Proof.Machine.execPandL9 d a b r s
  | .por f => Sys2Proof.Machine.execPor f s
  | .porL9 d a b r => Sys2Proof.Machine.execPorL9 d a b r s
  | .pxor f => Sys2Proof.Machine.execPxor f s
  | .pxorL9 d a b r => Sys2Proof.Machine.execPxorL9 d a b r s
  | .pnot f => Sys2Proof.Machine.execPnot f s
  | .pnotL9 d a r => Sys2Proof.Machine.execPnotL9 d a r s
  | .vote f => Sys2Proof.Machine.execVote f s
  | .voteL9 f d a r => Sys2Proof.Machine.execVoteL9 f d a r s
  | .elect f => Sys2Proof.Machine.execElect f s
  | .electL9 d r => Sys2Proof.Machine.execElectL9 d r s
  | .readlane f => Sys2Proof.Machine.execReadlane f s
  | .readlaneL9 d a b r => Sys2Proof.Machine.execReadlaneL9 d a b r s
  | .shfl f => Sys2Proof.Machine.execShfl f s
  | .shflL9 f d a b r => Sys2Proof.Machine.execShflL9 f d a b r s
  | .fadd f => Sys2Proof.Machine.execFadd f s
  | .faddL9 f d a b r => Sys2Proof.Machine.execFaddL9 f d a b r s
  | .fsub f => Sys2Proof.Machine.execFsub f s
  | .fsubL9 f d a b r => Sys2Proof.Machine.execFsubL9 f d a b r s
  | .fmul f => Sys2Proof.Machine.execFmul f s
  | .fmulL9 f d a b r => Sys2Proof.Machine.execFmulL9 f d a b r s
  | .fma f => Sys2Proof.Machine.execFma f s
  | .fmin f => Sys2Proof.Machine.execFmin f s
  | .fminL9 f d a b r => Sys2Proof.Machine.execFminL9 f d a b r s
  | .fmax f => Sys2Proof.Machine.execFmax f s
  | .fmaxL9 f d a b r => Sys2Proof.Machine.execFmaxL9 f d a b r s
  | .fcmp f => Sys2Proof.Machine.execFcmp f s
  | .fcmpL9 c d a b r => Sys2Proof.Machine.execFcmpL9 c d a b r s
  | .frcp f => Sys2Proof.Machine.execFrcp f s
  | .frcpL9 d a r => Sys2Proof.Machine.execFrcpL9 d a r s
  | .frsq f => Sys2Proof.Machine.execFrsq f s
  | .frsqL9 d a r => Sys2Proof.Machine.execFrsqL9 d a r s
  | .fsqrt f => Sys2Proof.Machine.execFsqrt f s
  | .fsqrtL9 d a r => Sys2Proof.Machine.execFsqrtL9 d a r s
  | .fexp2 f => Sys2Proof.Machine.execFexp2 f s
  | .fexp2L9 d a r => Sys2Proof.Machine.execFexp2L9 d a r s
  | .flog2 f => Sys2Proof.Machine.execFlog2 f s
  | .flog2L9 d a r => Sys2Proof.Machine.execFlog2L9 d a r s
  | .ftanh f => Sys2Proof.Machine.execFtanh f s
  | .ftanhL9 d a r => Sys2Proof.Machine.execFtanhL9 d a r s
  | .ferf f => Sys2Proof.Machine.execFerf f s
  | .ferfL9 d a r => Sys2Proof.Machine.execFerfL9 d a r s
  | .fsin f => Sys2Proof.Machine.execFsin f s
  | .fsinL9 d a r => Sys2Proof.Machine.execFsinL9 d a r s
  | .fcos f => Sys2Proof.Machine.execFcos f s
  | .fcosL9 d a r => Sys2Proof.Machine.execFcosL9 d a r s
  | .ldexp f => Sys2Proof.Machine.execLdexp f s
  | .ldexpL9 d a b r => Sys2Proof.Machine.execLdexpL9 d a b r s
  | .frnd f => Sys2Proof.Machine.execFrnd f s
  | .frndL9 m d a r => Sys2Proof.Machine.execFrndL9 m d a r s
  | .frac f => Sys2Proof.Machine.execFrac f s
  | .fracL9 d a r => Sys2Proof.Machine.execFracL9 d a r s
  | .fred f => Sys2Proof.Machine.execFred f s
  | .fredL9 d a r => Sys2Proof.Machine.execFredL9 d a r s
  | .famax f => Sys2Proof.Machine.execFamax f s
  | .famaxL9 f d a r => Sys2Proof.Machine.execFamaxL9 f d a r s
  | .scale f => Sys2Proof.Machine.execScale f s
  | .scaleL9 f d a r => Sys2Proof.Machine.execScaleL9 f d a r s
  | .cvt f => Sys2Proof.Machine.execCvt f s
  | .packw f => Sys2Proof.Machine.execPackw f s
  | .packwL9 f d a b r => Sys2Proof.Machine.execPackwL9 f d a b r s
  | .unpkw f => Sys2Proof.Machine.execUnpkw f s
  | .unpkwL9 f d a b r => Sys2Proof.Machine.execUnpkwL9 f d a b r s
  | .ld f => Sys2Proof.Machine.execLd f s
  | .ldL9 f d a b r => Sys2Proof.Machine.execLdL9 f d a b r s
  | .st f => Sys2Proof.Machine.execSt f s
  | .stL9 f d a b r => Sys2Proof.Machine.execStL9 f d a b r s
  | .ldx f => Sys2Proof.Machine.execLdx f s
  | .ldxL9 f d a b r => Sys2Proof.Machine.execLdxL9 f d a b r s
  | .ldf f => Sys2Proof.Machine.execLdf f s
  | .ldfL9 f d a b r => Sys2Proof.Machine.execLdfL9 f d a b r s
  | .stf f => Sys2Proof.Machine.execStf f s
  | .stfL9 m d a b r => Sys2Proof.Machine.execStfL9 m d a b r s
  | .tdef f => Sys2Proof.Machine.execTdef f s
  | .tdefL9 d a b r => Sys2Proof.Machine.execTdefL9 d a b r s
  | .trel f => Sys2Proof.Machine.execTrel f s
  | .trelL9 d r => Sys2Proof.Machine.execTrelL9 d r s
  | .tpost f => Sys2Proof.Machine.execTpost f s
  | .tpostL9 d r => Sys2Proof.Machine.execTpostL9 d r s
  | .treclaim f => Sys2Proof.Machine.execTreclaim f s
  | .treclaimL9 d r => Sys2Proof.Machine.execTreclaimL9 d r s
  | .tstat f => Sys2Proof.Machine.execTstat f s
  | .atom f => Sys2Proof.Machine.execAtom f s
  | .atomr f => Sys2Proof.Machine.execAtomr f s
  | .cas f => Sys2Proof.Machine.execCas f s
  | .phase f => Sys2Proof.Machine.execPhase f s
  | .phaseL9 z r => Sys2Proof.Machine.execPhaseL9 z r s
  | .keyset f => Sys2Proof.Machine.execKeyset f s
  | .keysetL9 a r => Sys2Proof.Machine.execKeysetL9 a r s
  | .keyget f => Sys2Proof.Machine.execKeyget f s
  | .keygetL9 d r => Sys2Proof.Machine.execKeygetL9 d r s
  | .icinv f => Sys2Proof.Machine.execIcinv f s
  | .icinvL9 a b r => Sys2Proof.Machine.execIcinvL9 a b r s
  | .barArrive f => Sys2Proof.Machine.execBarArrive f s
  | .barArriveL9 d a r => Sys2Proof.Machine.execBarArriveL9 d a r s
  | .barSync f => Sys2Proof.Machine.execBarSync f s
  | .barSyncL9 d a r => Sys2Proof.Machine.execBarSyncL9 d a r s
  | .barInit f => Sys2Proof.Machine.execBarInit f s
  | .barInitL9 d a r => Sys2Proof.Machine.execBarInitL9 d a r s
  | .get f => Sys2Proof.Machine.execGet f s
  | .put f => Sys2Proof.Machine.execPut f s
  | .chstat f => Sys2Proof.Machine.execChstat f s
  | .taskadd f => Sys2Proof.Machine.execTaskadd f s
  | .taskaddL9 a b r => Sys2Proof.Machine.execTaskaddL9 a b r s
  | .taskdone f => Sys2Proof.Machine.execTaskdone f s
  | .taskdoneL9 r => Sys2Proof.Machine.execTaskdoneL9 r s
  | .qtail f => Sys2Proof.Machine.execQtail f s
  | .qtailL9 a b r => Sys2Proof.Machine.execQtailL9 a b r s
  | .qroom f => Sys2Proof.Machine.execQroom f s
  | .qroomL9 d a r => Sys2Proof.Machine.execQroomL9 d a r s
  | .wake f => Sys2Proof.Machine.execWake f s
  | .wakeL9 a r => Sys2Proof.Machine.execWakeL9 a r s
  | .job f => Sys2Proof.Machine.execJob f s
  | .jobL9 d a b r => Sys2Proof.Machine.execJobL9 d a b r s
  | .jobq f => Sys2Proof.Machine.execJobq f s
  | .jobqL9 d a r => Sys2Proof.Machine.execJobqL9 d a r s
  | .jcancel f => Sys2Proof.Machine.execJcancel f s
  | .jcancelL9 a r => Sys2Proof.Machine.execJcancelL9 a r s
  | .mxgo f => Sys2Proof.Machine.execMxgo f s
  | .mxstat f => Sys2Proof.Machine.execMxstat f s
  | .mxstop f => Sys2Proof.Machine.execMxstop f s
  | .accrd f => Sys2Proof.Machine.execAccrd f s
  | .accwr f => Sys2Proof.Machine.execAccwr f s
  | .migrate f => Sys2Proof.Machine.execMigrate f s
  | .chainFold f => Sys2Proof.Machine.execChainFold f s
  | .chainFoldL9 r => Sys2Proof.Machine.execChainFoldL9 r s
  | .chainSpread f => Sys2Proof.Machine.execChainSpread f s
  | .chainSpreadL9 r => Sys2Proof.Machine.execChainSpreadL9 r s
  | .epq f => Sys2Proof.Machine.execEpq f s
  | .epqL9 d r => Sys2Proof.Machine.execEpqL9 d r s
  | .trap f => Sys2Proof.Machine.execTrap f s
  | .rett f => Sys2Proof.Machine.execRett f s
  | .rettL9 r => Sys2Proof.Machine.execRettL9 r s
  | .rettAbort f => Sys2Proof.Machine.execRettAbort f s
  | .rettAbortL9 r => Sys2Proof.Machine.execRettAbortL9 r s
  | .csrr f => Sys2Proof.Machine.execCsrr f s
  | .csrwTstat f => Sys2Proof.Machine.execCsrwTstat f s
  | .csrwSrseed f => Sys2Proof.Machine.execCsrwSrseed f s
  | .csrwMode f => Sys2Proof.Machine.execCsrwMode f s
  | .csrwKeyperm f => Sys2Proof.Machine.execCsrwKeyperm f s
  | .csrwTrapbase f => Sys2Proof.Machine.execCsrwTrapbase f s
  | .csrwMigpol f => Sys2Proof.Machine.execCsrwMigpol f s
  | .csrwGangwait f => Sys2Proof.Machine.execCsrwGangwait f s
  | .csrwBrk f => Sys2Proof.Machine.execCsrwBrk f s
  | .containOpen f => Sys2Proof.Machine.execContainOpen f s
  | .containClose f => Sys2Proof.Machine.execContainClose f s
  | .containCloseL9 r => Sys2Proof.Machine.execContainCloseL9 r s
  | .halt f => Sys2Proof.Machine.execHalt f s
  | .haltL9 r => Sys2Proof.Machine.execHaltL9 r s
  | .powerLoss => Sys2Proof.Machine.execPowerLoss s
  | .atsTranslationCompletion => Sys2Proof.Machine.execAtsTranslationCompletion s
  | .illegalOpcode op f => Sys2Proof.Machine.execIllegalOpcode op f s
  | .badreq => Sys2Proof.Machine.execBadreq s
  | .linkKeyUpdate => Sys2Proof.Machine.execLinkKeyUpdate s
  | .schedulerChainLatch => Sys2Proof.Machine.execSchedulerChainLatch s

end Sys2Proof.Machine
end

