-- ==== Sys2Proof/Machine/Due.lean ====
section
/-!
DEFINITION. What the machine does when nothing is set to happen next (log 4, DESIGN CHOICE): the focused group's own turn where it has one, else the
oldest hardware event whose condition holds among those that need nobody's choice: atomics, returns, barriers, channels and jobs.
-/
namespace Sys2Proof.Machine

/-- The atomic that may be performed: the first sent whose earlier ones have been (R169) (log 52, DEDUCED). -/
def State.dueAtomic (s : State) : Option (Instr × Subject) :=
  (s.sent.find? (fun p => p.2.after.all (fun a => (tget s.sent a).isNone))).map (fun p => (.atomicPerform, { a := p.1 }))

/-- The event that a group has due: a return to apply, or an acquire that has been performed (R169, R170). -/
def State.dueLane (s : State) (g : GRef) (x : Group) : Option (Instr × Subject) :=
  match x.returns.find? (fun r => r.value.isSome && s.laneLives g r.lane && ((x.nextReturn r.lane).bind (fun n => x.returns[n]?)) == some r) with
  | some r => some (.atomicReturn, { g := g, a := r.lane })
  | none =>
    let done (l : Lane) : Bool := l.acquires.any (fun a => (tget s.sent a).isNone)
    match x.lanes.findIdx? done with
    | some n => some (.acquireComplete, { g := g, a := n })
    | none => (((s.team? g.core g.slot).elim [] (fun t => t.banked x.num)).find? (fun p => done p.2)).map (fun p => (.acquireComplete, { g := g, a := p.1 }))

/-- The event that a team has due: one of its groups', a barrier's turn, a put, or a credit (R280, R284, R303). -/
def State.dueTeam (s : State) (core slot : Nat) (t : Team) : Option (Instr × Subject) :=
  let g : GRef := ⟨core, slot, 0⟩
  let done (l : List Nat) : Bool := l.all (fun a => (tget s.sent a).isNone)
  match t.groups.zipIdx.findSome? (fun x => s.dueLane ⟨core, slot, x.2⟩ x.1) with
  | some e => some e
  | none => match t.bars.find? (fun b => b.2.tp && done b.2.turnWaits) with
    | some b => some (.barrierTurn, { g := g, a := b.1 })
    | none => match t.chans.find? (fun c => !c.2.frozen && (match t.puts.find? (fun p => p.chan == c.1) with | some p => done p.waits | none => false)) with
      | some c => some (.channelPutPerform, { g := g, a := c.1 })
      | none => (t.chans.find? (fun c => c.2.owed != 0)).map (fun c => (.creditReturn, { g := g, a := c.1 }))

/-- The event of an element of a job (R76). -/
def elementEvent : Nat → Instr
  | 1 => .fillElem
  | 2 => .storeElem
  | 3 => .copyElem
  | 4 => .moveElem
  | 5 => .gatherElem
  | 6 => .scatterElem
  | 7 => .nmv
  | _ => .coll

/-- Whether the scrubber's accesses go before those of a job: the pass is behind schedule, and the base class of the group that released the job is 0
(R419). -/
def State.scrubFirst (s : State) (j : Job) : Bool :=
  bit s.bar0.scrubcfg.toNat 16 && bit s.bar0.scrubcfg.toNat 17
    && (match j.grp.bind (fun g => s.group? ⟨j.core, j.slot, g⟩) with | some x => x.cls == 0 | none => false)

/-- The event that a job has due (R73, R76, R80, R91); one that is PARTIAL is replayed once its records have been answered, unless its
die has still to be scanned (R77, R359). -/
def State.dueJob (s : State) (d n : Nat) (j : Job) : Option (Instr × Subject) :=
  let u : Subject := { a := d, b := n }
  if j.state = .waiting ∧ !j.accepted then some (.trussAccept, u)
  else if !s.enginesRun j.ctx then none
  else if j.state = .partialDone ∧ j.records = 0 ∧ !(s.die d).frqovf then some (.replayCommand, u)
  else if j.state ≠ .running then none
  else if j.putWaits then some (.completionPutWait, u)
  else if j.absent ∨ (j.started ∧ j.full) then some (.jobComplete, u)
  else if !j.started then some (.jobStart, u)
  else if s.scrubFirst j then some (.scrubAccess, {})
  else ((upto j.elems).find? (fun e => !bit (j.mask ||| j.tried) e)).map (fun e => (elementEvent (cardOf j.card).kind, { u with c := e }))

/-- The hardware event that is due. -/
def State.due (s : State) : Option (Instr × Subject) :=
  match s.dueAtomic with
  | some e => some e
  | none => match s.cores.findSome? (fun c => c.2.teams.findSome? (fun t => s.dueTeam c.1 t.1 t.2)) with
    | some e => some e
    | none => s.dies.findSome? (fun d => d.2.truss.findSome? (fun j => s.dueJob d.1 j.1 j.2))

/-- What happens when nothing is set to happen next: the focused group's turn while it can go on, else the event that is due, else the
group's turn all the same. -/
def State.turn (s : State) : Option (Instr × Subject) :=
  let goes : Bool := match s.focus with
    | none => false
    | some g => match s.team? g.core g.slot, s.group? g with
      | some tm, some x => s.releasable g || s.mayRun g tm x
      | _, _ => false
  if goes then s.groupTurn else s.due.or s.groupTurn

end Sys2Proof.Machine
end

