-- ==== Sys2Proof/Machine/Step.lean ====
section
/-!
DEFINITION. One step of the machine (log 4, DESIGN CHOICE): the event at the head of what happens next; else the start of the package; else the
next step of the focused group: the instruction at its execution's offset, or what its scheduler does for it, or what the hardware has
due (`State.turn`).
-/
namespace Sys2Proof.Machine

/-- The next step of the focused group: the instruction that its execution stands at, or, where arbitration gives the slot to another
group of the core, that group's (R249), its shadow's where that is due and no choice lets the leading group go first (R406); or the event that is due. -/
def groupStep (s : State) : Host.Outcome State Fault Refusal :=
  match s.arbitrate.standing with
  | some (g, _, _, x) =>
    match s.arbitrate.leadFirst g with
    | (true, t) => exec (decodeWord (s.encOf g) x.word) t
    | (false, t) => exec .shadowCompare { t with subject := { g := g, ok := true } }
  | none =>
    match s.turn with
    | some (i, about) => exec i { s with subject := about }
    | none => .next s

/-- One step. An entry of the agenda that is not an event of the table does nothing. -/
def step (s : State) : Host.Outcome State Fault Refusal :=
  match s.agenda with
  | .event i about :: rest =>
    if (wordOf i).isNone then exec i { s with agenda := rest, subject := about } else .next { s with agenda := rest }
  | .group g :: rest => groupStep { s with agenda := rest, focus := some g }
  | [] => if s.starting then exec .packageStart s else groupStep s

/-- The state `s` with one instruction standing to issue next: an execution of a group of a team on core 1, a DCORE, or on
core 0, an LCORE, for a word of 32 bits (log 5, DESIGN CHOICE). -/
def State.withFetchWord (s : State) (nbits w : Nat) : State :=
  let core := if nbits ≤ 32 then 0 else 1
  let word : DWord := BitVec.ofNat 64 w
  let tr : TRef := ⟨1, 0, 0⟩
  let op := (word.extractLsb' (if nbits ≤ 32 then 23 else 51) 8).toNat
  let len := match opInfo op 0 with | some r => if r.term then 1 else 2 | none => 2
  let hdr : Header :=
    { op := 0, len := len, head := 0, arg := 0, ep := false, flash := 0, wset := 0, stw := 0, atom := 0, puts := 0, jobs := 0, arr := 0, rsv := 0 }
  let lanes := List.range 16
  let x : Exec :=
    { tr := tr, hdr := hdr, words := [word], mask := 0, started := lanes, here := lanes, left := [], off := 0, diverged := false, ready := 0,
      issued := [], buf := [], uses := [], view := {}, skipBreak := false, gotTask := false, run := 1 }
  let grp : Group :=
    { width := 16, num := 0, role := 0, cls := 0, lanes := lanes.map (fun _ => { live := true, tr := tr }), exec := some x }
  let team : Team := { ctx := 1, handle := 1, kernel := 0, groups := [grp] }
  (({ s with ctxs := tput s.ctxs 1 {}, boot := { s.boot with step := 25 }, agenda := [], focus := some ⟨core, 0, 0⟩ }).modCore core
    (fun k => { k with teams := tput k.teams 0 team }))

end Sys2Proof.Machine
end

