-- ==== Sys2Proof/Safety.lean ====
section
/-!
DEFINITION. The terms that claims are made in: the invariant of the machine, what it is for an instruction to be ready to issue, and
what the next state holds of an instruction that has issued.
-/
namespace Sys2Proof.Machine

/-- The invariant of the machine: memory keeps its canonical form. -/
def Inv (s : State) : Prop := s.mem.wf = true

/-- Whether an instruction that may issue does so with every lane that stands there: some lane does, every channel operand holds an item for each
lane that takes one (R304), and the load-value queue has room for what a shadowed group loads (R407). -/
def Iss.goes (i : Iss) : Bool :=
  (capture i).empty.isEmpty && !i.here.isEmpty
    && !(i.grp.shadow && loadsValue i.op && decide (512 ≤ (i.s.core i.g.core).ldq.length))

/-- The instruction with opcode `op` and fields `f`, where the focused group's execution stands, ready to issue (R140): no breakpoint
fires, every check passes, every channel operand may be used, no source is poisoned, and nothing holds back a lane that stands there. -/
def readyAt (op : Nat) (f : Fields) (s : State) : Option Iss :=
  match s.standing with
  | none => none
  | some (g, tm, grp, x) => match issueChecks s g tm grp x op f with
    | .error _ => none
    | .ok i => if i.goes then some i else none

/-- The execution of a group. -/
def State.execAt (s : State) (g : GRef) : Option Exec := (s.group? g).bind (fun x => x.exec)

/-- What an instruction at issue leaves alone: all of the machine but its core's clock and load-value queue and the execution of its
group, which returns to its base class where it begins a run (R249), and a choice that may have been used up. `lanes` says that the group's lanes are left alone too. -/
structure IssueFrame (s t : State) (i : Iss) (lanes : Bool) : Prop where
  memory : t.mem = s.mem
  machine : { t with cores := s.cores, picks := s.picks } = s
  cores : ∀ c, c ≠ i.g.core → tget t.cores c = tget s.cores c
  core : { t.core i.g.core with cycles := (s.core i.g.core).cycles, ldq := (s.core i.g.core).ldq, teams := (s.core i.g.core).teams }
    = s.core i.g.core
  teams : ∀ n, n ≠ i.g.slot → t.team? i.g.core n = s.team? i.g.core n
  team : ∃ tm tm', s.team? i.g.core i.g.slot = some tm ∧ t.team? i.g.core i.g.slot = some tm' ∧ { tm' with groups := tm.groups } = tm
    ∧ ∀ n, n ≠ i.g.grp → tm'.groups[n]? = tm.groups[n]?
  group : ∃ y y', s.group? i.g = some y ∧ t.group? i.g = some y'
    ∧ { y' with exec := y.exec, waited := y.waited, lanes := if lanes then y'.lanes else y.lanes } = y
    ∧ y'.waited = if i.x.run = 0 then 0 else y.waited

/-- What an instruction has done when it has issued (R107, R136, R145, R257): the execution stands at the next instruction, its results
are in the window, its pops and its effects `effs` in the buffer, and its run goes on or ends (R135). -/
structure Issued.Of (x : Exec) (i : Iss) (writes : List (Place × Word)) (effs : List Effect) : Prop where
  next : x.off = i.x.off + 1
  window : ∃ n, x.issued = n :: i.x.issued ∧ n.off = i.x.off ∧ n.word = i.x.word ∧ n.mask = (if i.scalar then i.here else i.acting) ∧ n.start = i.now ∧ n.writes = writes
  buffer : x.buf = i.x.buf ++ ((capture i).pops ++ effs).map (fun e => ⟨i.x.off, e⟩)
  run : x.run = if i.f.rb ∨ i.x.run = 23 then 0 else i.x.run + 1
  rest : { x with off := i.x.off, ready := i.x.ready, issued := i.x.issued, buf := i.x.buf, uses := i.x.uses, skipBreak := i.x.skipBreak,
                  run := i.x.run, second := i.x.second } = i.x

/-- The instruction completes: wherever it is ready to issue and `ok` holds of it and of its lanes' source words, the next state is the
one in which it has issued with the results and the effects of `res`. -/
def Completes (ins : Instr) (ok : Iss → Table (List Word) → Prop) (res : Iss → Table (List Word) → Res) : Prop :=
  ∀ op f s i, wordOf ins = some (op, f) → readyAt op.toNat f s = some i → ok i (capture i).words →
    ∃ t x, exec ins s = .next t ∧ t.execAt i.g = some x ∧ Issued.Of x i (res i (capture i).words).writes (res i (capture i).words).effs
      ∧ IssueFrame s t i false

/-- An instruction that gives each acting lane a result computed from the lane's own source words. -/
def Computes (ins : Instr) (val : Iss → List Word → List Word) : Prop :=
  Completes ins (fun _ _ => True) (fun i ws => deliver i ((actingWords i ws).map (fun p => (p.1, val i p.2))))

/-- An instruction that buffers one effect of the lanes that act (R146): nothing where none acts. -/
def Buffers (ins : Instr) (ok : Iss → Table (List Word) → Prop) (eff : Iss → Table (List Word) → GroupEff) : Prop :=
  Completes ins ok (fun i ws => if i.acting = [] then {} else { effs := [.group i.acting (eff i ws)] })

/-- An instruction whose effect, wherever it is ready, `ok` holds, and the shadow of its group has reached it where it has one (R409), is to take a
trap at itself for the lanes that act, in the cycle in which it issues (R360, R366). -/
def TakesTrap (ins : Instr) (ok : Iss → Table (List Word) → Prop) (trap : Iss → Trap) : Prop :=
  ∀ op f s i, wordOf ins = some (op, f) → readyAt op.toNat f s = some i → i.grp.shadowBehind i.x.off = false → ok i (capture i).words →
    exec ins s = .next (((i.s.leave i.g i.now []).clockTo i.g.core i.now).takeTrap i.g (trap i) i.x.off
      (64 ≤ (trap i).cause && (trap i).cause < 80) false)

/-- The machine at a terminator: the clock stands at the cycle in which it begins, its pops are in the buffer, and its run has ended. -/
def atTerminator (i : Iss) : State :=
  (applyIssue i (capture i) i.x.word {}).modGroup i.g (fun y =>
    { y with exec := y.exec.map (fun z => { z with off := i.x.off, issued := i.x.issued, run := 0, closing := true }) })

/-- A terminator ends its execution: wherever it is ready and `ok` holds, the next state is that of the commit (R258), each lane with
its successor, and the migration asked for. -/
def Ends (ins : Instr) (ok : Iss → Table (List Word) → Prop) (succ : Iss → Table (List Word) → Nat → Succ)
    (mig : Iss → Option (TRef × TRef × Bool)) : Prop :=
  ∀ op f s i, wordOf ins = some (op, f) → readyAt op.toNat f s = some i → ok i (capture i).words →
    exec ins s = .next ((atTerminator i).commit i.g i.now (succ i (capture i).words) (mig i))

/-- The lanes that leave an execution, and where each goes (R255, R266), where the group's shadow does not hold it back (R409). The execution ends
with nothing left to commit where no lane stays. -/
def Leaves (ins : Instr) (who : Iss → List Nat) : Prop :=
  ∀ op f s i, wordOf ins = some (op, f) → readyAt op.toNat f s = some i → i.grp.shadowBehind i.x.off = false →
    ∃ t y, exec ins s = .next t ∧ t.group? i.g = some y ∧ t.mem = s.mem
      ∧ (∀ x, y.exec = some x → x.here = i.here.filter (fun l => !(who i).contains l) ∧ x.off = i.x.off + 1 ∧ x.issued.length = i.x.issued.length + 1)
      ∧ (y.exec = none ↔ i.here.all (fun l => (who i).contains l) = true)
      ∧ y.regs = i.grp.regs ∧ y.preds = i.grp.preds ∧ y.uregs = i.grp.uregs
      ∧ ∀ l, l < i.grp.lanes.length → (y.lane l) = if (who i).contains l
          then { i.grp.lane l with tr := { i.x.tr with idx := immField i.f % 2 ^ 17 }, since := i.now, held := none, bindCall := none } else i.grp.lane l

/-- Moving `len` bytes of an element from one operand to another meets no fault (R71, R84, R91, R25, R36, R55, R56): both sides are reached,
as these pieces, and their formats agree. `t` is the machine once both have been translated. -/
structure State.Moves (s : State) (j : Job) (tm : Team) (e src dst soff doff len : Nat) (first : Bool) (source dest : List Seg) (t : State) : Prop where
  reads : s.reachFault j (cardOf j.card) src soff len false = none
  writes : s.reachFault j (cardOf j.card) dst doff len true = none
  sides : ∃ u, s.sideOf j tm e src soff len 0 = (.ok source, u) ∧ u.sideOf j tm e dst doff len 1 = (.ok dest, t)
  load : opSpace src = 1 ∨ t.loadFault (t.refFormat j src (segForm source)) first source = none
  store : storeFault (segForm source).1 (segForm source).2 first dest = none

/-- An element has moved its bytes (R76): they are copied and charged, and the element's bit is set in MASK. -/
def State.moved (s : State) (d n : Nat) (j : Job) (tm : Team) (e : Nat) (source dest : List Seg) : State :=
  ((source ++ dest).foldl (fun s g => s.charge j.ctx g.key g.n) (s.copySegs source (dest.map (Seg.filled (segForm source))) (s.readSide j tm (cardOf j.card)))).elementDone d n e
    (pagesOfSegs (source ++ dest)) (some (segForm source))

/-- The state after an answer to request `a` of the subject. -/
def State.answered (s : State) : Answer → State
  | (none, t) => t
  | (some (st, v), t) => t.complete s.subject.a st v

/-- Request `a` of the subject may be performed now: its record is `b`, its OP is `op`, no flag and no byte of ARGS is set that the OP
has no use for, and the context it acts on lives (R441, R443, R444). -/
def Asked (s : State) (op flags : Nat) (onCtx : Bool) (used : List (Nat × Nat)) (b : List Byte) : Prop :=
  s.request? s.subject.a = some b ∧ leAt b 0 1 = op ∧ leAt b 1 1 - (leAt b 1 1 &&& flags) = 0 ∧ argsBad b used = false
    ∧ (onCtx = true → (s.ctx? (leAt b 2 2)).isSome = true)

/-- A debug request that may be performed: its context has DEBUG and not CONF, and DOP is the operation (R442, R444). -/
def AskedDebug (s : State) (dop : Nat) (b : List Byte) (g : GRef) : Prop :=
  Asked s 11 0 true [(16, 1), (18, 5), (24, 4), (32, 8)] b ∧ leAt b 16 1 = dop
    ∧ (∃ c, s.ctx? (leAt b 2 2) = some c ∧ c.debug = true ∧ c.conf = false) ∧ (dop ≠ 5 → dop ≠ 6 → s.debugGroup (leAt b 2 2) b = some g)

end Sys2Proof.Machine
end

