-- ==== Sys2Proof/Certificates/Slice0/Obligations.lean ====
section
/-!
DEFINITION. The statements about the HN9 for the provers. Each formalises what its docstring says of the spec.
-/
open Sys2Proof Sys2Proof.Machine

/-- In every encoding, wherever one of these instructions is ready to issue, the next state is the one in which it has issued: each acting
lane gets the exact integer result of its operands, read by type and fitted to 32 bits by type (clamped for .S32 and .N32, modulo 2^32
for .B32), and nothing else of the machine changes but the clock and the execution. -/
def Obligations.IntegerArithmeticResults : Prop :=
  let x (i : Iss) (w : List Word) : Int := readInt (intType i.f) (nth w 0 0#32)
  let y (i : Iss) (w : List Word) : Int := readInt (intType i.f) (lastWord i w 1)
  let fitted (e : Iss → List Word → Int) (i : Iss) (w : List Word) : List Word := [fit (e i w) (intType i.f)]
  (∀ f, Computes (.add f) (fitted (fun i w => x i w + y i w)))
  ∧ (∀ f d a b r, Computes (.addL9 f d a b r) (fitted (fun i w => x i w + y i w)))
  ∧ (∀ f, Computes (.sub f) (fitted (fun i w => x i w - y i w)))
  ∧ (∀ f d a b r, Computes (.subL9 f d a b r) (fitted (fun i w => x i w - y i w)))
  ∧ (∀ f, Computes (.mullo f) (fitted (fun i w => x i w * y i w)))
  ∧ (∀ d a b r, Computes (.mulloL9 d a b r) (fitted (fun i w => x i w * y i w)))
  ∧ (∀ f, Computes (.mulhi f) (fitted (fun i w => (x i w * y i w) / 2 ^ 32)))
  ∧ (∀ f d a b r, Computes (.mulhiL9 f d a b r) (fitted (fun i w => (x i w * y i w) / 2 ^ 32)))
  ∧ (∀ f, Computes (.min f) (fitted (fun i w => min (x i w) (y i w))))
  ∧ (∀ f d a b r, Computes (.minL9 f d a b r) (fitted (fun i w => min (x i w) (y i w))))
  ∧ (∀ f, Computes (.max f) (fitted (fun i w => max (x i w) (y i w))))
  ∧ (∀ f d a b r, Computes (.maxL9 f d a b r) (fitted (fun i w => max (x i w) (y i w))))
  ∧ (∀ f, Computes (.mad f) (fitted (fun i w => x i w * readInt (intType i.f) (nth w 1 0#32) + readInt (intType i.f) (nth w 2 0#32))))
  ∧ (∀ f, Computes (.abs f) (fitted (fun _ w => Int.ofNat (nth w 0 0#32).toInt.natAbs)))
  ∧ (∀ d a r, Computes (.absL9 d a r) (fitted (fun _ w => Int.ofNat (nth w 0 0#32).toInt.natAbs)))
  ∧ (∀ f, Computes (.neg f) (fitted (fun i w => 0 - x i w)))
  ∧ (∀ f d a r, Computes (.negL9 f d a r) (fitted (fun i w => 0 - x i w)))

/-- In every encoding, wherever AADD or AMAD is ready, the next state is the one in which it has issued: each acting lane gets the 64-bit
base of its pair plus the signed 32-bit offset (AADD) or the exact product of its two 32-bit sources read by type (AMAD), modulo 2^64,
as a pair. -/
def Obligations.AddressArithmeticResults : Prop :=
  (∀ f, Computes (.aadd f) (fun i w => pairWords (pairOf (nth w 0 0#32) (nth w 1 0#32) + BitVec.ofInt 64 (lastWord i w 2).toInt)))
  ∧ (∀ d a b r, Computes (.aaddL9 d a b r) (fun i w => pairWords (pairOf (nth w 0 0#32) (nth w 1 0#32) + BitVec.ofInt 64 (lastWord i w 2).toInt)))
  ∧ (∀ f, Computes (.amad f) (fun i w => pairWords (pairOf (nth w 0 0#32) (nth w 1 0#32)
      + BitVec.ofInt 64 (readInt (intType i.f) (nth w 2 0#32) * readInt (intType i.f) (nth w 3 0#32)))))

/-- In every encoding, wherever one of these instructions is ready, the next state is the one in which it has issued with the spec's result
in each acting lane: the bitwise functions; SHL and SHR with 0, or the sign fill of SHR.S32, for counts of 32 or more; ROT left by the
low five bits of its count. -/
def Obligations.BitwiseAndShiftResults : Prop :=
  let x (w : List Word) : Word := nth w 0 0#32
  let y (i : Iss) (w : List Word) : Word := lastWord i w 1
  (∀ f, Computes (.and f) (fun i w => [x w &&& y i w]))
  ∧ (∀ d a b r, Computes (.andL9 d a b r) (fun i w => [x w &&& y i w]))
  ∧ (∀ f, Computes (.or f) (fun i w => [x w ||| y i w]))
  ∧ (∀ d a b r, Computes (.orL9 d a b r) (fun i w => [x w ||| y i w]))
  ∧ (∀ f, Computes (.xor f) (fun i w => [x w ^^^ y i w]))
  ∧ (∀ d a b r, Computes (.xorL9 d a b r) (fun i w => [x w ^^^ y i w]))
  ∧ (∀ f, Computes (.andn f) (fun i w => [x w &&& ~~~(y i w)]))
  ∧ (∀ d a b r, Computes (.andnL9 d a b r) (fun i w => [x w &&& ~~~(y i w)]))
  ∧ (∀ f, Computes (.not f) (fun _ w => [~~~(x w)]))
  ∧ (∀ d a r, Computes (.notL9 d a r) (fun _ w => [~~~(x w)]))
  ∧ (∀ f, Computes (.shl f) (fun i w => [if 32 ≤ shiftCount i w then 0#32 else x w <<< shiftCount i w]))
  ∧ (∀ d a b r, Computes (.shlL9 d a b r) (fun i w => [if 32 ≤ shiftCount i w then 0#32 else x w <<< shiftCount i w]))
  ∧ (∀ f, Computes (.shr f) (fun i w => [if intType i.f = .s32 then
        (if 32 ≤ shiftCount i w then (if (x w).getLsbD 31 then 0xFFFFFFFF#32 else 0#32) else (x w).sshiftRight (shiftCount i w))
      else if 32 ≤ shiftCount i w then 0#32 else x w >>> shiftCount i w]))
  ∧ (∀ f d a b r, Computes (.shrL9 f d a b r) (fun i w => [if intType i.f = .s32 then
        (if 32 ≤ shiftCount i w then (if (x w).getLsbD 31 then 0xFFFFFFFF#32 else 0#32) else (x w).sshiftRight (shiftCount i w))
      else if 32 ≤ shiftCount i w then 0#32 else x w >>> shiftCount i w]))
  ∧ (∀ f, Computes (.rot f) (fun i w => [(x w <<< ((y i w).toNat % 32)) ||| (x w >>> (32 - (y i w).toNat % 32))]))
  ∧ (∀ d a b r, Computes (.rotL9 d a b r) (fun i w => [(x w <<< ((y i w).toNat % 32)) ||| (x w >>> (32 - (y i w).toNat % 32))]))

/-- In every encoding, wherever one of these instructions is ready, the next state is the one in which it has issued with the spec's result
in each acting lane. BFX gives 0 for a width of 0 and sign-extends for .S32; CLZ and CTZ give 32 for 0. -/
def Obligations.BitFieldResults : Prop :=
  let x (w : List Word) : Word := nth w 0 0#32
  (∀ f, Computes (.bfx f) (fun i w => let c := (lastWord i w 1).toNat
      let p := c % 32
      let n := min (c / 32 % 64) (32 - p)
      let g := (x w).toNat / 2 ^ p % 2 ^ n
      [if n = 0 then 0#32 else if intType i.f = .s32 ∧ 2 ^ (n - 1) ≤ g then BitVec.ofInt 32 ((g : Int) - 2 ^ n) else BitVec.ofNat 32 g]))
  ∧ (∀ f d a b r, Computes (.bfxL9 f d a b r) (fun i w => let c := (lastWord i w 1).toNat
      let p := c % 32
      let n := min (c / 32 % 64) (32 - p)
      let g := (x w).toNat / 2 ^ p % 2 ^ n
      [if n = 0 then 0#32 else if intType i.f = .s32 ∧ 2 ^ (n - 1) ≤ g then BitVec.ofInt 32 ((g : Int) - 2 ^ n) else BitVec.ofNat 32 g]))
  ∧ (∀ f, Computes (.bfi f) (fun _ w => let c := (nth w 2 0#32).toNat
      let p := c % 32
      let n := min (c / 32 % 64) (32 - p)
      let m : Word := BitVec.ofNat 32 ((2 ^ n - 1) * 2 ^ p)
      [(x w &&& ~~~m) ||| ((nth w 1 0#32 <<< p) &&& m)]))
  ∧ (∀ f, Computes (.popc f) (fun _ w => [BitVec.ofNat 32 ((List.range 32).filter (fun j => (x w).getLsbD j)).length]))
  ∧ (∀ d a r, Computes (.popcL9 d a r) (fun _ w => [BitVec.ofNat 32 ((List.range 32).filter (fun j => (x w).getLsbD j)).length]))
  ∧ (∀ f, Computes (.clz f) (fun _ w => [if x w = 0#32 then 32#32 else BitVec.ofNat 32 (31 - Nat.log2 (x w).toNat)]))
  ∧ (∀ d a r, Computes (.clzL9 d a r) (fun _ w => [if x w = 0#32 then 32#32 else BitVec.ofNat 32 (31 - Nat.log2 (x w).toNat)]))
  ∧ (∀ f, Computes (.ctz f) (fun _ w => [BitVec.ofNat 32 (((List.range 32).find? (fun j => (x w).getLsbD j)).getD 32)]))
  ∧ (∀ d a r, Computes (.ctzL9 d a r) (fun _ w => [BitVec.ofNat 32 (((List.range 32).find? (fun j => (x w).getLsbD j)).getD 32)]))
  ∧ (∀ f, Computes (.brev f) (fun _ w => [(x w).reverse]))
  ∧ (∀ d a r, Computes (.brevL9 d a r) (fun _ w => [(x w).reverse]))

/-- In every encoding, wherever one of these instructions is ready, the next state is the one in which it has issued: ICMP gives 1 where the
relation of FN[2:0] holds between its operands, signed under 0x2E and unsigned under 0x2F, and 0 elsewhere; SEL takes its first value
where the predicate is 1; MOV its source; MOVI the sign-extended immediate; MOVH the low 16 bits of its immediate above the low half of
its source. -/
def Obligations.CompareSelectMoveResults : Prop :=
  let cmp (n32 : Bool) (i : Iss) (w : List Word) : List Word :=
    let t : IntType := if n32 then .n32 else .s32
    [BitVec.ofNat 32 (b2n (intRel (i.f.fn.toNat % 8) (readInt t (nth w 0 0#32)) (readInt t (lastWord i w 1))))]
  (∀ n32 f, Computes (.icmp n32 f) (cmp n32))
  ∧ (∀ s c d a b r, Computes (.icmpL9 s c d a b r) (cmp (s == 1#1)))
  ∧ (∀ f, Computes (.sel f) (fun _ w => [if nth w 0 0#32 = 1#32 then nth w 1 0#32 else nth w 2 0#32]))
  ∧ (∀ f, Computes (.mov f) (fun _ w => [nth w 0 0#32]))
  ∧ (∀ d a r, Computes (.movL9 d a r) (fun _ w => [nth w 0 0#32]))
  ∧ (∀ f, Computes (.movi f) (fun i _ => [immWord i.f]))
  ∧ (∀ f, Computes (.movh f) (fun i w => [BitVec.ofNat 32 (immField i.f % 65536 * 65536 + (nth w 0 0#32).toNat % 65536)]))

/-- In every encoding, wherever MOVX is ready and every acting lane names a vector register below the group's allotment (in a folded chain,
below the count of the current stage, whose base it is counted from), and wherever SREG or UMOV is ready, the next state is the one in
which it has issued with the value of the register that it names; SREG gives LANE, GROUP, TEAM, GX, GY, GZ, ROLE or WIDTH. -/
def Obligations.RegisterReadResults : Prop :=
  let base (t : Team) : Nat := match t.folded, t.fold with | true, some fo => nth fo.vbase fo.stage 0 | _, _ => 0
  let count (i : Iss) : Nat := match i.tm.folded, i.tm.fold with | true, some fo => nth fo.vcount fo.stage 0 | _, _ => i.grp.vallot
  (∀ f, Completes (.movx f) (fun i ws => ∀ p ∈ actingWords i ws, (nth p.2 0 0#32).toNat < count i ∧ (nth p.2 0 0#32).toNat + base i.tm < i.grp.vallot)
      (fun i ws => deliver i ((actingWords i ws).map (fun p =>
        (p.1, [sourceValue i.grp i.x i.x.off i.now false ⟨p.1, .v ((nth p.2 0 0#32).toNat + base i.tm)⟩])))))
  ∧ (∀ d a r, Completes (.movxL9 d a r) (fun i ws => ∀ p ∈ actingWords i ws, (nth p.2 0 0#32).toNat < count i ∧ (nth p.2 0 0#32).toNat + base i.tm < i.grp.vallot)
      (fun i ws => deliver i ((actingWords i ws).map (fun p =>
        (p.1, [sourceValue i.grp i.x i.x.off i.now false ⟨p.1, .v ((nth p.2 0 0#32).toNat + base i.tm)⟩])))))
  ∧ (∀ f, Completes (.sreg f) (fun _ _ => True) (fun i _ => deliver i (i.acting.map (fun l => (l, [BitVec.ofNat 32
      (match immField i.f with | 0 => l | 1 => i.grp.num | 2 => i.tm.teamno | 3 => i.tm.gx | 4 => i.tm.gy | 5 => i.tm.gz | 6 => i.grp.role | _ => i.grp.width)])))))
  ∧ (∀ f, Completes (.umov f) (fun _ _ => True) (fun i _ => { writes := [(⟨0, .k (immField i.f / 32 % 32)⟩,
      i.reads 0 0 (.k (immField i.f % 32)))] }))

/-- In every encoding, wherever one of these instructions is ready, the next state is the one in which it has issued: the logic of the
lane's predicates; VOTE.ALL, ANY and EQ over the acting lanes, BALLOT the mask of the acting lanes of the lane's own 32-lane segment;
ELECT 1 in the lowest acting lane and 0 in every other. -/
def Obligations.PredicateAndVoteResults : Prop :=
  let p (w : List Word) (n : Nat) : Bool := nth w n 0#32 == 1#32
  (∀ f, Computes (.pand f) (fun _ w => [BitVec.ofNat 32 (b2n (p w 0 && p w 1))]))
  ∧ (∀ d a b r, Computes (.pandL9 d a b r) (fun _ w => [BitVec.ofNat 32 (b2n (p w 0 && p w 1))]))
  ∧ (∀ f, Computes (.por f) (fun _ w => [BitVec.ofNat 32 (b2n (p w 0 || p w 1))]))
  ∧ (∀ d a b r, Computes (.porL9 d a b r) (fun _ w => [BitVec.ofNat 32 (b2n (p w 0 || p w 1))]))
  ∧ (∀ f, Computes (.pxor f) (fun _ w => [BitVec.ofNat 32 (b2n (p w 0 != p w 1))]))
  ∧ (∀ d a b r, Computes (.pxorL9 d a b r) (fun _ w => [BitVec.ofNat 32 (b2n (p w 0 != p w 1))]))
  ∧ (∀ f, Computes (.pnot f) (fun _ w => [BitVec.ofNat 32 (b2n (!p w 0))]))
  ∧ (∀ d a r, Computes (.pnotL9 d a r) (fun _ w => [BitVec.ofNat 32 (b2n (!p w 0))]))
  ∧ (∀ f, Completes (.elect f) (fun _ _ => True) (fun i _ => deliver i (i.acting.map (fun l => (l, [if i.acting.head? = some l then 1#32 else 0#32])))))
  ∧ (∀ d r, Completes (.electL9 d r) (fun _ _ => True) (fun i _ => deliver i (i.acting.map (fun l => (l, [if i.acting.head? = some l then 1#32 else 0#32])))))
  ∧ (∀ f, Completes (.vote f) (fun _ _ => True) (fun i ws =>
      let holds (l : Nat) : Bool := nth ((tget ws l).getD []) 0 0#32 == 1#32
      let word (l : Nat) : Word := match i.f.fn.toNat % 8 with
        | 0 => BitVec.ofNat 32 (b2n (i.acting.all holds))
        | 1 => BitVec.ofNat 32 (b2n (i.acting.any holds))
        | 2 => BitVec.ofNat 32 ((i.acting.filter (fun j => j / 32 == l / 32 && holds j)).map (fun j => 2 ^ (j % 32))).sum
        | _ => BitVec.ofNat 32 (b2n (i.acting.all (fun j => nth ((tget ws j).getD []) 0 0#32 == nth ((tget ws (i.acting.headD 0)).getD []) 0 0#32)))
      deliver i (i.acting.map (fun l => (l, [word l])))))
  ∧ (∀ f d a r, Completes (.voteL9 f d a r) (fun _ _ => True) (fun i ws =>
      let holds (l : Nat) : Bool := nth ((tget ws l).getD []) 0 0#32 == 1#32
      let word (l : Nat) : Word := match i.f.fn.toNat % 8 with
        | 0 => BitVec.ofNat 32 (b2n (i.acting.all holds))
        | 1 => BitVec.ofNat 32 (b2n (i.acting.any holds))
        | 2 => BitVec.ofNat 32 ((i.acting.filter (fun j => j / 32 == l / 32 && holds j)).map (fun j => 2 ^ (j % 32))).sum
        | _ => BitVec.ofNat 32 (b2n (i.acting.all (fun j => nth ((tget ws j).getD []) 0 0#32 == nth ((tget ws (i.acting.headD 0)).getD []) 0 0#32)))
      deliver i (i.acting.map (fun l => (l, [word l])))))

/-- In every encoding, wherever one of these instructions is ready, the next state is the one in which it has issued: READLANE the value of
the lane that the leading lane names modulo WIDTH, 0 where that lane is absent; SHFL another lane's value where it is in range and
present, else the lane's own; FRED the sum of the acting lanes over the fixed tree; FAMAX the largest magnitude of the acting lanes'
elements. -/
def Obligations.CrossLaneResults : Prop :=
  (∀ f, Completes (.readlane f) (fun _ _ => True) (fun i ws =>
      let m := if i.scalar then i.here.headD 0 else i.acting.headD 0
      let j := (lastWord i ((tget ws m).getD []) (match i.o.sa with | .none => 0 | _ => 1)).toNat % i.grp.width
      deliver i (i.acting.map (fun l => (l, [if i.here.contains j then nth ((tget ws j).getD []) 0 0#32 else 0#32])))))
  ∧ (∀ d a b r, Completes (.readlaneL9 d a b r) (fun _ _ => True) (fun i ws =>
      let m := if i.scalar then i.here.headD 0 else i.acting.headD 0
      let j := (lastWord i ((tget ws m).getD []) (match i.o.sa with | .none => 0 | _ => 1)).toNat % i.grp.width
      deliver i (i.acting.map (fun l => (l, [if i.here.contains j then nth ((tget ws j).getD []) 0 0#32 else 0#32])))))
  ∧ (∀ f, Completes (.shfl f) (fun _ _ => True) (fun i ws =>
      let own (l : Nat) : Word := nth ((tget ws l).getD []) 0 0#32
      let word (l : Nat) : Word :=
        let b := (lastWord i ((tget ws l).getD []) 1).toNat
        let k := i.f.fn.toNat % 8
        let j : Int := if k = 0 then (b : Int) else if k = 1 then (l : Int) - b else if k = 2 then (l : Int) + b else ((l ^^^ b : Nat) : Int)
        if 0 ≤ j ∧ j < i.grp.width ∧ i.here.contains j.toNat = true then own j.toNat else own l
      deliver i (i.acting.map (fun l => (l, [word l])))))
  ∧ (∀ f d a b r, Completes (.shflL9 f d a b r) (fun _ _ => True) (fun i ws =>
      let own (l : Nat) : Word := nth ((tget ws l).getD []) 0 0#32
      let word (l : Nat) : Word :=
        let b := (lastWord i ((tget ws l).getD []) 1).toNat
        let k := i.f.fn.toNat % 8
        let j : Int := if k = 0 then (b : Int) else if k = 1 then (l : Int) - b else if k = 2 then (l : Int) + b else ((l ^^^ b : Nat) : Int)
        if 0 ≤ j ∧ j < i.grp.width ∧ i.here.contains j.toNat = true then own j.toNat else own l
      deliver i (i.acting.map (fun l => (l, [word l])))))
  ∧ (∀ f, Completes (.fred f) (fun _ _ => True) (fun i ws =>
      let v := fredSum ((upto i.grp.width).map (fun l => if i.acting.contains l then some (nth ((tget ws l).getD []) 0 0#32).toNat else none))
      deliver i (i.acting.map (fun l => (l, [BitVec.ofNat 32 v])))))
  ∧ (∀ d a r, Completes (.fredL9 d a r) (fun _ _ => True) (fun i ws =>
      let v := fredSum ((upto i.grp.width).map (fun l => if i.acting.contains l then some (nth ((tget ws l).getD []) 0 0#32).toNat else none))
      deliver i (i.acting.map (fun l => (l, [BitVec.ofNat 32 v])))))
  ∧ (∀ f, Completes (.famax f) (fun _ _ => True) (fun i ws =>
      let m := (i.acting.flatMap (fun l => elementsOf (i.f.fn.toNat % 8) (nth ((tget ws l).getD []) 0 0#32))).foldl Val.absMax (.fin false 0 0)
      deliver i (i.acting.map (fun l => (l, [BitVec.ofNat 32 (f32.rne m)])))))
  ∧ (∀ f d a r, Completes (.famaxL9 f d a r) (fun _ _ => True) (fun i ws =>
      let m := (i.acting.flatMap (fun l => elementsOf (i.f.fn.toNat % 8) (nth ((tget ws l).getD []) 0 0#32))).foldl Val.absMax (.fin false 0 0)
      deliver i (i.acting.map (fun l => (l, [BitVec.ofNat 32 (f32.rne m)])))))

/-- In every encoding, wherever one of these instructions is ready, the next state is the one in which it has issued: every element of the
sources is decoded, the result computed exactly (FMA without rounding the product) and rounded once to the type, nearest even; both
halves of a packed type; FCMP gives the relation of its code as a predicate. -/
def Obligations.FloatArithmeticResults : Prop :=
  let v (f : FloatFormat) (xs : List Nat) (k : Nat) : Val := f.decode (nth xs k 0)
  let rounded (n : Nat) (h : FloatFormat → List Nat → Nat) (i : Iss) (w : List Word) : List Word :=
    [onElements (i.f.fn.toNat % 8) h (floatSources i w n)]
  (∀ f, Computes (.fadd f) (rounded 2 (fun f xs => f.rne ((v f xs 0).add (v f xs 1)))))
  ∧ (∀ f d a b r, Computes (.faddL9 f d a b r) (rounded 2 (fun f xs => f.rne ((v f xs 0).add (v f xs 1)))))
  ∧ (∀ f, Computes (.fsub f) (rounded 2 (fun f xs => f.rne ((v f xs 0).add (v f xs 1).neg))))
  ∧ (∀ f d a b r, Computes (.fsubL9 f d a b r) (rounded 2 (fun f xs => f.rne ((v f xs 0).add (v f xs 1).neg))))
  ∧ (∀ f, Computes (.fmul f) (rounded 2 (fun f xs => f.rne ((v f xs 0).mul (v f xs 1)))))
  ∧ (∀ f d a b r, Computes (.fmulL9 f d a b r) (rounded 2 (fun f xs => f.rne ((v f xs 0).mul (v f xs 1)))))
  ∧ (∀ f, Computes (.fma f) (rounded 3 (fun f xs => f.rne (((v f xs 0).mul (v f xs 1)).add (v f xs 2)))))
  ∧ (∀ f, Computes (.fmin f) (rounded 2 (fun f xs => f.pickOf false (nth xs 0 0) (nth xs 1 0))))
  ∧ (∀ f d a b r, Computes (.fminL9 f d a b r) (rounded 2 (fun f xs => f.pickOf false (nth xs 0 0) (nth xs 1 0))))
  ∧ (∀ f, Computes (.fmax f) (rounded 2 (fun f xs => f.pickOf true (nth xs 0 0) (nth xs 1 0))))
  ∧ (∀ f d a b r, Computes (.fmaxL9 f d a b r) (rounded 2 (fun f xs => f.pickOf true (nth xs 0 0) (nth xs 1 0))))
  ∧ (∀ f, Computes (.fcmp f) (fun i w => let xs := (floatSources i w 2).map (·.toNat)
      [BitVec.ofNat 32 (b2n (floatRel (i.f.fn.toNat % 8) (v f32 xs 0) (v f32 xs 1)))]))
  ∧ (∀ c d a b r, Computes (.fcmpL9 c d a b r) (fun i w => let xs := (floatSources i w 2).map (·.toNat)
      [BitVec.ofNat 32 (b2n (floatRel (i.f.fn.toNat % 8) (v f32 xs 0) (v f32 xs 1)))]))

/-- In every encoding, wherever one of these instructions is ready to issue, the next state is the one in which it has issued, each acting
lane holding f of its own F32 source, where f obeys R208: the special inputs; NaN for a NaN, and of FRSQ, FSQRT and FLOG2 below zero;
FRCP and FSQRT correctly rounded (no tie occurs, so the error is at most half an ulp, and beyond the range FRCP gives an infinity); FRSQ
within 1 ulp of the real number; FEXP2 infinite from 128, zero to -150, exact at an integer between; FLOG2 exact at a power of two;
FTANH, FERF and FSIN odd and FCOS even bit for bit at every finite input; those four never above 1 in magnitude; elsewhere FEXP2 within
1 ulp, FLOG2 within 1 ulp or 2^-24, the other four within 2 ulps or 2^-24, of the function. Which admissible result is given, the
evaluation that the last bounds are measured from (pinned here at known values to 40 decimals), and the slack of 2^-140, or 2^-100 for
FRSQ, are the choice of the model (log 9, DESIGN CHOICE). -/
def Obligations.UnaryFloatResults : Prop :=
  let f (op : Nat) (w : Word) : Word := BitVec.ofNat 32 (unaryFloat op w.toNat)
  let u (op : Nat) (_ : Iss) (w : List Word) : List Word := [f op (nth w 0 0#32)]
  let d (w : Word) : Val := f32.decode w.toNat
  let q (v : Val) : ℝ := match v with | .fin n m e => (if n then -1 else 1) * (m : ℝ) * (2 : ℝ) ^ e | _ => 0
  let finite (w : Word) : Prop := ∃ n m e, d w = .fin n m e
  let ulp (y : ℝ) : ℝ := if |y| < (2 : ℝ) ^ (-126 : ℤ) then (2 : ℝ) ^ (-149 : ℤ) else (2 : ℝ) ^ (Int.log 2 |y| - 23)
  let near (w : Word) (y b : ℝ) : Prop := finite w ∧ |q (d w) - y| ≤ b
  let floored (op : Nat) : Prop := op = 0x4C ∨ op = 0x4D ∨ op = 0x4E ∨ op = 0x4F
  let bound (op : Nat) (y : ℝ) : ℝ := (1 + (2 : ℝ) ^ (-140 : ℤ)) * (if op = 0x4A then ulp y else if op = 0x4B then max (ulp y) ((2 : ℝ) ^ (-24 : ℤ))
    else max (2 * ulp y) ((2 : ℝ) ^ (-24 : ℤ)))
  let pinned (v : Val) (x : Int) : Prop := match v with
    | .fin n m e => ((if n then -1 else 1) * m * 10 ^ 40 * 2 ^ (e + 400).toNat - x * 2 ^ 400 : Int).natAbs ≤ 2 ^ 400
    | _ => False
  (∀ f, Computes (.frcp f) (u 0x47))
  ∧ (∀ d a r, Computes (.frcpL9 d a r) (u 0x47))
  ∧ (∀ f, Computes (.frsq f) (u 0x48))
  ∧ (∀ d a r, Computes (.frsqL9 d a r) (u 0x48))
  ∧ (∀ f, Computes (.fsqrt f) (u 0x49))
  ∧ (∀ d a r, Computes (.fsqrtL9 d a r) (u 0x49))
  ∧ (∀ f, Computes (.fexp2 f) (u 0x4A))
  ∧ (∀ d a r, Computes (.fexp2L9 d a r) (u 0x4A))
  ∧ (∀ f, Computes (.flog2 f) (u 0x4B))
  ∧ (∀ d a r, Computes (.flog2L9 d a r) (u 0x4B))
  ∧ (∀ f, Computes (.ftanh f) (u 0x4C))
  ∧ (∀ d a r, Computes (.ftanhL9 d a r) (u 0x4C))
  ∧ (∀ f, Computes (.ferf f) (u 0x4D))
  ∧ (∀ d a r, Computes (.ferfL9 d a r) (u 0x4D))
  ∧ (∀ f, Computes (.fsin f) (u 0x4E))
  ∧ (∀ d a r, Computes (.fsinL9 d a r) (u 0x4E))
  ∧ (∀ f, Computes (.fcos f) (u 0x4F))
  ∧ (∀ d a r, Computes (.fcosL9 d a r) (u 0x4F))
  ∧ (∀ op a r, (op, a, r) ∈ ([(0x47, 0, 0x7F800000), (0x47, 0x80000000, 0xFF800000), (0x47, 0x7F800000, 0), (0x47, 0xFF800000, 0x80000000),
      (0x48, 0, 0x7F800000), (0x48, 0x80000000, 0xFF800000), (0x48, 0x7F800000, 0), (0x48, 0xFF800000, 0x7FC00000),
      (0x49, 0, 0), (0x49, 0x80000000, 0x80000000), (0x49, 0x7F800000, 0x7F800000), (0x49, 0xFF800000, 0x7FC00000),
      (0x4A, 0, 0x3F800000), (0x4A, 0x80000000, 0x3F800000), (0x4A, 0x7F800000, 0x7F800000), (0x4A, 0xFF800000, 0),
      (0x4B, 0, 0xFF800000), (0x4B, 0x80000000, 0xFF800000), (0x4B, 0x7F800000, 0x7F800000), (0x4B, 0xFF800000, 0x7FC00000), (0x4B, 0x3F800000, 0),
      (0x4C, 0, 0), (0x4C, 0x80000000, 0x80000000), (0x4C, 0x7F800000, 0x3F800000), (0x4C, 0xFF800000, 0xBF800000),
      (0x4D, 0, 0), (0x4D, 0x80000000, 0x80000000), (0x4D, 0x7F800000, 0x3F800000), (0x4D, 0xFF800000, 0xBF800000),
      (0x4E, 0, 0), (0x4E, 0x80000000, 0x80000000), (0x4E, 0x7F800000, 0x7FC00000), (0x4E, 0xFF800000, 0x7FC00000),
      (0x4F, 0, 0x3F800000), (0x4F, 0x80000000, 0x3F800000), (0x4F, 0x7F800000, 0x7FC00000), (0x4F, 0xFF800000, 0x7FC00000)] : List (Nat × Word × Word))
    → f op a = r)
  ∧ (∀ op w, d w = .nan → f op w = 0x7FC00000#32)
  ∧ (∀ op w m e, op = 0x48 ∨ op = 0x49 ∨ op = 0x4B → d w = .fin true m e → m ≠ 0 → f op w = 0x7FC00000#32)
  ∧ (∀ w n m e, d w = .fin n m e → m ≠ 0 → |1 / q (d w)| < (2 : ℝ) ^ (128 : ℤ) - (2 : ℝ) ^ (103 : ℤ) → near (f 0x47 w) (1 / q (d w)) (ulp (1 / q (d w)) / 2))
  ∧ (∀ w n m e, d w = .fin n m e → m ≠ 0 → (2 : ℝ) ^ (128 : ℤ) - (2 : ℝ) ^ (103 : ℤ) ≤ |1 / q (d w)| → d (f 0x47 w) = .inf n)
  ∧ (∀ w m e, d w = .fin false m e → m ≠ 0 → near (f 0x49 w) (Real.sqrt (q (d w))) (ulp (Real.sqrt (q (d w))) / 2))
  ∧ (∀ w m e, d w = .fin false m e → m ≠ 0 → near (f 0x48 w) (1 / Real.sqrt (q (d w))) ((1 + (2 : ℝ) ^ (-100 : ℤ)) * ulp (1 / Real.sqrt (q (d w)))))
  ∧ (∀ w, finite w → 128 ≤ q (d w) → f 0x4A w = 0x7F800000#32)
  ∧ (∀ w, finite w → q (d w) ≤ -150 → f 0x4A w = 0#32)
  ∧ (∀ w (k : Int), finite w → q (d w) = k → -149 ≤ k → k < 128 → near (f 0x4A w) ((2 : ℝ) ^ k) 0)
  ∧ (∀ w (k : Int), finite w → q (d w) = (2 : ℝ) ^ k → near (f 0x4B w) k 0)
  ∧ (∀ op w, op = 0x4C ∨ op = 0x4D ∨ op = 0x4E → finite w → f op (w ^^^ 0x80000000#32) = f op w ^^^ 0x80000000#32)
  ∧ (∀ w, finite w → f 0x4F (w ^^^ 0x80000000#32) = f 0x4F w)
  ∧ (∀ op w, floored op → finite w → finite (f op w) ∧ |q (d (f op w))| ≤ 1)
  ∧ (∀ w n m e, d w = .fin n m e → m ≠ 0 → -150 < q (d w) → q (d w) < 128 → (∀ k : Int, q (d w) ≠ k) →
    let y := q (trueValue 0x4A m n e)
    |y| < (2 : ℝ) ^ (128 : ℤ) - (2 : ℝ) ^ (103 : ℤ) → near (f 0x4A w) y (bound 0x4A y))
  ∧ (∀ w m e, d w = .fin false m e → m ≠ 0 → (∀ k : Int, q (d w) ≠ (2 : ℝ) ^ k) →
    let y := q (trueValue 0x4B m false e)
    |y| < (2 : ℝ) ^ (128 : ℤ) - (2 : ℝ) ^ (103 : ℤ) → near (f 0x4B w) y (bound 0x4B y))
  ∧ (∀ op w m e, floored op → d w = .fin false m e → m ≠ 0 →
    let y := q (trueValue op m false e)
    near (f op w) y (bound op y))
  ∧ (∀ op m n e x, (op, m, n, e, x) ∈ ([(0x4A, 1, false, -1, 14142135623730950488016887242096980785696), (0x4A, 1, true, -1, 7071067811865475244008443621048490392848), (0x4B, 3, false, 0, 15849625007211561814537389439478165087598),
      (0x4C, 1, false, 0, 7615941559557648881194582826047935904127), (0x4D, 1, false, 0, 8427007929497148693412206350826092592960), (0x4E, 1, false, 0, 8414709848078965066525023216302989996225), (0x4F, 1, false, 0, 5403023058681397174009366074429766037323),
      (0x4E, 25, false, 2, -5063656411097587936565576104597854320651), (0x4F, 25, false, 2, 8623188722876839341019385139508425355100)] : List (Nat × Nat × Bool × Int × Int)) → pinned (trueValue op m n e) x)

/-- In every encoding, wherever one of these instructions is ready, the next state is the one in which it has issued: the source scaled by a
power of two, rounded to an integer, its fraction, its SC8 scale, packed or unpacked, or converted between formats under its scale,
rounding mode and overflow choice; a stochastic rounding of a nonzero finite value steps the lane's state once. -/
def Obligations.ConversionResults : Prop :=
  let x (w : List Word) : Nat := (nth w 0 0#32).toNat
  (∀ f, Computes (.ldexp f) (fun i w => [BitVec.ofNat 32 (f32.rne ((f32.decode (x w)).scale (max (-512) (min 512 (lastWord i w 1).toInt))))]))
  ∧ (∀ d a b r, Computes (.ldexpL9 d a b r) (fun i w => [BitVec.ofNat 32 (f32.rne ((f32.decode (x w)).scale (max (-512) (min 512 (lastWord i w 1).toInt))))]))
  ∧ (∀ f, Computes (.frnd f) (fun i w => [BitVec.ofNat 32 (f32.rne (toInteger (modeOf (i.f.fn.toNat % 8)) (f32.decode (x w))))]))
  ∧ (∀ m d a r, Computes (.frndL9 m d a r) (fun i w => [BitVec.ofNat 32 (f32.rne (toInteger (modeOf (i.f.fn.toNat % 8)) (f32.decode (x w))))]))
  ∧ (∀ f, Computes (.frac f) (fun _ w => [BitVec.ofNat 32 (f32.rne (fractionOf (f32.decode (x w))))]))
  ∧ (∀ d a r, Computes (.fracL9 d a r) (fun _ w => [BitVec.ofNat 32 (f32.rne (fractionOf (f32.decode (x w))))]))
  ∧ (∀ f, Computes (.scale f) (fun i w => [BitVec.ofNat 32 (scaleFor (i.f.fn.toNat % 8) (x w))]))
  ∧ (∀ f d a r, Computes (.scaleL9 f d a r) (fun i w => [BitVec.ofNat 32 (scaleFor (i.f.fn.toNat % 8) (x w))]))
  ∧ (∀ f, Computes (.packw f) (fun i w =>
      let (n, p) : Nat × Nat := match i.f.fn.toNat % 8 with | 0 => (3, 10) | 1 => (4, 8) | _ => (6, 5)
      let v : Int := max (-2 ^ (n - 1)) (min (2 ^ (n - 1) - 1) (nth w 1 0#32).toInt)
      [BitVec.ofNat 32 (x w % 2 ^ (n * p) / 2 ^ n + (v % 2 ^ n).toNat * 2 ^ (n * (p - 1)))]))
  ∧ (∀ f d a b r, Computes (.packwL9 f d a b r) (fun i w =>
      let (n, p) : Nat × Nat := match i.f.fn.toNat % 8 with | 0 => (3, 10) | 1 => (4, 8) | _ => (6, 5)
      let v : Int := max (-2 ^ (n - 1)) (min (2 ^ (n - 1) - 1) (nth w 1 0#32).toInt)
      [BitVec.ofNat 32 (x w % 2 ^ (n * p) / 2 ^ n + (v % 2 ^ n).toNat * 2 ^ (n * (p - 1)))]))
  ∧ (∀ f, Computes (.unpkw f) (fun i w =>
      let (n, p) : Nat × Nat := match i.f.fn.toNat % 8 with | 0 => (3, 10) | 1 => (4, 8) | _ => (6, 5)
      let k := (nth w 1 0#32).toNat
      [if p ≤ k then 0#32 else (BitVec.ofNat n (x w / 2 ^ (n * k))).signExtend 32]))
  ∧ (∀ f d a b r, Computes (.unpkwL9 f d a b r) (fun i w =>
      let (n, p) : Nat × Nat := match i.f.fn.toNat % 8 with | 0 => (3, 10) | 1 => (4, 8) | _ => (6, 5)
      let k := (nth w 1 0#32).toNat
      [if p ≤ k then 0#32 else (BitVec.ofNat n (x w / 2 ^ (n * k))).signExtend 32]))
  ∧ (∀ f, Completes (.cvt f) (fun _ _ => True) (fun i ws =>
      let c := ctrlField i.f
      let sf := (convFormat (c % 16)).getD (.float f32)
      let df := (convFormat (c / 16 % 16)).getD (.float f32)
      let ovf : Overflow := match c / 256 with | 1 => .saturate | 2 => .toNan | _ => .default
      let mode := modeOf (i.f.fn.toNat % 8)
      let val (w : List Word) : Val := convValue (c % 16) sf (nth w 0 0#32) (match i.o.sb with | .none => none | _ => some (nth w 1 0#32))
      let draws (w : List Word) : Bool := decide (mode = .sr) && (val w).nonzeroFinite
      let word (l : Nat) (w : List Word) : Word := fillElement df (
        if c % 16 = c / 16 % 16 ∧ val w ≠ .nan then (nth w 0 0#32).toNat % 2 ^ df.width
        else if c % 16 = c / 16 % 16 then df.encode .rne .default 0 (val w)
        else df.encode mode ovf (if draws w then srBits (srStep (srState i l)) else 0) (val w))
      let r := deliver i ((actingWords i ws).map (fun p => (p.1, [word p.1 p.2])))
      { r with writes := r.writes ++ (actingWords i ws).flatMap (fun p => if draws p.2 then [(⟨p.1, .sr⟩, srStep (srState i p.1))] else []) }))

/-- In every encoding, wherever LD, LDX or LDF is ready, the tile may be read (its mask code is 1 or more, it is defined and not for
atomics), every acting lane's access lies within it and is aligned, and nothing it reads is poisoned (for LDF, the format is valid and
the element's word is well formed), the next state is the one in which it has issued: each acting lane gets the bytes at its offset, or
the exact element rounded to F32 or to BF16, under the lane's own earlier stores of the trace. -/
def Obligations.LoadResults : Prop :=
  let rd (i : Iss) : Prop := 1 ≤ maskCode i.x.mask (i.tile i.o.sa).1 ∧ (i.tile i.o.sa).2.state ≠ .undef ∧ (i.tile i.o.sa).2.atomic = false
  let size (i : Iss) : Nat := accessSize (i.f.fn.toNat % 8)
  let many (i : Iss) : Nat := if i.f.fn.toNat % 8 = 1 then 2 else 1
  (∀ f, Completes (.ld f) (fun i ws => actingWords i ws ≠ [] → rd i ∧ ∀ p ∈ actingWords i ws,
        (lastWord i p.2 0).toNat * 1 + size i ≤ (i.tile i.o.sa).2.bytes ∧ (lastWord i p.2 0).toNat * 1 % size i = 0
        ∧ i.s.poisonAt (sliceKey i.g.core ((i.tile i.o.sa).2.start + (lastWord i p.2 0).toNat * 1)) (size i) = none)
      (fun i ws => if actingWords i ws = [] then {} else deliver i ((actingWords i ws).map (fun p => (p.1, loadWords (i.f.fn.toNat % 8)
        (ofBytesLE (i.view p.1 ((i.tile i.o.sa).2.start + (lastWord i p.2 0).toNat * 1) (size i))))))))
  ∧ (∀ f d a b r, Completes (.ldL9 f d a b r) (fun i ws => actingWords i ws ≠ [] → rd i ∧ ∀ p ∈ actingWords i ws,
        (lastWord i p.2 0).toNat * 1 + size i ≤ (i.tile i.o.sa).2.bytes ∧ (lastWord i p.2 0).toNat * 1 % size i = 0
        ∧ i.s.poisonAt (sliceKey i.g.core ((i.tile i.o.sa).2.start + (lastWord i p.2 0).toNat * 1)) (size i) = none)
      (fun i ws => if actingWords i ws = [] then {} else deliver i ((actingWords i ws).map (fun p => (p.1, loadWords (i.f.fn.toNat % 8)
        (ofBytesLE (i.view p.1 ((i.tile i.o.sa).2.start + (lastWord i p.2 0).toNat * 1) (size i))))))))
  ∧ (∀ f, Completes (.ldx f) (fun i ws => actingWords i ws ≠ [] → rd i ∧ ∀ p ∈ actingWords i ws,
        (lastWord i p.2 0).toNat * accessSize (i.f.fn.toNat % 8) + size i ≤ (i.tile i.o.sa).2.bytes ∧ (lastWord i p.2 0).toNat * accessSize (i.f.fn.toNat % 8) % size i = 0
        ∧ i.s.poisonAt (sliceKey i.g.core ((i.tile i.o.sa).2.start + (lastWord i p.2 0).toNat * accessSize (i.f.fn.toNat % 8))) (size i) = none)
      (fun i ws => if actingWords i ws = [] then {} else deliver i ((actingWords i ws).map (fun p => (p.1, loadWords (i.f.fn.toNat % 8)
        (ofBytesLE (i.view p.1 ((i.tile i.o.sa).2.start + (lastWord i p.2 0).toNat * accessSize (i.f.fn.toNat % 8)) (size i))))))))
  ∧ (∀ f d a b r, Completes (.ldxL9 f d a b r) (fun i ws => actingWords i ws ≠ [] → rd i ∧ ∀ p ∈ actingWords i ws,
        (lastWord i p.2 0).toNat * accessSize (i.f.fn.toNat % 8) + size i ≤ (i.tile i.o.sa).2.bytes ∧ (lastWord i p.2 0).toNat * accessSize (i.f.fn.toNat % 8) % size i = 0
        ∧ i.s.poisonAt (sliceKey i.g.core ((i.tile i.o.sa).2.start + (lastWord i p.2 0).toNat * accessSize (i.f.fn.toNat % 8))) (size i) = none)
      (fun i ws => if actingWords i ws = [] then {} else deliver i ((actingWords i ws).map (fun p => (p.1, loadWords (i.f.fn.toNat % 8)
        (ofBytesLE (i.view p.1 ((i.tile i.o.sa).2.start + (lastWord i p.2 0).toNat * accessSize (i.f.fn.toNat % 8)) (size i))))))))
  ∧ (∀ f, Completes (.ldf f) (fun i ws => actingWords i ws ≠ [] → rd i ∧ (i.tile i.o.sa).2.fmt ≠ 0#5 ∧ formatFault (i.tile i.o.sa).2.fmt.toNat (i.tile i.o.sa).2.geom.toNat = none
        ∧ ∀ p ∈ actingWords i ws, (lastWord i p.2 0).toNat + many i ≤ (i.tile i.o.sa).2.nelem ∧ (lastWord i p.2 0).toNat % many i = 0
          ∧ ∀ k, k < many i → (let r := readElement i p.1 (i.tile i.o.sa).2 ((lastWord i p.2 0).toNat + k)
              spareSet (i.tile i.o.sa).2.fmt.toNat r.1 r.2.1 = false)
            ∧ ∀ w ∈ elementWords (i.tile i.o.sa).2 ((lastWord i p.2 0).toNat + k), i.s.poisonAt (sliceKey i.g.core (8 * w)) 8 = none)
      (fun i ws => if actingWords i ws = [] then {} else deliver i ((actingWords i ws).map (fun p =>
        let e (k : Nat) : Val := (readElement i p.1 (i.tile i.o.sa).2 ((lastWord i p.2 0).toNat + k)).2.2
        (p.1, [BitVec.ofNat 32 (if many i = 2 then bf16.rne (e 0) + 65536 * bf16.rne (e 1) else f32.rne (e 0))])))))
  ∧ (∀ f d a b r, Completes (.ldfL9 f d a b r) (fun i ws => actingWords i ws ≠ [] → rd i ∧ (i.tile i.o.sa).2.fmt ≠ 0#5 ∧ formatFault (i.tile i.o.sa).2.fmt.toNat (i.tile i.o.sa).2.geom.toNat = none
        ∧ ∀ p ∈ actingWords i ws, (lastWord i p.2 0).toNat + many i ≤ (i.tile i.o.sa).2.nelem ∧ (lastWord i p.2 0).toNat % many i = 0
          ∧ ∀ k, k < many i → (let r := readElement i p.1 (i.tile i.o.sa).2 ((lastWord i p.2 0).toNat + k)
              spareSet (i.tile i.o.sa).2.fmt.toNat r.1 r.2.1 = false)
            ∧ ∀ w ∈ elementWords (i.tile i.o.sa).2 ((lastWord i p.2 0).toNat + k), i.s.poisonAt (sliceKey i.g.core (8 * w)) 8 = none)
      (fun i ws => if actingWords i ws = [] then {} else deliver i ((actingWords i ws).map (fun p =>
        let e (k : Nat) : Val := (readElement i p.1 (i.tile i.o.sa).2 ((lastWord i p.2 0).toNat + k)).2.2
        (p.1, [BitVec.ofNat 32 (if many i = 2 then bf16.rne (e 0) + 65536 * bf16.rne (e 1) else f32.rne (e 0))])))))

/-- In every encoding, wherever ST or STF is ready, the tile may be written (mask code 2 or more, defined, not for atomics), and every
acting lane's access lies within it and is aligned (for STF, the format is valid and the element exists), the next state is the one in
which it has issued: for each acting lane one store is buffered, of the value's bytes at the tile's start plus the offset (STF: the
element's 128-bit word under the mask of its bits), and memory is as before until the commit. -/
def Obligations.StoreEffects : Prop :=
  let wr (i : Iss) : Prop := 2 ≤ maskCode i.x.mask (i.tile i.o.sa).1 ∧ (i.tile i.o.sa).2.state ≠ .undef ∧ (i.tile i.o.sa).2.atomic = false
  (∀ f, Completes (.st f) (fun i ws => actingWords i ws ≠ [] → wr i ∧ ∀ p ∈ actingWords i ws, (lastWord i p.2 0).toNat + accessSize (i.f.fn.toNat % 8) ≤ (i.tile i.o.sa).2.bytes
          ∧ (lastWord i p.2 0).toNat % accessSize (i.f.fn.toNat % 8) = 0)
      (fun i ws => { effs := (actingWords i ws).map (fun p =>
        let size := accessSize (i.f.fn.toNat % 8)
        let v (k : Nat) : Nat := (nth p.2 (if immForm i.r i.f then k else k + 1) 0#32).toNat
        .store p.1 (storeTile i (i.tile i.o.sa).1) ((i.tile i.o.sa).2.start + (lastWord i p.2 0).toNat) (toBytesLE size (v 0 + v 1 * 2 ^ 32))
          (List.replicate size 255#8)) }))
  ∧ (∀ f d a b r, Completes (.stL9 f d a b r) (fun i ws => actingWords i ws ≠ [] → wr i ∧ ∀ p ∈ actingWords i ws, (lastWord i p.2 0).toNat + accessSize (i.f.fn.toNat % 8) ≤ (i.tile i.o.sa).2.bytes
          ∧ (lastWord i p.2 0).toNat % accessSize (i.f.fn.toNat % 8) = 0)
      (fun i ws => { effs := (actingWords i ws).map (fun p =>
        let size := accessSize (i.f.fn.toNat % 8)
        let v (k : Nat) : Nat := (nth p.2 (if immForm i.r i.f then k else k + 1) 0#32).toNat
        .store p.1 (storeTile i (i.tile i.o.sa).1) ((i.tile i.o.sa).2.start + (lastWord i p.2 0).toNat) (toBytesLE size (v 0 + v 1 * 2 ^ 32))
          (List.replicate size 255#8)) }))
  ∧ (∀ f, Completes (.stf f) (fun i ws => actingWords i ws ≠ [] → wr i ∧ (i.tile i.o.sa).2.fmt ≠ 0#5 ∧ formatFault (i.tile i.o.sa).2.fmt.toNat (i.tile i.o.sa).2.geom.toNat = none
        ∧ ∀ p ∈ actingWords i ws, (lastWord i p.2 0).toNat < (i.tile i.o.sa).2.nelem)
      (fun i ws =>
        let t := (i.tile i.o.sa).2
        let fmt := t.fmt.toNat
        let mode := modeOf (i.f.fn.toNat % 8)
        let at_ (p : Nat × List Word) : ElementAt := elementAt fmt t.geom.toNat (lastWord i p.2 0).toNat
        let byte (p : Nat × List Word) (k : Nat) : Int := ((nth (i.view p.1 (t.start + k) 1) 0 0#8).toNat : Int)
        let val (p : Nat × List Word) : Val :=
          let x := f32.decode (nth p.2 (if immForm i.r i.f then 0 else 1) 0#32).toNat
          if (at_ p).nscale = 0 then x else if (i.view p.1 (t.start + (at_ p).block) (at_ p).nscale).contains 255#8 then .nan
          else x.scale (254 - byte p (at_ p).row - byte p (at_ p).col)
        let draws (p : Nat × List Word) : Bool := decide (mode = .sr) && (val p).nonzeroFinite
        let bits_ (p : Nat × List Word) : Nat × Nat := elementStore fmt (at_ p) (((fmtFormat fmt).getD (.float f32)).encode mode .default
          (if draws p then srBits (srStep (srState i p.1)) else 0) (val p))
        { effs := (actingWords i ws).map (fun p =>
            .store p.1 (storeTile i (i.tile i.o.sa).1) (t.start + (at_ p).word) (toBytesLE 16 (bits_ p).1) (toBytesLE 16 (bits_ p).2)),
          writes := (actingWords i ws).flatMap (fun p => if draws p then [(⟨p.1, .sr⟩, srStep (srState i p.1))] else []) }))
  ∧ (∀ m d a b r, Completes (.stfL9 m d a b r) (fun i ws => actingWords i ws ≠ [] → wr i ∧ (i.tile i.o.sa).2.fmt ≠ 0#5 ∧ formatFault (i.tile i.o.sa).2.fmt.toNat (i.tile i.o.sa).2.geom.toNat = none
        ∧ ∀ p ∈ actingWords i ws, (lastWord i p.2 0).toNat < (i.tile i.o.sa).2.nelem)
      (fun i ws =>
        let t := (i.tile i.o.sa).2
        let fmt := t.fmt.toNat
        let mode := modeOf (i.f.fn.toNat % 8)
        let at_ (p : Nat × List Word) : ElementAt := elementAt fmt t.geom.toNat (lastWord i p.2 0).toNat
        let byte (p : Nat × List Word) (k : Nat) : Int := ((nth (i.view p.1 (t.start + k) 1) 0 0#8).toNat : Int)
        let val (p : Nat × List Word) : Val :=
          let x := f32.decode (nth p.2 (if immForm i.r i.f then 0 else 1) 0#32).toNat
          if (at_ p).nscale = 0 then x else if (i.view p.1 (t.start + (at_ p).block) (at_ p).nscale).contains 255#8 then .nan
          else x.scale (254 - byte p (at_ p).row - byte p (at_ p).col)
        let draws (p : Nat × List Word) : Bool := decide (mode = .sr) && (val p).nonzeroFinite
        let bits_ (p : Nat × List Word) : Nat × Nat := elementStore fmt (at_ p) (((fmtFormat fmt).getD (.float f32)).encode mode .default
          (if draws p then srBits (srStep (srState i p.1)) else 0) (val p))
        { effs := (actingWords i ws).map (fun p =>
            .store p.1 (storeTile i (i.tile i.o.sa).1) (t.start + (at_ p).word) (toBytesLE 16 (bits_ p).1) (toBytesLE 16 (bits_ p).2)),
          writes := (actingWords i ws).flatMap (fun p => if draws p then [(⟨p.1, .sr⟩, srStep (srState i p.1))] else []) }))

/-- In every encoding, wherever one of these instructions is ready and its checks hold, the next state is the one in which it has issued:
where a lane acts, the one effect on the tile that it names is buffered for the commit; where none acts, nothing is. TSTAT gives a word
of the descriptor as it stood at the trace head. -/
def Obligations.TileInstructionEffects : Prop :=
  let lead (i : Iss) (ws : Table (List Word)) (n : Nat) : Nat := (nth (leadWords i ws) n 0#32).toNat
  (∀ f, Buffers (.tdef f) (fun i ws => i.acting ≠ [] → i.tm.isQueueTile (dstTile i) = false ∧ allSame i ws = true
        ∧ tdefValid i.teamAtHead (dstTile i) (lead i ws 0) (lead i ws 1) = true
        ∧ (i.teamSoFar.tile (dstTile i)).state ≠ .filling ∧ (i.teamSoFar.tile (dstTile i)).state ≠ .draining)
      (fun i ws => .tdef (dstTile i) (lead i ws 0) (lead i ws 1)))
  ∧ (∀ d a b r, Buffers (.tdefL9 d a b r) (fun i ws => i.acting ≠ [] → i.tm.isQueueTile (dstTile i) = false ∧ allSame i ws = true
        ∧ tdefValid i.teamAtHead (dstTile i) (lead i ws 0) (lead i ws 1) = true
        ∧ (i.teamSoFar.tile (dstTile i)).state ≠ .filling ∧ (i.teamSoFar.tile (dstTile i)).state ≠ .draining)
      (fun i ws => .tdef (dstTile i) (lead i ws 0) (lead i ws 1)))
  ∧ (∀ f, Buffers (.trel f) (fun i _ => i.acting ≠ [] → i.tm.isQueueTile (dstTile i) = false) (fun i _ => .trel (dstTile i)))
  ∧ (∀ d r, Buffers (.trelL9 d r) (fun i _ => i.acting ≠ [] → i.tm.isQueueTile (dstTile i) = false) (fun i _ => .trel (dstTile i)))
  ∧ (∀ f, Buffers (.tpost f) (fun i _ => i.acting ≠ [] → i.tm.isQueueTile (dstTile i) = false ∧ (groupTile i.tm i.grp (dstTile i)).state = .ready) (fun i _ => .tpost (dstTile i)))
  ∧ (∀ d r, Buffers (.tpostL9 d r) (fun i _ => i.acting ≠ [] → i.tm.isQueueTile (dstTile i) = false ∧ (groupTile i.tm i.grp (dstTile i)).state = .ready) (fun i _ => .tpost (dstTile i)))
  ∧ (∀ f, Buffers (.treclaim f) (fun _ _ => True) (fun i _ => .treclaim (dstTile i)))
  ∧ (∀ d r, Buffers (.treclaimL9 d r) (fun _ _ => True) (fun i _ => .treclaim (dstTile i)))
  ∧ (∀ f, Completes (.tstat f) (fun _ _ => True) (fun i _ =>
      let t := (i.tile i.o.sa).1
      let d := if i.grp.hm = true ∧ t = 63 then (i.tile i.o.sa).2 else (tget i.x.view.tiles t).getD {}
      deliver i (i.acting.map (fun l => (l, [BitVec.ofNat 32 (d.word / 2 ^ (32 * (immField i.f % 4)))])))))

/-- In every encoding, wherever ATOM, ATOMR or CAS is ready and every acting lane names a space that holds atomics, an address in range and
aligned, the next state is the one in which it has issued: each acting lane's atomic is buffered with its operation, type, scope, order,
address and values. PHASE, KEYSET and ICINV buffer one effect of the lanes that act; KEYGET gives the register as the trace's own writes
leave it. -/
def Obligations.AtomicAndKeyEffects : Prop :=
  let ok (i : Iss) (ws : Table (List Word)) : Prop := ∀ p ∈ actingWords i ws,
    let a := atomicOf i p.2
    ((a.space = 0 ∧ a.addr < 2 ^ 49) ∨ (a.space = 2 ∧ i.s.sliceRange a.addr = false)) ∧ a.addr % (if a.typ = 3 then 8 else 4) = 0
  (∀ f, Completes (.atom f) ok (fun i ws => { effs := (actingWords i ws).map (fun p => .atom p.1 (atomicOf i p.2)) }))
  ∧ (∀ f, Completes (.atomr f) ok (fun i ws => { effs := (actingWords i ws).map (fun p => .atom p.1 (atomicOf i p.2)) }))
  ∧ (∀ f, Completes (.cas f) ok (fun i ws => { effs := (actingWords i ws).map (fun p => .atom p.1 (atomicOf i p.2)) }))
  ∧ (∀ f, Buffers (.phase f) (fun _ _ => True) (fun i _ => .phase (i.f.fn.toNat % 8)))
  ∧ (∀ s r, Buffers (.phaseL9 s r) (fun _ _ => True) (fun i _ => .phase (i.f.fn.toNat % 8)))
  ∧ (∀ f, Buffers (.keyset f) (fun _ _ => True) (fun i ws => .keyset (pairOf (nth (leadWords i ws) 0 0#32) (nth (leadWords i ws) 1 0#32)).toNat))
  ∧ (∀ a r, Buffers (.keysetL9 a r) (fun _ _ => True) (fun i ws => .keyset (pairOf (nth (leadWords i ws) 0 0#32) (nth (leadWords i ws) 1 0#32)).toNat))
  ∧ (∀ f, Completes (.keyget f) (fun _ _ => True) (fun i _ => deliver i (i.acting.map (fun l => (l, [BitVec.ofNat 32 (i.csr 9), BitVec.ofNat 32 (i.csr 9 / 2 ^ 32)])))))
  ∧ (∀ d r, Completes (.keygetL9 d r) (fun _ _ => True) (fun i _ => deliver i (i.acting.map (fun l => (l, [BitVec.ofNat 32 (i.csr 9), BitVec.ofNat 32 (i.csr 9 / 2 ^ 32)])))))
  ∧ (∀ f, Buffers (.icinv f) (fun i ws => i.acting ≠ [] → (pairOf (nth (leadWords i ws) 0 0#32) (nth (leadWords i ws) 1 0#32)).toNat < 2 ^ 49)
      (fun i ws => .icinv (pairOf (nth (leadWords i ws) 0 0#32) (nth (leadWords i ws) 1 0#32)).toNat (nth (leadWords i ws) 2 0#32).toNat))
  ∧ (∀ a b r, Buffers (.icinvL9 a b r) (fun i ws => i.acting ≠ [] → (pairOf (nth (leadWords i ws) 0 0#32) (nth (leadWords i ws) 1 0#32)).toNat < 2 ^ 49)
      (fun i ws => .icinv (pairOf (nth (leadWords i ws) 0 0#32) (nth (leadWords i ws) 1 0#32)).toNat (nth (leadWords i ws) 2 0#32).toNat))

/-- In every encoding, wherever a barrier instruction is ready, it is the trace's first arrival and its count fits 8 bits (BAR.INIT: is not
0), and wherever GET or PUT is ready and its registers suit the channel's item size, and wherever CHSTAT is ready, the next state is the
one in which it has issued: an arrival or an initial count is buffered; GET delivers the item popped to consecutive registers; PUT
buffers an item of consecutive registers, of which a tile-handle channel keeps 6 bits; CHSTAT gives the channel's word as of the trace
head. -/
def Obligations.BarrierAndChannelEffects : Prop :=
  (∀ f, Buffers (.barArrive f) (fun i ws => i.x.cameBefore i.f.enc [0xC0, 0xC1] = false ∧ (i.acting ≠ [] → barCount i ws < 256)) (fun i ws => .barArrive (dstBar i) (barCount i ws)))
  ∧ (∀ d a r, Buffers (.barArriveL9 d a r) (fun i ws => i.x.cameBefore i.f.enc [0xC0, 0xC1] = false ∧ (i.acting ≠ [] → barCount i ws < 256)) (fun i ws => .barArrive (dstBar i) (barCount i ws)))
  ∧ (∀ f, Buffers (.barSync f) (fun i ws => i.x.cameBefore i.f.enc [0xC0, 0xC1] = false ∧ (i.acting ≠ [] → barCount i ws < 256)) (fun i ws => .barSync (dstBar i) (barCount i ws)))
  ∧ (∀ d a r, Buffers (.barSyncL9 d a r) (fun i ws => i.x.cameBefore i.f.enc [0xC0, 0xC1] = false ∧ (i.acting ≠ [] → barCount i ws < 256)) (fun i ws => .barSync (dstBar i) (barCount i ws)))
  ∧ (∀ f, Buffers (.barInit f) (fun i ws => i.acting ≠ [] → 0 < barCount i ws ∧ barCount i ws < 256) (fun i ws => .barInit (dstBar i) (barCount i ws)))
  ∧ (∀ d a r, Buffers (.barInitL9 d a r) (fun i ws => i.acting ≠ [] → 0 < barCount i ws ∧ barCount i ws < 256) (fun i ws => .barInit (dstBar i) (barCount i ws)))
  ∧ (∀ f, Completes (.get f) (fun i _ => ∃ q b r, i.o.sa = .chan q b ∧ i.o.dst = .reg r ∧ moveCheck i r (moveRegs i q) = none)
      (fun i ws => match i.o.sa, i.o.dst with
        | .chan q _, .reg r => { writes := (actingWords i ws).flatMap (fun p => (upto (itemBytes (i.tm.chan q).size / 4)).map (fun j => (placeOf p.1 (r.next j), nth p.2 j 0#32))) }
        | _, _ => {}))
  ∧ (∀ f, Completes (.put f) (fun i _ => ∃ q b r, i.o.dst = .chan q b ∧ i.o.sa = .reg r ∧ moveCheck i r (moveRegs i q) = none)
      (fun i ws => match i.o.dst, i.o.sa with
        | .chan q _, .reg r =>
          let item (p : Nat × List Word) : Nat := ((upto (itemBytes (i.tm.chan q).size / 4)).map (fun j =>
            (if j = 0 then nth p.2 0 0#32 else i.reads p.1 (8 + j) (r.next j)).toNat * 2 ^ (32 * j))).sum
          { effs := [.put q ((actingWords i ws).map (fun p => (p.1, if (i.tm.chan q).size = 3 then item p % 64 else item p)))] }
        | _, _ => {}))
  ∧ (∀ f, Completes (.chstat f) (fun _ _ => True) (fun i _ => deliver i (i.acting.map (fun l => (l, [BitVec.ofNat 32 (nth i.x.view.chans (immField i.f % 16) 0)])))))

/-- In every encoding, wherever JOB is ready, its tile may be read, its card lies within it at a multiple of 64 bytes and not poisoned, the
card is valid and its tiles may be used, and wherever JOBQ or JCANCEL is ready, the next state is the one in which it has issued: where
a lane acts, the issue of the card that the leading lane sees, the query or the cancellation is buffered for the commit. -/
def Obligations.JobInstructionEffects : Prop :=
  let rd (i : Iss) : Prop := 1 ≤ maskCode i.x.mask (i.tile i.o.sa).1 ∧ (i.tile i.o.sa).2.state ≠ .undef ∧ (i.tile i.o.sa).2.atomic = false
  let lead (i : Iss) (ws : Table (List Word)) (n : Nat) : Nat := (nth (leadWords i ws) n 0#32).toNat
  let card (i : Iss) (ws : Table (List Word)) : List Byte := i.view (i.acting.headD 0) ((i.tile i.o.sa).2.start + lead i ws 0) 64
  (∀ f, Buffers (.job f) (fun i ws => i.acting ≠ [] → rd i ∧ (lead i ws 0) % 64 = 0 ∧ lead i ws 0 + 64 ≤ (i.tile i.o.sa).2.bytes
        ∧ i.s.poisonAt (sliceKey i.g.core ((i.tile i.o.sa).2.start + lead i ws 0)) 64 = none
        ∧ cardFault i.s i.g.core i.teamSoFar (cardOf (card i ws)) = none ∧ cardTiles i i.teamSoFar (cardOf (card i ws)) = none)
      (fun i ws => .job (card i ws) (dstReg i)))
  ∧ (∀ d a b r, Buffers (.jobL9 d a b r) (fun i ws => i.acting ≠ [] → rd i ∧ (lead i ws 0) % 64 = 0 ∧ lead i ws 0 + 64 ≤ (i.tile i.o.sa).2.bytes
        ∧ i.s.poisonAt (sliceKey i.g.core ((i.tile i.o.sa).2.start + lead i ws 0)) 64 = none
        ∧ cardFault i.s i.g.core i.teamSoFar (cardOf (card i ws)) = none ∧ cardTiles i i.teamSoFar (cardOf (card i ws)) = none)
      (fun i ws => .job (card i ws) (dstReg i)))
  ∧ (∀ f, Buffers (.jobq f) (fun _ _ => True) (fun i ws => .jobq (lead i ws 0) (dstReg i)))
  ∧ (∀ d a r, Buffers (.jobqL9 d a r) (fun _ _ => True) (fun i ws => .jobq (lead i ws 0) (dstReg i)))
  ∧ (∀ f, Buffers (.jcancel f) (fun _ _ => True) (fun i ws => .jcancel (lead i ws 0)))
  ∧ (∀ a r, Buffers (.jcancelL9 a r) (fun _ _ => True) (fun i ws => .jcancel (lead i ws 0)))

/-- In every encoding, wherever one of these instructions is ready on a DCORE and its checks hold, the next state is the one in which it has
issued: MXGO names the tile and offset of a chain, at most one a trace; MXSTOP asks the sequencer to stop; MXSTAT gives its word as of
the trace head; ACCRD the accumulator element under the lane's own earlier writes; ACCWR buffers the write of the word that the tile
holds at four times the element. -/
def Obligations.MatrixInstructionEffects : Prop :=
  let rd (i : Iss) : Prop := 1 ≤ maskCode i.x.mask (i.tile i.o.sa).1 ∧ (i.tile i.o.sa).2.state ≠ .undef ∧ (i.tile i.o.sa).2.atomic = false
  let lead (i : Iss) (ws : Table (List Word)) : Nat := (nth (leadWords i ws) 0 0#32).toNat
  (∀ f, Buffers (.mxgo f) (fun i ws => isLcore i.g.core = false ∧ i.x.cameBefore i.f.enc [0xD3] = false
        ∧ (i.acting ≠ [] → rd i ∧ lead i ws % 16 = 0 ∧ lead i ws + 16 ≤ (i.tile i.o.sa).2.bytes))
      (fun i ws => .mxgo (i.tile i.o.sa).1 (lead i ws)))
  ∧ (∀ f, Buffers (.mxstop f) (fun i _ => isLcore i.g.core = false) (fun _ _ => .mxstop))
  ∧ (∀ f, Completes (.mxstat f) (fun i _ => isLcore i.g.core = false) (fun i _ => deliver i (i.acting.map (fun l => (l, [BitVec.ofNat 32 i.x.view.mxstat])))))
  ∧ (∀ f, Completes (.accrd f) (fun i ws => ∀ p ∈ actingWords i ws, (lastWord i p.2 0).toNat < 16384 ∧ i.tm.accHit (accOf i.o.sa) (4 * (lastWord i p.2 0).toNat) 4 = none)
      (fun i ws => deliver i ((actingWords i ws).map (fun p => (p.1, [i.x.buf.foldl (fun w b => match b.eff with
        | .accwr l a e v => if l = i.viewer p.1 ∧ a = accOf i.o.sa ∧ e = (lastWord i p.2 0).toNat then v else w
        | _ => w) (sget ((tget i.x.view.acc (accOf i.o.sa)).getD []) (lastWord i p.2 0).toNat)])))))
  ∧ (∀ f, Completes (.accwr f) (fun i ws => actingWords i ws ≠ [] → rd i ∧ ∀ p ∈ actingWords i ws, (lastWord i p.2 0).toNat < 16384 ∧ 4 * (lastWord i p.2 0).toNat + 4 ≤ (i.tile i.o.sa).2.bytes
        ∧ i.s.poisonAt (sliceKey i.g.core ((i.tile i.o.sa).2.start + 4 * (lastWord i p.2 0).toNat)) 4 = none)
      (fun i ws => { effs := (actingWords i ws).map (fun p => .accwr p.1 (accOf i.o.dst) (lastWord i p.2 0).toNat
        (BitVec.ofNat 32 (ofBytesLE (i.view p.1 ((i.tile i.o.sa).2.start + 4 * (lastWord i p.2 0).toNat) 4)))) }))

/-- In every encoding, wherever one of these instructions is ready and every acting lane passes its checks (TASKADD: a tile of the team that
holds the record at a multiple of 64 bytes, and a queue that exists; TASKDONE: the group holds a record; the others: a queue name whose
upper bits are zero), the next state is the one in which it has issued: where a lane acts, the effect with each acting lane's operands
is buffered for the commit. -/
def Obligations.TaskInstructionEffects : Prop :=
  let w (p : Nat × List Word) (n : Nat) : Nat := (nth p.2 n 0#32).toNat
  let name (p : Nat × List Word) : Nat := (pairOf (nth p.2 0 0#32) (nth p.2 1 0#32)).toNat
  (∀ f, Buffers (.taskadd f) (fun i ws => ∀ p ∈ actingWords i ws, w p 1 < 64 ∧ w p 2 < 16 ∧ (w p 1 < i.tm.tileAllot ∨ (i.grp.hm = true ∧ w p 1 = 63))
        ∧ (groupTile i.tm i.grp (w p 1)).state ≠ .undef ∧ (groupTile i.tm i.grp (w p 1)).atomic = false ∧ 1 ≤ maskCode i.x.mask (w p 1)
        ∧ w p 0 % 64 = 0 ∧ w p 0 + 64 ≤ (groupTile i.tm i.grp (w p 1)).bytes ∧ (tget i.tm.queues (w p 2)).isSome = true)
      (fun i ws => .taskadd ((actingWords i ws).map (fun p => (p.1, w p 1, w p 0, w p 2)))))
  ∧ (∀ a b r, Buffers (.taskaddL9 a b r) (fun i ws => ∀ p ∈ actingWords i ws, w p 1 < 64 ∧ w p 2 < 16 ∧ (w p 1 < i.tm.tileAllot ∨ (i.grp.hm = true ∧ w p 1 = 63))
        ∧ (groupTile i.tm i.grp (w p 1)).state ≠ .undef ∧ (groupTile i.tm i.grp (w p 1)).atomic = false ∧ 1 ≤ maskCode i.x.mask (w p 1)
        ∧ w p 0 % 64 = 0 ∧ w p 0 + 64 ≤ (groupTile i.tm i.grp (w p 1)).bytes ∧ (tget i.tm.queues (w p 2)).isSome = true)
      (fun i ws => .taskadd ((actingWords i ws).map (fun p => (p.1, w p 1, w p 0, w p 2)))))
  ∧ (∀ f, Buffers (.taskdone f) (fun i _ => i.acting ≠ [] → i.grp.task.isSome = true ∧ (i.grp.taskAccepted || i.x.gotTask) = true ∧ i.x.groupEffs.contains .taskdone = false)
      (fun _ _ => .taskdone))
  ∧ (∀ r, Buffers (.taskdoneL9 r) (fun i _ => i.acting ≠ [] → i.grp.task.isSome = true ∧ (i.grp.taskAccepted || i.x.gotTask) = true ∧ i.x.groupEffs.contains .taskdone = false)
      (fun _ _ => .taskdone))
  ∧ (∀ f, Buffers (.qtail f) (fun i ws => ∀ p ∈ actingWords i ws, name p < 2 ^ 39)
      (fun i ws => .qtail ((actingWords i ws).map (fun p => (p.1, name p, w p 2)))))
  ∧ (∀ a b r, Buffers (.qtailL9 a b r) (fun i ws => ∀ p ∈ actingWords i ws, name p < 2 ^ 39)
      (fun i ws => .qtail ((actingWords i ws).map (fun p => (p.1, name p, w p 2)))))
  ∧ (∀ f, Buffers (.qroom f) (fun i ws => ∀ p ∈ actingWords i ws, name p < 2 ^ 39)
      (fun i ws => .qroom ((actingWords i ws).map (fun p => (p.1, name p))) (dstReg i)))
  ∧ (∀ d a r, Buffers (.qroomL9 d a r) (fun i ws => ∀ p ∈ actingWords i ws, name p < 2 ^ 39)
      (fun i ws => .qroom ((actingWords i ws).map (fun p => (p.1, name p))) (dstReg i)))
  ∧ (∀ f, Buffers (.wake f) (fun i ws => ∀ p ∈ actingWords i ws, name p < 2 ^ 40)
      (fun i ws => .wake ((actingWords i ws).map (fun p => (p.1, name p)))))
  ∧ (∀ a r, Buffers (.wakeL9 a r) (fun i ws => ∀ p ∈ actingWords i ws, name p < 2 ^ 40)
      (fun i ws => .wake ((actingWords i ws).map (fun p => (p.1, name p)))))

/-- In every encoding, wherever CSRR is ready, the next state is the one in which it has issued with the low or high word of the register
that IMM[7:0] names, as the trace's own writes leave it; wherever CSRW to TSTAT, SRSEED, MODE, KEYPERM, TRAPBASE (with its upper trace
bits zero), MIGPOL, GANGWAIT (in the privileged slot) or BRK0 to BRK3 is ready, the next state is the one in which it has issued with
the leading lane's write buffered, where a lane acts. -/
def Obligations.ControlRegisterEffects : Prop :=
  let n (i : Iss) : Nat := immField i.f % 256
  let v (i : Iss) (ws : Table (List Word)) : Nat := (nth (leadWords i ws) 0 0#32).toNat
  (∀ f, Completes (.csrr f) (fun _ _ => True) (fun i _ => deliver i (i.acting.map (fun l => (l, [BitVec.ofNat 32
      (i.csr (immField i.f % 256) / (if bit (immField i.f) 8 = true then 2 ^ 32 else 1))])))))
  ∧ (∀ f, Buffers (.csrwTstat f) (fun i _ => n i = 0) (fun i ws => .csrw (n i) (bit (immField i.f) 8) (v i ws)))
  ∧ (∀ f, Buffers (.csrwSrseed f) (fun i _ => n i = 0x0C) (fun i ws => .csrw (n i) (bit (immField i.f) 8) (v i ws)))
  ∧ (∀ f, Buffers (.csrwMode f) (fun i _ => n i = 2) (fun i ws => .csrw (n i) (bit (immField i.f) 8) (v i ws)))
  ∧ (∀ f, Buffers (.csrwKeyperm f) (fun i _ => n i = 9) (fun i ws => .csrw (n i) (bit (immField i.f) 8) (v i ws)))
  ∧ (∀ f, Buffers (.csrwTrapbase f) (fun i ws => n i = 0x0A ∧ (i.acting ≠ [] → bit (immField i.f) 8 = false → v i ws < 2 ^ 17)) (fun i ws => .csrw (n i) (bit (immField i.f) 8) (v i ws)))
  ∧ (∀ f, Buffers (.csrwMigpol f) (fun i _ => n i = 0x0D) (fun i ws => .csrw (n i) (bit (immField i.f) 8) (v i ws)))
  ∧ (∀ f, Buffers (.csrwGangwait f) (fun i _ => n i = 0x0F ∧ (i.acting ≠ [] → i.grp.priv = true)) (fun i ws => .csrw (n i) (bit (immField i.f) 8) (v i ws)))
  ∧ (∀ f, Buffers (.csrwBrk f) (fun i _ => (0x10 ≤ n i ∧ n i ≤ 0x13)) (fun i ws => .csrw (n i) (bit (immField i.f) 8) (v i ws)))

/-- In every encoding, wherever RETT or RETT.ABORT is ready in handler mode, CONTAIN.OPEN with no region open, CONTAIN.CLOSE with one open,
CHAIN.FOLD or CHAIN.SPREAD in a chain stage, and HALT, EPQ or NOP anywhere, the next state is the one in which it has issued: the
return, the region, the halt or the fold is buffered where a lane acts; EPQ gives its word as of the trace head; NOP does nothing. -/
def Obligations.SystemInstructionEffects : Prop :=
  let hm (i : Iss) (_ : Table (List Word)) : Prop := i.acting ≠ [] → i.grp.hm = true
  let ref (i : Iss) : Option TRef := if immForm i.r i.f then some { i.x.tr with idx := immField i.f % 2 ^ 17 } else none
  (∀ f, Buffers (.rett f) hm (fun i _ => .rett false (ref i)))
  ∧ (∀ r, Buffers (.rettL9 r) hm (fun i _ => .rett false (ref i)))
  ∧ (∀ f, Buffers (.rettAbort f) hm (fun i _ => .rett true (ref i)))
  ∧ (∀ r, Buffers (.rettAbortL9 r) hm (fun i _ => .rett true (ref i)))
  ∧ (∀ f, Buffers (.containOpen f) (fun i _ => i.acting ≠ [] → i.regionOpen = false) (fun i _ => .containOpen (immField i.f % 2 ^ 17)))
  ∧ (∀ f, Buffers (.containClose f) (fun i _ => i.acting ≠ [] → i.regionOpen = true) (fun _ _ => .containClose))
  ∧ (∀ r, Buffers (.containCloseL9 r) (fun i _ => i.acting ≠ [] → i.regionOpen = true) (fun _ _ => .containClose))
  ∧ (∀ f, Buffers (.halt f) (fun _ _ => True) (fun _ _ => .halt))
  ∧ (∀ r, Buffers (.haltL9 r) (fun _ _ => True) (fun _ _ => .halt))
  ∧ (∀ f, Completes (.epq f) (fun _ _ => True) (fun i _ => deliver i (i.acting.map (fun l => (l, [BitVec.ofNat 32 i.x.view.epq])))))
  ∧ (∀ d r, Completes (.epqL9 d r) (fun _ _ => True) (fun i _ => deliver i (i.acting.map (fun l => (l, [BitVec.ofNat 32 i.x.view.epq])))))
  ∧ (∀ f, Buffers (.chainFold f) (fun i _ => i.acting ≠ [] → i.tm.stages ≠ []) (fun _ _ => .chainFold))
  ∧ (∀ r, Buffers (.chainFoldL9 r) (fun i _ => i.acting ≠ [] → i.tm.stages ≠ []) (fun _ _ => .chainFold))
  ∧ (∀ f, Buffers (.chainSpread f) (fun i _ => i.acting ≠ [] → i.tm.stages ≠ []) (fun _ _ => .chainSpread))
  ∧ (∀ r, Buffers (.chainSpreadL9 r) (fun i _ => i.acting ≠ [] → i.tm.stages ≠ []) (fun _ _ => .chainSpread))
  ∧ (∀ f, Completes (.nop f) (fun _ _ => True) (fun _ _ => {}))
  ∧ (∀ r, Completes (.nopL9 r) (fun _ _ => True) (fun _ _ => {}))

/-- Wherever GUARD or ABORT is ready, the next state is one in which the lanes that leave are pending at the trace of the immediate in the
same kernel, held by nothing; the execution goes on with the other lanes, or is gone where none stays; no register and no byte of memory
changes. -/
def Obligations.GuardAndAbortLeave : Prop :=
  (∀ f, Leaves (.guard f) (fun i => i.here.filter (fun l => !i.acting.contains l)))
  ∧ (∀ f, Leaves (.abortTrace f) (fun i => i.acting))

/-- In every encoding, wherever a terminator is ready (END.IND: its bind-table calls have zero reserved bits; MIGRATE: its first trace is an
EP), the next state is that of the commit of the execution, each lane going to the trace, or the entry of the bind table, that the
instruction names for it, or retiring; MIGRATE asks for a migration with its two traces and its kind of core. That an END.IND whose
value names another object goes to kernel 0 of it, and that handle 0 is the executing object, is the model's reading (log 20, DEDUCED). -/
def Obligations.TerminatorsCommit : Prop :=
  let tr (i : Iss) (n : Nat) : TRef := { i.x.tr with idx := n }
  let val (ws : Table (List Word)) (l : Nat) : Nat := (pairOf (nth ((tget ws l).getD []) 0 0#32) (nth ((tget ws l).getD []) 1 0#32)).toNat
  (∀ f, Ends (.endTrace f) (fun _ _ => True) (fun i _ _ => .trace (tr i (immField i.f % 2 ^ 17))) (fun _ => none))
  ∧ (∀ f, Ends (.endSel f) (fun _ _ => True) (fun i _ l => .trace (tr i (if i.acting.contains l = true then immField i.f % 2 ^ 17 else secondRef i.f))) (fun _ => none))
  ∧ (∀ f, Ends (.endInd f) (fun i ws => ∀ l ∈ i.acting, bit (val ws l) 63 = true → bits (val ws l) 62 32 = 0)
      (fun i ws l => if bit (val ws l) 63 = true then .bindTable (bits (val ws l) 31 0)
        else if bits (val ws l) 62 32 = 0 ∨ bits (val ws l) 62 32 = i.x.tr.handle then .trace (tr i (bits (val ws l) 31 0))
        else .trace ⟨bits (val ws l) 62 32, 0, bits (val ws l) 31 0⟩) (fun _ => none))
  ∧ (∀ a r, Ends (.endIndL9 a r) (fun i ws => ∀ l ∈ i.acting, bit (val ws l) 63 = true → bits (val ws l) 62 32 = 0)
      (fun i ws l => if bit (val ws l) 63 = true then .bindTable (bits (val ws l) 31 0)
        else if bits (val ws l) 62 32 = 0 ∨ bits (val ws l) 62 32 = i.x.tr.handle then .trace (tr i (bits (val ws l) 31 0))
        else .trace ⟨bits (val ws l) 62 32, 0, bits (val ws l) 31 0⟩) (fun _ => none))
  ∧ (∀ f, Ends (.retire f) (fun _ _ => True) (fun _ _ _ => .retire) (fun _ => none))
  ∧ (∀ r, Ends (.retireL9 r) (fun _ _ => True) (fun _ _ _ => .retire) (fun _ => none))
  ∧ (∀ f, Ends (.migrate f) (fun i _ => ∃ e, i.s.trace? i.tm.ctx (tr i (immField i.f % 2 ^ 17)) = some e ∧ e.ep = true)
      (fun i _ _ => .trace (tr i (immField i.f % 2 ^ 17)))
      (fun i => some (tr i (immField i.f % 2 ^ 17), tr i (secondRef i.f), i.f.fn.toNat % 8 == 1)))

/-- Wherever TRAP is ready and some lane acts, the next state is the one in which the group has taken the trap of cause 64 plus n, FLANES
the acting lanes and INFO0 n, skipping the instruction on return; where no lane acts it completes with no effect. -/
def Obligations.TrapTakesItsException : Prop :=
  (∀ f, TakesTrap (.trap f) (fun i _ => i.acting ≠ []) (fun i => ⟨64 + immField i.f % 16, i.acting, immField i.f % 16, 0⟩))
  ∧ (∀ f, Completes (.trap f) (fun i _ => i.acting = []) (fun _ _ => {}))

/-- Where a group may run and a ready lane of it is pending at a trace that it has not fetched, and its lines are obtained and its header is
well formed, TRACE_FETCH puts the trace into the group's buffer; TRACE_DISPATCH of a group that chooses a start starts it: every lane
ready there stands in a new execution at the header's trace, and no register of theirs changes; SCHED_MIGRATE parks a group for the kind
that the scheduler names; PRIORITY_AGING raises the class of a group that waits, up to 3 above; REQUEUE_RELEASE makes pending every lane
whose cause has cleared and leaves the others held; REQUEUE_TIMER and BIND_RETRY_TIMER make the lane that they name pending and leave
the others, REQUEUE_TIMER also one of a stage whose continuations are banked; BIND_NOTIFY takes the waits on an entry out of every die
and makes their lanes pending. -/
def Obligations.TraceAndHoldEvents : Prop :=
  (∀ s tm grp, s.team? s.subject.g.core s.subject.g.slot = some tm → s.group? s.subject.g = some grp → s.mayRun s.subject.g tm grp = true → grp.pending s.subject.t ≠ [] → grp.buffer s.subject.t = none → s.traceExists tm.ctx s.subject.t = true →
    let e := s.traceEnc s.subject.g.core tm.ctx s.subject.t
    ∀ h ws u, s.fetchLines e s.subject.g.core (asks 0 (s.subject.g.slot * 16 + s.subject.g.grp) 0) tm.ctx (s.traceVa tm.ctx e s.subject.t) 32 [] none = (.ok h ws, u) →
    h.malformed e = false → ∃ t, exec .traceFetch s = .next t ∧ t.mem = u.mem
      ∧ ∀ x, u.group? s.subject.g = some x → ∃ y, t.group? s.subject.g = some y ∧ y.buffer s.subject.t = some ⟨s.subject.t, h, ws⟩ ∧ { y with buffers := x.buffers } = x)
  ∧ (∀ s tm grp, s.team? s.subject.g.core s.subject.g.slot = some tm → s.group? s.subject.g = some grp → s.mayRun s.subject.g tm grp = true → grp.exec = none → grp.haltAsked = false → (∀ l ∈ grp.ready, (grp.lane l).bindCall = none) → tm.folded = false → tm.fold = none →
    (∀ t b, grp.buffer t = some b → b.hdr.head ≠ 4) → ∀ b, s.choose s.subject.g tm grp = .start b 0 →
    ∃ t y x, exec .traceDispatch s = .next t ∧ t.group? s.subject.g = some y ∧ y.exec = some x ∧ x.tr = b.tr ∧ x.hdr = b.hdr ∧ x.words = b.words
      ∧ x.started = grp.pending b.tr ∧ x.here = grp.pending b.tr ∧ x.off = 0 ∧ x.issued = [] ∧ x.buf = [] ∧ x.run = 0 ∧ x.closing = false
      ∧ y.lanes = grp.lanes ∧ y.regs = grp.regs ∧ y.preds = grp.preds ∧ y.sr = grp.sr ∧ (b.hdr.head ≠ 3 → y.uregs = grp.uregs ∧ t.mem = s.mem))
  ∧ (∀ s tm grp, s.team? s.subject.g.core s.subject.g.slot = some tm → s.group? s.subject.g = some grp → s.mayRun s.subject.g tm grp = true → ∀ t lcore, s.choose s.subject.g tm grp = .migrate t lcore →
    ∃ t' y, exec .schedMigrate s = .next t' ∧ t'.group? s.subject.g = some y ∧ y = { grp with park := some ⟨t, t, lcore, (s.core s.subject.g.core).cycles⟩ }
      ∧ t'.mem = s.mem)
  ∧ (∀ s grp, s.group? s.subject.g = some grp → (∃ x, grp.exec = some x ∧ x.run = 0 ∧ x.closing = false) ∨ (grp.exec = none ∧ grp.candidates ≠ []) →
    ∃ t y, exec .priorityAging s = .next t ∧ t.group? s.subject.g = some y ∧ y = { grp with waited := min 3 (grp.waited + 1) } ∧ t.mem = s.mem)
  ∧ (∀ s tm grp, s.team? s.subject.g.core s.subject.g.slot = some tm → s.group? s.subject.g = some grp → tm.fold = none → grp.halt = .none → ∃ t y, exec .requeueRelease s = .next t ∧ t.group? s.subject.g = some y ∧ t.mem = s.mem ∧ y.regs = grp.regs
      ∧ y.exec = grp.exec ∧ ∀ l, l < grp.lanes.length → y.lane l = match (grp.lane l).held with
        | some h => if s.cleared s.subject.g tm l h = true then (grp.lane l).release (s.core s.subject.g.core).cycles else grp.lane l
        | none => grp.lane l)
  ∧ (∀ s grp h, s.group? s.subject.g = some grp → s.inBank s.subject.g s.subject.b = false → s.subject.a < grp.lanes.length → grp.halt = .none →
    (grp.lane s.subject.a).held = some h → h.cause = 3 ∨ h.cause = 7 →
    ∃ t y, exec .requeueTimer s = .next t ∧ t.group? s.subject.g = some y ∧ t.mem = s.mem ∧ y.regs = grp.regs
      ∧ ∀ l, y.lane l = if l = s.subject.a then (grp.lane l).release (s.core s.subject.g.core).cycles else grp.lane l)
  ∧ (∀ s tm grp, s.team? s.subject.g.core s.subject.g.slot = some tm → s.group? s.subject.g = some grp → ∀ fo l h, tm.fold = some fo → s.inBank s.subject.g s.subject.b = true → grp.halt = .none → tget fo.cont (s.subject.b * 128 + s.subject.a) = some l →
    l.held = some h → h.cause = 3 ∨ h.cause = 7 →
    ∃ t tm', exec .requeueTimer s = .next t ∧ t.team? s.subject.g.core s.subject.g.slot = some tm' ∧ t.group? s.subject.g = some grp ∧ t.mem = s.mem
      ∧ tm'.fold = some { fo with cont := fo.cont.map (fun p =>
          (p.1, if p.1 = s.subject.b * 128 + s.subject.a then p.2.release (s.core s.subject.g.core).cycles else p.2)) })
  ∧ (∀ s grp h, s.group? s.subject.g = some grp → s.inBank s.subject.g s.subject.b = false → s.subject.a < grp.lanes.length → (grp.lane s.subject.a).held = some h → h.cause = 17 →
    ∃ t y, exec .bindRetryTimer s = .next t ∧ t.group? s.subject.g = some y ∧ t.mem = s.mem ∧ y.regs = grp.regs
      ∧ ∀ l, y.lane l = if l = s.subject.a then (grp.lane l).release (s.core s.subject.g.core).cycles else grp.lane l)
  ∧ (∀ s, let mine (w : BindWait) : Bool := w.handle == s.subject.b && w.entry == s.subject.c && (match s.team? w.g.core w.g.slot with | some x => x.ctx == s.subject.a | none => false)
    ∃ t, exec .bindNotify s = .next t ∧ t.mem = s.mem ∧ (∀ d, d < 4 → (t.die d).bindWait = (s.die d).bindWait.filter (fun w => !mine w))
      ∧ ∀ d, d < 4 → ∀ w ∈ (s.die d).bindWait, mine w = true → ∀ grp, s.group? w.g = some grp → w.lane < grp.lanes.length →
        (grp.lane w.lane).held = some ⟨16, w.entry⟩ → ∃ y, t.group? w.g = some y ∧ (y.lane w.lane).held = none)

/-- ATOMIC_PERFORM of a sent atomic whose earlier ones have been performed and whose home is not poisoned writes its result there, gives the
old value to its return, and for a release tags the block; ATOMIC_RETURN writes a lane's oldest returned value that no frozen trace
holds to its registers; ACQUIRE_COMPLETE lets a lane go on without its performed acquires; PHASE_BOUNDARY_COMPLETE with its atomics
performed and no marked tile left ends the boundary; BARRIER_TURN turns a complete barrier whose atomics have been performed;
CHANNEL_PUT_PERFORM puts a channel's oldest items into its queue or its lanes' slots; CREDIT_RETURN gives one owed credit back;
SHADOW_COMPARE moves the shadow one instruction on, and with equal signatures at the terminator releases the held commit; a first
mismatch discards both executions and is counted. -/
def Obligations.SynchronisationEvents : Prop :=
  (∀ s p, tget s.sent s.subject.a = some p → (∀ a ∈ p.after, tget s.sent a = none) → s.poisonAt p.home p.a.bytes = none →
    ∃ u : State, exec .atomicPerform s = .next (u.atomicDone s.subject.a p) ∧ u.mem = s.mem.writeLE p.home p.a.bytes (p.a.result (s.mem.readLE p.home p.a.bytes))
      ∧ u.sent = s.sent ∧ (p.a.order = 2 ∨ p.a.order = 3 → u.tagAt p.home = some p.tag)
      ∧ ∀ grp, s.group? p.g = some grp → ∃ y : Group, u.group? p.g = some y ∧ y.regs = grp.regs ∧ y.returns = grp.returns.map (fun r =>
          if r.id = s.subject.a ∧ r.value.isNone then { r with value := some (BitVec.ofNat 64 (s.mem.readLE p.home p.a.bytes)) } else r))
  ∧ (∀ s grp n r v, s.group? s.subject.g = some grp → grp.returns.findIdx? (fun r => r.lane == s.subject.a && (r.inHandler || (match grp.trapped with | some e => !e.here.contains r.lane | none => true))) = some n →
    grp.returns[n]? = some r → r.value = some v →
    (∀ x, grp.exec = some x → x.here.contains s.subject.a = false) → s.laneLives s.subject.g s.subject.a = true →
    ∃ t y, exec .atomicReturn s = .next t ∧ t.group? s.subject.g = some y ∧ t.mem = s.mem
      ∧ y = { grp with
          regs := (let m := sput grp.regs (s.subject.a * 256 + r.dst) (loWord v); if r.wide then sput m (s.subject.a * 256 + (r.dst + 1)) (hiWord v) else m)
          returns := grp.returns.eraseIdx n })
  ∧ (∀ s grp, s.group? s.subject.g = some grp → s.subject.a < grp.lanes.length → (∀ a ∈ (grp.lane s.subject.a).acquires, tget s.sent a = none) →
    ∃ t y, exec .acquireComplete s = .next t ∧ t.group? s.subject.g = some y ∧ (y.lane s.subject.a).acquires = [] ∧ t.mem = s.mem
      ∧ ∀ l, l ≠ s.subject.a → y.lane l = grp.lane l)
  ∧ (∀ s tm grp, s.team? s.subject.g.core s.subject.g.slot = some tm → s.group? s.subject.g = some grp → ∀ b, grp.boundary = some b → (∀ a ∈ b.waits, tget s.sent a = none) → (b.publishes = true → ∀ p ∈ tm.tiles, (p.2.publish b.scope (grp.keptHold p.1)).post = false) →
    ∃ t tm' y, exec .phaseBoundaryComplete s = .next t ∧ t.team? s.subject.g.core s.subject.g.slot = some tm' ∧ t.group? s.subject.g = some y ∧ t.mem = s.mem
      ∧ y = { grp with boundary := none, passed := if b.rel then grp.passed else some (max b.scope (grp.passed.getD 0)) }
      ∧ tm'.tiles = if b.publishes then tm.tiles.map (fun p => (p.1, p.2.publish b.scope (grp.keptHold p.1))) else tm.tiles)
  ∧ (∀ s tm, s.team? s.subject.g.core s.subject.g.slot = some tm → (tm.bar s.subject.a).tp = true → (∀ a ∈ (tm.bar s.subject.a).turnWaits, tget s.sent a = none) →
    ∃ t tm', exec .barrierTurn s = .next t ∧ t.team? s.subject.g.core s.subject.g.slot = some tm' ∧ (tm'.bar s.subject.a).ph = !(tm.bar s.subject.a).ph
      ∧ (tm'.bar s.subject.a).tp = false ∧ t.mem = s.mem)
  ∧ (∀ s tm, s.team? s.subject.g.core s.subject.g.slot = some tm → ∀ n p, tm.puts.findIdx? (fun p => p.chan == s.subject.a) = some n → tm.puts[n]? = some p → (∀ a ∈ p.waits, tget s.sent a = none) →
    (tm.chan s.subject.a).frozen = false → (tm.chan s.subject.a).mode ≠ 2 → (tm.chan s.subject.a).remote = false → tm.ending = false →
    ∃ t tm', exec .channelPutPerform s = .next t ∧ t.team? s.subject.g.core s.subject.g.slot = some tm' ∧ tm'.puts = tm.puts.eraseIdx n
      ∧ (tm'.chan s.subject.a).count = (tm.chan s.subject.a).count + p.items.length
      ∧ t.mem = (s.putItems (tm.chan s.subject.a) (tm.chan s.subject.a).count (p.items.map (·.2))).mem)
  ∧ (∀ s tm, s.team? s.subject.g.core s.subject.g.slot = some tm → ∀ n p fo, tm.puts.findIdx? (fun p => p.chan == s.subject.a) = some n → tm.puts[n]? = some p → (∀ a ∈ p.waits, tget s.sent a = none) →
    (tm.chan s.subject.a).frozen = false → (tm.chan s.subject.a).mode = 2 → tm.fold = some fo → exec .channelPutPerform s
      = .next ((s.modTeam s.subject.g.core s.subject.g.slot (fun t => { t with puts := t.puts.eraseIdx n })).modTeam s.subject.g.core s.subject.g.slot
          (fun t => { t with fold := t.fold.map (fun fo => p.items.foldl (fun fo (i : Nat × Nat) =>
            { fo with slots := sput fo.slots (slotKey i.1 p.chan) (BitVec.ofNat 128 i.2), full := sput fo.full (slotKey i.1 p.chan) 1#1 }) fo) })))
  ∧ (∀ s tm, s.team? s.subject.g.core s.subject.g.slot = some tm → 0 < (tm.chan s.subject.a).owed → s.remoteProducer s.subject.g.core s.subject.g.slot s.subject.a = none →
    exec .creditReturn s = .next (s.modTeam s.subject.g.core s.subject.g.slot (fun t => t.modChan s.subject.a (fun c => { c with owed := c.owed - 1 }))))
  ∧ (∀ s tm, s.team? s.subject.g.core s.subject.g.slot = some tm → 0 < (tm.chan s.subject.a).owed → ∀ c sl q, s.remoteProducer s.subject.g.core s.subject.g.slot s.subject.a = some (c, sl, q) →
    exec .creditReturn s = .next ((s.modTeam s.subject.g.core s.subject.g.slot (fun t => t.modChan s.subject.a (fun c => { c with owed := c.owed - 1 }))).modTeam c sl
      (fun t => t.modChan q (fun c => { c with credit := c.credit + 1 }))))
  ∧ (∀ s tm grp, s.team? s.subject.g.core s.subject.g.slot = some tm → s.group? s.subject.g = some grp → ∀ x y, grp.exec = some x → grp.trail = some y → grp.shadow = true → s.subject.ok = true → y.off < x.off → ∀ z, s.follow s.subject.g tm grp y = some z →
    ∃ t, exec .shadowCompare s = .next t ∧ t.group? s.subject.g = some { grp with trail := some z } ∧ t.mem = s.mem)
  ∧ (∀ s tm grp, s.team? s.subject.g.core s.subject.g.slot = some tm → s.group? s.subject.g = some grp → ∀ x y, grp.exec = some x → grp.trail = some y → grp.shadow = true → s.subject.ok = true → x.off ≤ y.off → x.closing = true → x.compared = false → s.signatureAt s.subject.g tm grp x = s.signatureAt s.subject.g tm grp y →
    ∃ t, exec .shadowCompare s = .next t ∧ t.group? s.subject.g = some { grp with exec := some { x with compared := true }, reruns := 0 } ∧ t.mem = s.mem)
  ∧ (∀ s tm grp, s.team? s.subject.g.core s.subject.g.slot = some tm → s.group? s.subject.g = some grp → ∀ x y, grp.exec = some x → grp.trail = some y → grp.shadow = true → s.subject.ok = false → grp.reruns = 0 →
    ∃ t v, exec .shadowCompare s = .next t ∧ t.group? s.subject.g = some v ∧ v.exec = none ∧ v.trail = none ∧ v.reruns = 1 ∧ v.regs = grp.regs ∧ v.preds = grp.preds)

/-- TRUSS_ACCEPT takes a waiting card, in order for each core, with its edges; JOB_START of an accepted job whose edges are clear, whose
engine may take it and whose claims are free claims and counts its tiles and starts it; an element of a FILL, STORE, COPY, MOVE, GATHER
or SCATTER that is due and meets no fault copies its bytes and sets its bit of the mask; one of an NMV whose operands are reached writes
its outputs and sets its bit. JOB_COMPLETE of a job that has nothing left moves its tiles and then, for no action, a counter that is
reached and not poisoned, or a channel with room, performs its action and ends DONE, or ABSENT; COMPLETION_PUT_WAIT puts once its
channel has room and ends the job; REPLAY_COMMAND makes a PARTIAL job run again with its unfinished elements to be attempted;
JOB_FAULT_COMPLETE ends a PARTIAL job FAULTED, sets JFAULT and owes its group the trap; TILE_DEFERRED_EMPTY empties a FILLING tile whose
deferred move is due. Each but the last acts only while the context's engines run. -/
def Obligations.JobEvents : Prop :=
  let due (s : State) (j : Job) (kind : Nat) : Prop := j.state = .running ∧ j.started = true ∧ (cardOf j.card).kind = kind ∧ s.subject.c < j.elems
    ∧ bit (j.mask ||| j.tried) s.subject.c = false ∧ s.enginesRun j.ctx = true ∧ s.amongEight j = true
  (∀ s d n j, s.subjectJob = some (d, n, j) → j.state = .waiting → j.accepted = false → (∀ p ∈ (s.die d).truss, p.2.core = j.core → p.2.accepted = false → p.2.state = .waiting → j.order ≤ p.2.order) →
    exec .trussAccept s = .next (s.modDie d (fun x => { x with
      truss := tput x.truss n (Job.readied { j with accepted := true, edges := if j.absent then [] else trussEdges x.truss j.ctx (cardOf j.card) } x.readied)
      readied := x.readied + 1 })))
  ∧ (∀ s d n j, s.subjectJob = some (d, n, j) → j.state = .running → s.enginesRun j.ctx = true → j.started = false → j.absent = false → j.edges = [] → s.mayTake d j = true → s.claimBusy j = false →
    let claimed := ((s.claims j).map (·.1)).eraseDups
    let counted := (s.counts j).eraseDups
    exec .jobStart s = .next ((counted.foldl (fun s p => s.modTileAt p (Tile.sourceReleased false)) (claimed.foldl (fun s p => s.modTileAt p Tile.fillReleased) s)).modJob d n
      (fun j => { j with started := true, claimed := j.claimed ++ claimed, counted := j.counted ++ counted })))
  ∧ (∀ s d n j, s.subjectJob = some (d, n, j) → ∀ tm, s.team? j.core j.slot = some tm → due s j 1 → ∀ from_ into t,
    s.Moves j tm s.subject.c (cardOf j.card).src (cardOf j.card).dst (elementSpan (cardOf j.card) s.subject.c).1 (elementSpan (cardOf j.card) s.subject.c).1
      (elementSpan (cardOf j.card) s.subject.c).2 ((elementSpan (cardOf j.card) s.subject.c).1 == 0) from_ into t → exec .fillElem s = .next (t.moved d n j tm s.subject.c from_ into))
  ∧ (∀ s d n j, s.subjectJob = some (d, n, j) → ∀ tm, s.team? j.core j.slot = some tm → due s j 2 → ∀ from_ into t,
    s.Moves j tm s.subject.c (cardOf j.card).src (cardOf j.card).dst (elementSpan (cardOf j.card) s.subject.c).1 (elementSpan (cardOf j.card) s.subject.c).1
      (elementSpan (cardOf j.card) s.subject.c).2 ((elementSpan (cardOf j.card) s.subject.c).1 == 0) from_ into t → exec .storeElem s = .next (t.moved d n j tm s.subject.c from_ into))
  ∧ (∀ s d n j, s.subjectJob = some (d, n, j) → ∀ tm, s.team? j.core j.slot = some tm → due s j 3 → ∀ from_ into t,
    s.Moves j tm s.subject.c (cardOf j.card).src (cardOf j.card).dst (elementSpan (cardOf j.card) s.subject.c).1 (elementSpan (cardOf j.card) s.subject.c).1
      (elementSpan (cardOf j.card) s.subject.c).2 ((elementSpan (cardOf j.card) s.subject.c).1 == 0) from_ into t → exec .copyElem s = .next (t.moved d n j tm s.subject.c from_ into))
  ∧ (∀ s d n j, s.subjectJob = some (d, n, j) → ∀ tm, s.team? j.core j.slot = some tm → due s j 4 → ∀ from_ into t,
    s.Moves j tm s.subject.c (cardOf j.card).src (cardOf j.card).dst (elementSpan (cardOf j.card) s.subject.c).1 (elementSpan (cardOf j.card) s.subject.c).1
      (elementSpan (cardOf j.card) s.subject.c).2 ((elementSpan (cardOf j.card) s.subject.c).1 == 0) from_ into t → exec .moveElem s = .next (t.moved d n j tm s.subject.c from_ into))
  ∧ (∀ s d n j, s.subjectJob = some (d, n, j) → ∀ tm, s.team? j.core j.slot = some tm → due s j 5 → s.indexFault j.core (s.indexField j tm (cardOf j.card) s.subject.c) = none → ∀ from_ into t,
    s.Moves j tm s.subject.c (s.indexField j tm (cardOf j.card) s.subject.c) (cardOf j.card).dst 0 (s.subject.c * eszBytes (cardOf j.card).esz) (eszBytes (cardOf j.card).esz) true from_ into t →
    exec .gatherElem s = .next (t.moved d n j tm s.subject.c from_ into))
  ∧ (∀ s d n j, s.subjectJob = some (d, n, j) → ∀ tm, s.team? j.core j.slot = some tm → due s j 6 → s.indexFault j.core (s.indexField j tm (cardOf j.card) s.subject.c) = none → ∀ from_ into t,
    s.Moves j tm s.subject.c (cardOf j.card).src (s.indexField j tm (cardOf j.card) s.subject.c) ((cardOf j.card).count * 8 + s.subject.c * eszBytes (cardOf j.card).esz) 0
      (eszBytes (cardOf j.card).esz) true from_ into t → exec .scatterElem s = .next (t.moved d n j tm s.subject.c from_ into))
  ∧ (∀ s d n j, s.subjectJob = some (d, n, j) → ∀ tm, s.team? j.core j.slot = some tm → due s j 7 → ∀ l t, s.nmvB j (cardOf j.card) s.subject.c = (.ok l, t) →
    (tm.tile (opValue (cardOf j.card).src % 64)).geom = 0#4 → (tm.tile (opValue (cardOf j.card).src % 64)).fmt.toNat ∈ [2, 4, 5] → nmvBFault j (cardOf j.card) l = none →
    t.nmvSpoilt (cardOf j.card) l s.subject.c (segForm l).1 (segForm l).2 = false → t.nmvPoison j tm (cardOf j.card) l s.subject.c (segForm l).1 (segForm l).2 = none →
    exec .nmv s = .next (((t.nmvWrite j tm (cardOf j.card) l s.subject.c (segForm l).1 (segForm l).2).charge j.ctx 0
      (nmvColumns (cardOf j.card) s.subject.c * nmvDepth (cardOf j.card) * fmtWidth (segForm l).1 / 8)).elementDone d n s.subject.c (pagesOfSegs l) none))
  ∧ (∀ s d n j, s.subjectJob = some (d, n, j) → j.state = .running → s.enginesRun j.ctx = true → j.absent = true ∨ (j.started = true ∧ j.full = true) → j.putWaits = false → j.cancelled = false →
    let u := if j.moved then s else (s.endTiles j).modJob d n (fun j => { j with moved := true, claimed := [], counted := [] })
    let k := { j with moved := true, claimed := [], counted := [] }
    (cardOf j.card).ca ≠ 1 → (cardOf j.card).ca ≠ 2 → exec .jobComplete s = .next (u.endJob d n k (if j.absent then .absent else .done)))
  ∧ (∀ s d n j, s.subjectJob = some (d, n, j) → j.state = .running → s.enginesRun j.ctx = true → j.absent = true ∨ (j.started = true ∧ j.full = true) → j.putWaits = false → j.cancelled = false →
    let u := if j.moved then s else (s.endTiles j).modJob d n (fun j => { j with moved := true, claimed := [], counted := [] })
    let k := { j with moved := true, claimed := [], counted := [] }
    (cardOf j.card).ca = 1 → opSpace (cardOf j.card).catgt = 2 → ∀ key, u.sliceCounter (opValue (cardOf j.card).catgt) = .ok (some key) → u.poisonAt key 8 = none →
    exec .jobComplete s = .next ((((u.atomicWrite key 8 ((u.mem.readLE key 8 + 1) % 2 ^ 64)).tag key ⟨(cardOf j.card).scope, j.core, 0, 0, 0, j.engine⟩).notifyBinds key).endJob
      d n k (if j.absent then .absent else .done)))
  ∧ (∀ s d n j, s.subjectJob = some (d, n, j) → j.state = .running → s.enginesRun j.ctx = true → j.absent = true ∨ (j.started = true ∧ j.full = true) → j.putWaits = false → j.cancelled = false →
    let u := if j.moved then s else (s.endTiles j).modJob d n (fun j => { j with moved := true, claimed := [], counted := [] })
    let k := { j with moved := true, claimed := [], counted := [] }
    (cardOf j.card).ca = 1 → opSpace (cardOf j.card).catgt ≠ 2 → ∀ key leaf v,
    u.translate (j.access 65535 (opValue (cardOf j.card).catgt) 2) = (.ok key leaf, v) →
    v.poisonAt key 8 = none →
    exec .jobComplete s = .next ((((v.atomicWrite key 8 ((v.mem.readLE key 8 + 1) % 2 ^ 64)).tag key ⟨(cardOf j.card).scope, j.core, 0, 0, 0, j.engine⟩).notifyBinds key).endJob
      d n k (if j.absent then .absent else .done)))
  ∧ (∀ s d n j, s.subjectJob = some (d, n, j) → j.state = .running → s.enginesRun j.ctx = true → j.absent = true ∨ (j.started = true ∧ j.full = true) → j.putWaits = false → j.cancelled = false →
    let u := if j.moved then s else (s.endTiles j).modJob d n (fun j => { j with moved := true, claimed := [], counted := [] })
    let k := { j with moved := true, claimed := [], counted := [] }
    (cardOf j.card).ca = 2 → ∀ tm, u.team? j.core j.slot = some tm → (tm.chan (bits (cardOf j.card).catgt 3 0)).room ≠ 0 →
    exec .jobComplete s = .next ((u.appendItem j.core j.slot (bits (cardOf j.card).catgt 3 0) (handleOf d n j.gen)).endJob d n k (if j.absent then .absent else .done)))
  ∧ (∀ s d n j, s.subjectJob = some (d, n, j) → j.state = .running → s.enginesRun j.ctx = true → j.putWaits = true → (cardOf j.card).ca = 2 → ∀ tm, s.team? j.core j.slot = some tm → (tm.chan (bits (cardOf j.card).catgt 3 0)).room ≠ 0 →
    exec .completionPutWait s = .next ((s.appendItem j.core j.slot (bits (cardOf j.card).catgt 3 0) (handleOf d n j.gen)).endJob d n { j with moved := true }
      (if j.absent then .absent else .done)))
  ∧ (∀ s d n j, s.subjectJob = some (d, n, j) → j.state = .partialDone → s.enginesRun j.ctx = true → j.records = 0 → j.full = false →
    ∃ t, exec .replayCommand s = .next t ∧ t.mem = s.mem ∧ tget (t.die d).truss n = some { j with
      state := .running
      tried := j.mask
      records := 0
      ready := (s.die d).readied
      passes := j.passes.filter (fun p => decide (p.2 < 8)) })
  ∧ (∀ s d n j, s.subjectJob = some (d, n, j) → j.state = .partialDone → s.enginesRun j.ctx = true → ∀ g, j.grp = some g →
    exec .jobFaultComplete s = .next ((((s.endOp d n).endJob d n j .faulted).modTeam j.core j.slot (fun t => t.setSticky .jfault)).owe ⟨j.core, j.slot, g⟩
      ⟨106, [], handleOf d n j.gen, j.firstCause⟩))
  ∧ (∀ s tm, s.team? s.subject.g.core s.subject.g.slot = some tm → ∀ x, tget tm.tiles s.subject.a = some x → x.held = 0 → x.state = .filling → x.doneFill = true →
    ∃ t tm', exec .tileDeferredEmpty s = .next t ∧ t.team? s.subject.g.core s.subject.g.slot = some tm' ∧ tget tm'.tiles s.subject.a = some x.toEmpty ∧ t.mem = s.mem)

/-- TRANSLATION_WALK of an address missed takes an entry of the pending-translation table and walks; WALK_COMPLETE gives every requester the
result, fills the die's cache with a translation and frees the entry, but for a host page whose one ATS request then waits for them all;
TRANSLATION_INVALIDATE drops the translations of the range where no atomic in flight uses it; ATS_INVALIDATION drops the host's and
answers, at once where no atomic in flight uses one and later otherwise; ATS_TRANSLATION_COMPLETION holds the translation and ends the
wait; ATS_TIMEOUT fails what waits; PRI_RESPONSE of Success retries the page of a record without a job and replays a job all of whose
records are answered; PAGE_RETRY tries the page again; FAULT_RECORD_ANSWER that maps the page of the oldest record retries it, and asks
the host for the page of a HOST_PAGE or ATS_TIMEOUT record. Which I/O die serves a compute die (ioDie) is the model's choice (log 13,
DESIGN CHOICE), and so are the bytes of the messages that leave for the host (log 14, DESIGN CHOICE). -/
def Obligations.TranslationEvents : Prop :=
  (∀ s, s.subject.b < 2 ^ 49 → let acc : Access := { core := s.subject.g.core, who := s.subject.d, ctx := s.subject.a, va := s.subject.b, acc := 0, keyperm := 0#64 }
    cached acc (s.core s.subject.g.core).tlb = none → cached acc (s.die (dieOf s.subject.g.core)).tlb = none →
    (∀ p ∈ (s.die (dieOf s.subject.g.core)).ptt, ¬(p.ctx = s.subject.a ∧ p.page = s.subject.b / 4096)) →
    s.atsWaits.any (fun t => t.matches_ acc && t.open_) = false → s.pending (dieOf s.subject.g.core) < 256 →
    ∃ t p, exec .translationWalk s = .next t ∧ (t.die (dieOf s.subject.g.core)).ptt = (s.die (dieOf s.subject.g.core)).ptt ++ [p]
      ∧ p.ctx = s.subject.a ∧ p.page = s.subject.b / 4096 ∧ p.requesters = [(s.subject.g.core, s.subject.d)]
      ∧ p.result = (s.dieWalk (dieOf s.subject.g.core) s.subject.a s.subject.b).1 ∧ t.mem = s.mem)
  ∧ (∀ s p, (s.die s.subject.a).ptt.find? (fun p => p.ctx == s.subject.b && p.page == s.subject.c) = some p →
    let r := s.walkResult s.subject.a p
    ∃ t, exec .walkComplete s = .next t ∧ p ∉ (t.die s.subject.a).ptt ∧ (∀ c ∈ p.requesters, ⟨c, p.ctx, p.page, r⟩ ∈ (t.die s.subject.a).walked)
      ∧ (t.die s.subject.a).tlb = (if r.1 = 0 then cachePut 16384 ⟨p.ctx, r.2.2.2.1, r.2.2.2.2, r.2.1, r.2.2.1⟩ (s.die s.subject.a).tlb else (s.die s.subject.a).tlb)
      ∧ (∀ page, s.hostPageOf s.subject.a p r = some page → ∃ w ∈ t.atsWaits, w.die = s.subject.a ∧ w.ctx = p.ctx ∧ w.page = page ∧ w.requesters = p.requesters ∧ w.cause = 0)
      ∧ t.mem = s.mem)
  ∧ (∀ s, s.inFlight s.subject.a s.subject.b s.subject.c = false →
    exec .translationInvalidate s = .next (s.invalidate s.subject.a s.subject.b s.subject.c))
  ∧ (∀ s, s.atsInvs.find? (fun i => i.ctx == s.subject.a && i.page == s.subject.b && i.pages == s.subject.c) = none → ∃ t, exec .atsInvalidation s = .next t ∧ t.mem = s.mem
      ∧ (∀ e, e ∈ t.ats ↔ e ∈ s.ats ∧ ¬(e.ctx = s.subject.a ∧ s.subject.b ≤ e.page ∧ e.page < s.subject.b + s.subject.c))
      ∧ (s.hostUses s.subject.a s.subject.b s.subject.c = [] →
          t.out = s.out ++ [⟨0, 1, toBytesLE 2 s.subject.a ++ toBytesLE 8 s.subject.b ++ toBytesLE 8 s.subject.c⟩])
      ∧ ((∃ k ∈ s.hostUses s.subject.a s.subject.b s.subject.c, (tget s.sent k).isSome = true) →
          t.out = s.out ∧ ⟨s.subject.a, s.subject.b, s.subject.c, s.hostUses s.subject.a s.subject.b s.subject.c⟩ ∈ t.atsInvs))
  ∧ (∀ s w, w ∈ s.atsWaits → w.asked s.subject = true → s.subject.ok = true → s.atsEnabled = true →
    ∃ t, exec .atsTranslationCompletion s = .next t ∧ t.ats.head? = some ⟨ioDie s.subject.d, s.subject.a, s.subject.b, bit s.subject.c 0, bit s.subject.c 1⟩
      ∧ (∀ v ∈ t.atsWaits, v.asked s.subject = false) ∧ t.mem = s.mem)
  ∧ (∀ s w, w ∈ s.atsWaits → w.asked s.subject = true →
    ∃ t, exec .atsTimeout s = .next t ∧ { w with cause := 158 } ∈ t.atsWaits ∧ t.mem = s.mem)
  ∧ (∀ s p, s.priOut = [p] → p.ctx = s.subject.a → p.page = s.subject.b → s.subject.c = 0 → p.record.job = 0 → exec .priResponse s
    = .next (({ s with priOut := [], ats := s.ats.filter (fun e => !(e.ctx == s.subject.a && e.page == s.subject.b)) } : State).retryPage p.die p.record.ctx (p.record.va / 4096)))
  ∧ (∀ s p d n j, s.priOut = [p] → p.ctx = s.subject.a → p.page = s.subject.b → s.subject.c = 0 → p.record.job ≠ 0 → s.job? p.record.ctx p.record.job = some (d, n, j) →
    j.records = 1 → j.state = .partialDone → j.full = false → ∃ t k, exec .priResponse s = .next t ∧ t.priOut = [] ∧ t.mem = s.mem ∧ tget (t.die d).truss n = some k
      ∧ k.state = .running ∧ k.tried = j.mask ∧ k.mask = j.mask ∧ k.records = 0)
  ∧ (∀ s, exec .pageRetry s = .next (s.retryPage s.subject.a s.subject.b s.subject.c))
  ∧ (∀ (s : State) (d ctx page : Nat) (core slot n l : Nat) (tm : Team) (grp : Group) (h : Held), (core, slot) ∈ s.residents → s.team? core slot = some tm → tm.ctx = ctx → dieOf core = d →
    s.group? ⟨core, slot, n⟩ = some grp → grp.halt = .none → l < grp.lanes.length → (grp.lane l).held = some h → h.cause = 3 ∨ h.cause = 7 → h.obj = page →
    ∃ y, (s.retryPage d ctx page).group? ⟨core, slot, n⟩ = some y ∧ (y.lane l).held = none)
  ∧ (∀ s r rest t, (s.die s.subject.a).frq = r :: rest → s.subject.b = 0 → s.mapFor r.ctx r.va s.subject.c s.subject.d = some t → r.cause ∉ [143, 155, 158] → r.job = 0 →
    exec .faultRecordAnswer s = .next ((t.modDie s.subject.a (fun d => { d with frq := rest })).retryPage s.subject.a r.ctx (r.va / 4096)))
  ∧ (∀ s r rest, (s.die s.subject.a).frq = r :: rest → r.cause = 143 ∨ r.cause = 158 →
    ∃ t p, exec .faultRecordAnswer s = .next t ∧ (t.die s.subject.a).frq = rest ∧ t.priOut = s.priOut ++ [p] ∧ p.ctx = r.ctx ∧ p.die = s.subject.a ∧ p.record = r)

/-- Where a core's sequencer runs, its chain tile is readable and holds the present entry, which is not poisoned: MUL whose fields and tiles
pass adds its products to the accumulator; LOOP goes back while its counter is below COUNT, and on after; COND goes where its test says;
RINGWAIT gives its slot back and takes the next item, or waits for one; ZERO clears the accumulators it names; SCALEA sets the A scales;
DRAIN writes its accumulator, converted, into its tile; BYPASS fills the bypass buffer; SIGNAL adds to its counter or puts into its
channel; END ends the chain and counts it. The sequencer then stands at the next entry and waits for nothing. A sequencer asked to stop
that can release its rings stops. -/
def Obligations.MatrixSequencerEvents : Prop :=
  let ready (s : State) (kind : Nat) (m : Mx) : Prop := s.mxEntry s.subject.g.core = some m ∧ m.chain.state ≠ .undef ∧ m.chain.readable = true
    ∧ m.i < m.entries ∧ m.fld 7 0 = kind ∧ m.poisonIn m.chain (m.q.off + 16 * m.i) 16 = none
  let after (m : Mx) (t : State) (n : Nat) : State := t.modSeq m.core (fun q => { q with
    entry := n
    waitsFor := 0
    state := if q.state = .idle then .idle else if n = m.i then .waiting else .running })
  (∀ s m, ready s 1 m → (m.mulStop).isNone = true → exec .mul s = .next (after m (m.setAcc m.s (m.fld 9 8) m.product) (m.i + 1)))
  ∧ (∀ s m, ready s 2 m → m.loopFault = none → exec .loop s = .next (after m (m.s.modSeq m.core (fun q => { q with loops := m.loops })) (if (tget m.q.loops m.i).getD 0 + 1 < m.fld 51 20 then m.i - m.fld 19 8 else m.i + 1)))
  ∧ (∀ s m, ready s 3 m → m.condStop.isNone = true → exec .cond s = .next (after m m.s (if condTest (m.fld 14 12) m.tested (m.fld 95 64) then m.target.toNat else m.i + 1)))
  ∧ (∀ s m, ready s 4 m → m.ringFault = none → ∀ t tm, m.ringReady = some t → t.team? m.core m.slot = some tm →
    (tm.chan (m.fld 23 20)).frozen = true ∨ (tm.chan (m.fld 23 20)).count = 0 → exec .ringwait s = .next (after m t m.i))
  ∧ (∀ s m, ready s 4 m → m.ringFault = none → ∀ t tm, m.ringReady = some t → t.team? m.core m.slot = some tm →
    (tm.chan (m.fld 23 20)).frozen = false → (tm.chan (m.fld 23 20)).count ≠ 0 →
    exec .ringwait s = .next (after m ((t.removeItems m.core m.slot (m.fld 23 20) [0]).modSeq m.core (fun q => { q with
      rings := q.rings.modify (m.fld 9 8) (fun x => { x with c := ((m.ring (m.fld 9 8)).c + 1) % 2 ^ 32, holds := true, slot := m.ringSlot })
      held := m.ringSlot :: q.held })) (m.i + 1)))
  ∧ (∀ s m, ready s 5 m → m.reserved = false → (∀ a ∈ m.zeroed, m.accBad a = false) → exec .zero s = .next (after m (m.zeroed.foldl (fun s a => m.setAcc s a []) m.s) (m.i + 1)))
  ∧ (∀ s m, ready s 6 m → m.scaleaStop.isNone = true → exec .scalea s = .next (after m (m.s.modSeq m.core (fun q => { q with ascale := m.scales })) (m.i + 1)))
  ∧ (∀ s m f, ready s 7 m → m.drainStop.isNone = true → fmtFormat m.drainTile.fmt.toNat = some f →
    exec .drain s = .next (after m ((m.drainWrite f).modSeq m.core (fun q => { q with srstate := (m.drained f).2 })) (m.i + 1)))
  ∧ (∀ s m, ready s 8 m → m.bypassStop.isNone = true → exec .bypass s = .next (after m ((if bit m.w 16 then m.setAcc m.s (m.fld 9 8) [] else m.s).modSeq m.core m.fillBypass) (m.i + 1)))
  ∧ (∀ s m, ready s 9 m → m.signalFault = none → m.fld 9 8 = 1 → ∀ key, m.s.sliceCounter (opValue (m.fld 127 64)) = .ok (some key) → m.s.poisonAt key 8 = none →
    exec .signal s = .next (after m (((m.s.atomicWrite key 8 ((m.s.mem.readLE key 8 + 1) % 2 ^ 64)).tag key ⟨m.fld 12 10, m.core, 0, 0, 0, 1⟩).notifyBinds key) (m.i + 1)))
  ∧ (∀ s m, ready s 9 m → m.signalFault = none → m.fld 9 8 ≠ 1 → (m.tm.chan (m.fld 16 13)).room ≠ 0 → exec .signal s = .next (after m (m.s.appendItem m.core m.slot (m.fld 16 13) (if (m.tm.chan (m.fld 16 13)).size = 3 then m.fld 37 32 else m.fld 63 32)) (m.i + 1)))
  ∧ (∀ s m t, ready s 10 m → m.reserved = false → m.s.releaseRings m.core m.slot = some t →
    exec .endEntry s = .next (after m ((t.modSeq m.core (fun q => { q with state := .idle, held := [], waitsFor := 0 })).modTeam m.core m.slot
      (fun t => { t with mxChains := (t.mxChains + 1) % 256 })) m.i))
  ∧ (∀ s slot t, (s.core s.subject.g.core).seqr.owner = some slot → (s.core s.subject.g.core).seqr.state = .stopping →
    s.releaseRings s.subject.g.core slot = some t →
    exec .mxStopPoint s = .next (t.modSeq s.subject.g.core (fun q => { q with state := .stopped, held := [], waitsFor := 0 })))

/-- COLL whose descriptor is read and valid begins the operation on an idle communicator, with its own contribution where it has one;
COLL_CHUNK_SEND sends a chunk that is there to another member, over a plane that is up or into its SENDQ; one asked for a second time
goes without its sender's own contribution, and a sum's result carries the sums that the hops have added up; COLL_CHUNK_RECEIVE takes a
chunk of the operation's sequence into it, asks once more for a poisoned one, and the second time leaves its sender out; COLL_COMPLETE
with every chunk there writes the result, the mask and STATUS, frees the communicator and ends the job; RECVQ_POLL of an empty queue
does nothing and of another consumes its next slot and has its chunk received; KEEPALIVE_SEND tells each live plane peer; MEMBER_SUSPECT
adds the rank to those suspected; MEMBERSHIP_BROADCAST heard with a higher epoch is applied; SPARE_JOIN asks its neighbour. The bytes of
the messages that leave the package are the model's (log 14, DESIGN CHOICE); partial chunks to any member and keep-alives to plane peers
alone are too (log 29, DESIGN CHOICE and DEDUCED). -/
def Obligations.CollectiveEvents : Prop :=
  (∀ s j tm l t c, s.collJob s.subject.a s.subject.b = some (j, tm) → s.reachFault j (cardOf j.card) (cardOf j.card).src 0 128 true = none →
    s.collReach s.subject.a s.subject.b j tm (cardOf j.card).src 0 128 0 = (some l, t) → t.comm? (leAt (t.gatherBytes l) 2 2) = some c → c.ctx = j.ctx → c.eng = (cardOf j.card).count →
    descBad j.core c.nmemb (t.gatherBytes l) = false → (c.members (t.gatherBytes l)).contains c.rank = true → c.op = none → ∀ u0, t.collClaim s.subject.a s.subject.b j tm c (t.gatherBytes l) = some u0 → opOf (t.gatherBytes l) = 5 → leAt (t.gatherBytes l) 40 4 ≠ c.rank →
    exec .coll s = .next (u0.modComm c.num (fun c => c.begins s.subject.a s.subject.b (t.gatherBytes l) [] [] [])))
  ∧ (∀ s j tm l t c, s.collJob s.subject.a s.subject.b = some (j, tm) → s.reachFault j (cardOf j.card) (cardOf j.card).src 0 128 true = none →
    s.collReach s.subject.a s.subject.b j tm (cardOf j.card).src 0 128 0 = (some l, t) → t.comm? (leAt (t.gatherBytes l) 2 2) = some c → c.ctx = j.ctx → c.eng = (cardOf j.card).count →
    descBad j.core c.nmemb (t.gatherBytes l) = false → (c.members (t.gatherBytes l)).contains c.rank = true → c.op = none → ∀ u0, t.collClaim s.subject.a s.subject.b j tm c (t.gatherBytes l) = some u0 → opOf (t.gatherBytes l) ≠ 5 → ∀ k u,
    u0.collReach s.subject.a s.subject.b j tm (leAt (t.gatherBytes l) 16 8) 0 (contribBytes (t.gatherBytes l)) 0 = (some k, u) →
    u.loadFault (segForm k) true k = none → u.gatherPoison k 0 = [] →
    let v := k.foldl (fun s g => s.charge j.ctx g.key g.n) u
    exec .coll s = .next (v.modComm c.num (fun c => c.begins s.subject.a s.subject.b (t.gatherBytes l) (v.gatherBytes k) (k.map (fun g => (g.key, g.key + g.n))) [])))
  ∧ (∀ s c o, s.comm? s.subject.a = some c → c.op = some o → s.commRuns c = true → (c.members o.desc).contains s.subject.b = true → s.subject.b ≠ c.rank → s.subject.c < chunksOf o.desc →
    s.subject.ok = false → reduces o.desc = true → s.subject.g.grp ≠ 1 → ∀ b k, o.partialChunk c.rank s.subject.c = some (b, k) →
    let tr := trailerOf c.num s.subject.c c.epoch (seqOf o.desc) k
    let v := s.modOp c.num (fun _ => o)
    leAt (c.member s.subject.b) 0 1 = 0 → s.links.any (fun l => l.up && l.peers.contains (leAt (c.member s.subject.b) 2 2)) = true →
    exec .collChunkSend s = .next { v with out := s.out ++ [⟨1, leAt (c.member s.subject.b) 2 2, b ++ tr⟩] })
  ∧ (∀ s c o, s.comm? s.subject.a = some c → c.op = some o → s.commRuns c = true → (c.members o.desc).contains s.subject.b = true → s.subject.b ≠ c.rank → s.subject.c < chunksOf o.desc →
    s.subject.ok = false → reduces o.desc = true → s.subject.g.grp ≠ 1 → ∀ b k, o.partialChunk c.rank s.subject.c = some (b, k) →
    let tr := trailerOf c.num s.subject.c c.epoch (seqOf o.desc) k
    let v := s.modOp c.num (fun _ => o)
    let q := leAt (c.member s.subject.b) 8 8
    leAt (c.member s.subject.b) 0 1 ≠ 0 → ∀ tail head slots, s.ring q = some (tail, head, slots) → (tail + 2 ^ 32 - head) % 2 ^ 32 < slots →
    let u := ((v.store (hostKey (ringSlot q slots tail)) b).store (hostKey (ringSlot q slots tail + 0x40000)) tr).storeLE (hostKey q) 4 ((tail + 1) % 2 ^ 32)
    exec .collChunkSend s = .next { u with out := u.out ++ [⟨2, leAt (c.member s.subject.b) 24 8, toBytesLE 4 ((tail + 1) % 2 ^ 32)⟩] })
  ∧ (∀ s c o, s.comm? s.subject.a = some c → c.op = some o → s.commRuns c = true → (c.members o.desc).contains s.subject.b = true → s.subject.b ≠ c.rank → s.subject.c < chunksOf o.desc →
    s.subject.ok = false → reduces o.desc = true → s.subject.g.grp = 1 → ∀ b k,
    let r : CollOp := { o with excluded := if o.excluded.contains c.rank then o.excluded else o.excluded ++ [c.rank] }
    r.partialChunk c.rank s.subject.c = some (b, k) →
    exec .collChunkSend s = .next ((s.modOp c.num (fun _ => r)).sendChunk c s.subject.b b (trailerOf c.num s.subject.c c.epoch (seqOf o.desc) k)))
  ∧ (∀ s c o, s.comm? s.subject.a = some c → c.op = some o → s.commRuns c = true → (c.members o.desc).contains s.subject.b = true → s.subject.b ≠ c.rank → s.subject.c < chunksOf o.desc →
    s.subject.ok = true → opOf o.desc = 0 → s.subject.g.grp ≠ 1 → ∀ b t, c.resultChunk o 0 s.subject.c = some b → tget o.sums s.subject.c = some t →
    exec .collChunkSend s = .next ((s.modOp c.num (fun _ => o)).sendChunk c s.subject.b b (trailerOf c.num s.subject.c c.epoch (seqOf o.desc) (checksumIn t))))
  ∧ (∀ s c o, s.comm? s.subject.a = some c → c.op = some o → s.commRuns c = true → (c.members o.desc).contains s.subject.b = true → s.subject.b ≠ c.rank → s.subject.ok = false → s.subject.d = 0 →
    let n := s.subject.bytes.length - 64
    let b := s.subject.bytes.take n
    let t := s.subject.bytes.drop n
    leAt t 0 2 = c.num → leAt t 8 8 = seqOf o.desc → leAt t 2 2 < chunksOf o.desc → n = min chunkBytes (contribBytes o.desc - leAt t 2 2 * chunkBytes) →
    chunkPasses (collFmt o.desc) b (checksumIn t) = true →
    exec .collChunkReceive s = .next (s.modOp c.num (fun _ => o.receive s.subject.b (c.contributors o).length false b t)))
  ∧ (∀ s c o, s.comm? s.subject.a = some c → c.op = some o → s.commRuns c = true → (c.members o.desc).contains s.subject.b = true → s.subject.b ≠ c.rank → s.subject.ok = true → s.subject.d = 0 →
    let t := s.subject.bytes.drop (s.subject.bytes.length - 64)
    leAt t 0 2 = c.num → leAt t 8 8 = seqOf o.desc → leAt t 2 2 < chunksOf o.desc →
    let before := (o.retried.filter (fun x => x == (s.subject.b, leAt t 2 2))).length
    ∃ r : CollOp, exec .collChunkReceive s
      = .next (if before < 2 then (s.modOp c.num (fun _ => r)).tellMember c s.subject.b (t.take 16 ++ [BitVec.ofNat 8 before]) else s.modOp c.num (fun _ => r))
      ∧ r.retried = o.retried ++ [(s.subject.b, leAt t 2 2)] ∧ r.desc = o.desc ∧ r.own = o.own
      ∧ (before = 1 → s.subject.b ∈ r.excluded ∧ (s.subject.b ∉ o.excluded → ∀ x ∈ r.received, x.1 ≠ s.subject.b))
      ∧ (before ≠ 1 → r.excluded = o.excluded ∧ r.received = o.received ∧ r.results = o.results))
  ∧ (∀ s c o, s.comm? s.subject.a = some c → c.op = some o → s.commRuns c = true → ∀ res d n j tm, c.result o = some res → o.job = some (d, n) → s.collJob d n = some (j, tm) → (cardOf j.card).ca = 0 →
    ∀ u v w k, s.collResults d n j tm (leAt o.desc 24 8) (collFmt o.desc) o.read res = (true, u) →
    (if o.own.isEmpty then u else u.carryOwn j tm c o).collWrite d n j tm (leAt o.desc 32 8) 0 (maskBytes c.nmemb (c.contributors o)) o.read = (true, v) →
    v.collWrite d n j tm (cardOf j.card).src 64 (toBytesLE 1 (if o.excluded.isEmpty then 1 else 2) ++ List.replicate 3 0#8 ++ toBytesLE 4 (c.contributors o).length
      ++ toBytesLE 4 c.epoch) [] = (true, w) →
    let x := (w.modComm c.num (fun c => { c with op := none })).elementDone d n 0 [] none
    tget (x.die d).truss n = some k → (cardOf k.card).ca = 0 → k.cancelled = false → k.absent = false →
    let y := if k.moved then x else (x.endTiles k).modJob d n (fun j => { j with moved := true, claimed := [], counted := [] })
    exec .collComplete s = .next (y.endJob d n { k with moved := true, claimed := [], counted := [] } .done))
  ∧ (∀ s c o, s.comm? s.subject.a = some c → c.op = some o → s.commRuns c = true → ∀ res u, c.result o = some res → o.job = none → o.parked = none → s.sparePuts c (collFmt o.desc) (leAt o.desc 24 8) res = (true, u) →
    exec .collComplete s = .next (u.modComm c.num (fun c => { c with op := none })))
  ∧ (∀ s c h n, s.comm? s.subject.a = some c → s.commRuns c = true → leAt (c.member s.subject.b) 0 1 = 1 →
    s.ring (leAt (c.member s.subject.b) 16 8) = some (h, h, n) → exec .recvqPoll s = .next s)
  ∧ (∀ s c o, s.comm? s.subject.a = some c → c.op = some o → s.commRuns c = true → leAt (c.member s.subject.b) 0 1 = 1 → let q := leAt (c.member s.subject.b) 16 8
    ∀ tail head slots, s.ring q = some (tail, head, slots) → tail ≠ head → let p := ringSlot q slots head
    let t := s.mem.readBytes (hostKey (p + 0x40000)) 64
    let n := min chunkBytes (contribBytes o.desc - leAt t 2 2 * chunkBytes)
    s.poisonAt (hostKey p) n = none → s.poisonAt (hostKey (p + 0x40000)) 64 = none → exec .recvqPoll s
      = .next ((s.storeLE (hostKey (q + 4)) 4 ((head + 1) % 2 ^ 32)).raiseTurn .collChunkReceive
          { a := s.subject.a, b := s.subject.b, ok := false, bytes := s.mem.readBytes (hostKey p) n ++ t }))
  ∧ (∀ s c, s.comm? s.subject.a = some c →
    exec .keepaliveSend s = .next ((c.live.filter (fun r => r != c.rank && leAt (c.member r) 0 1 == 0)).foldl (fun s r => s.tellMember c r (toBytesLE 2 c.num)) s))
  ∧ (∀ s c, s.comm? s.subject.a = some c → c.live.contains s.subject.b = true → s.subject.b ≠ c.rank → c.live.contains c.rank = true →
    c.suspected.contains s.subject.b = false → c.actingRoot ≠ c.rank →
    let d : Comm := { c with suspected := c.suspected ++ [s.subject.b] }
    d.actingRoot = c.actingRoot → exec .memberSuspect s
      = .next ((s.modComm c.num (fun _ => d)).tellMember d c.actingRoot (toBytesLE 2 c.num ++ toBytesLE 4 s.subject.b)))
  ∧ (∀ s c, s.comm? s.subject.a = some c → s.subject.ok = false → c.epoch < s.subject.b → (maskRanks c.nmemb s.subject.c).contains c.rank = true →
    exec .membershipBroadcast s = .next ((s.modComm c.num (fun _ => { c with
      epoch := s.subject.b
      effseq := s.subject.d
      root := s.subject.g.core
      live := maskRanks c.nmemb s.subject.c
      before := c.live
      suspected := c.suspected.filter (fun r => (maskRanks c.nmemb s.subject.c).contains r)
      op := c.op.map (fun o => { o with excluded := o.excluded ++ (c.live.filter (fun r => !(maskRanks c.nmemb s.subject.c).contains r)).filter (fun r => !o.excluded.contains r && (c.members o.desc).contains r) }) })).raisePlien (engineDie c.eng) 14))
  ∧ (∀ s c, s.comm? s.subject.a = some c → c.live.contains c.rank = false → s.subject.c = 0 → c.live.contains s.subject.b = true →
    exec .spareJoin s = .next (s.tellMember c s.subject.b (toBytesLE 2 c.num ++ toBytesLE 4 c.rank)))

/-- A parked group that may move and for which a core qualifies, with a free slot and places for what it brings, stands on that core in a
team of its own, its live lanes pending at ep; a parked group for which none does, and whose limit is not "none", goes to alt with
MIGREF 6; a stage that parks is marked parked in its chain's record; a latched fold is performed when every stage has parked or ended
and none of its refusals holds, and refused with CHREF otherwise; a latched spread when its thread may spread; the scheduler may latch
either for a chain. -/
def Obligations.MigrationAndChainEvents : Prop :=
  (∀ s tm grp, s.team? s.subject.g.core s.subject.g.slot = some tm → s.group? s.subject.g = some grp → ∀ p c slot w tr st u, grp.park = some p → tm.folded = false → s.moveReady s.subject.g tm grp (s.parkNeeds s.subject.g tm grp p) = true →
    s.parkTarget s.subject.g tm grp p = some c → s.freeTeamSlot c = some slot →
    s.placeTeamRanges c (s.parkNeeds s.subject.g tm grp p).window (trapBytes grp.width / 256) ((s.parkNeeds s.subject.g tm grp p).storage tm grp.num) = some ((w, tr, st), u) →
    ∃ t new y, exec .migrationMove s = .next t ∧ t.team? c slot = some new ∧ new.ctx = tm.ctx ∧ new.migrated = true ∧ new.window = w ∧ new.groups = [y]
      ∧ y.park = none ∧ y.exec = none ∧ y.width = grp.width ∧ ∀ l ∈ grp.live, (y.lane l).tr = p.ep ∧ (y.lane l).live = true ∧ (y.lane l).held = none)
  ∧ (∀ s tm grp, s.team? s.subject.g.core s.subject.g.slot = some tm → s.group? s.subject.g = some grp → ∀ p, grp.park = some p → bits ((s.ctx? tm.ctx).getD {}).migpol.toNat 26 22 ≠ 31 → s.parkTarget s.subject.g tm grp p = none →
    exec .parkLimit s = .next ((s.modGroup s.subject.g (fun x => { x.pendAt x.live p.alt (s.core s.subject.g.core).cycles with
      park := none
      migref := 6
      stays := if p.ep = p.alt then some p.alt else none })).raisePlien (dieOf s.subject.g.core) 10))
  ∧ (∀ s tm grp, s.team? s.subject.g.core s.subject.g.slot = some tm → s.group? s.subject.g = some grp → s.stageParks s.subject.g tm grp = true → exec .stagePark s
    = .next (s.modChain s.subject.g.core s.subject.g.slot (fun t => { t with parkedStages := t.stageOf grp.num :: t.parkedStages })))
  ∧ (∀ s tm, s.team? s.subject.g.core s.subject.g.slot = some tm → tm.foldLatched = true → tm.folded = false → s.chainPutsDone s.subject.g.core s.subject.g.slot tm = true →
    (∀ x ∈ s.chainGroups s.subject.g.core s.subject.g.slot tm, tm.parkedStages.contains (tm.stageOf x.2.num) = true ∨ x.2.frame = true ∨ x.2.hm = true ∨ x.2.park.isSome = true) → ∀ a act, s.chainGroups s.subject.g.core s.subject.g.slot tm = a :: act →
    s.foldRefusal s.subject.g.core s.subject.g.slot tm (a :: act) = 0 → exec .chainFoldPerform s = .next (s.foldInto s.subject.g tm a (a :: act)))
  ∧ (∀ s tm, s.team? s.subject.g.core s.subject.g.slot = some tm → tm.foldLatched = true → tm.folded = false → s.chainPutsDone s.subject.g.core s.subject.g.slot tm = true →
    (∀ x ∈ s.chainGroups s.subject.g.core s.subject.g.slot tm, tm.parkedStages.contains (tm.stageOf x.2.num) = true ∨ x.2.frame = true ∨ x.2.hm = true ∨ x.2.park.isSome = true) →
    ∀ k, s.foldRefusal s.subject.g.core s.subject.g.slot tm (s.chainGroups s.subject.g.core s.subject.g.slot tm) = k + 1 → exec .chainFoldPerform s
      = .next (s.modChain s.subject.g.core s.subject.g.slot (fun t => { t with foldLatched := false, parkedStages := [], chref := k + 1 })))
  ∧ (∀ s tm, s.team? s.subject.g.core s.subject.g.slot = some tm → ∀ fo th, tm.fold = some fo → tm.folded = true → tm.spreadLatched = true → tm.groups[tm.threadPlace fo]? = some th → s.spreadable s.subject.g tm fo th = true →
    (∀ q ∈ tm.chans, q.2.mode = 2 → (fo.items th.width q.1).length ≤ q.2.depth) →
    let u := s.switchStage s.subject.g.core s.subject.g.slot (tm.stageOf fo.thread)
    ∀ tm' fo' th', u.team? s.subject.g.core s.subject.g.slot = some tm' → tm'.fold = some fo' → tm'.groups[tm'.threadPlace fo']? = some th' →
    exec .chainSpreadPerform s = .next (u.spreadOut s.subject.g tm' fo' th'))
  ∧ (∀ s tm, s.team? s.subject.g.core s.subject.g.slot = some tm → tm.stages ≠ [] → exec .schedulerChainLatch s
    = .next (s.modChain s.subject.g.core s.subject.g.slot (fun u => u.latch (s.foldable s.subject.g.core s.subject.g.slot tm) s.subject.ok)))

/-- A doorbell that moves TAIL forward by at most the slots of the queue sets it; PACKET_CLAIM of a COMMAND queue that serves and holds
unclaimed slots claims the next one and reads it; a LAUNCH that may start and passes its checks has its grid's teams to admit, and one
that fails ends with its STATUS; a FEED that may start and is well formed with a target starts; FEED_APPEND with room appends the next
record; a NOP that may start completes at once; PACKET_COMPLETE of a TASK record ends it, and of a packet writes STATUS and adds to its
SIGNAL where it has one. -/
def Obligations.QueueEvents : Prop :=
  let may (s : State) (x : HwQueue) (p : Packet) (kind : Nat) : Prop := p.started = false ∧ p.bytes ≠ [] ∧ leAt p.bytes 0 1 = kind
    ∧ s.queueServes x = true ∧ x.mayStart p (bit (leAt p.bytes 1 1) 0) = true
  (∀ s x, tget s.queues s.subject.a = some x → s.subject.b < 2 ^ 32 → (s.subject.b + 2 ^ 32 - x.tail) % 2 ^ 32 < 2 ^ 31 →
    (s.subject.b + 2 ^ 32 - x.head) % 2 ^ 32 ≤ x.slots →
    ∃ t, exec .doorbell s = .next t ∧ tget t.queues s.subject.a = some { x with tail := s.subject.b } ∧ t.mem = s.mem)
  ∧ (∀ s x, tget s.queues s.subject.a = some x → x.kind = 1 → (∀ p ∈ x.packets, p.bytes ≠ [] ∧ headerBad p.bytes = false) → x.next ≠ x.tail → s.queueServes x = true →
    s.mayClaim s.subject.g.core s.subject.a = true →
    let u := (s.modDie (dieOf s.subject.g.core) (fun d => { d with fbLast := s.subject.a })).modQueue s.subject.a (fun x => { x with
      next := (x.next + 1) % 2 ^ 32
      packets := x.packets ++ [{ idx := x.next, bytes := [], die := dieOf s.subject.g.core }] })
    ∀ key t, u.reach s.subject.a x.next s.subject.g.core x.ctx (x.slotVa x.next) 64 0 0xFE20 = (.ok key, t) → exec .packetClaim s
      = .next (t.modPacket s.subject.a x.next (fun p => { p with bytes := t.mem.readBytes key 64 })))
  ∧ (∀ s x p, s.packet? s.subject.a s.subject.b = some (x, p) → may s x p 1 → p.status = 0 → p.teams = 0 → s.agentServes (512 * p.die) p.bytes = true → s.launchFault x.ctx p.bytes = 0 → exec .launch s
    = .next { s.modPacket s.subject.a s.subject.b (fun q => { q with
        teams := (launchExtents p.bytes).1 * (launchExtents p.bytes).2.1 * (launchExtents p.bytes).2.2
        since := s.waits }) with waits := s.waits + 1 })
  ∧ (∀ s x p, s.packet? s.subject.a s.subject.b = some (x, p) → may s x p 1 → p.status = 0 → p.teams = 0 → s.agentServes (512 * p.die) p.bytes = true → s.launchFault x.ctx p.bytes ≠ 0 → exec .launch s
    = .next (s.modPacket s.subject.a s.subject.b (fun q => { q with started := true, status := s.launchFault x.ctx p.bytes })))
  ∧ (∀ s x p, s.packet? s.subject.a s.subject.b = some (x, p) → may s x p 2 → p.status = 0 → p.teams = 0 → zeroBytes p.bytes [(13, 3), (18, 2), (32, 16)] = true → leAt p.bytes 12 1 < 16 →
    leAt p.bytes 4 4 ≠ 0 → leAt p.bytes 4 4 ≤ 65536 → leAt p.bytes 24 8 % 64 = 0 → s.feedGrid x.ctx p.bytes ≠ none →
    exec .feed s = .next (s.modPacket s.subject.a s.subject.b (fun q => { q with teams := 1 })))
  ∧ (∀ s x p, s.packet? s.subject.a s.subject.b = some (x, p) → p.teams ≠ 0 → p.status = 0 → p.page = none → leAt p.bytes 0 1 = 2 → s.packetServes x p = true → ∀ core slot key t,
    s.resolveTeam x.ctx (leAt p.bytes 16 2) (leAt p.bytes 20 4) (0, 0) false (leAt p.bytes 8 4) = .here core slot → s.tqRoom core slot (leAt p.bytes 12 1) ≠ 0 →
    s.reach s.subject.a s.subject.b s.subject.g.core x.ctx (leAt p.bytes 24 8 + 64 * p.appended) 64 0 0xFE20 = (.ok key, t) →
    exec .feedAppend s = .next ((t.tqAppend core slot (leAt p.bytes 12 1) (t.mem.readBytes key 64)).modPacket s.subject.a s.subject.b (fun q =>
      { q with started := true, appended := q.appended + 1, status := if q.appended + 1 = leAt p.bytes 4 4 then 1 else 0 })))
  ∧ (∀ s x p, s.packet? s.subject.a s.subject.b = some (x, p) → may s x p 3 → exec .nopPacket s = .next (s.modPacket s.subject.a s.subject.b (fun q =>
      { q with started := true, status := if zeroBytes q.bytes [(4, 44)] = true then 1 else 2 })))
  ∧ (∀ s x p, s.packet? s.subject.a s.subject.b = some (x, p) → ∀ k, s.packetDone s.subject.a x p = some k → p.completed = false → p.page = none → p.failed = false → x.kind = 2 → exec .packetComplete s = .next ((s.modPacket s.subject.a s.subject.b (fun p => { p with completed := true })).modQueue s.subject.a
      (fun x => x.advance x.packets.length)))
  ∧ (∀ s x p, s.packet? s.subject.a s.subject.b = some (x, p) → ∀ k, s.packetDone s.subject.a x p = some k → p.completed = false → p.page = none → p.failed = false → x.kind ≠ 2 → leAt p.bytes 56 8 = 0 → ∀ key t, s.reach s.subject.a s.subject.b s.subject.g.core x.ctx (x.slotVa s.subject.b + 48) 8 1 0xFE20 = (.ok key, t) →
    exec .packetComplete s = .next (((t.storeLE key 8 k).modPacket s.subject.a s.subject.b (fun p => { p with completed := true })).modQueue s.subject.a
      (fun x => x.advance x.packets.length)))
  ∧ (∀ s x p, s.packet? s.subject.a s.subject.b = some (x, p) → ∀ k, s.packetDone s.subject.a x p = some k → p.completed = false → p.page = none → p.failed = false → x.kind ≠ 2 → leAt p.bytes 56 8 ≠ 0 → p.unsignalled = false → ∀ at_ u key t,
    s.signalKey s.subject.a s.subject.b s.subject.g.core x.ctx (leAt p.bytes 56 8) = (.ok at_, u) →
    u.reach s.subject.a s.subject.b s.subject.g.core x.ctx (x.slotVa s.subject.b + 48) 8 1 0xFE20 = (.ok key, t) → (t.storeLE key 8 k).poisonAt at_ 8 = none →
    let v := t.storeLE key 8 k
    exec .packetComplete s = .next (((((v.atomicWrite at_ 8 ((v.mem.readLE at_ 8 + 1) % 2 ^ 64)).tag at_ ⟨7, s.subject.g.core, 0, 0, 0, 1⟩).notifyBinds at_).modPacket
      s.subject.a s.subject.b (fun p => { p with completed := true })).modQueue s.subject.a (fun x => x.advance x.packets.length)))

/-- TEAM_ADMIT creates the next team of a launching packet on a core that admits it, in a free slot and at free places of its slice, and
counts it in its packet; GANG_ADMIT admits a gang on the best rectangle that can take it, lets go of its reservation and sends it to the
back of those that wait; GANG_RESERVE reserves the best rectangle of a die; GANG_STARVED reports a gang whose reservation is still not
free; ACQUIRE_GRANT grants the oldest request whose shortfall is free; TEAM_END ends a team that is done and frees its slot;
TASK_RECORD_CREATE creates the team of the next record of a TASK queue on a core that admits it, or drops it with TASK_TARGET. -/
def Obligations.AdmissionEvents : Prop :=
  (∀ s x p, s.packet? s.subject.a s.subject.b = some (x, p) → ∀ n, s.launchSpec s.subject.a x p p.created = some n → s.launching x p false = true → s.admits n s.subject.c none = true →
    ∀ slot w tr st u, s.freeTeamSlot s.subject.c = some slot → s.placeSpec n s.subject.c = some ((w, tr, st), u) →
    exec .teamAdmit s = .next (((u.createTeam n s.subject.c slot w tr st).modPacket n.queue n.idx (fun r => { r with started := true, created := r.created + 1 })).flushHeld))
  ∧ (∀ s x p, s.packet? s.subject.a s.subject.b = some (x, p) → s.launching x p true = true → s.agentServes (512 * p.die) p.bytes = true → ∀ r, s.bestOf (s.gangRects s.subject.a x p) = some r →
    ∃ t, exec .gangAdmit s = .next t ∧ t.cores = (((s.gangSpecs s.subject.a x p).zip r).foldl (fun s y => s.admitTeam y.1 y.2) s).cores
      ∧ (∀ d v, (t.die d).reserved = some v → v.1 ≠ gangKey s.subject.a s.subject.b))
  ∧ (∀ s x p, s.packet? s.subject.a s.subject.b = some (x, p) → s.launching x p true = true → s.agentServes (512 * p.die) p.bytes = true → ∀ n c, s.bestOf (s.gangRects s.subject.a x p) = some [c] →
    s.gangSpecs s.subject.a x p = [n] → ∀ slot w tr st u, s.freeTeamSlot c = some slot → s.placeSpec n c = some ((w, tr, st), u) →
    ∃ t, exec .gangAdmit s = .next t ∧ t.cores = (((u.createTeam n c slot w tr st).modPacket n.queue n.idx (fun r => { r with started := true, created := r.created + 1 })).flushHeld).cores)
  ∧ (∀ s x p, s.packet? s.subject.a s.subject.b = some (x, p) → s.gangWaits x p = true → s.reservable s.subject.c p = true → s.gangAhead s.subject.a x p = false → s.gangRects s.subject.a x p = [] → s.subject.c < 4 →
    ∀ r, s.bestOf ((rectangles s.subject.c (gangShape p).1 (gangShape p).2 (!(((s.launchKernel x.ctx p.bytes).map (·.d9)).getD false))).filter
      (fun r => r.all s.coreEnabled)) = some r →
    exec .gangReserve s = .next (s.modDie s.subject.c (fun d => { d with reserved := some (gangKey s.subject.a s.subject.b, r) })))
  ∧ (∀ s x p, s.packet? s.subject.a s.subject.b = some (x, p) → ∀ r, (s.die s.subject.c).reserved = some r → r.1 = gangKey s.subject.a s.subject.b → s.gangRects s.subject.a x p = [] →
    exec .gangStarved s = .next (s.raisePlien s.subject.c 0))
  ∧ (∀ s slot tm k, leastBy (fun (t : Nat × Team) => t.2.grantAsked.getD 0) ((s.coreTeams s.subject.g.core).filter (fun t => t.2.grantAsked.isSome && !t.2.granted))
      = some (slot, tm) → s.teamKernel? tm = some k →
    s.usedRegs s.subject.g.core + (s.shortfall s.subject.g.core tm).1 ≤ fileRegs s.subject.g.core →
    (s.shortfall s.subject.g.core tm).2 = 0 ∨ s.usedAccs s.subject.g.core + (s.shortfall s.subject.g.core tm).2 ≤ 4 →
    exec .acquireGrant s = .next (s.modTeam s.subject.g.core slot (fun t => { t with
      granted := true
      tileAllot := k.tiles
      accAllot := k.accs s.subject.g.core
      groups := t.groups.map (fun g => if g.vallot = 0 then g else { g with vallot := max g.vallot (k.vregs s.subject.g.core g.role) }) })))
  ∧ (∀ s tm, s.team? s.subject.g.core s.subject.g.slot = some tm → s.teamDone s.subject.g.core s.subject.g.slot tm = true →
    let w := if tm.migrated ∨ tm.fromTask then s else s.modPacket tm.lqueue tm.lslot (fun p => { p with ended := p.ended ++ [tm.teamno] })
    let u := w.modCore s.subject.g.core
      (fun k => if k.seqr.owner = some s.subject.g.slot then { k with seqr := {} } else k)
    exec .teamEnd s = .next (({ u with held := u.held.map (fun (h : HeldOp) =>
      if h.g.core = s.subject.g.core ∧ h.g.slot = s.subject.g.slot then { h with g := ⟨2 ^ 16, 0, 0⟩ } else h) } : State).removeTeam
        s.subject.g.core s.subject.g.slot).flushHeld)
  ∧ (∀ s x p n, tget s.queues s.subject.a = some x → x.kind = 2 → (s.die (dieOf s.subject.g.core)).fallback = false →
    x.packets.find? (fun p => !p.started && !p.bytes.isEmpty) = some p → s.queueServes x = true → x.mayStart p (bit (leAt p.bytes 22 2) 0) = true →
    s.recordSpec s.subject.a x p = some n → s.admits n s.subject.c none = true →
    ∀ slot w tr st u, s.freeTeamSlot s.subject.c = some slot → s.placeSpec n s.subject.c = some ((w, tr, st), u) →
    exec .taskRecordCreate s = .next (((u.createTeam n s.subject.c slot w tr st).modPacket n.queue n.idx (fun r => { r with started := true, created := r.created + 1 })).flushHeld))
  ∧ (∀ s x p, tget s.queues s.subject.a = some x → x.kind = 2 → (s.die (dieOf s.subject.g.core)).fallback = false →
    x.packets.find? (fun p => !p.started && !p.bytes.isEmpty) = some p → s.queueServes x = true → x.mayStart p (bit (leAt p.bytes 22 2) 0) = true →
    s.recordSpec s.subject.a x p = none → exec .taskRecordCreate s
      = .next ((s.modPacket s.subject.a p.idx (fun p => { p with started := true, status := 1 })).postRecord (dieOf s.subject.g.core)
          { cause := engCause s.subject.g.core 13, ctx := x.ctx, va := x.slotVa p.idx, elem := 0xFE20, core := s.subject.g.core }))

/-- PORT_PULL of a port that is not stopped and whose ring is not empty, with room in the queue and its record reached, puts the record at
TAIL and counts it; SUCCESSOR_DECREMENT of a counter that is reached, in a slice or in memory, takes one from it, with release at PACK,
and goes on to its record where it has become 0 and is over otherwise; SUCCESSOR_APPEND of a record that has been read appends it to the
queue that delivered its record, with room, a team task queue or the hardware queue, and is over. -/
def Obligations.TaskEvents : Prop :=
  (∀ s tm, s.team? s.subject.g.core s.subject.g.slot = some tm → ∀ tq, tget tm.queues s.subject.a = some tq → (nth tq.ports s.subject.b ⟨0, 0⟩).slots ≠ 0 → tget tq.stopped s.subject.b = none → tm.ending = false →
    s.enginesRun tm.ctx = true → s.tq s.subject.g.core s.subject.g.slot s.subject.a (0x40 + 0x20 * s.subject.b + 4) ≠ s.tq s.subject.g.core s.subject.g.slot s.subject.a (0x40 + 0x20 * s.subject.b) →
    s.tqRoom s.subject.g.core s.subject.g.slot s.subject.a ≠ 0 → ∀ segs t,
    s.translateRange (s.pullAccess s.subject.g tm tq s.subject.a s.subject.b) 64 3 0 [] = (.ok segs, t) → t.loadFault (segForm segs) true segs = none →
    exec .portPull s = .next (t.pulled s.subject.g tm tq s.subject.a s.subject.b segs))
  ∧ (∀ s w, (s.core s.subject.g.core).succs[s.subject.a]? = some w → w.decremented = false → w.parkedPage = none → s.enginesRun w.ctx = true → opSpace w.counter = 2 → w.counter % 4 = 0 →
    ∀ key, s.sliceCounter (opValue w.counter) = .ok (some key) → s.poisonAt key 4 = none → let t := s
    let v := (t.mem.readLE key 4 + 2 ^ 32 - 1) % 2 ^ 32
    let u := ((t.atomicWrite key 4 v).tag key ⟨5, s.subject.g.core, 0, 0, 0, 1⟩).notifyBinds key
    exec .successorDecrement s = .next (if v = 0 ∧ w.record ≠ 0 then u.modSucc s.subject.g.core s.subject.a (fun w => { w with decremented := true, zero := true })
      else u.succDone s.subject.g.core s.subject.a w))
  ∧ (∀ s w, (s.core s.subject.g.core).succs[s.subject.a]? = some w → w.decremented = false → w.parkedPage = none → s.enginesRun w.ctx = true → opSpace w.counter = 0 → w.counter % 4 = 0 →
    ∀ key leaf t, s.translate { core := s.subject.g.core, who := asks 4 w.slot w.grp, ctx := w.ctx, va := opValue w.counter, acc := 2, keyperm := s.keypermOf w.ctx } = (.ok key leaf, t) →
    t.poisonAt key 4 = none →
    let v := (t.mem.readLE key 4 + 2 ^ 32 - 1) % 2 ^ 32
    let u := ((t.atomicWrite key 4 v).tag key ⟨5, s.subject.g.core, 0, 0, 0, 1⟩).notifyBinds key
    exec .successorDecrement s = .next (if v = 0 ∧ w.record ≠ 0 then u.modSucc s.subject.g.core s.subject.a (fun w => { w with decremented := true, zero := true })
      else u.succDone s.subject.g.core s.subject.a w))
  ∧ (∀ s w, (s.core s.subject.g.core).succs[s.subject.a]? = some w → w.zero = true → w.parkedPage = none → s.enginesRun w.ctx = true → ∀ bs tm, w.bytes = some bs → s.team? s.subject.g.core w.slot = some tm → tm.ending = false →
    w.queue ≠ 16 → (tget tm.queues w.queue).isSome = true → s.tqRoom s.subject.g.core w.slot w.queue ≠ 0 →
    exec .successorAppend s = .next ((s.tqAppend s.subject.g.core w.slot w.queue bs).succDone s.subject.g.core s.subject.a w))
  ∧ (∀ s w, (s.core s.subject.g.core).succs[s.subject.a]? = some w → w.zero = true → w.parkedPage = none → s.enginesRun w.ctx = true → ∀ bs tm x, w.bytes = some bs → s.team? s.subject.g.core w.slot = some tm →
    w.queue = 16 → tget s.queues tm.lqueue = some x → (x.tail + 2 ^ 32 - x.head) % 2 ^ 32 < x.slots → ∀ key leaf t,
    s.translateBytes { core := s.subject.g.core, who := asks 4 w.slot w.grp, ctx := w.ctx, va := x.slotVa x.tail, acc := 1, keyperm := s.keypermOf w.ctx } 64
      = (.ok key leaf, t) →
    exec .successorAppend s = .next (((t.store key bs).modQueue tm.lqueue (fun x => { x with tail := (x.tail + 1) % 2 ^ 32 })).succDone
      s.subject.g.core s.subject.a w))

/-- QUANTUM_EXPIRY of a run list of one that holds the running process changes nothing, and of a longer one gives the turn to the next
process, whose queues are mapped and the last one's not; BUCKET_REFILL fills every enabled bucket by RATE up to CAP; BUCKET_CHARGE takes
the charge of an enabled bucket, for bucket 1 the bytes performed since the last one, and a context with an enabled level at or below 0
is descheduled and pre-empted; PREEMPT of a context that is not pre-empted marks it and posts it to the die of every one of its teams;
PREEMPT_COMPLETE with every acknowledgement held saves the context's teams of the die and reports; NMV_PREEMPT_STOP is acknowledged;
HANDLER_TIMEOUT discards the trapped execution; CONTEXT_RESTORE whose turn it is restores the next saved team where its core and
resources are free, and lets the context go on when none is left. -/
def Obligations.PreemptionEvents : Prop :=
  (∀ s, s.runList.length < 2 → s.runList = [] ∨ s.runList.contains s.runNext = true → exec .quantumExpiry s = .next s)
  ∧ (∀ s n, 2 ≤ s.runList.length → ((s.runList.find? (fun c => decide (s.runNext < c))).or s.runList.head?) = some n → n ≠ s.runNext →
    ∃ t, exec .quantumExpiry s = .next t ∧ t.runNext = n ∧ t.mem = s.mem ∧ ∀ k q, tget s.queues k = some q → ∃ r, tget t.queues k = some r
      ∧ r = { q with mapped := if q.ctx = n then true else if q.ctx = s.runNext then false else q.mapped })
  ∧ (∀ (s : State) (n : Nat) (c : Ctx) (k : Nat) (b : Bucket), tget s.ctxs n = some c → c.buckets[k]? = some b → b.cap ≠ 0 →
    ∃ (t : State) (c' : Ctx) (b' : Bucket), exec .bucketRefill s = .next t ∧ tget t.ctxs n = some c' ∧ c'.buckets[k]? = some b' ∧ b'.level = min (b.level + b.rate) b.cap ∧ t.mem = s.mem)
  ∧ (∀ s c b, s.ctx? s.subject.a = some c → c.buckets[s.subject.b]? = some b → b.cap ≠ 0 →
    ∃ t c' b', exec .bucketCharge s = .next t ∧ t.ctx? s.subject.a = some c' ∧ c'.buckets[s.subject.b]? = some b' ∧ t.mem = s.mem
      ∧ b'.level = b.level - (if s.subject.b = 1 then b.due else s.subject.c) ∧ (s.subject.b = 1 → b'.due = 0)
      ∧ c'.descheduled = (c.descheduled || c'.buckets.any (fun x => x.cap != 0 && decide (x.level ≤ 0)))
      ∧ (c.descheduled = false → c'.descheduled = true → c'.preempted = true))
  ∧ (∀ s c, s.ctx? s.subject.a = some c → c.preempted = false →
    ∃ t c', exec .preempt s = .next t ∧ t.ctx? s.subject.a = some c' ∧ c' = { c with preempted := true } ∧ t.mem = s.mem ∧ t.cores = s.cores
      ∧ ∀ core slot, (core, slot) ∈ s.teamsOf s.subject.a → dieOf core < 4 → ∃ g ∈ (t.die (dieOf core)).gutter, g.ctx = s.subject.a ∧ core ∈ g.due ∧ g.done = false)
  ∧ (∀ s g, (s.die s.subject.a).gutter.find? (fun g => g.ctx == s.subject.b) = some g → (∀ x ∈ g.due, x < 4096 ∧ s.coreStopped s.subject.b x = true) →
    exec .preemptComplete s = .next (((((s.teamsOf s.subject.b).filter (fun p => dieOf p.1 == s.subject.a)).foldl (fun s p => s.saveTeam p.1 p.2) s).modDie
      s.subject.a (fun d => { d with gutter := d.gutter.filter (fun x => x.ctx != s.subject.b) })).fileSaveArea s.subject.b))
  ∧ (∀ s, ∃ t, exec .nmvPreemptStop s = .next t ∧ (∀ g ∈ (t.die s.subject.a).gutter, 4096 + s.subject.b ∉ g.due) ∧ t.mem = s.mem)
  ∧ (∀ s tm grp, s.team? s.subject.g.core s.subject.g.slot = some tm → s.group? s.subject.g = some grp → grp.hm = true → grp.timedOut = false → (∃ c, s.ctx? tm.ctx = some c ∧ c.preempted = true) →
    ∃ t y, exec .handlerTimeout s = .next t ∧ t.group? s.subject.g = some y ∧ y.trapped = none ∧ y.timedOut = true ∧ y.regs = grp.regs ∧ y.lanes = grp.lanes)
  ∧ (∀ s c v rest, s.ctx? s.subject.a = some c → c.preempted = true → c.descheduled = false → c.stopped = none → (∀ d, d < 4 → ∀ g ∈ (s.die d).gutter, g.ctx ≠ s.subject.a) →
    (∀ q ∈ s.queues, q.2.ctx = s.subject.a → q.2.mapped = true) → c.saved = v :: rest → s.coreEnabled v.core = true → s.restorable v v.core = true →
    let u := (s.modCtx s.subject.a (fun c => { c with saved := rest, movedFrom := c.movedFrom })).placeTeam v v.core v.slot v.team.window v.team.trapt v.team.storage
    exec .contextRestore s = .next (if rest = [] then u.endRestore s.subject.a c.movedFrom else u))
  ∧ (∀ s c, s.ctx? s.subject.a = some c → c.preempted = true → c.descheduled = false → c.stopped = none → (∀ d, d < 4 → ∀ g ∈ (s.die d).gutter, g.ctx ≠ s.subject.a) →
    (∀ q ∈ s.queues, q.2.ctx = s.subject.a → q.2.mapped = true) → c.saved = [] → exec .contextRestore s = .next (s.endRestore s.subject.a c.movedFrom))

/-- HB_INCREMENT of an undegraded start advances the heartbeat of its die; FALLBACK_BEGIN marks a die whose heartbeat stood still, reports
it and raises its event, and FALLBACK_END ends it when the heartbeat has advanced; PLIEN_RELOAD after the start reloads; PACKAGE_START
runs the next step of a start; POWER_LOSS restarts the package; START_CLEAR clears the record and begins a stopped start anew. Which
entries START_CLEAR clears, that it restarts a stopped start, and what a restart keeps are the model's reading (log 47, DEDUCED). -/
def Obligations.FirmwareEvents : Prop :=
  (∀ s, s.boot.reloaded = none → s.boot.degraded = false → s.subject.a < s.bar0.hb.length →
    ∃ t, exec .hbIncrement s = .next t ∧ t.heart s.subject.a = s.heart s.subject.a + 1#64 ∧ t.mem = s.mem ∧ { t with bar0 := s.bar0 } = s)
  ∧ (∀ s, (s.die s.subject.a).fallback = false → exec .fallbackBegin s
    = .next (((s.modDie s.subject.a (fun x => { x with
      fallback := true
      hbSeen := (s.heart s.subject.a).toNat
      fbLast := 65536
      fbQueues := (s.queues.filter (fun q => q.2.mapped)).map (·.1) })).postEvent 5 0
        (toBytesLE 1 s.subject.a ++ [1#8])).raisePlien s.subject.a 3))
  ∧ (∀ s, (s.die s.subject.a).fallback = true → (s.die s.subject.a).hbSeen ≠ (s.heart s.subject.a).toNat → exec .fallbackEnd s
    = .next ((s.modDie s.subject.a (fun x => { x with fallback := false })).postEvent 5 0 (toBytesLE 1 s.subject.a ++ [0#8])))
  ∧ (∀ s, 24 < s.boot.step → exec .plienReload s = .next (s.reloadPlien s.subject.a s.subject.ok (fun s => (s.outcome 22 (fun e => { e with outcome := 2 })).restart)))
  ∧ (∀ s, s.starting = true → exec .packageStart s = .next (((s.pick 2).2.pick 256).2.runStep ((s.pick 2).1 == 1) ((s.pick 2).2.pick 256).1))
  ∧ (∀ s, s.subject.ok = false → exec .powerLoss s = .next s.restart)
  ∧ (∀ s b, Asked s 13 0 false [] b → exec .startClear s = .next (State.complete { s with boot := { s.boot.write (s.boot.record.entries.map clearedEntry) with
      halted := false
      step := if s.boot.halted then 0 else s.boot.step } } s.subject.a 1 0))

/-- UE_CONSUME of a group that owes an uncorrectable error and runs nothing consumes it; ECC_ERROR of a listed kind records the error;
SCRUB_ACCESS with scrubbing on goes one granule further in its pass, sets BEHIND where the fraction of the pass still to do exceeds that
of DEADLINE still left, and of a clean granule changes nothing else, of another records its error; ERRSTAT_CLEAR clears the whole bank;
EVLOST_CLEAR clears the register; REGISTER_WRITE writes the register at its offset. -/
def Obligations.ErrorAndRegisterEvents : Prop :=
  (∀ s grp tr, s.group? s.subject.g = some grp → grp.exec = none → grp.owed.find? (fun t => decide (256 ≤ t.cause ∧ t.cause < 320)) = some tr →
    exec .ueConsume s = .next ((s.modGroup s.subject.g (fun y => { y with owed := y.owed.erase tr })).consume s.subject.g tr.cause (tr.info1 == 0)))
  ∧ (∀ s, s.subject.a ≤ 7 → exec .eccError s = .next (s.storageError ⟨s.subject.a, s.subject.b, s.subject.g, s.subject.c, s.subject.d, !s.subject.ok || decide (6 ≤ s.subject.a), false⟩))
  ∧ (∀ s, bit s.bar0.scrubcfg.toNat 16 = true → s.subject.c = 0 →
    let todo := s.scrubPass - (s.scrub + 1)
    let deadline := bits s.bar0.scrubcfg.toNat 15 0 * 60000000000
    let behind := decide (s.scrub + 1 < s.scrubPass) && decide ((deadline - (s.scrubTime + s.subject.d)) * s.scrubPass < todo * deadline)
    ∃ t, exec .scrubAccess s = .next t ∧ t.scrub = (if s.scrub + 1 < s.scrubPass then s.scrub + 1 else 0)
      ∧ t.bar0.scrubcfg = BitVec.ofNat 32 (bits s.bar0.scrubcfg.toNat 16 0 + 131072 * b2n behind)
      ∧ { t with bar0 := s.bar0, scrub := s.scrub, scrubTime := s.scrubTime, dies := s.dies } = s)
  ∧ (∀ s, bit s.bar0.scrubcfg.toNat 16 = true → s.subject.c ≠ 0 →
    let g := s.scrubGranule s.scrub
    let u := s.storageError { kind := g.1, at_ := g.2, g := ⟨g.2 / 2 ^ 21, 0, 0⟩, lane := 0, uc := decide (1 < s.subject.c), scrub := true }
    ∃ t, exec .scrubAccess s = .next t ∧ t.banks = u.banks ∧ t.poison = u.poison ∧ t.scrub = (if s.scrub + 1 < s.scrubPass then s.scrub + 1 else 0))
  ∧ (∀ s b, s.banks[s.subject.a]? = some b → ∃ t, exec .errstatClear s = .next t ∧ t.banks[s.subject.a]? = some {} ∧ { t with banks := s.banks } = s)
  ∧ (∀ s, ∃ t, exec .evlostClear s = .next t ∧ t.bar0.evlost = 0#32 ∧ { t with bar0 := s.bar0 } = s)
  ∧ (∀ s, ∃ t, exec .registerWrite s = .next t ∧ t.bar0 = s.bar0.write s.subject.a s.subject.c s.subject.b ∧ { t with bar0 := s.bar0 } = s)

/-- LINK_CHANGE brings a link of the package up or down, or says which sessions one that is up carries; LINK_PACKET_RECEIVE on a link that
is up counts the packet, has one with a bad tag resent and at the eighth failure in a row takes the link down, and learns a window that
a peer exports; LINK_KEY_UPDATE after 2^32 packets draws new keys; PEER_ACCESS over a link that is up and carries a session with the
peer is performed within one 64-byte block: one that its window and tables admit reads, writes, or performs the atomic that the subject
names (log 14, DESIGN CHOICE, is its form) and is answered. -/
def Obligations.FabricEvents : Prop :=
  let atom (s : State) : Atomic := {
    op := s.subject.t.handle % 8, typ := s.subject.t.kern % 6, scope := s.subject.g.slot % 8, order := s.subject.t.idx % 4,
    addr := 0, space := 0, value := leAt s.subject.bytes 0 8, cmp := leAt s.subject.bytes 8 8, dst := none }
  let may (s : State) (acc n : Nat) : Prop := acc = (if s.subject.g.grp ≠ 0 then 2 else b2n s.subject.ok)
    ∧ n = (if acc = 0 then s.subject.d else if acc = 1 then s.subject.bytes.length else (atom s).bytes) ∧ n ≠ 0 ∧ s.subject.c % 64 + n ≤ 64
    ∧ ∃ l ∈ s.links, l.up = true ∧ l.peers.contains s.subject.a = true
  (∀ s l, s.links[s.subject.a]? = some l → s.hasLink s.subject.a = true → l.up ≠ s.subject.ok → exec .linkChange s
    = .next (if s.subject.ok then s.linkUp s.subject.a s.subject.b (s.subject.bytes.map (·.toNat)) ((s.subject.bytes.map (·.toNat)).drop s.subject.c) else s.linkDown s.subject.a))
  ∧ (∀ s l, s.links[s.subject.a]? = some l → s.hasLink s.subject.a = true → l.up = true → s.subject.ok = true → exec .linkChange s
    = .next (s.modLink s.subject.a (fun l => { l with
      reach := s.subject.bytes.map (·.toNat)
      peers := (s.subject.bytes.map (·.toNat)).drop s.subject.c
      keyGen := l.keyGen + 1 })))
  ∧ (∀ s l, s.links[s.subject.a]? = some l → l.up = true → s.subject.ok = true → s.subject.c = 0 → exec .linkPacketReceive s
    = .next (s.modLink s.subject.a (fun l' => { l' with packets := l.packets + s.subject.b + 1, failures := 0 })))
  ∧ (∀ s l, s.links[s.subject.a]? = some l → l.up = true → s.subject.ok = true → s.subject.c ≠ 0 → l.peers.contains s.subject.t.handle = true →
    ∃ t, exec .linkPacketReceive s = .next t ∧ t.windows = (⟨s.subject.t.handle, s.subject.t.kern, min s.subject.d (2 ^ 40), windowCauses (s.subject.bytes.length / 10) s.subject.bytes⟩ : PeerWindow)
        :: s.windows.filter (fun w => !(w.pack == s.subject.t.handle && w.ctx == s.subject.t.kern))
      ∧ t.mem = s.mem ∧ t.out = s.out)
  ∧ (∀ s l, s.links[s.subject.a]? = some l → l.up = true → s.subject.ok = false →
    ∃ t l', exec .linkPacketReceive s = .next t ∧ t.links[s.subject.a]? = some l' ∧ l'.up = decide (l.failures < 7)
      ∧ l'.failures = l.failures + 1 ∧ (l.failures < 7 → t.out = s.out ++ [⟨1, s.subject.a, [0#8]⟩]))
  ∧ (∀ s l, s.links[s.subject.a]? = some l → l.up = true → 2 ^ 32 ≤ l.packets →
    exec .linkKeyUpdate s = .next (s.modLink s.subject.a (fun l => { l with packets := l.packets - 2 ^ 32, keyGen := l.keyGen + 1 })))
  ∧ (∀ s acc n, may s acc n → exec .peerAccess s = .next (s.peerAccess s.subject.a s.subject.b s.subject.c acc s.subject.d s.subject.bytes (atom s)))
  ∧ (∀ s w key leaf t, may s 0 (s.subject.d) → s.exports.find? (fun w => w.pack == s.subject.a && w.ictx == s.subject.b) = some w →
    s.subject.c + s.subject.d ≤ w.len → (s.ctx? w.ctx).isSome = true → s.translatePeer {
      core := 0, who := asks 7 s.subject.a s.subject.b, ctx := w.ctx,
      va := w.va + s.subject.c, acc := 0, keyperm := ((s.ctx? w.ctx).getD {}).keyperm } = (.ok key leaf, t) →
    exec .peerAccess s = .next (t.answerPeer s.subject.a 0 (t.mem.readBytes key s.subject.d) (t.poisonAt key s.subject.d).isSome))
  ∧ (∀ s w key leaf t, may s 1 (s.subject.bytes.length) → s.exports.find? (fun w => w.pack == s.subject.a && w.ictx == s.subject.b) = some w →
    s.subject.c + s.subject.bytes.length ≤ w.len → (s.ctx? w.ctx).isSome = true → s.translatePeer {
      core := 0, who := asks 7 s.subject.a s.subject.b, ctx := w.ctx,
      va := w.va + s.subject.c, acc := 1, keyperm := ((s.ctx? w.ctx).getD {}).keyperm } = (.ok key leaf, t) →
    exec .peerAccess s = .next ((t.store key s.subject.bytes).answerPeer s.subject.a 0 []))
  ∧ (∀ s w key leaf t, may s 2 ((atom s).bytes) → s.exports.find? (fun w => w.pack == s.subject.a && w.ictx == s.subject.b) = some w →
    s.subject.c + (atom s).bytes ≤ w.len → (s.ctx? w.ctx).isSome = true → s.translatePeer {
      core := 0, who := asks 7 s.subject.a s.subject.b, ctx := w.ctx,
      va := w.va + s.subject.c, acc := 2, keyperm := ((s.ctx? w.ctx).getD {}).keyperm } = (.ok key leaf, t) →
    t.poisonAt key (atom s).bytes = none → let old := t.mem.readLE key (atom s).bytes
    ∃ u, exec .peerAccess s = .next u ∧ u.mem = t.mem.writeLE key (atom s).bytes ((atom s).result old)
      ∧ u.out = t.out ++ [⟨1, s.subject.a, toBytesLE 2 0 ++ [0#8] ++ toBytesLE (atom s).bytes old⟩]
      ∧ ((atom s).order = 2 ∨ (atom s).order = 3 → u.tagAt key = some ⟨(atom s).scope, 4096 * (s.subject.a + 1), 0, 0, 0, 1⟩))

/-- A request whose turn it is, whose OP, flags and ARGS are those of the operation and whose context lives is performed, and its record
gets the STATUS and RESULT of the operation: CTX_CREATE, CTX_DESTROY, CTX_RESUME, MAP, UNMAP, Q_CREATE, Q_DESTROY, LOAD, UNLOAD, EXPORT,
BUCKET, CORE_INFO, COMM_CREATE and COMM_DESTROY; MAP and UNMAP wait while an atomic of their range is in flight; an OP that names none
completes BADREQ. -/
def Obligations.ManagementRequestEvents : Prop :=
  (∀ s b, Asked s 1 6 false [(16, 14)] b → leAt b 2 2 = 0 → exec .ctxCreate s = .next (s.answered (s.createContext b)))
  ∧ (∀ s b, Asked s 2 0 true [] b → s.waiting.filter (fun j => j != s.subject.a && s.requestCtx j == leAt b 2 2) = [] →
    exec .ctxDestroy s = .next (s.answered (some (1, 0), s.destroyContext (leAt b 2 2))))
  ∧ (∀ s b, Asked s 3 0 true [] b → exec .ctxResume s = .next (s.answered (some (1, 0), s.modCtx (leAt b 2 2) (fun c => { c with stopped := none }))))
  ∧ (∀ s b, Asked s 4 0 true [(16, 25)] b → exec .map s = .next (s.answered (s.map (leAt b 2 2) b)))
  ∧ (∀ s b, Asked s 5 0 true [(16, 16), (40, 1)] b → exec .unmap s = .next (s.answered (s.unmap (leAt b 2 2) b)))
  ∧ (∀ s b, Asked s 6 0 true [(16, 14)] b → exec .qCreate s = .next (s.answered (s.createQueue (leAt b 2 2) b)))
  ∧ (∀ s b, Asked s 7 0 true [(16, 2)] b → exec .qDestroy s = .next (s.answered (s.destroyQueue (leAt b 2 2) b)))
  ∧ (∀ s b, Asked s 8 1 true [(16, 16)] b → exec .load s = .next (s.answered (let r := s.loadObject (leAt b 2 2) (leAt b 16 8) (leAt b 24 8) (bit (leAt b 1 1) 0); (some (r.1, r.2.1), r.2.2))))
  ∧ (∀ s b, Asked s 9 0 true [(16, 4)] b → ∀ c o, s.ctx? (leAt b 2 2) = some c → tget c.objects (leAt b 16 4) = some o →
    s.unloadWaits (leAt b 2 2) (leAt b 16 4) c = false → exec .unload s = .next (s.answered (some (1, 0), s.unloadObject (leAt b 2 2) (leAt b 16 4) o)))
  ∧ (∀ s b, Asked s 10 0 true [(16, 20)] b → leAt b 16 8 % 4096 = 0 → leAt b 24 8 % 4096 = 0 → leAt b 24 8 ≤ 2 ^ 40 → leAt b 32 2 ≤ 143 → leAt b 34 2 < 4096 →
    exec .exportWindow s = .next (s.answered (some (1, 0), { s with exports := ⟨leAt b 2 2, leAt b 16 8, leAt b 24 8, leAt b 32 2, leAt b 34 2⟩ :: s.exports })))
  ∧ (∀ s b, Asked s 14 0 true [(16, 1), (24, 24)] b → leAt b 16 1 ≤ 2 →
    exec .bucket s = .next (s.answered (some (1, 0), s.modCtx (leAt b 2 2) (fun c => { c with buckets := c.buckets.modify (leAt b 16 1) (fun k =>
      k.rewrite (leAt b 24 8) (leAt b 32 8) (signed64 (leAt b 40 8))) }))))
  ∧ (∀ s b, Asked s 12 0 false [(16, 1), (18, 2)] b → leAt b 16 1 ≤ 3 → leAt b 18 2 ≤ 287 → exec .coreInfo s = .next (s.answered (some (1, s.coreCaps (512 * leAt b 16 1 + leAt b 18 2)), s)))
  ∧ (∀ s b, Asked s 15 0 true [(16, 14), (32, 8)] b → exec .commCreate s = .next (s.answered (s.createComm (leAt b 2 2) b)))
  ∧ (∀ s b, Asked s 16 0 true [(16, 2)] b → ∀ c, s.comm? (leAt b 16 2) = some c → c.ctx = leAt b 2 2 → c.op = none →
    exec .commDestroy s = .next (s.answered (some (1, 0), { s with comms := s.comms.filter (fun x => x.num != c.num) })))
  ∧ (∀ s b, s.request? s.subject.a = some b → leAt b 0 1 = 0 ∨ 16 < leAt b 0 1 → exec .badreq s = .next (s.complete s.subject.a 3 0))

/-- For a context with DEBUG and without CONF: HALT halts the group at its trace boundary; RESUME of a halted group resumes it; STEP makes
it run one execution; READ_FRAME and WRITE_FRAME read and write 8 bytes of its frame; READ_BRK and WRITE_BRK a breakpoint register;
READ_MODE and WRITE_MODE its MODE. Each completes with STATUS 1. -/
def Obligations.DebugRequestEvents : Prop :=
  (∀ s b g x, AskedDebug s 0 b g → s.group? g = some x → x.halt = .none → exec .debugHalt s
    = .next ((s.modGroup g (fun y => if y.exec.isSome then { y with haltAsked := true } else (y.haltFor .request).unpark (s.core g.core).cycles)).complete s.subject.a 1 0))
  ∧ (∀ s b g x, AskedDebug s 1 b g → s.group? g = some x → x.halt ≠ .none → exec .debugResume s = .next ((s.resume g).complete s.subject.a 1 0))
  ∧ (∀ s b g x, AskedDebug s 2 b g → s.group? g = some x → x.halt = .none →
    exec .debugStep s = .next ((s.modGroup g (fun y => { y with stepping := true })).complete s.subject.a 1 0))
  ∧ (∀ s b g, AskedDebug s 3 b g → s.frameOffset g b = true → exec .debugReadFrame s = .next (s.complete s.subject.a 1 (ofBytesLE (s.readTrapTile g (leAt b 24 4) 8))))
  ∧ (∀ s b g, AskedDebug s 4 b g → s.frameOffset g b = true →
    exec .debugWriteFrame s = .next ((s.writeTrapTile g (leAt b 24 4) (toBytesLE 8 (leAt b 32 8))).complete s.subject.a 1 0))
  ∧ (∀ s b g c, AskedDebug s 5 b g → s.ctx? (leAt b 2 2) = some c → leAt b 22 1 ≤ 3 → exec .debugReadBrk s = .next (s.complete s.subject.a 1 (nth c.brk (leAt b 22 1) 0#64).toNat))
  ∧ (∀ s b g, AskedDebug s 6 b g → leAt b 22 1 ≤ 3 → exec .debugWriteBrk s = .next ((s.modCtx (leAt b 2 2) (fun c =>
      { c with brk := c.brk.set (leAt b 22 1) (BitVec.ofNat 64 (csrAfter 0x10 (csrAfter 0x10 0 false (leAt b 32 8 % 2 ^ 32)) true (leAt b 32 8 / 2 ^ 32))) })).complete s.subject.a 1 0))
  ∧ (∀ s b g x, AskedDebug s 7 b g → s.group? g = some x → exec .debugReadMode s = .next (s.complete s.subject.a 1 x.mode.toNat))
  ∧ (∀ s b g, AskedDebug s 8 b g → exec .debugWriteMode s = .next ((s.modGroup g (fun x =>
      { x with mode := BitVec.ofNat 32 (csrAfter 2 x.mode.toNat false (leAt b 32 8 % 2 ^ 32)) })).complete s.subject.a 1 0))

/-- After the start, a request that the connection's state admits and whose bytes make it is answered with its response, signed for
CHALLENGE, GET_MEASUREMENTS and KEY_EXCHANGE, and the connection goes to its next state; one whose bytes do not make it is answered with
ERROR 1 and moves nothing; nothing else changes. Which bytes make a request, and the bodies, are opaque (log 15, DESIGN CHOICE), and the
order of the states is the model's choice (log 15, DESIGN CHOICE). -/
def Obligations.AttestationEvents : Prop :=
  (∀ s, s.spdm.stage ≠ 0 → exec .getVersion s = .next (if Config.spdmAccepts 0x84 s.subject.bytes = true
      then { s with spdm := { stage := 2, keyGen := s.spdm.keyGen }, out := s.out ++ [⟨3, 0x04, Config.spdmBody 0x84 s.subject.bytes (s.evidence 0x84 false)⟩] } else { s with out := s.out ++ [⟨3, 0x7F, [1#8]⟩] }))
  ∧ (∀ s, s.spdm.stage = 2 → exec .getCapabilities s = .next (if Config.spdmAccepts 0xE1 s.subject.bytes = true
      then { s with spdm := { s.spdm with stage := 3 }, out := s.out ++ [⟨3, 0x61, Config.spdmBody 0xE1 s.subject.bytes (s.evidence 0xE1 false)⟩] } else { s with out := s.out ++ [⟨3, 0x7F, [1#8]⟩] }))
  ∧ (∀ s, s.spdm.stage = 3 → exec .negotiateAlgorithms s = .next (if Config.spdmAccepts 0xE3 s.subject.bytes = true
      then { s with spdm := { s.spdm with stage := 4 }, out := s.out ++ [⟨3, 0x63, Config.spdmBody 0xE3 s.subject.bytes (s.evidence 0xE3 false)⟩] } else { s with out := s.out ++ [⟨3, 0x7F, [1#8]⟩] }))
  ∧ (∀ s, s.spdm.stage = 4 → exec .getDigests s = .next (if Config.spdmAccepts 0x81 s.subject.bytes = true
      then { s with spdm := s.spdm, out := s.out ++ [⟨3, 0x01, Config.spdmBody 0x81 s.subject.bytes (s.evidence 0x81 false)⟩] } else { s with out := s.out ++ [⟨3, 0x7F, [1#8]⟩] }))
  ∧ (∀ s, s.spdm.stage = 4 → exec .getCertificate s = .next (if Config.spdmAccepts 0x82 s.subject.bytes = true
      then { s with spdm := s.spdm, out := s.out ++ [⟨3, 0x02, Config.spdmBody 0x82 s.subject.bytes (s.evidence 0x82 false)⟩] } else { s with out := s.out ++ [⟨3, 0x7F, [1#8]⟩] }))
  ∧ (∀ s, s.spdm.stage = 4 → exec .challenge s = .next (if Config.spdmAccepts 0x83 s.subject.bytes = true
      then { s with spdm := s.spdm, out := s.out ++ [⟨3, 0x03, Config.spdmBody 0x83 s.subject.bytes (s.evidence 0x83 true) ++ Config.spdmBody 0x183 s.subject.bytes (s.evidence 0x83 true)⟩] } else { s with out := s.out ++ [⟨3, 0x7F, [1#8]⟩] }))
  ∧ (∀ s, s.spdm.stage = 4 → exec .getMeasurements s = .next (if Config.spdmAccepts 0xE0 s.subject.bytes = true
      then { s with spdm := s.spdm, out := s.out ++ [⟨3, 0x60, Config.spdmBody 0xE0 s.subject.bytes (s.evidence 0xE0 true) ++ Config.spdmBody 0x1E0 s.subject.bytes (s.evidence 0xE0 true)⟩] } else { s with out := s.out ++ [⟨3, 0x7F, [1#8]⟩] }))
  ∧ (∀ s, s.spdm.stage = 4 ∧ s.spdm.session = false ∧ s.spdm.handshaking = false → exec .keyExchange s = .next (if Config.spdmAccepts 0xE4 s.subject.bytes = true
      then { s with spdm := { s.spdm with handshaking := true }, out := s.out ++ [⟨3, 0x64, Config.spdmBody 0xE4 s.subject.bytes (s.evidence 0xE4 true) ++ Config.spdmBody 0x1E4 s.subject.bytes (s.evidence 0xE4 true)⟩] } else { s with out := s.out ++ [⟨3, 0x7F, [1#8]⟩] }))
  ∧ (∀ s, s.spdm.stage ≠ 0 ∧ s.spdm.handshaking = true → exec .finish s = .next (if Config.spdmAccepts 0xE5 s.subject.bytes = true
      then { s with spdm := { s.spdm with handshaking := false, session := true, keyGen := s.spdm.keyGen + 1 }, out := s.out ++ [⟨3, 0x65, Config.spdmBody 0xE5 s.subject.bytes (s.evidence 0xE5 false)⟩] } else { s with out := s.out ++ [⟨3, 0x7F, [1#8]⟩] }))
  ∧ (∀ s, s.spdm.stage ≠ 0 ∧ s.spdm.session = true → exec .heartbeat s = .next (if Config.spdmAccepts 0xE8 s.subject.bytes = true
      then { s with spdm := s.spdm, out := s.out ++ [⟨3, 0x68, Config.spdmBody 0xE8 s.subject.bytes (s.evidence 0xE8 false)⟩] } else { s with out := s.out ++ [⟨3, 0x7F, [1#8]⟩] }))
  ∧ (∀ s, s.spdm.stage ≠ 0 ∧ s.spdm.session = true → exec .keyUpdate s = .next (if Config.spdmAccepts 0xE9 s.subject.bytes = true
      then { s with spdm := { s.spdm with keyGen := s.spdm.keyGen + 1 }, out := s.out ++ [⟨3, 0x69, Config.spdmBody 0xE9 s.subject.bytes (s.evidence 0xE9 false)⟩] } else { s with out := s.out ++ [⟨3, 0x7F, [1#8]⟩] }))
  ∧ (∀ s, s.spdm.stage ≠ 0 ∧ s.spdm.session = true → exec .endSession s = .next (if Config.spdmAccepts 0xEC s.subject.bytes = true
      then { s with spdm := { s.spdm with session := false }, out := s.out ++ [⟨3, 0x6C, Config.spdmBody 0xEC s.subject.bytes (s.evidence 0xEC false)⟩] } else { s with out := s.out ++ [⟨3, 0x7F, [1#8]⟩] }))

/-- Where nothing else is set to happen first and an execution stands at a word, the focused group's or, where arbitration gives the issue
slot to another group of the core, that group's, step is exec of the instruction that the decoder reads from that word in the encoding
of the group's core; the same holds when the agenda names the group, whose entry it takes off. Where the group has a shadow that is due
and no choice lets it go first, the step is the shadow's (log 27, DESIGN CHOICE); a group without one always goes. Where the focused
group is inside its run, arbitration leaves it the slot. That one step serves one slot of a core is the model's reading (log 55,
DEDUCED). exec itself moves the offset past the instruction. -/
def Obligations.StepRunsTheInstruction : Prop :=
  (∀ (s : State) (g : GRef) (tm : Team) (grp : Group) (x : Exec) (bytes : List Byte) (i : Instr), s.agenda = [] → s.starting = false → s.arbitrate.standing = some (g, tm, grp, x) → decode (s.encOf g) bytes = .ok (i, []) →
    x.word = BitVec.ofNat 64 (ofBytesLE bytes) →
    step s = let (goes, t) := s.arbitrate.leadFirst g; if goes then exec i t else exec .shadowCompare { t with subject := { g := g, ok := true } })
  ∧ (∀ (s : State) (g : GRef) (grp : Group), s.group? g = some grp → grp.shadow = false → s.leadFirst g = (true, s))
  ∧ (∀ (s : State) (g h : GRef) (rest : List Turn) (tm : Team) (grp : Group) (x : Exec) (bytes : List Byte) (i : Instr), s.agenda = .group g :: rest → ({ s with agenda := rest, focus := some g } : State).arbitrate.standing = some (h, tm, grp, x) →
    decode (s.encOf h) bytes = .ok (i, []) → x.word = BitVec.ofNat 64 (ofBytesLE bytes) →
    step s = let (goes, t) := ({ s with agenda := rest, focus := some g } : State).arbitrate.leadFirst h
      if goes then exec i t else exec .shadowCompare { t with subject := { g := h, ok := true } })
  ∧ (∀ (s : State) (g : GRef) (tm : Team) (grp : Group) (x : Exec), s.standing = some (g, tm, grp, x) → x.run ≠ 0 → s.arbitrate = s)

/-- With an event of the table at the head of the agenda, step is exec of it with its subject; with an empty agenda it is the next step of a
start that goes on; else, where no execution stands, the event that is the focused group's turn or due, or nothing where there is none.
The agenda is the model's own (log 4, DESIGN CHOICE). -/
def Obligations.StepRunsTheEvent : Prop :=
  (∀ s i u rest, s.agenda = .event i u :: rest → wordOf i = none → step s = exec i { s with agenda := rest, subject := u })
  ∧ (∀ s, s.agenda = [] → s.starting = true → step s = exec .packageStart s)
  ∧ (∀ s i u, s.agenda = [] → s.starting = false → s.arbitrate.standing = none → s.turn = some (i, u) → step s = exec i { s with subject := u })
  ∧ (∀ s, s.agenda = [] → s.starting = false → s.arbitrate.standing = none → s.turn = none → step s = .next s)

/-- Nine words that the spec prints beside the lines that they assemble decode to those instructions with those operands: ADD, FMA, BFX,
VOTE, ATOMR, TRAP and END in D9, FMA and ICMP in L9 with an extension word. Opcodes 0xE7, 0xD9 and 0xDA are HALT, CHAIN.FOLD and
CHAIN.SPREAD; each has FN 0 alone and no operand or immediate field in use; the words printed for HALT, CHAIN.FOLD and (p3) CHAIN.FOLD
decode to them, with PRED 7, 7 and 3; and the lanes that act on a CHAIN.FOLD or CHAIN.SPREAD that is ready are those that stand there
and for which PRED is 1. -/
def Obligations.WordsDecodeAsTheSpecAssemblesThem : Prop :=
  (∃ f, decodeWord .d9 0x9087101403000640#64 = .add f ∧ f.dst.num = 5#8 ∧ f.sa.num = 3#8 ∧ immField f = 100 ∧ f.fn = 14#4 ∧ f.pred = 2#4 ∧ f.stall = 2#4 ∧ f.rb = true)
  ∧ (∃ f, decodeWord .d9 0x2218382A01008EB0#64 = .fma f ∧ f.dst.num = 10#8 ∧ f.sa.cls = true ∧ f.sa.num = 1#8 ∧ f.sb.num = 2#8 ∧ f.sc.num = 235#8 ∧ f.stall = 4#4)
  ∧ (∃ f, decodeWord .d9 0x0144B81805001880#64 = .bfx f ∧ f.dst.num = 6#8 ∧ f.sa.num = 5#8 ∧ immField f = 0x188 ∧ f.fn = 9#4)
  ∧ (∃ f, decodeWord .d9 0x0421382403000000#64 = .vote f ∧ f.dst.num = 9#8 ∧ f.sa.num = 3#8 ∧ f.fn = 2#4)
  ∧ (∃ f, decodeWord .d9 0x0588385006020150#64 = .atomr f ∧ f.dst.num = 20#8 ∧ f.sa.num = 6#8 ∧ f.sb.num = 8#8)
  ∧ (∃ f, decodeWord .d9 0x0704380000000030#64 = .trap f ∧ immField f = 3)
  ∧ (∃ f, decodeWord .d9 0x0014380000000020#64 = .endTrace f ∧ immField f = 2)
  ∧ (∃ f, decodeWord .l9 0xCD038000A1814084#64 = .fma f ∧ f.dst.num = 10#8 ∧ f.sa.cls = true ∧ f.sa.num = 1#8 ∧ f.sb.num = 2#8 ∧ f.sc.num = 51#8)
  ∧ (∃ f, decodeWord .l9 0x0003800797502100#64 = .icmp false f ∧ f.dst.num = 1#8 ∧ f.sa.num = 2#8 ∧ immField f = 7)
  ∧ (∀ fn, opInfo 0xE7 fn = some {} ∧ opInfo 0xD9 fn = some {} ∧ opInfo 0xDA fn = some {}) ∧ ({} : OpInfo).fns = [0] ∧ ({} : OpInfo).imm = 0
  ∧ (∀ p ∈ [({} : OpInfo).dst, ({} : OpInfo).sa, ({} : OpInfo).sb, ({} : OpInfo).sc], p = ⟨.unused, false, false⟩)
  ∧ (∃ f, decodeWord .d9 0x0738380000000000#64 = .halt f ∧ f.fn = 0#4 ∧ f.pred = 7#4) ∧ (∀ f, ofOp 0xE7#8 f = .halt f)
  ∧ (∃ f, decodeWord .d9 0x06C8380000000000#64 = .chainFold f ∧ f.fn = 0#4 ∧ f.pred = 7#4) ∧ (∀ f, ofOp 0xD9#8 f = .chainFold f)
  ∧ (∃ f, decodeWord .d9 0x06C8180000000000#64 = .chainFold f ∧ f.fn = 0#4 ∧ f.pred = 3#4) ∧ (∀ f, ofOp 0xDA#8 f = .chainSpread f)
  ∧ (∀ (op : Nat) (f : Fields) (s : State) (i : Iss), op = 0xD9 ∨ op = 0xDA → readyAt op f s = some i → i.acting = i.here.filter (fun l => predHolds i.grp i.x i.x.off i.now (servedEarly i.old l 15) f l))

/-- For every well-formed instruction of D9, D8, D7 and L9, with every operand at every value that its encoding admits, decoding its bytes
gives the instruction and nothing is left over. -/
def Obligations.DecodeOfEncodeIsTheInstruction : Prop :=
  ∀ (i : Instr) (op : BitVec 8) (f : Fields), wordOf i = some (op, f) → wellFormed i = none →
    ∀ rest, decode f.enc (encode i ++ rest) = .ok (i, rest)

/-- After reset no byte of memory is written and nothing is poisoned; no context, queue, core or communicator is in use and no atomic is in
flight; no start step has been run; heartbeats, ring registers, event counters and error banks are 0, SCRUBCFG is 0x000102D0. That a
byte nothing has written reads 0 (log 2, DESIGN CHOICE), which state reset leaves where the spec gives no value (log 1, DESIGN CHOICE),
and that the start has still to run (log 16) are the model's. -/
def Obligations.ResetLeaves : Prop :=
  (∀ a, State.reset.mem.read a = 0#8) ∧ State.reset.poison = [] ∧ State.reset.ctxs = [] ∧ State.reset.cores = [] ∧ State.reset.queues = [] ∧ State.reset.comms = []
  ∧ State.reset.sent = [] ∧ State.reset.boot.step = 0 ∧ State.reset.bar0.hb = [0#64, 0#64, 0#64, 0#64] ∧ State.reset.bar0.mrbase = 0#64
  ∧ State.reset.bar0.mrsize = 0#32 ∧ State.reset.bar0.mrhead = 0#32 ∧ State.reset.bar0.evbase = 0#64 ∧ State.reset.bar0.evsize = 0#32 ∧ State.reset.bar0.evhead = 0#32
  ∧ State.reset.bar0.evtail = 0#32 ∧ State.reset.bar0.evlost = 0#32 ∧ State.reset.bar0.scrubcfg = 0x000102D0#32 ∧ (∀ b ∈ State.reset.banks, b.stat = 0#64 ∧ b.addr = 0#64)

/-- Memory as reset leaves it is in its one canonical form. -/
def Obligations.ResetMeetsTheInvariant : Prop :=
  Sys2Proof.Machine.Inv State.reset

/-- From every state whose memory is in canonical form (addresses strictly rising, no entry equal to what an unlisted address reads as),
whatever instruction or event the step runs, the memory of the next state is in canonical form. -/
def Obligations.EveryStepKeepsTheInvariant : Prop :=
  ∀ s t, Sys2Proof.Machine.Inv s → step s = .next t → Sys2Proof.Machine.Inv t

/-- Whatever instruction word a group's execution stands at, other than a terminator: where it is ready and issues (its execution has gone
on to the next offset), no byte of memory, no committed register, predicate, uniform register or stochastic state of the group, no
control register of a context and no other core has changed. -/
def Obligations.InstructionsLeaveMemoryUntilCommit : Prop :=
  ∀ ins op f s i t x, wordOf ins = some (op, f) → (∀ r, opInfo op.toNat f.fn.toNat = some r → r.term = false) → readyAt op.toNat f s = some i →
    exec ins s = .next t → t.execAt i.g = some x → x.off = i.x.off + 1 →
    t.mem = s.mem ∧ t.ctxs = s.ctxs ∧ (∀ c, c ≠ i.g.core → tget t.cores c = tget s.cores c)
      ∧ ∃ y : Group, t.group? i.g = some y ∧ y.regs = i.grp.regs ∧ y.preds = i.grp.preds ∧ y.uregs = i.grp.uregs ∧ y.sr = i.grp.sr ∧ y.srseed = i.grp.srseed

/-- For every integer, address, bitwise, compare, move, predicate and lane instruction, in every encoding: where it is ready and issues, its
team, with TSTAT and every sticky bit, and its group's control state are as before (but for the steps of priority that it had gained by
waiting); all that it leaves is results at the places that its destination names, an item put into the channel that its destination
names, and the pops of its sources. -/
def Obligations.IntegerAndLaneInstructionsKeepNoFlags : Prop :=
  let keeps (ins : Instr) : Prop := ∀ op f s i t x, wordOf ins = some (op, f) → readyAt op.toNat f s = some i → exec ins s = .next t →
    t.execAt i.g = some x → x.off = i.x.off + 1 →
    (∃ tm' : Team, t.team? i.g.core i.g.slot = some tm' ∧ { tm' with groups := i.tm.groups } = i.tm)
    ∧ (∃ y : Group, t.group? i.g = some y ∧ { y with exec := i.grp.exec, waited := i.grp.waited } = i.grp) ∧ t.ctxs = s.ctxs
    ∧ ∃ n effs, x.issued = n :: i.x.issued ∧ x.buf = i.x.buf ++ ((capture i).pops ++ effs).map (fun e => ⟨i.x.off, e⟩)
      ∧ (∀ w ∈ n.writes, w.1.reg ∈ i.o.dst.regs ∨ i.op = 0x88) ∧ (∀ e ∈ effs, ∃ q items b, e = .put q items ∧ i.o.dst = .chan q b)
  (∀ f, keeps (.add f))
  ∧ (∀ f d a b r, keeps (.addL9 f d a b r))
  ∧ (∀ f, keeps (.sub f))
  ∧ (∀ f d a b r, keeps (.subL9 f d a b r))
  ∧ (∀ f, keeps (.mullo f))
  ∧ (∀ d a b r, keeps (.mulloL9 d a b r))
  ∧ (∀ f, keeps (.mulhi f))
  ∧ (∀ f d a b r, keeps (.mulhiL9 f d a b r))
  ∧ (∀ f, keeps (.mad f))
  ∧ (∀ f, keeps (.min f))
  ∧ (∀ f d a b r, keeps (.minL9 f d a b r))
  ∧ (∀ f, keeps (.max f))
  ∧ (∀ f d a b r, keeps (.maxL9 f d a b r))
  ∧ (∀ f, keeps (.abs f))
  ∧ (∀ d a r, keeps (.absL9 d a r))
  ∧ (∀ f, keeps (.neg f))
  ∧ (∀ f d a r, keeps (.negL9 f d a r))
  ∧ (∀ f, keeps (.aadd f))
  ∧ (∀ d a b r, keeps (.aaddL9 d a b r))
  ∧ (∀ f, keeps (.amad f))
  ∧ (∀ f, keeps (.and f))
  ∧ (∀ d a b r, keeps (.andL9 d a b r))
  ∧ (∀ f, keeps (.or f))
  ∧ (∀ d a b r, keeps (.orL9 d a b r))
  ∧ (∀ f, keeps (.xor f))
  ∧ (∀ d a b r, keeps (.xorL9 d a b r))
  ∧ (∀ f, keeps (.andn f))
  ∧ (∀ d a b r, keeps (.andnL9 d a b r))
  ∧ (∀ f, keeps (.not f))
  ∧ (∀ d a r, keeps (.notL9 d a r))
  ∧ (∀ f, keeps (.shl f))
  ∧ (∀ d a b r, keeps (.shlL9 d a b r))
  ∧ (∀ f, keeps (.shr f))
  ∧ (∀ f d a b r, keeps (.shrL9 f d a b r))
  ∧ (∀ f, keeps (.rot f))
  ∧ (∀ d a b r, keeps (.rotL9 d a b r))
  ∧ (∀ f, keeps (.bfx f))
  ∧ (∀ f d a b r, keeps (.bfxL9 f d a b r))
  ∧ (∀ f, keeps (.bfi f))
  ∧ (∀ f, keeps (.popc f))
  ∧ (∀ d a r, keeps (.popcL9 d a r))
  ∧ (∀ f, keeps (.clz f))
  ∧ (∀ d a r, keeps (.clzL9 d a r))
  ∧ (∀ f, keeps (.ctz f))
  ∧ (∀ d a r, keeps (.ctzL9 d a r))
  ∧ (∀ f, keeps (.brev f))
  ∧ (∀ d a r, keeps (.brevL9 d a r))
  ∧ (∀ f, keeps (.sel f))
  ∧ (∀ f, keeps (.mov f))
  ∧ (∀ d a r, keeps (.movL9 d a r))
  ∧ (∀ f, keeps (.movi f))
  ∧ (∀ f, keeps (.movh f))
  ∧ (∀ f, keeps (.movx f))
  ∧ (∀ d a r, keeps (.movxL9 d a r))
  ∧ (∀ f, keeps (.sreg f))
  ∧ (∀ f, keeps (.umov f))
  ∧ (∀ f, keeps (.pand f))
  ∧ (∀ d a b r, keeps (.pandL9 d a b r))
  ∧ (∀ f, keeps (.por f))
  ∧ (∀ d a b r, keeps (.porL9 d a b r))
  ∧ (∀ f, keeps (.pxor f))
  ∧ (∀ d a b r, keeps (.pxorL9 d a b r))
  ∧ (∀ f, keeps (.pnot f))
  ∧ (∀ d a r, keeps (.pnotL9 d a r))
  ∧ (∀ f, keeps (.vote f))
  ∧ (∀ f d a r, keeps (.voteL9 f d a r))
  ∧ (∀ f, keeps (.elect f))
  ∧ (∀ d r, keeps (.electL9 d r))
  ∧ (∀ f, keeps (.readlane f))
  ∧ (∀ d a b r, keeps (.readlaneL9 d a b r))
  ∧ (∀ f, keeps (.shfl f))
  ∧ (∀ f d a b r, keeps (.shflL9 f d a b r))
  ∧ (∀ n32 f, keeps (.icmp n32 f))
  ∧ (∀ s c d a b r, keeps (.icmpL9 s c d a b r))

/-- Every access of any agent, of any kind, whose 64-bit device virtual address has one of bits 63 to 49 set fails with the cause ADDR_RANGE
(128), and nothing of the machine changes: no cache is looked up, no entry of the pending-translation table is taken and no walk begins. -/
def Obligations.AddressesBeyond49BitsFail : Prop :=
  ∀ (s : State) (a : Access), a.va / 2 ^ 49 ≠ 0 → s.translate a = (.fail 128 0, s)

/-- An element of S8, S16, S32, W3, W4 or W6 has the two's complement value of its low 8, 16, 32, 3, 4 or 6 bits, and one of N8, N16 or N32
the unsigned value of its low 8, 16 or 32 bits, whatever stands above them; each is as wide as its name says. Every W3 value lies from
-4 to 3, every W4 value from -8 to 7, every W6 value from -32 to 31, and each value of these ranges is that of an encoding. In memory
the byte at the lowest address is the least significant. -/
def Obligations.IntegerFormatsAreTwosComplementOrUnsigned : Prop :=
  let signed (k n : Nat) : Prop := ∃ x, convFormat k = some x ∧ x.width = n ∧ ∀ w, x.decode w = ofSigned (BitVec.ofNat n w).toInt 0
  let unsigned (k n : Nat) : Prop := ∃ x, convFormat k = some x ∧ x.width = n ∧ ∀ w, x.decode w = ofSigned (BitVec.ofNat n w).toNat 0
  let range (k : Nat) (lo hi : Int) : Prop := ∃ x, convFormat k = some x ∧ (∀ w, ∃ v, lo ≤ v ∧ v ≤ hi ∧ x.decode w = ofSigned v 0)
    ∧ (∀ v, lo ≤ v → v ≤ hi → ∃ w, w < 2 ^ x.width ∧ x.decode w = ofSigned v 0)
  signed 5 8 ∧ signed 7 16 ∧ signed 9 32 ∧ unsigned 6 8 ∧ unsigned 8 16 ∧ unsigned 10 32 ∧ signed 11 3 ∧ signed 12 4 ∧ signed 13 6
  ∧ range 11 (-4) 3 ∧ range 12 (-8) 7 ∧ range 13 (-32) 31
  ∧ (∀ (m : Memory) (a n : Nat), m.readLE a (n + 1) = (m.read a).toNat + 256 * m.readLE (a + 1) n)

/-- The seed of lane l under SEED is SEED xor ((l + 1) times 0x9E3779B9 mod 2^32), or 1 where that is 0; a step is the xorshift by 13, 17
and 5, and the bits drawn are its upper 16; neither is ever 0. A new group is seeded with SRSEED 0, and a committed CSRW of SRSEED seeds
every lane of the group, live or not, after the states that the trace left, and is what CSRR then reads. -/
def Obligations.StochasticStatesAreSeeded : Prop :=
  (∀ seed l, srSeed seed l = (let v := seed ^^^ BitVec.ofNat 32 ((l + 1) * 0x9E3779B9 % 2 ^ 32); if v = 0#32 then 1#32 else v) ∧ srSeed seed l ≠ 0#32)
  ∧ (∀ x : Word, srStep x = (let y := x ^^^ (x <<< 13); let z := y ^^^ (y >>> 17); z ^^^ (z <<< 5)))
  ∧ (∀ x : Word, x ≠ 0#32 → srStep x ≠ 0#32 ∧ srBits x = (x >>> 16).toNat)
  ∧ (∀ (p : Spec) now n role l, l < p.k.width → (p.group now n role).srseed = 0#32 ∧ sget (p.group now n role).sr l = srSeed 0#32 l)
  ∧ (∀ (s : State) (g : GRef) (grp : Group) (hi : Bool) (v : Nat), s.group? g = some grp → ∃ y : Group, (s.csrWrite g 0x0C hi v).group? g = some y ∧ y.srseed = BitVec.ofNat 32 v
      ∧ (∀ l, l < grp.width → sget y.sr l = srSeed (BitVec.ofNat 32 v) l) ∧ y.regs = grp.regs)

/-- Taking a trap, other than FEATURE_ABSENT or one of the scheduling and firmware class, of a group that is not in handler mode and whose
context has TRAPBASE.EN set: the execution stops and is frozen with its buffered effects; the group is in handler mode; every lane of
the execution is pending, held by nothing, at the trace that TRAPBASE names, and every other lane is as before; committed registers are
unchanged; the trap tile holds the cause, the offset, the lanes, FLANES, INFO0 and INFO1; and no byte outside the frame and its replay
entries changes. That a handler trace in another object is of its kernel 0 is the model's reading (log 20, DEDUCED). -/
def Obligations.TrapsEnterTheHandler : Prop :=
  ∀ (s : State) (g : GRef) (tm : Team) (grp : Group) (x : Exec) (c : Ctx) (tr : Trap) (off : Nat) (skip restart : Bool), s.team? g.core g.slot = some tm → s.group? g = some grp → grp.exec = some x → s.ctx? tm.ctx = some c →
    grp.hm = false → c.trapbase.getLsbD 63 = true → tr.cause ≠ 84 → tr.cause < 320 → Sys2Proof.Machine.Inv s →
    let t := s.takeTrap g tr off skip restart
    ∃ y : Group, t.group? g = some y ∧ y.hm = true ∧ y.frame = true ∧ y.exec = none ∧ y.handlerLanes = x.here
      ∧ (restart = false → ∃ z : Exec, y.trapped = some z ∧ z.buf = x.buf ∧ z.off = off ∧ z.here = x.here) ∧ (restart = true → y.trapped = none)
      ∧ y.regs = grp.regs ∧ y.preds = grp.preds ∧ y.uregs = grp.uregs ∧ y.sr = grp.sr
      ∧ (∀ l, l < grp.lanes.length → if x.here.contains l then (y.lane l).tr = handlerTrace tm.handle tm.kernel c.trapbase ∧ (y.lane l).held = none
          else y.lane l = grp.lane l)
      ∧ leAt (t.readTrapTile g 0 256) 0 2 = tr.cause % 2 ^ 16 ∧ leAt (t.readTrapTile g 0 256) 2 1 = off % 256
      ∧ leAt (t.readTrapTile g 0 256) 0x20 16 = laneMask x.here % 2 ^ 128 ∧ leAt (t.readTrapTile g 0 256) 0x30 16 = laneMask tr.flanes % 2 ^ 128
      ∧ leAt (t.readTrapTile g 0 256) 0x40 8 = tr.info0 % 2 ^ 64 ∧ leAt (t.readTrapTile g 0 256) 0x48 8 = tr.info1 % 2 ^ 64
      ∧ (∀ a, a < sliceKey g.core (trapOffset tm g.grp grp.width) ∨ sliceKey g.core (trapOffset tm g.grp grp.width) + trapBytes grp.width ≤ a →
          t.mem.read a = s.mem.read a)

/-- Taking a trap in handler mode is a double trap: the context is stopped with the DOUBLE_TRAP cause of its die. Taking one with
TRAPBASE.EN clear, other than a breakpoint, stops the context with the trap's own cause, the lanes pending again at the head of the
trace. In both the execution is gone and the committed registers are unchanged. A breakpoint with EN clear halts the group with its
frame written. That with EN clear the execution is discarded and its lanes are pending at the head is the model's reading (log 33,
DEDUCED). -/
def Obligations.TrapsWithoutAHandlerStopTheContext : Prop :=
  (∀ (s : State) (g : GRef) (tm : Team) (grp : Group) (x : Exec) (c : Ctx) (tr : Trap) (off : Nat) (skip : Bool), s.team? g.core g.slot = some tm → s.group? g = some grp → grp.exec = some x → s.ctx? tm.ctx = some c → grp.hm = true →
    let t := s.takeTrap g tr off skip false
    ∃ (y : Group) (k : Ctx), t.group? g = some y ∧ y.exec = none ∧ y.frame = true ∧ y.regs = grp.regs ∧ t.ctx? tm.ctx = some k ∧ k.stopped = some (320 + 16 * dieOf g.core + 1))
  ∧ (∀ (s : State) (g : GRef) (tm : Team) (grp : Group) (x : Exec) (c : Ctx) (tr : Trap) (off : Nat) (skip : Bool), s.team? g.core g.slot = some tm → s.group? g = some grp → grp.exec = some x → s.ctx? tm.ctx = some c → grp.hm = false →
    c.trapbase.getLsbD 63 = false → tr.cause < 108 ∨ 112 ≤ tr.cause →
    let t := s.takeTrap g tr off skip false
    ∃ (y : Group) (k : Ctx), t.group? g = some y ∧ y.exec = none ∧ y.frame = true ∧ y.hm = false ∧ y.regs = grp.regs ∧ t.ctx? tm.ctx = some k ∧ k.stopped = some tr.cause
      ∧ (∀ l ∈ x.here, l < grp.lanes.length → (y.lane l).tr = x.tr))
  ∧ (∀ (s : State) (g : GRef) (tm : Team) (grp : Group) (x : Exec) (c : Ctx) (tr : Trap) (off : Nat) (skip : Bool), s.team? g.core g.slot = some tm → s.group? g = some grp → grp.exec = some x → s.ctx? tm.ctx = some c → grp.hm = false →
    c.trapbase.getLsbD 63 = false → 108 ≤ tr.cause → tr.cause < 112 →
    let t := s.takeTrap g tr off skip false
    ∃ y : Group, t.group? g = some y ∧ y.exec = none ∧ y.frame = true ∧ y.halt = .breakpoint ∧ y.regs = grp.regs)

/-- An opcode that the map does not assign takes the trap ILLEGAL_OPCODE, and opcode 1 TRACE_MALFORMED. In every encoding, an LD, LDX, ST,
LDF, STF, ACCWR, JOB or MXGO that is ready traps with TILE_MASK, TILE_STATE or TILE_ATOMIC, in that order, naming the acting lanes; then
LDF and STF with the cause of the format; then LD, LDX, ST, LDF, STF and ACCWR with TILE_BOUNDS for the lanes beyond the tile, then LD,
LDX, ST and LDF.BF16X2 with TILE_ALIGN for those misaligned, naming every failing lane and the operand of the lowest; JOB and MXGO with
TILE_ALIGN, then TILE_BOUNDS. TDEF, TREL and TPOST of a queue's tile trap with TILE_STATE, TDEF of a bad or differing definition with
TILE_DEF, of a tile filling or draining with TILE_STATE, TPOST of a tile not READY with TILE_STATE; ACCRD and ACCWR beyond the
accumulator with ACC_BOUNDS. CSRW to GANGWAIT outside the privileged slot traps with CSR_ACCESS, RETT outside handler mode with
TRAP_MODE, an arrival after another in its trace with ILLEGAL_OPERAND. Each trap is taken in the cycle of the issue, where the group's
shadow, if it has one, has reached the instruction (R409). -/
def Obligations.ChecksTrapWithTheCauseOfTheFirstThatFails : Prop :=
  let isTrap (ins : Instr) (s : State) (i : Iss) (t : Trap) : Prop :=
    exec ins s = .next (((i.s.leave i.g i.now []).clockTo i.g.core i.now).takeTrap i.g t i.x.off false false)
  let tile (i : Iss) : Tile := (i.tile i.o.sa).2
  let traps (ins : Instr) (P : Iss → Table (List Word) → Prop) (t : Iss → Trap) : Prop := ∀ op f s i, wordOf ins = some (op, f) → readyAt op.toNat f s = some i →
    i.grp.shadowBehind i.x.off = false → P i (capture i).words → isTrap ins s i (t i)
  let usable (need : Nat) (i : Iss) : Prop := need ≤ maskCode i.x.mask (i.tile i.o.sa).1 ∧ (tile i).state ≠ .undef ∧ (tile i).atomic = false
  let misuse (ins : Instr) (need : Nat) (P : Iss → Prop) : Prop :=
    traps ins (fun i ws => actingWords i ws ≠ [] ∧ P i ∧ maskCode i.x.mask (i.tile i.o.sa).1 < need) (fun i => ⟨92, i.named i.acting, 0, 0⟩)
    ∧ traps ins (fun i ws => actingWords i ws ≠ [] ∧ P i ∧ need ≤ maskCode i.x.mask (i.tile i.o.sa).1 ∧ (tile i).state = .undef) (fun i => ⟨91, i.named i.acting, 0, 0⟩)
    ∧ traps ins (fun i ws => actingWords i ws ≠ [] ∧ P i ∧ need ≤ maskCode i.x.mask (i.tile i.o.sa).1 ∧ (tile i).state ≠ .undef ∧ (tile i).atomic = true)
        (fun i => ⟨90, i.named i.acting, 0, 0⟩)
  let offs (k : Nat) (i : Iss) (ws : Table (List Word)) : List (Nat × Nat) := (actingWords i ws).map (fun p => (p.1, (lastWord i p.2 0).toNat * k))
  let failing (ins : Instr) (cause : Nat) (P : Iss → Table (List Word) → Prop) (k : Iss → Nat) (bad : Iss → Nat → Bool) : Prop :=
    ∀ l o rest, traps ins (fun i ws => P i ws ∧ (offs (k i) i ws).filter (fun p => bad i p.2) = (l, o) :: rest)
      (fun i => ⟨cause, if i.scalar then i.here else l :: rest.map (·.1), o % 2 ^ 64, (i.tile i.o.sa).1⟩)
  let sound (k : Iss → Nat) (bad : Iss → Nat → Bool) (i : Iss) (ws : Table (List Word)) : Prop := ∀ p ∈ offs (k i) i ws, bad i p.2 = false
  let size (i : Iss) : Nat := accessSize (i.f.fn.toNat % 8)
  let past (i : Iss) (o : Nat) : Bool := decide ((tile i).bytes < o + size i)
  let bytes (ins : Instr) (need : Nat) (k : Iss → Nat) : Prop := misuse ins need (fun _ => True)
    ∧ failing ins 88 (fun i _ => usable need i) k past ∧ failing ins 89 (fun i ws => usable need i ∧ sound k past i ws) k (fun i o => o % size i != 0)
  let twos (i : Iss) : Nat := if i.op = 0xA3 ∧ i.f.fn.toNat % 8 = 1 then 1 else 0
  let beyond (i : Iss) (e : Nat) : Bool := decide ((tile i).nelem ≤ e + twos i)
  let formed (need : Nat) (i : Iss) : Prop := usable need i ∧ (tile i).fmt ≠ 0#5 ∧ formatFault (tile i).fmt.toNat (tile i).geom.toNat = none
  let elements (ins : Instr) (need : Nat) : Prop := misuse ins need (fun _ => True)
    ∧ traps ins (fun i ws => actingWords i ws ≠ [] ∧ usable need i ∧ (tile i).fmt = 0#5) (fun i => ⟨94, i.named i.acting, 0, 0⟩)
    ∧ (∀ c, traps ins (fun i ws => actingWords i ws ≠ [] ∧ usable need i ∧ (tile i).fmt ≠ 0#5 ∧ formatFault (tile i).fmt.toNat (tile i).geom.toNat = some c)
        (fun i => ⟨c, i.named i.acting, 0, 0⟩))
    ∧ failing ins 88 (fun i _ => formed need i) (fun _ => 1) beyond
  let block (ins : Instr) (unit len : Nat) (P : Iss → Prop) : Prop :=
    traps ins (fun i ws => i.acting ≠ [] ∧ P i ∧ usable 1 i ∧ (nth (leadWords i ws) 0 0#32).toNat % unit ≠ 0) (fun i => ⟨89, i.acting, (nth (leadWords i (capture i).words) 0 0#32).toNat, (i.tile i.o.sa).1⟩)
    ∧ traps ins (fun i ws => i.acting ≠ [] ∧ P i ∧ usable 1 i ∧ (nth (leadWords i ws) 0 0#32).toNat % unit = 0 ∧ (tile i).bytes < (nth (leadWords i ws) 0 0#32).toNat + len)
        (fun i => ⟨88, i.acting, (nth (leadWords i (capture i).words) 0 0#32).toNat, (i.tile i.o.sa).1⟩)
  let first (i : Iss) : Prop := isLcore i.g.core = false ∧ i.x.cameBefore i.f.enc [0xD3] = false
  let valid (i : Iss) (ws : Table (List Word)) : Bool := allSame i ws && tdefValid i.teamAtHead (dstTile i) (nth (leadWords i ws) 0 0#32).toNat (nth (leadWords i ws) 1 0#32).toNat
  let moving (i : Iss) : Prop := (i.teamSoFar.tile (dstTile i)).state = .filling ∨ (i.teamSoFar.tile (dstTile i)).state = .draining
  (∀ (op : BitVec 8) (f : Fields) (s : State) (g : GRef) (tm : Team) (grp : Group) (x : Exec), wordOf (.illegalOpcode op f) = some (op, f) → ofOp op f = .illegalOpcode op f → s.standing = some (g, tm, grp, x) → breakHit s tm x (f.enc == .l9) = none →
      grp.shadowBehind x.off = false → exec (.illegalOpcode op f) s
        = .next ((s.clockTo g.core (max x.ready (s.core g.core).cycles)).takeTrap g ⟨encCause f.enc (if op = 1#8 then 13 else 0), x.here, 0, 0⟩ x.off false false))
  ∧ (∀ f, bytes (.ld f) 1 (fun _ => 1))
  ∧ (∀ f d a b r, bytes (.ldL9 f d a b r) 1 (fun _ => 1))
  ∧ (∀ f, bytes (.ldx f) 1 size)
  ∧ (∀ f d a b r, bytes (.ldxL9 f d a b r) 1 size)
  ∧ (∀ f, bytes (.st f) 2 (fun _ => 1))
  ∧ (∀ f d a b r, bytes (.stL9 f d a b r) 2 (fun _ => 1))
  ∧ (∀ f, elements (.ldf f) 1)
  ∧ (∀ f d a b r, elements (.ldfL9 f d a b r) 1)
  ∧ (∀ f, elements (.stf f) 2)
  ∧ (∀ m d a b r, elements (.stfL9 m d a b r) 2)
  ∧ (∀ f, failing (.ldf f) 89 (fun i ws => formed 1 i ∧ i.f.fn.toNat % 8 = 1 ∧ sound (fun _ => 1) beyond i ws) (fun _ => 1) (fun _ o => o % 2 == 1))
  ∧ (∀ f d a b r, failing (.ldfL9 f d a b r) 89 (fun i ws => formed 1 i ∧ i.f.fn.toNat % 8 = 1 ∧ sound (fun _ => 1) beyond i ws) (fun _ => 1) (fun _ o => o % 2 == 1))
  ∧ (∀ f, misuse (.job f) 1 (fun _ => True))
  ∧ (∀ d a b r, misuse (.jobL9 d a b r) 1 (fun _ => True))
  ∧ (∀ f, block (.job f) 64 64 (fun _ => True))
  ∧ (∀ d a b r, block (.jobL9 d a b r) 64 64 (fun _ => True))
  ∧ (∀ f, misuse (.mxgo f) 1 first)
  ∧ (∀ f, block (.mxgo f) 16 16 first)
  ∧ (∀ f, traps (.tdef f) (fun i _ => i.acting ≠ [] ∧ i.tm.isQueueTile (dstTile i) = true) (fun i => ⟨91, i.acting, 0, 0⟩))
  ∧ (∀ d a b r, traps (.tdefL9 d a b r) (fun i _ => i.acting ≠ [] ∧ i.tm.isQueueTile (dstTile i) = true) (fun i => ⟨91, i.acting, 0, 0⟩))
  ∧ (∀ f, traps (.trel f) (fun i _ => i.acting ≠ [] ∧ i.tm.isQueueTile (dstTile i) = true) (fun i => ⟨91, i.acting, 0, 0⟩))
  ∧ (∀ d r, traps (.trelL9 d r) (fun i _ => i.acting ≠ [] ∧ i.tm.isQueueTile (dstTile i) = true) (fun i => ⟨91, i.acting, 0, 0⟩))
  ∧ (∀ f, traps (.tpost f) (fun i _ => i.acting ≠ [] ∧ i.tm.isQueueTile (dstTile i) = true) (fun i => ⟨91, i.acting, 0, 0⟩))
  ∧ (∀ d r, traps (.tpostL9 d r) (fun i _ => i.acting ≠ [] ∧ i.tm.isQueueTile (dstTile i) = true) (fun i => ⟨91, i.acting, 0, 0⟩))
  ∧ (∀ f, traps (.tdef f) (fun i ws => i.acting ≠ [] ∧ i.tm.isQueueTile (dstTile i) = false ∧ valid i ws = false) (fun i => ⟨93, i.acting, 0, 0⟩))
  ∧ (∀ d a b r, traps (.tdefL9 d a b r) (fun i ws => i.acting ≠ [] ∧ i.tm.isQueueTile (dstTile i) = false ∧ valid i ws = false) (fun i => ⟨93, i.acting, 0, 0⟩))
  ∧ (∀ f, traps (.tdef f) (fun i ws => i.acting ≠ [] ∧ i.tm.isQueueTile (dstTile i) = false ∧ valid i ws = true ∧ moving i) (fun i => ⟨91, i.acting, 0, 0⟩))
  ∧ (∀ d a b r, traps (.tdefL9 d a b r) (fun i ws => i.acting ≠ [] ∧ i.tm.isQueueTile (dstTile i) = false ∧ valid i ws = true ∧ moving i) (fun i => ⟨91, i.acting, 0, 0⟩))
  ∧ (∀ f, traps (.tpost f) (fun i _ => i.acting ≠ [] ∧ (groupTile i.tm i.grp (dstTile i)).state ≠ .ready) (fun i => ⟨91, i.acting, 0, 0⟩))
  ∧ (∀ d r, traps (.tpostL9 d r) (fun i _ => i.acting ≠ [] ∧ (groupTile i.tm i.grp (dstTile i)).state ≠ .ready) (fun i => ⟨91, i.acting, 0, 0⟩))
  ∧ (∀ l o rest, (∀ f, traps (.accrd f) (fun i ws => (offs 1 i ws).filter (fun p => decide (16384 ≤ p.2)) = (l, o) :: rest) (fun i => ⟨95, if i.scalar then i.here else l :: rest.map (·.1), 0, 0⟩)))
  ∧ (∀ l o rest, (∀ f, traps (.accwr f) (fun i ws => (offs 1 i ws).filter (fun p => decide (16384 ≤ p.2)) = (l, o) :: rest) (fun i => ⟨95, if i.scalar then i.here else l :: rest.map (·.1), 0, 0⟩)))
  ∧ (∀ f, misuse (.accwr f) 1 (fun i => ∀ p ∈ offs 1 i (capture i).words, p.2 < 16384))
  ∧ (∀ f, failing (.accwr f) 88 (fun i ws => usable 1 i ∧ ∀ p ∈ offs 4 i ws, p.2 < 65536) (fun _ => 4) (fun i o => decide ((tile i).bytes < o + 4)))
  ∧ (∀ f, traps (.csrwGangwait f) (fun i _ => i.acting ≠ [] ∧ immField i.f % 256 = 0x0F ∧ i.grp.priv = false) (fun i => ⟨86, i.acting, 0, 0⟩))
  ∧ (∀ f, traps (.rett f) (fun i _ => i.acting ≠ [] ∧ i.grp.hm = false) (fun i => ⟨85, i.acting, 0, 0⟩))
  ∧ (∀ r, traps (.rettL9 r) (fun i _ => i.acting ≠ [] ∧ i.grp.hm = false) (fun i => ⟨85, i.acting, 0, 0⟩))
  ∧ (∀ f, traps (.rettAbort f) (fun i _ => i.acting ≠ [] ∧ i.grp.hm = false) (fun i => ⟨85, i.acting, 0, 0⟩))
  ∧ (∀ r, traps (.rettAbortL9 r) (fun i _ => i.acting ≠ [] ∧ i.grp.hm = false) (fun i => ⟨85, i.acting, 0, 0⟩))
  ∧ (∀ f, traps (.barArrive f) (fun i _ => i.x.cameBefore i.f.enc [0xC0, 0xC1] = true) (fun i => ⟨encCause i.f.enc 3, i.here, 0, 0⟩))
  ∧ (∀ d a r, traps (.barArriveL9 d a r) (fun i _ => i.x.cameBefore i.f.enc [0xC0, 0xC1] = true) (fun i => ⟨encCause i.f.enc 3, i.here, 0, 0⟩))
  ∧ (∀ f, traps (.barSync f) (fun i _ => i.x.cameBefore i.f.enc [0xC0, 0xC1] = true) (fun i => ⟨encCause i.f.enc 3, i.here, 0, 0⟩))
  ∧ (∀ d a r, traps (.barSyncL9 d a r) (fun i _ => i.x.cameBefore i.f.enc [0xC0, 0xC1] = true) (fun i => ⟨encCause i.f.enc 3, i.here, 0, 0⟩))

/-- Committing an execution that has buffered nothing, holds no tile and no lane of which has left or diverged: every register, predicate,
uniform register and stochastic state has the value of the last result that the execution gave it; the execution is gone; every lane of
it is pending at its successor and held by nothing; no byte of memory changes. -/
def Obligations.CommitOfAPlainExecution : Prop :=
  ∀ (s : State) (g : GRef) (tm : Team) (grp : Group) (x : Exec) (now : Nat) (tr : TRef), s.team? g.core g.slot = some tm → s.group? g = some grp → grp.exec = some x → x.buf = [] → x.uses = [] → x.mask = 0 →
    x.diverged = false → x.here = x.started → x.here ≠ [] → grp.shadow = false → x.gotTask = false → tm.tasks = [] → tm.fold = none → tm.stages = [] → grp.halt = .none →
    grp.returns = [] → (s.die (dieOf g.core)).uncompleted ≤ 4096 →
    let z := (allWrites x).foldl (commitWrite x.here true) grp
    ∃ y : Group, (s.commit g now (fun _ => .trace tr) none).group? g = some y ∧ y.exec = none ∧ y.regs = z.regs ∧ y.preds = z.preds ∧ y.uregs = z.uregs ∧ y.sr = z.sr
      ∧ (∀ l ∈ x.here, l < grp.lanes.length → (y.lane l).tr = tr ∧ (y.lane l).held = none)
      ∧ (s.commit g now (fun _ => .trace tr) none).mem = s.mem

/-- When a commit performs a buffered store of a lane, the byte at each address that the store covers gets the store's bits under its mask
and keeps the others, and every byte of memory outside the store's bytes, counted from its slice offset in the core's slice, reads as
before; a store of another lane changes nothing. -/
def Obligations.CommittedStoresWriteTheirBytesAlone : Prop :=
  (∀ (s : State) (g : GRef) (l n at_ : Nat) (d m : List Byte), Sys2Proof.Machine.Inv s → d.length = m.length →
      let t := s.commitStore g l (.store l n at_ d m)
      (∀ a, a < sliceKey g.core at_ ∨ sliceKey g.core at_ + d.length ≤ a → t.mem.read a = s.mem.read a)
      ∧ (∀ k, k < d.length → t.mem.read (sliceKey g.core at_ + k)
          = (s.mem.read (sliceKey g.core at_ + k) &&& ~~~(nth m k 0#8)) ||| (nth d k 0#8 &&& nth m k 0#8)))
  ∧ (∀ (s : State) (g : GRef) (l k n at_ : Nat) (d m : List Byte), k ≠ l → s.commitStore g l (.store k n at_ d m) = s)

/-- An arrival with a count on an empty barrier sets EXP; every arrival raises CNT by one; the arrival that makes CNT equal EXP sets TP and
returns CNT to 0; until then TP keeps its value; PH changes only at the turn, which inverts it and clears TP. -/
def Obligations.BarriersCountArrivalsAndTurn : Prop :=
  (∀ (b : Barrier) (c : Nat) (l : List Nat), let e := if b.cnt = 0 ∧ c ≠ 0 then c else b.exp
      (b.arrive c l).exp = e ∧ (b.arrive c l).ph = b.ph
      ∧ (b.cnt + 1 = e → (b.arrive c l).cnt = 0 ∧ (b.arrive c l).tp = true) ∧ (b.cnt + 1 ≠ e → (b.arrive c l).cnt = b.cnt + 1 ∧ (b.arrive c l).tp = b.tp))
  ∧ (∀ b : Barrier, b.turn.ph = !b.ph ∧ b.turn.tp = false ∧ b.turn.cnt = b.cnt ∧ b.turn.exp = b.exp)

/-- Whatever is written to either word of MODE, TRAPBASE, MIGPOL or BRK0 to BRK3: in what is kept, a reserved bit is 0 (MODE from bit 2,
TRAPBASE [31:17], MIGPOL bit 3 and from bit 27, BRK [31:27] and 63), every other bit of the word written is the one written, and every
other bit of the other word is as it was. A write to TSTAT clears exactly the bits written as 1. -/
def Obligations.ReservedBitsOfControlRegistersReadZero : Prop :=
  let kept (n k : Nat) : Bool := if n = 2 then decide (k < 2) else if n = 0x0A then decide (k < 17 ∨ (32 ≤ k ∧ k < 64))
    else if n = 0x0D then decide (k < 27 ∧ k ≠ 3) else decide (k < 27 ∨ (32 ≤ k ∧ k < 63))
  (∀ (n old : Nat) (hi : Bool) (v k : Nat), n = 2 ∨ n = 0x0A ∨ n = 0x0D ∨ (0x10 ≤ n ∧ n ≤ 0x13) → v < 2 ^ 32 → k < 64 →
    (csrAfter n old hi v).testBit k = (kept n k && if hi then (if k < 32 then old.testBit k else v.testBit (k - 32)) else (if k < 32 then v.testBit k else old.testBit k)))
  ∧ (∀ (old v k : Nat) (hi : Bool), old < 2 ^ 32 → v < 2 ^ 32 → (csrAfter 0 old hi v).testBit k = (old.testBit k && !v.testBit k))
end

