-- ==== Sys2Proof/Laws/Memory.lean ====
section
/-!
SUPPORT. Memory: every operation keeps the canonical form, a read after a write of the same byte gives what was written, and a write
leaves every other byte alone.
-/
namespace Sys2Proof.Machine

theorem Memory.wfAbove_mono (m : Memory) (k n : Nat) (h : k ≤ n) (hm : Memory.wfAbove n m = true) : Memory.wfAbove k m = true := by
  cases m with
  | nil => rfl
  | cons p m =>
    obtain ⟨a, b⟩ := p
    simp only [Memory.wfAbove, Bool.and_eq_true, decide_eq_true_eq] at hm ⊢
    exact ⟨⟨by omega, hm.1.2⟩, hm.2⟩

theorem Memory.wfAbove_cons (m : Memory) (k a : Nat) (v : Byte) (h : k ≤ a) (hm : Memory.wfAbove (a + 1) m = true) :
    Memory.wfAbove k (Memory.cons a v m) = true := by
  unfold Memory.cons
  split
  · exact Memory.wfAbove_mono m k (a + 1) (by omega) hm
  · simp [Memory.wfAbove, *]

theorem Memory.wfAbove_write (m : Memory) (k a : Nat) (v : Byte) (h : k ≤ a) (hm : Memory.wfAbove k m = true) :
    Memory.wfAbove k (m.write a v) = true := by
  induction m generalizing k with
  | nil => exact Memory.wfAbove_cons [] k a v h rfl
  | cons p m ih =>
    obtain ⟨b, w⟩ := p
    simp only [Memory.wfAbove, Bool.and_eq_true, decide_eq_true_eq] at hm
    simp only [Memory.write]
    split
    · refine Memory.wfAbove_cons _ k a v h ?_
      simp only [Memory.wfAbove, Bool.and_eq_true, decide_eq_true_eq]
      exact ⟨⟨by omega, hm.1.2⟩, hm.2⟩
    · split
      · subst_vars; exact Memory.wfAbove_cons _ k _ v h hm.2
      · simp only [Memory.wfAbove, Bool.and_eq_true, decide_eq_true_eq]
        exact ⟨hm.1, ih (b + 1) (by omega) hm.2⟩

/-- Writing one byte keeps the canonical form. -/
theorem Memory.wf_write (m : Memory) (a : Nat) (v : Byte) (hm : m.wf = true) : (m.write a v).wf = true :=
  Memory.wfAbove_write m 0 a v (Nat.zero_le a) hm

/-- Writing bytes keeps the canonical form. -/
theorem Memory.wf_writeBytes (m : Memory) (a : Nat) (bs : List Byte) (hm : m.wf = true) : (m.writeBytes a bs).wf = true := by
  induction bs generalizing m a with
  | nil => exact hm
  | cons b bs ih => exact ih (m.write a b) (a + 1) (Memory.wf_write m a b hm)

/-- Writing a number keeps the canonical form. -/
theorem Memory.wf_writeLE (m : Memory) (a n v : Nat) (hm : m.wf = true) : (m.writeLE a n v).wf = true :=
  Memory.wf_writeBytes m a _ hm

theorem Memory.wfAbove_filter (m : Memory) (k : Nat) (f : Host.Cell → Bool) (hm : Memory.wfAbove k m = true) :
    Memory.wfAbove k (m.filter f) = true := by
  induction m generalizing k with
  | nil => rfl
  | cons p m ih =>
    obtain ⟨b, w⟩ := p
    simp only [Memory.wfAbove, Bool.and_eq_true, decide_eq_true_eq] at hm
    simp only [List.filter]
    split
    · simp only [Memory.wfAbove, Bool.and_eq_true, decide_eq_true_eq]
      exact ⟨hm.1, ih (b + 1) hm.2⟩
    · exact Memory.wfAbove_mono _ k (b + 1) (by omega) (ih (b + 1) hm.2)

/-- Dropping cells keeps the canonical form. -/
theorem Memory.wf_filter (m : Memory) (f : Host.Cell → Bool) (hm : m.wf = true) : Memory.wf (m.filter f) = true := Memory.wfAbove_filter m 0 f hm

/-- Zeroing a range keeps the canonical form. -/
theorem Memory.wf_clear (m : Memory) (a n : Nat) (hm : m.wf = true) : (m.clear a n).wf = true := Memory.wf_filter m _ hm

/-- Writing under a mask keeps the canonical form. -/
theorem Memory.wf_writeMasked (m : Memory) (a : Nat) (ds ks : List Byte) (hm : m.wf = true) : (m.writeMasked a ds ks).wf = true := by
  induction ds generalizing m a ks with
  | nil => exact hm
  | cons d ds ih => cases ks with
    | nil => exact hm
    | cons k ks => exact ih _ (a + 1) ks (Memory.wf_write m a _ hm)

theorem Memory.read_above (m : Memory) (k a : Nat) (h : a < k) (hm : Memory.wfAbove k m = true) : m.read a = Memory.unlisted := by
  cases m with
  | nil => rfl
  | cons p m =>
    obtain ⟨b, w⟩ := p
    simp only [Memory.wfAbove, Bool.and_eq_true, decide_eq_true_eq] at hm
    simp [Memory.read, show b ≠ a by omega, show a < b by omega]

theorem Memory.read_cons_same (m : Memory) (a : Nat) (v : Byte) (hm : Memory.wfAbove (a + 1) m = true) : (Memory.cons a v m).read a = v := by
  unfold Memory.cons
  split
  · subst_vars; exact Memory.read_above m (a + 1) a (by omega) hm
  · simp [Memory.read]

theorem Memory.read_cons_ne (m : Memory) (a x : Nat) (v : Byte) (hx : x ≠ a) (hm : Memory.wfAbove (a + 1) m = true) :
    (Memory.cons a v m).read x = m.read x := by
  unfold Memory.cons
  split
  · rfl
  · by_cases h : x < a
    · rw [Memory.read_above m (a + 1) x (by omega) hm]
      simp [Memory.read, show a ≠ x by omega, h]
    · simp [Memory.read, show a ≠ x by omega, h]

theorem Memory.read_write_same_above (m : Memory) (k a : Nat) (v : Byte) (hm : Memory.wfAbove k m = true) : (m.write a v).read a = v := by
  induction m generalizing k with
  | nil => exact Memory.read_cons_same [] a v rfl
  | cons p m ih =>
    obtain ⟨b, w⟩ := p
    have hm' := hm
    simp only [Memory.wfAbove, Bool.and_eq_true, decide_eq_true_eq] at hm
    simp only [Memory.write]
    split
    · refine Memory.read_cons_same _ a v ?_
      simp only [Memory.wfAbove, Bool.and_eq_true, decide_eq_true_eq]
      exact ⟨⟨by omega, hm.1.2⟩, hm.2⟩
    · split
      · subst_vars; exact Memory.read_cons_same m _ v hm.2
      · simp [Memory.read, show b ≠ a by omega, show ¬ a < b by omega, ih (b + 1) hm.2]

/-- A byte reads as what was last written to it. -/
theorem Memory.read_write_same (m : Memory) (a : Nat) (v : Byte) (hm : m.wf = true) : (m.write a v).read a = v :=
  Memory.read_write_same_above m 0 a v hm

theorem Memory.read_write_ne_above (m : Memory) (k a x : Nat) (v : Byte) (hx : x ≠ a) (hm : Memory.wfAbove k m = true) :
    (m.write a v).read x = m.read x := by
  induction m generalizing k with
  | nil => exact Memory.read_cons_ne [] a x v hx rfl
  | cons p m ih =>
    obtain ⟨b, w⟩ := p
    simp only [Memory.wfAbove, Bool.and_eq_true, decide_eq_true_eq] at hm
    simp only [Memory.write]
    split
    · refine Memory.read_cons_ne _ a x v hx ?_
      simp only [Memory.wfAbove, Bool.and_eq_true, decide_eq_true_eq]
      exact ⟨⟨by omega, hm.1.2⟩, hm.2⟩
    · split
      · subst_vars
        rw [Memory.read_cons_ne m _ x v hx hm.2]
        by_cases h : x < b
        · rw [Memory.read_above m (b + 1) x (by omega) hm.2]
          simp [Memory.read, h, Ne.symm hx]
        · simp [Memory.read, h, Ne.symm hx]
      · simp only [Memory.read, ih (b + 1) hm.2]

/-- A write leaves every other byte alone. -/
theorem Memory.read_write_ne (m : Memory) (a x : Nat) (v : Byte) (hx : x ≠ a) (hm : m.wf = true) : (m.write a v).read x = m.read x :=
  Memory.read_write_ne_above m 0 a x v hx hm

/-- A write of bytes leaves every byte outside their range alone. -/
theorem Memory.read_writeBytes_outside (m : Memory) (a x : Nat) (bs : List Byte) (hx : x < a ∨ a + bs.length ≤ x) (hm : m.wf = true) :
    (m.writeBytes a bs).read x = m.read x := by
  induction bs generalizing m a with
  | nil => rfl
  | cons b bs ih =>
    simp only [List.length_cons] at hx
    have := ih (m.write a b) (a + 1) (by omega) (Memory.wf_write m a b hm)
    rw [Memory.writeBytes, this, Memory.read_write_ne m a x b (by omega) hm]

/-- A byte of a range reads as what was written there. -/
theorem Memory.read_writeBytes_inside (m : Memory) (a i : Nat) (bs : List Byte) (hi : i < bs.length) (hm : m.wf = true) :
    (m.writeBytes a bs).read (a + i) = bs[i] := by
  induction bs generalizing m a i with
  | nil => simp at hi
  | cons b bs ih =>
    have hw := Memory.wf_write m a b hm
    cases i with
    | zero =>
      have := Memory.read_writeBytes_outside (m.write a b) (a + 1) a bs (by omega) hw
      simpa [Memory.writeBytes, Memory.read_write_same m a b hm] using this
    | succ i =>
      have := ih (m.write a b) (a + 1) i (by simpa using hi) hw
      rw [Memory.writeBytes, show a + (i + 1) = a + 1 + i by omega, this]
      rfl

@[simp] theorem Memory.length_readBytes (m : Memory) (a n : Nat) : (m.readBytes a n).length = n := by
  induction n generalizing a with
  | zero => rfl
  | succ n ih => simp [Memory.readBytes, ih]

/-- Reading back the first bytes of what has been written. -/
theorem Memory.readBytes_writeBytes (m : Memory) (a n : Nat) (bs : List Byte) (hn : n ≤ bs.length) (hm : m.wf = true) :
    (m.writeBytes a bs).readBytes a n = bs.take n := by
  have h : ∀ n j, j + n ≤ bs.length → (m.writeBytes a bs).readBytes (a + j) n = (bs.drop j).take n := by
    intro n
    induction n with
    | zero => intro j _; simp [Memory.readBytes]
    | succ n ih =>
      intro j hj
      have hlt : j < bs.length := by omega
      rw [Memory.readBytes, Memory.read_writeBytes_inside m a j bs hlt hm, Nat.add_assoc, ih (j + 1) (by omega), List.drop_eq_getElem_cons hlt,
        List.take_succ_cons]
  simpa using h n 0 (by omega)

@[simp] theorem length_toBytesLE (n w : Nat) : (toBytesLE n w).length = n := by
  induction n generalizing w with
  | zero => rfl
  | succ n ih => simp [toBytesLE, ih]

/-- A number written as bytes reads back modulo what the bytes hold. -/
theorem ofBytesLE_toBytesLE (n w : Nat) : ofBytesLE (toBytesLE n w) = w % 256 ^ n := by
  induction n generalizing w with
  | zero => simp [toBytesLE, ofBytesLE, Nat.mod_one]
  | succ n ih =>
    rw [toBytesLE, ofBytesLE, ih, BitVec.toNat_ofNat, show 256 ^ (n + 1) = 256 * 256 ^ n by rw [pow_succ, Nat.mul_comm], Nat.mod_mul]

/-- The machine's memory right after reset is in canonical form. -/
theorem reset_mem_wf : State.reset.mem.wf = true := rfl

end Sys2Proof.Machine
end

