-- ==== Sys2Proof/Laws/Table.lean ====
section
/-!
SUPPORT. Tables and bit-vector maps: a get after a put, at the same key and at others; a put over a put.
-/
namespace Sys2Proof.Machine

@[simp] theorem tget_tput_same {α : Type} (t : Table α) (k : Nat) (x : α) : tget (tput t k x) k = some x := by
  induction t with
  | nil => simp [tput, tget]
  | cons p t ih =>
    obtain ⟨h, y⟩ := p
    simp only [tput]
    split
    · simp [tget]
    · split
      · simp [tget]
      · have : h ≠ k := by omega
        simp [tget, this, ih]; omega

theorem tget_tput_ne {α : Type} (t : Table α) (k n : Nat) (x : α) (hn : n ≠ k) : tget (tput t k x) n = tget t n := by
  induction t with
  | nil =>
    have : k ≠ n := fun h => hn h.symm
    simp [tput, tget, this]
  | cons p t ih =>
    obtain ⟨h, y⟩ := p
    simp only [tput]
    split
    · by_cases h1 : n < k
      · simp [tget, show k ≠ n by omega, h1, show h ≠ n by omega, show n < h by omega]
      · simp [tget, show k ≠ n by omega, h1]
    · split
      · subst_vars
        simp [tget, show h ≠ n by omega]
      · simp only [tget, ih]

@[simp] theorem tput_tput_same {α : Type} (t : Table α) (k : Nat) (x y : α) : tput (tput t k x) k y = tput t k y := by
  induction t with
  | nil => simp [tput]
  | cons p t ih =>
    obtain ⟨h, z⟩ := p
    by_cases h1 : k < h
    · simp [tput, h1]
    · by_cases h2 : k = h
      · simp [tput, h2]
      · simp [tput, h1, h2, ih]

theorem tput_tget_self {α : Type} (t : Table α) (k : Nat) (x : α) (h : tget t k = some x) : tput t k x = t := by
  induction t with
  | nil => simp [tget] at h
  | cons p t ih =>
    obtain ⟨n, y⟩ := p
    simp only [tget] at h
    split at h
    · subst_vars; cases h; simp [tput]
    · split at h
      · cases h
      · simp [tput, show ¬ k < n by omega, show k ≠ n by omega, ih h]

theorem sget_sput_same {n : Nat} (t : SMap n) (k : Nat) (v : BitVec n) (hv : v ≠ 0#n) : sget (sput t k v) k = v := by
  induction t with
  | nil => simp [sput, sget, hv]
  | cons p t ih =>
    obtain ⟨h, y⟩ := p
    simp only [sput, hv, if_false]
    split
    · simp [sget]
    · split
      · simp [sget]
      · simp [sget, show h ≠ k by omega, show ¬ k < h by omega, ih]

end Sys2Proof.Machine
end

