-- ==== Sys2Proof/Laws/State.lean ====
section
/-!
SUPPORT. What each shared update of the state leaves alone, field by field, and what it changes.
-/
namespace Sys2Proof.Machine

@[simp] theorem State.modCore_mem (s : State) (c : Nat) (f : Core → Core) : (s.modCore c f).mem = s.mem := rfl
@[simp] theorem State.modCore_poison (s : State) (c : Nat) (f : Core → Core) : (s.modCore c f).poison = s.poison := rfl
@[simp] theorem State.modCore_regPoison (s : State) (c : Nat) (f : Core → Core) : (s.modCore c f).regPoison = s.regPoison := rfl
@[simp] theorem State.modCore_ats (s : State) (c : Nat) (f : Core → Core) : (s.modCore c f).ats = s.ats := rfl
@[simp] theorem State.modCore_atsWaits (s : State) (c : Nat) (f : Core → Core) : (s.modCore c f).atsWaits = s.atsWaits := rfl
@[simp] theorem State.modCore_atsEnabled (s : State) (c : Nat) (f : Core → Core) : (s.modCore c f).atsEnabled = s.atsEnabled := rfl
@[simp] theorem State.modCore_atsInvs (s : State) (c : Nat) (f : Core → Core) : (s.modCore c f).atsInvs = s.atsInvs := rfl
@[simp] theorem State.modCore_domain (s : State) (c : Nat) (f : Core → Core) : (s.modCore c f).domain = s.domain := rfl
@[simp] theorem State.modCore_windows (s : State) (c : Nat) (f : Core → Core) : (s.modCore c f).windows = s.windows := rfl
@[simp] theorem State.modCore_tier2Bytes (s : State) (c : Nat) (f : Core → Core) : (s.modCore c f).tier2Bytes = s.tier2Bytes := rfl
@[simp] theorem State.modCore_links (s : State) (c : Nat) (f : Core → Core) : (s.modCore c f).links = s.links := rfl
@[simp] theorem State.modCore_tags (s : State) (c : Nat) (f : Core → Core) : (s.modCore c f).tags = s.tags := rfl
@[simp] theorem State.modCore_dies (s : State) (c : Nat) (f : Core → Core) : (s.modCore c f).dies = s.dies := rfl
@[simp] theorem State.modCore_ctxs (s : State) (c : Nat) (f : Core → Core) : (s.modCore c f).ctxs = s.ctxs := rfl
@[simp] theorem State.modCore_sent (s : State) (c : Nat) (f : Core → Core) : (s.modCore c f).sent = s.sent := rfl
@[simp] theorem State.modCore_nextAtomic (s : State) (c : Nat) (f : Core → Core) : (s.modCore c f).nextAtomic = s.nextAtomic := rfl
@[simp] theorem State.modCore_queues (s : State) (c : Nat) (f : Core → Core) : (s.modCore c f).queues = s.queues := rfl
@[simp] theorem State.modCore_held (s : State) (c : Nat) (f : Core → Core) : (s.modCore c f).held = s.held := rfl
@[simp] theorem State.modCore_comms (s : State) (c : Nat) (f : Core → Core) : (s.modCore c f).comms = s.comms := rfl
@[simp] theorem State.modCore_exports (s : State) (c : Nat) (f : Core → Core) : (s.modCore c f).exports = s.exports := rfl
@[simp] theorem State.modCore_keys (s : State) (c : Nat) (f : Core → Core) : (s.modCore c f).keys = s.keys := rfl
@[simp] theorem State.modCore_runNext (s : State) (c : Nat) (f : Core → Core) : (s.modCore c f).runNext = s.runNext := rfl
@[simp] theorem State.modCore_waits (s : State) (c : Nat) (f : Core → Core) : (s.modCore c f).waits = s.waits := rfl
@[simp] theorem State.modCore_boot (s : State) (c : Nat) (f : Core → Core) : (s.modCore c f).boot = s.boot := rfl
@[simp] theorem State.modCore_spdm (s : State) (c : Nat) (f : Core → Core) : (s.modCore c f).spdm = s.spdm := rfl
@[simp] theorem State.modCore_identity (s : State) (c : Nat) (f : Core → Core) : (s.modCore c f).identity = s.identity := rfl
@[simp] theorem State.modCore_keySlots (s : State) (c : Nat) (f : Core → Core) : (s.modCore c f).keySlots = s.keySlots := rfl
@[simp] theorem State.modCore_mrs (s : State) (c : Nat) (f : Core → Core) : (s.modCore c f).mrs = s.mrs := rfl
@[simp] theorem State.modCore_banks (s : State) (c : Nat) (f : Core → Core) : (s.modCore c f).banks = s.banks := rfl
@[simp] theorem State.modCore_scrub (s : State) (c : Nat) (f : Core → Core) : (s.modCore c f).scrub = s.scrub := rfl
@[simp] theorem State.modCore_scrubTime (s : State) (c : Nat) (f : Core → Core) : (s.modCore c f).scrubTime = s.scrubTime := rfl
@[simp] theorem State.modCore_priOut (s : State) (c : Nat) (f : Core → Core) : (s.modCore c f).priOut = s.priOut := rfl
@[simp] theorem State.modCore_out (s : State) (c : Nat) (f : Core → Core) : (s.modCore c f).out = s.out := rfl
@[simp] theorem State.modCore_fwNext (s : State) (c : Nat) (f : Core → Core) : (s.modCore c f).fwNext = s.fwNext := rfl
@[simp] theorem State.modCore_part (s : State) (c : Nat) (f : Core → Core) : (s.modCore c f).part = s.part := rfl
@[simp] theorem State.modCore_lcores (s : State) (c : Nat) (f : Core → Core) : (s.modCore c f).lcores = s.lcores := rfl
@[simp] theorem State.modCore_bar0 (s : State) (c : Nat) (f : Core → Core) : (s.modCore c f).bar0 = s.bar0 := rfl
@[simp] theorem State.modCore_featmask (s : State) (c : Nat) (f : Core → Core) : (s.modCore c f).featmask = s.featmask := rfl
@[simp] theorem State.modCore_packid (s : State) (c : Nat) (f : Core → Core) : (s.modCore c f).packid = s.packid := rfl
@[simp] theorem State.modCore_focus (s : State) (c : Nat) (f : Core → Core) : (s.modCore c f).focus = s.focus := rfl
@[simp] theorem State.modCore_agenda (s : State) (c : Nat) (f : Core → Core) : (s.modCore c f).agenda = s.agenda := rfl
@[simp] theorem State.modCore_subject (s : State) (c : Nat) (f : Core → Core) : (s.modCore c f).subject = s.subject := rfl
@[simp] theorem State.modCore_picks (s : State) (c : Nat) (f : Core → Core) : (s.modCore c f).picks = s.picks := rfl
@[simp] theorem State.modCore_free (s : State) (c : Nat) (f : Core → Core) : (s.modCore c f).free = s.free := rfl

@[simp] theorem State.modDie_mem (s : State) (d : Nat) (f : Die → Die) : (s.modDie d f).mem = s.mem := rfl
@[simp] theorem State.modDie_poison (s : State) (d : Nat) (f : Die → Die) : (s.modDie d f).poison = s.poison := rfl
@[simp] theorem State.modDie_regPoison (s : State) (d : Nat) (f : Die → Die) : (s.modDie d f).regPoison = s.regPoison := rfl
@[simp] theorem State.modDie_ats (s : State) (d : Nat) (f : Die → Die) : (s.modDie d f).ats = s.ats := rfl
@[simp] theorem State.modDie_atsWaits (s : State) (d : Nat) (f : Die → Die) : (s.modDie d f).atsWaits = s.atsWaits := rfl
@[simp] theorem State.modDie_atsEnabled (s : State) (d : Nat) (f : Die → Die) : (s.modDie d f).atsEnabled = s.atsEnabled := rfl
@[simp] theorem State.modDie_atsInvs (s : State) (d : Nat) (f : Die → Die) : (s.modDie d f).atsInvs = s.atsInvs := rfl
@[simp] theorem State.modDie_domain (s : State) (d : Nat) (f : Die → Die) : (s.modDie d f).domain = s.domain := rfl
@[simp] theorem State.modDie_windows (s : State) (d : Nat) (f : Die → Die) : (s.modDie d f).windows = s.windows := rfl
@[simp] theorem State.modDie_tier2Bytes (s : State) (d : Nat) (f : Die → Die) : (s.modDie d f).tier2Bytes = s.tier2Bytes := rfl
@[simp] theorem State.modDie_links (s : State) (d : Nat) (f : Die → Die) : (s.modDie d f).links = s.links := rfl
@[simp] theorem State.modDie_tags (s : State) (d : Nat) (f : Die → Die) : (s.modDie d f).tags = s.tags := rfl
@[simp] theorem State.modDie_cores (s : State) (d : Nat) (f : Die → Die) : (s.modDie d f).cores = s.cores := rfl
@[simp] theorem State.modDie_ctxs (s : State) (d : Nat) (f : Die → Die) : (s.modDie d f).ctxs = s.ctxs := rfl
@[simp] theorem State.modDie_sent (s : State) (d : Nat) (f : Die → Die) : (s.modDie d f).sent = s.sent := rfl
@[simp] theorem State.modDie_nextAtomic (s : State) (d : Nat) (f : Die → Die) : (s.modDie d f).nextAtomic = s.nextAtomic := rfl
@[simp] theorem State.modDie_queues (s : State) (d : Nat) (f : Die → Die) : (s.modDie d f).queues = s.queues := rfl
@[simp] theorem State.modDie_held (s : State) (d : Nat) (f : Die → Die) : (s.modDie d f).held = s.held := rfl
@[simp] theorem State.modDie_comms (s : State) (d : Nat) (f : Die → Die) : (s.modDie d f).comms = s.comms := rfl
@[simp] theorem State.modDie_exports (s : State) (d : Nat) (f : Die → Die) : (s.modDie d f).exports = s.exports := rfl
@[simp] theorem State.modDie_keys (s : State) (d : Nat) (f : Die → Die) : (s.modDie d f).keys = s.keys := rfl
@[simp] theorem State.modDie_runNext (s : State) (d : Nat) (f : Die → Die) : (s.modDie d f).runNext = s.runNext := rfl
@[simp] theorem State.modDie_waits (s : State) (d : Nat) (f : Die → Die) : (s.modDie d f).waits = s.waits := rfl
@[simp] theorem State.modDie_boot (s : State) (d : Nat) (f : Die → Die) : (s.modDie d f).boot = s.boot := rfl
@[simp] theorem State.modDie_spdm (s : State) (d : Nat) (f : Die → Die) : (s.modDie d f).spdm = s.spdm := rfl
@[simp] theorem State.modDie_identity (s : State) (d : Nat) (f : Die → Die) : (s.modDie d f).identity = s.identity := rfl
@[simp] theorem State.modDie_keySlots (s : State) (d : Nat) (f : Die → Die) : (s.modDie d f).keySlots = s.keySlots := rfl
@[simp] theorem State.modDie_mrs (s : State) (d : Nat) (f : Die → Die) : (s.modDie d f).mrs = s.mrs := rfl
@[simp] theorem State.modDie_banks (s : State) (d : Nat) (f : Die → Die) : (s.modDie d f).banks = s.banks := rfl
@[simp] theorem State.modDie_scrub (s : State) (d : Nat) (f : Die → Die) : (s.modDie d f).scrub = s.scrub := rfl
@[simp] theorem State.modDie_scrubTime (s : State) (d : Nat) (f : Die → Die) : (s.modDie d f).scrubTime = s.scrubTime := rfl
@[simp] theorem State.modDie_priOut (s : State) (d : Nat) (f : Die → Die) : (s.modDie d f).priOut = s.priOut := rfl
@[simp] theorem State.modDie_out (s : State) (d : Nat) (f : Die → Die) : (s.modDie d f).out = s.out := rfl
@[simp] theorem State.modDie_fwNext (s : State) (d : Nat) (f : Die → Die) : (s.modDie d f).fwNext = s.fwNext := rfl
@[simp] theorem State.modDie_part (s : State) (d : Nat) (f : Die → Die) : (s.modDie d f).part = s.part := rfl
@[simp] theorem State.modDie_lcores (s : State) (d : Nat) (f : Die → Die) : (s.modDie d f).lcores = s.lcores := rfl
@[simp] theorem State.modDie_bar0 (s : State) (d : Nat) (f : Die → Die) : (s.modDie d f).bar0 = s.bar0 := rfl
@[simp] theorem State.modDie_featmask (s : State) (d : Nat) (f : Die → Die) : (s.modDie d f).featmask = s.featmask := rfl
@[simp] theorem State.modDie_packid (s : State) (d : Nat) (f : Die → Die) : (s.modDie d f).packid = s.packid := rfl
@[simp] theorem State.modDie_focus (s : State) (d : Nat) (f : Die → Die) : (s.modDie d f).focus = s.focus := rfl
@[simp] theorem State.modDie_agenda (s : State) (d : Nat) (f : Die → Die) : (s.modDie d f).agenda = s.agenda := rfl
@[simp] theorem State.modDie_subject (s : State) (d : Nat) (f : Die → Die) : (s.modDie d f).subject = s.subject := rfl
@[simp] theorem State.modDie_picks (s : State) (d : Nat) (f : Die → Die) : (s.modDie d f).picks = s.picks := rfl
@[simp] theorem State.modDie_free (s : State) (d : Nat) (f : Die → Die) : (s.modDie d f).free = s.free := rfl

@[simp] theorem State.modCtx_mem (s : State) (c : Nat) (f : Ctx → Ctx) : (s.modCtx c f).mem = s.mem := by unfold State.modCtx; split <;> rfl
@[simp] theorem State.modCtx_poison (s : State) (c : Nat) (f : Ctx → Ctx) : (s.modCtx c f).poison = s.poison := by unfold State.modCtx; split <;> rfl
@[simp] theorem State.modCtx_regPoison (s : State) (c : Nat) (f : Ctx → Ctx) : (s.modCtx c f).regPoison = s.regPoison := by unfold State.modCtx; split <;> rfl
@[simp] theorem State.modCtx_ats (s : State) (c : Nat) (f : Ctx → Ctx) : (s.modCtx c f).ats = s.ats := by unfold State.modCtx; split <;> rfl
@[simp] theorem State.modCtx_atsWaits (s : State) (c : Nat) (f : Ctx → Ctx) : (s.modCtx c f).atsWaits = s.atsWaits := by unfold State.modCtx; split <;> rfl
@[simp] theorem State.modCtx_atsEnabled (s : State) (c : Nat) (f : Ctx → Ctx) : (s.modCtx c f).atsEnabled = s.atsEnabled := by unfold State.modCtx; split <;> rfl
@[simp] theorem State.modCtx_atsInvs (s : State) (c : Nat) (f : Ctx → Ctx) : (s.modCtx c f).atsInvs = s.atsInvs := by unfold State.modCtx; split <;> rfl
@[simp] theorem State.modCtx_domain (s : State) (c : Nat) (f : Ctx → Ctx) : (s.modCtx c f).domain = s.domain := by unfold State.modCtx; split <;> rfl
@[simp] theorem State.modCtx_windows (s : State) (c : Nat) (f : Ctx → Ctx) : (s.modCtx c f).windows = s.windows := by unfold State.modCtx; split <;> rfl
@[simp] theorem State.modCtx_tier2Bytes (s : State) (c : Nat) (f : Ctx → Ctx) : (s.modCtx c f).tier2Bytes = s.tier2Bytes := by unfold State.modCtx; split <;> rfl
@[simp] theorem State.modCtx_links (s : State) (c : Nat) (f : Ctx → Ctx) : (s.modCtx c f).links = s.links := by unfold State.modCtx; split <;> rfl
@[simp] theorem State.modCtx_tags (s : State) (c : Nat) (f : Ctx → Ctx) : (s.modCtx c f).tags = s.tags := by unfold State.modCtx; split <;> rfl
@[simp] theorem State.modCtx_dies (s : State) (c : Nat) (f : Ctx → Ctx) : (s.modCtx c f).dies = s.dies := by unfold State.modCtx; split <;> rfl
@[simp] theorem State.modCtx_cores (s : State) (c : Nat) (f : Ctx → Ctx) : (s.modCtx c f).cores = s.cores := by unfold State.modCtx; split <;> rfl
@[simp] theorem State.modCtx_sent (s : State) (c : Nat) (f : Ctx → Ctx) : (s.modCtx c f).sent = s.sent := by unfold State.modCtx; split <;> rfl
@[simp] theorem State.modCtx_nextAtomic (s : State) (c : Nat) (f : Ctx → Ctx) : (s.modCtx c f).nextAtomic = s.nextAtomic := by unfold State.modCtx; split <;> rfl
@[simp] theorem State.modCtx_queues (s : State) (c : Nat) (f : Ctx → Ctx) : (s.modCtx c f).queues = s.queues := by unfold State.modCtx; split <;> rfl
@[simp] theorem State.modCtx_held (s : State) (c : Nat) (f : Ctx → Ctx) : (s.modCtx c f).held = s.held := by unfold State.modCtx; split <;> rfl
@[simp] theorem State.modCtx_comms (s : State) (c : Nat) (f : Ctx → Ctx) : (s.modCtx c f).comms = s.comms := by unfold State.modCtx; split <;> rfl
@[simp] theorem State.modCtx_exports (s : State) (c : Nat) (f : Ctx → Ctx) : (s.modCtx c f).exports = s.exports := by unfold State.modCtx; split <;> rfl
@[simp] theorem State.modCtx_keys (s : State) (c : Nat) (f : Ctx → Ctx) : (s.modCtx c f).keys = s.keys := by unfold State.modCtx; split <;> rfl
@[simp] theorem State.modCtx_runNext (s : State) (c : Nat) (f : Ctx → Ctx) : (s.modCtx c f).runNext = s.runNext := by unfold State.modCtx; split <;> rfl
@[simp] theorem State.modCtx_waits (s : State) (c : Nat) (f : Ctx → Ctx) : (s.modCtx c f).waits = s.waits := by unfold State.modCtx; split <;> rfl
@[simp] theorem State.modCtx_boot (s : State) (c : Nat) (f : Ctx → Ctx) : (s.modCtx c f).boot = s.boot := by unfold State.modCtx; split <;> rfl
@[simp] theorem State.modCtx_spdm (s : State) (c : Nat) (f : Ctx → Ctx) : (s.modCtx c f).spdm = s.spdm := by unfold State.modCtx; split <;> rfl
@[simp] theorem State.modCtx_identity (s : State) (c : Nat) (f : Ctx → Ctx) : (s.modCtx c f).identity = s.identity := by unfold State.modCtx; split <;> rfl
@[simp] theorem State.modCtx_keySlots (s : State) (c : Nat) (f : Ctx → Ctx) : (s.modCtx c f).keySlots = s.keySlots := by unfold State.modCtx; split <;> rfl
@[simp] theorem State.modCtx_mrs (s : State) (c : Nat) (f : Ctx → Ctx) : (s.modCtx c f).mrs = s.mrs := by unfold State.modCtx; split <;> rfl
@[simp] theorem State.modCtx_banks (s : State) (c : Nat) (f : Ctx → Ctx) : (s.modCtx c f).banks = s.banks := by unfold State.modCtx; split <;> rfl
@[simp] theorem State.modCtx_scrub (s : State) (c : Nat) (f : Ctx → Ctx) : (s.modCtx c f).scrub = s.scrub := by unfold State.modCtx; split <;> rfl
@[simp] theorem State.modCtx_scrubTime (s : State) (c : Nat) (f : Ctx → Ctx) : (s.modCtx c f).scrubTime = s.scrubTime := by unfold State.modCtx; split <;> rfl
@[simp] theorem State.modCtx_priOut (s : State) (c : Nat) (f : Ctx → Ctx) : (s.modCtx c f).priOut = s.priOut := by unfold State.modCtx; split <;> rfl
@[simp] theorem State.modCtx_out (s : State) (c : Nat) (f : Ctx → Ctx) : (s.modCtx c f).out = s.out := by unfold State.modCtx; split <;> rfl
@[simp] theorem State.modCtx_fwNext (s : State) (c : Nat) (f : Ctx → Ctx) : (s.modCtx c f).fwNext = s.fwNext := by unfold State.modCtx; split <;> rfl
@[simp] theorem State.modCtx_part (s : State) (c : Nat) (f : Ctx → Ctx) : (s.modCtx c f).part = s.part := by unfold State.modCtx; split <;> rfl
@[simp] theorem State.modCtx_lcores (s : State) (c : Nat) (f : Ctx → Ctx) : (s.modCtx c f).lcores = s.lcores := by unfold State.modCtx; split <;> rfl
@[simp] theorem State.modCtx_bar0 (s : State) (c : Nat) (f : Ctx → Ctx) : (s.modCtx c f).bar0 = s.bar0 := by unfold State.modCtx; split <;> rfl
@[simp] theorem State.modCtx_featmask (s : State) (c : Nat) (f : Ctx → Ctx) : (s.modCtx c f).featmask = s.featmask := by unfold State.modCtx; split <;> rfl
@[simp] theorem State.modCtx_packid (s : State) (c : Nat) (f : Ctx → Ctx) : (s.modCtx c f).packid = s.packid := by unfold State.modCtx; split <;> rfl
@[simp] theorem State.modCtx_focus (s : State) (c : Nat) (f : Ctx → Ctx) : (s.modCtx c f).focus = s.focus := by unfold State.modCtx; split <;> rfl
@[simp] theorem State.modCtx_agenda (s : State) (c : Nat) (f : Ctx → Ctx) : (s.modCtx c f).agenda = s.agenda := by unfold State.modCtx; split <;> rfl
@[simp] theorem State.modCtx_subject (s : State) (c : Nat) (f : Ctx → Ctx) : (s.modCtx c f).subject = s.subject := by unfold State.modCtx; split <;> rfl
@[simp] theorem State.modCtx_picks (s : State) (c : Nat) (f : Ctx → Ctx) : (s.modCtx c f).picks = s.picks := by unfold State.modCtx; split <;> rfl
@[simp] theorem State.modCtx_free (s : State) (c : Nat) (f : Ctx → Ctx) : (s.modCtx c f).free = s.free := by unfold State.modCtx; split <;> rfl

@[simp] theorem State.setTeam_mem (s : State) (c n : Nat) (t : Team) : (s.setTeam c n t).mem = s.mem := rfl
@[simp] theorem State.setTeam_poison (s : State) (c n : Nat) (t : Team) : (s.setTeam c n t).poison = s.poison := rfl
@[simp] theorem State.setTeam_regPoison (s : State) (c n : Nat) (t : Team) : (s.setTeam c n t).regPoison = s.regPoison := rfl
@[simp] theorem State.setTeam_ats (s : State) (c n : Nat) (t : Team) : (s.setTeam c n t).ats = s.ats := rfl
@[simp] theorem State.setTeam_atsWaits (s : State) (c n : Nat) (t : Team) : (s.setTeam c n t).atsWaits = s.atsWaits := rfl
@[simp] theorem State.setTeam_atsEnabled (s : State) (c n : Nat) (t : Team) : (s.setTeam c n t).atsEnabled = s.atsEnabled := rfl
@[simp] theorem State.setTeam_atsInvs (s : State) (c n : Nat) (t : Team) : (s.setTeam c n t).atsInvs = s.atsInvs := rfl
@[simp] theorem State.setTeam_domain (s : State) (c n : Nat) (t : Team) : (s.setTeam c n t).domain = s.domain := rfl
@[simp] theorem State.setTeam_windows (s : State) (c n : Nat) (t : Team) : (s.setTeam c n t).windows = s.windows := rfl
@[simp] theorem State.setTeam_tier2Bytes (s : State) (c n : Nat) (t : Team) : (s.setTeam c n t).tier2Bytes = s.tier2Bytes := rfl
@[simp] theorem State.setTeam_links (s : State) (c n : Nat) (t : Team) : (s.setTeam c n t).links = s.links := rfl
@[simp] theorem State.setTeam_tags (s : State) (c n : Nat) (t : Team) : (s.setTeam c n t).tags = s.tags := rfl
@[simp] theorem State.setTeam_dies (s : State) (c n : Nat) (t : Team) : (s.setTeam c n t).dies = s.dies := rfl
@[simp] theorem State.setTeam_ctxs (s : State) (c n : Nat) (t : Team) : (s.setTeam c n t).ctxs = s.ctxs := rfl
@[simp] theorem State.setTeam_sent (s : State) (c n : Nat) (t : Team) : (s.setTeam c n t).sent = s.sent := rfl
@[simp] theorem State.setTeam_nextAtomic (s : State) (c n : Nat) (t : Team) : (s.setTeam c n t).nextAtomic = s.nextAtomic := rfl
@[simp] theorem State.setTeam_queues (s : State) (c n : Nat) (t : Team) : (s.setTeam c n t).queues = s.queues := rfl
@[simp] theorem State.setTeam_held (s : State) (c n : Nat) (t : Team) : (s.setTeam c n t).held = s.held := rfl
@[simp] theorem State.setTeam_comms (s : State) (c n : Nat) (t : Team) : (s.setTeam c n t).comms = s.comms := rfl
@[simp] theorem State.setTeam_exports (s : State) (c n : Nat) (t : Team) : (s.setTeam c n t).exports = s.exports := rfl
@[simp] theorem State.setTeam_keys (s : State) (c n : Nat) (t : Team) : (s.setTeam c n t).keys = s.keys := rfl
@[simp] theorem State.setTeam_runNext (s : State) (c n : Nat) (t : Team) : (s.setTeam c n t).runNext = s.runNext := rfl
@[simp] theorem State.setTeam_waits (s : State) (c n : Nat) (t : Team) : (s.setTeam c n t).waits = s.waits := rfl
@[simp] theorem State.setTeam_boot (s : State) (c n : Nat) (t : Team) : (s.setTeam c n t).boot = s.boot := rfl
@[simp] theorem State.setTeam_spdm (s : State) (c n : Nat) (t : Team) : (s.setTeam c n t).spdm = s.spdm := rfl
@[simp] theorem State.setTeam_identity (s : State) (c n : Nat) (t : Team) : (s.setTeam c n t).identity = s.identity := rfl
@[simp] theorem State.setTeam_keySlots (s : State) (c n : Nat) (t : Team) : (s.setTeam c n t).keySlots = s.keySlots := rfl
@[simp] theorem State.setTeam_mrs (s : State) (c n : Nat) (t : Team) : (s.setTeam c n t).mrs = s.mrs := rfl
@[simp] theorem State.setTeam_banks (s : State) (c n : Nat) (t : Team) : (s.setTeam c n t).banks = s.banks := rfl
@[simp] theorem State.setTeam_scrub (s : State) (c n : Nat) (t : Team) : (s.setTeam c n t).scrub = s.scrub := rfl
@[simp] theorem State.setTeam_scrubTime (s : State) (c n : Nat) (t : Team) : (s.setTeam c n t).scrubTime = s.scrubTime := rfl
@[simp] theorem State.setTeam_priOut (s : State) (c n : Nat) (t : Team) : (s.setTeam c n t).priOut = s.priOut := rfl
@[simp] theorem State.setTeam_out (s : State) (c n : Nat) (t : Team) : (s.setTeam c n t).out = s.out := rfl
@[simp] theorem State.setTeam_fwNext (s : State) (c n : Nat) (t : Team) : (s.setTeam c n t).fwNext = s.fwNext := rfl
@[simp] theorem State.setTeam_part (s : State) (c n : Nat) (t : Team) : (s.setTeam c n t).part = s.part := rfl
@[simp] theorem State.setTeam_lcores (s : State) (c n : Nat) (t : Team) : (s.setTeam c n t).lcores = s.lcores := rfl
@[simp] theorem State.setTeam_bar0 (s : State) (c n : Nat) (t : Team) : (s.setTeam c n t).bar0 = s.bar0 := rfl
@[simp] theorem State.setTeam_featmask (s : State) (c n : Nat) (t : Team) : (s.setTeam c n t).featmask = s.featmask := rfl
@[simp] theorem State.setTeam_packid (s : State) (c n : Nat) (t : Team) : (s.setTeam c n t).packid = s.packid := rfl
@[simp] theorem State.setTeam_focus (s : State) (c n : Nat) (t : Team) : (s.setTeam c n t).focus = s.focus := rfl
@[simp] theorem State.setTeam_agenda (s : State) (c n : Nat) (t : Team) : (s.setTeam c n t).agenda = s.agenda := rfl
@[simp] theorem State.setTeam_subject (s : State) (c n : Nat) (t : Team) : (s.setTeam c n t).subject = s.subject := rfl
@[simp] theorem State.setTeam_picks (s : State) (c n : Nat) (t : Team) : (s.setTeam c n t).picks = s.picks := rfl
@[simp] theorem State.setTeam_free (s : State) (c n : Nat) (t : Team) : (s.setTeam c n t).free = s.free := rfl

@[simp] theorem State.modTeam_mem (s : State) (c n : Nat) (f : Team → Team) : (s.modTeam c n f).mem = s.mem := by unfold State.modTeam; split <;> rfl
@[simp] theorem State.modTeam_poison (s : State) (c n : Nat) (f : Team → Team) : (s.modTeam c n f).poison = s.poison := by unfold State.modTeam; split <;> rfl
@[simp] theorem State.modTeam_regPoison (s : State) (c n : Nat) (f : Team → Team) : (s.modTeam c n f).regPoison = s.regPoison := by unfold State.modTeam; split <;> rfl
@[simp] theorem State.modTeam_ats (s : State) (c n : Nat) (f : Team → Team) : (s.modTeam c n f).ats = s.ats := by unfold State.modTeam; split <;> rfl
@[simp] theorem State.modTeam_atsWaits (s : State) (c n : Nat) (f : Team → Team) : (s.modTeam c n f).atsWaits = s.atsWaits := by unfold State.modTeam; split <;> rfl
@[simp] theorem State.modTeam_atsEnabled (s : State) (c n : Nat) (f : Team → Team) : (s.modTeam c n f).atsEnabled = s.atsEnabled := by unfold State.modTeam; split <;> rfl
@[simp] theorem State.modTeam_atsInvs (s : State) (c n : Nat) (f : Team → Team) : (s.modTeam c n f).atsInvs = s.atsInvs := by unfold State.modTeam; split <;> rfl
@[simp] theorem State.modTeam_domain (s : State) (c n : Nat) (f : Team → Team) : (s.modTeam c n f).domain = s.domain := by unfold State.modTeam; split <;> rfl
@[simp] theorem State.modTeam_windows (s : State) (c n : Nat) (f : Team → Team) : (s.modTeam c n f).windows = s.windows := by unfold State.modTeam; split <;> rfl
@[simp] theorem State.modTeam_tier2Bytes (s : State) (c n : Nat) (f : Team → Team) : (s.modTeam c n f).tier2Bytes = s.tier2Bytes := by unfold State.modTeam; split <;> rfl
@[simp] theorem State.modTeam_links (s : State) (c n : Nat) (f : Team → Team) : (s.modTeam c n f).links = s.links := by unfold State.modTeam; split <;> rfl
@[simp] theorem State.modTeam_tags (s : State) (c n : Nat) (f : Team → Team) : (s.modTeam c n f).tags = s.tags := by unfold State.modTeam; split <;> rfl
@[simp] theorem State.modTeam_dies (s : State) (c n : Nat) (f : Team → Team) : (s.modTeam c n f).dies = s.dies := by unfold State.modTeam; split <;> rfl
@[simp] theorem State.modTeam_ctxs (s : State) (c n : Nat) (f : Team → Team) : (s.modTeam c n f).ctxs = s.ctxs := by unfold State.modTeam; split <;> rfl
@[simp] theorem State.modTeam_sent (s : State) (c n : Nat) (f : Team → Team) : (s.modTeam c n f).sent = s.sent := by unfold State.modTeam; split <;> rfl
@[simp] theorem State.modTeam_nextAtomic (s : State) (c n : Nat) (f : Team → Team) : (s.modTeam c n f).nextAtomic = s.nextAtomic := by unfold State.modTeam; split <;> rfl
@[simp] theorem State.modTeam_queues (s : State) (c n : Nat) (f : Team → Team) : (s.modTeam c n f).queues = s.queues := by unfold State.modTeam; split <;> rfl
@[simp] theorem State.modTeam_held (s : State) (c n : Nat) (f : Team → Team) : (s.modTeam c n f).held = s.held := by unfold State.modTeam; split <;> rfl
@[simp] theorem State.modTeam_comms (s : State) (c n : Nat) (f : Team → Team) : (s.modTeam c n f).comms = s.comms := by unfold State.modTeam; split <;> rfl
@[simp] theorem State.modTeam_exports (s : State) (c n : Nat) (f : Team → Team) : (s.modTeam c n f).exports = s.exports := by unfold State.modTeam; split <;> rfl
@[simp] theorem State.modTeam_keys (s : State) (c n : Nat) (f : Team → Team) : (s.modTeam c n f).keys = s.keys := by unfold State.modTeam; split <;> rfl
@[simp] theorem State.modTeam_runNext (s : State) (c n : Nat) (f : Team → Team) : (s.modTeam c n f).runNext = s.runNext := by unfold State.modTeam; split <;> rfl
@[simp] theorem State.modTeam_waits (s : State) (c n : Nat) (f : Team → Team) : (s.modTeam c n f).waits = s.waits := by unfold State.modTeam; split <;> rfl
@[simp] theorem State.modTeam_boot (s : State) (c n : Nat) (f : Team → Team) : (s.modTeam c n f).boot = s.boot := by unfold State.modTeam; split <;> rfl
@[simp] theorem State.modTeam_spdm (s : State) (c n : Nat) (f : Team → Team) : (s.modTeam c n f).spdm = s.spdm := by unfold State.modTeam; split <;> rfl
@[simp] theorem State.modTeam_identity (s : State) (c n : Nat) (f : Team → Team) : (s.modTeam c n f).identity = s.identity := by unfold State.modTeam; split <;> rfl
@[simp] theorem State.modTeam_keySlots (s : State) (c n : Nat) (f : Team → Team) : (s.modTeam c n f).keySlots = s.keySlots := by unfold State.modTeam; split <;> rfl
@[simp] theorem State.modTeam_mrs (s : State) (c n : Nat) (f : Team → Team) : (s.modTeam c n f).mrs = s.mrs := by unfold State.modTeam; split <;> rfl
@[simp] theorem State.modTeam_banks (s : State) (c n : Nat) (f : Team → Team) : (s.modTeam c n f).banks = s.banks := by unfold State.modTeam; split <;> rfl
@[simp] theorem State.modTeam_scrub (s : State) (c n : Nat) (f : Team → Team) : (s.modTeam c n f).scrub = s.scrub := by unfold State.modTeam; split <;> rfl
@[simp] theorem State.modTeam_scrubTime (s : State) (c n : Nat) (f : Team → Team) : (s.modTeam c n f).scrubTime = s.scrubTime := by unfold State.modTeam; split <;> rfl
@[simp] theorem State.modTeam_priOut (s : State) (c n : Nat) (f : Team → Team) : (s.modTeam c n f).priOut = s.priOut := by unfold State.modTeam; split <;> rfl
@[simp] theorem State.modTeam_out (s : State) (c n : Nat) (f : Team → Team) : (s.modTeam c n f).out = s.out := by unfold State.modTeam; split <;> rfl
@[simp] theorem State.modTeam_fwNext (s : State) (c n : Nat) (f : Team → Team) : (s.modTeam c n f).fwNext = s.fwNext := by unfold State.modTeam; split <;> rfl
@[simp] theorem State.modTeam_part (s : State) (c n : Nat) (f : Team → Team) : (s.modTeam c n f).part = s.part := by unfold State.modTeam; split <;> rfl
@[simp] theorem State.modTeam_lcores (s : State) (c n : Nat) (f : Team → Team) : (s.modTeam c n f).lcores = s.lcores := by unfold State.modTeam; split <;> rfl
@[simp] theorem State.modTeam_bar0 (s : State) (c n : Nat) (f : Team → Team) : (s.modTeam c n f).bar0 = s.bar0 := by unfold State.modTeam; split <;> rfl
@[simp] theorem State.modTeam_featmask (s : State) (c n : Nat) (f : Team → Team) : (s.modTeam c n f).featmask = s.featmask := by unfold State.modTeam; split <;> rfl
@[simp] theorem State.modTeam_packid (s : State) (c n : Nat) (f : Team → Team) : (s.modTeam c n f).packid = s.packid := by unfold State.modTeam; split <;> rfl
@[simp] theorem State.modTeam_focus (s : State) (c n : Nat) (f : Team → Team) : (s.modTeam c n f).focus = s.focus := by unfold State.modTeam; split <;> rfl
@[simp] theorem State.modTeam_agenda (s : State) (c n : Nat) (f : Team → Team) : (s.modTeam c n f).agenda = s.agenda := by unfold State.modTeam; split <;> rfl
@[simp] theorem State.modTeam_subject (s : State) (c n : Nat) (f : Team → Team) : (s.modTeam c n f).subject = s.subject := by unfold State.modTeam; split <;> rfl
@[simp] theorem State.modTeam_picks (s : State) (c n : Nat) (f : Team → Team) : (s.modTeam c n f).picks = s.picks := by unfold State.modTeam; split <;> rfl
@[simp] theorem State.modTeam_free (s : State) (c n : Nat) (f : Team → Team) : (s.modTeam c n f).free = s.free := by unfold State.modTeam; split <;> rfl

@[simp] theorem State.modGroup_mem (s : State) (g : GRef) (f : Group → Group) : (s.modGroup g f).mem = s.mem := State.modTeam_mem s _ _ _
@[simp] theorem State.modGroup_poison (s : State) (g : GRef) (f : Group → Group) : (s.modGroup g f).poison = s.poison := State.modTeam_poison s _ _ _
@[simp] theorem State.modGroup_regPoison (s : State) (g : GRef) (f : Group → Group) : (s.modGroup g f).regPoison = s.regPoison := State.modTeam_regPoison s _ _ _
@[simp] theorem State.modGroup_ats (s : State) (g : GRef) (f : Group → Group) : (s.modGroup g f).ats = s.ats := State.modTeam_ats s _ _ _
@[simp] theorem State.modGroup_atsWaits (s : State) (g : GRef) (f : Group → Group) : (s.modGroup g f).atsWaits = s.atsWaits := State.modTeam_atsWaits s _ _ _
@[simp] theorem State.modGroup_atsEnabled (s : State) (g : GRef) (f : Group → Group) : (s.modGroup g f).atsEnabled = s.atsEnabled := State.modTeam_atsEnabled s _ _ _
@[simp] theorem State.modGroup_atsInvs (s : State) (g : GRef) (f : Group → Group) : (s.modGroup g f).atsInvs = s.atsInvs := State.modTeam_atsInvs s _ _ _
@[simp] theorem State.modGroup_domain (s : State) (g : GRef) (f : Group → Group) : (s.modGroup g f).domain = s.domain := State.modTeam_domain s _ _ _
@[simp] theorem State.modGroup_windows (s : State) (g : GRef) (f : Group → Group) : (s.modGroup g f).windows = s.windows := State.modTeam_windows s _ _ _
@[simp] theorem State.modGroup_tier2Bytes (s : State) (g : GRef) (f : Group → Group) : (s.modGroup g f).tier2Bytes = s.tier2Bytes := State.modTeam_tier2Bytes s _ _ _
@[simp] theorem State.modGroup_links (s : State) (g : GRef) (f : Group → Group) : (s.modGroup g f).links = s.links := State.modTeam_links s _ _ _
@[simp] theorem State.modGroup_tags (s : State) (g : GRef) (f : Group → Group) : (s.modGroup g f).tags = s.tags := State.modTeam_tags s _ _ _
@[simp] theorem State.modGroup_dies (s : State) (g : GRef) (f : Group → Group) : (s.modGroup g f).dies = s.dies := State.modTeam_dies s _ _ _
@[simp] theorem State.modGroup_ctxs (s : State) (g : GRef) (f : Group → Group) : (s.modGroup g f).ctxs = s.ctxs := State.modTeam_ctxs s _ _ _
@[simp] theorem State.modGroup_sent (s : State) (g : GRef) (f : Group → Group) : (s.modGroup g f).sent = s.sent := State.modTeam_sent s _ _ _
@[simp] theorem State.modGroup_nextAtomic (s : State) (g : GRef) (f : Group → Group) : (s.modGroup g f).nextAtomic = s.nextAtomic := State.modTeam_nextAtomic s _ _ _
@[simp] theorem State.modGroup_queues (s : State) (g : GRef) (f : Group → Group) : (s.modGroup g f).queues = s.queues := State.modTeam_queues s _ _ _
@[simp] theorem State.modGroup_held (s : State) (g : GRef) (f : Group → Group) : (s.modGroup g f).held = s.held := State.modTeam_held s _ _ _
@[simp] theorem State.modGroup_comms (s : State) (g : GRef) (f : Group → Group) : (s.modGroup g f).comms = s.comms := State.modTeam_comms s _ _ _
@[simp] theorem State.modGroup_exports (s : State) (g : GRef) (f : Group → Group) : (s.modGroup g f).exports = s.exports := State.modTeam_exports s _ _ _
@[simp] theorem State.modGroup_keys (s : State) (g : GRef) (f : Group → Group) : (s.modGroup g f).keys = s.keys := State.modTeam_keys s _ _ _
@[simp] theorem State.modGroup_runNext (s : State) (g : GRef) (f : Group → Group) : (s.modGroup g f).runNext = s.runNext := State.modTeam_runNext s _ _ _
@[simp] theorem State.modGroup_waits (s : State) (g : GRef) (f : Group → Group) : (s.modGroup g f).waits = s.waits := State.modTeam_waits s _ _ _
@[simp] theorem State.modGroup_boot (s : State) (g : GRef) (f : Group → Group) : (s.modGroup g f).boot = s.boot := State.modTeam_boot s _ _ _
@[simp] theorem State.modGroup_spdm (s : State) (g : GRef) (f : Group → Group) : (s.modGroup g f).spdm = s.spdm := State.modTeam_spdm s _ _ _
@[simp] theorem State.modGroup_identity (s : State) (g : GRef) (f : Group → Group) : (s.modGroup g f).identity = s.identity := State.modTeam_identity s _ _ _
@[simp] theorem State.modGroup_keySlots (s : State) (g : GRef) (f : Group → Group) : (s.modGroup g f).keySlots = s.keySlots := State.modTeam_keySlots s _ _ _
@[simp] theorem State.modGroup_mrs (s : State) (g : GRef) (f : Group → Group) : (s.modGroup g f).mrs = s.mrs := State.modTeam_mrs s _ _ _
@[simp] theorem State.modGroup_banks (s : State) (g : GRef) (f : Group → Group) : (s.modGroup g f).banks = s.banks := State.modTeam_banks s _ _ _
@[simp] theorem State.modGroup_scrub (s : State) (g : GRef) (f : Group → Group) : (s.modGroup g f).scrub = s.scrub := State.modTeam_scrub s _ _ _
@[simp] theorem State.modGroup_scrubTime (s : State) (g : GRef) (f : Group → Group) : (s.modGroup g f).scrubTime = s.scrubTime := State.modTeam_scrubTime s _ _ _
@[simp] theorem State.modGroup_priOut (s : State) (g : GRef) (f : Group → Group) : (s.modGroup g f).priOut = s.priOut := State.modTeam_priOut s _ _ _
@[simp] theorem State.modGroup_out (s : State) (g : GRef) (f : Group → Group) : (s.modGroup g f).out = s.out := State.modTeam_out s _ _ _
@[simp] theorem State.modGroup_fwNext (s : State) (g : GRef) (f : Group → Group) : (s.modGroup g f).fwNext = s.fwNext := State.modTeam_fwNext s _ _ _
@[simp] theorem State.modGroup_part (s : State) (g : GRef) (f : Group → Group) : (s.modGroup g f).part = s.part := State.modTeam_part s _ _ _
@[simp] theorem State.modGroup_lcores (s : State) (g : GRef) (f : Group → Group) : (s.modGroup g f).lcores = s.lcores := State.modTeam_lcores s _ _ _
@[simp] theorem State.modGroup_bar0 (s : State) (g : GRef) (f : Group → Group) : (s.modGroup g f).bar0 = s.bar0 := State.modTeam_bar0 s _ _ _
@[simp] theorem State.modGroup_featmask (s : State) (g : GRef) (f : Group → Group) : (s.modGroup g f).featmask = s.featmask := State.modTeam_featmask s _ _ _
@[simp] theorem State.modGroup_packid (s : State) (g : GRef) (f : Group → Group) : (s.modGroup g f).packid = s.packid := State.modTeam_packid s _ _ _
@[simp] theorem State.modGroup_focus (s : State) (g : GRef) (f : Group → Group) : (s.modGroup g f).focus = s.focus := State.modTeam_focus s _ _ _
@[simp] theorem State.modGroup_agenda (s : State) (g : GRef) (f : Group → Group) : (s.modGroup g f).agenda = s.agenda := State.modTeam_agenda s _ _ _
@[simp] theorem State.modGroup_subject (s : State) (g : GRef) (f : Group → Group) : (s.modGroup g f).subject = s.subject := State.modTeam_subject s _ _ _
@[simp] theorem State.modGroup_picks (s : State) (g : GRef) (f : Group → Group) : (s.modGroup g f).picks = s.picks := State.modTeam_picks s _ _ _
@[simp] theorem State.modGroup_free (s : State) (g : GRef) (f : Group → Group) : (s.modGroup g f).free = s.free := State.modTeam_free s _ _ _

@[simp] theorem State.raiseTurn_mem (s : State) (i : Instr) (u : Subject) : (s.raiseTurn i u).mem = s.mem := rfl
@[simp] theorem State.raiseTurn_poison (s : State) (i : Instr) (u : Subject) : (s.raiseTurn i u).poison = s.poison := rfl
@[simp] theorem State.raiseTurn_regPoison (s : State) (i : Instr) (u : Subject) : (s.raiseTurn i u).regPoison = s.regPoison := rfl
@[simp] theorem State.raiseTurn_ats (s : State) (i : Instr) (u : Subject) : (s.raiseTurn i u).ats = s.ats := rfl
@[simp] theorem State.raiseTurn_atsWaits (s : State) (i : Instr) (u : Subject) : (s.raiseTurn i u).atsWaits = s.atsWaits := rfl
@[simp] theorem State.raiseTurn_atsEnabled (s : State) (i : Instr) (u : Subject) : (s.raiseTurn i u).atsEnabled = s.atsEnabled := rfl
@[simp] theorem State.raiseTurn_atsInvs (s : State) (i : Instr) (u : Subject) : (s.raiseTurn i u).atsInvs = s.atsInvs := rfl
@[simp] theorem State.raiseTurn_domain (s : State) (i : Instr) (u : Subject) : (s.raiseTurn i u).domain = s.domain := rfl
@[simp] theorem State.raiseTurn_windows (s : State) (i : Instr) (u : Subject) : (s.raiseTurn i u).windows = s.windows := rfl
@[simp] theorem State.raiseTurn_tier2Bytes (s : State) (i : Instr) (u : Subject) : (s.raiseTurn i u).tier2Bytes = s.tier2Bytes := rfl
@[simp] theorem State.raiseTurn_links (s : State) (i : Instr) (u : Subject) : (s.raiseTurn i u).links = s.links := rfl
@[simp] theorem State.raiseTurn_tags (s : State) (i : Instr) (u : Subject) : (s.raiseTurn i u).tags = s.tags := rfl
@[simp] theorem State.raiseTurn_dies (s : State) (i : Instr) (u : Subject) : (s.raiseTurn i u).dies = s.dies := rfl
@[simp] theorem State.raiseTurn_cores (s : State) (i : Instr) (u : Subject) : (s.raiseTurn i u).cores = s.cores := rfl
@[simp] theorem State.raiseTurn_ctxs (s : State) (i : Instr) (u : Subject) : (s.raiseTurn i u).ctxs = s.ctxs := rfl
@[simp] theorem State.raiseTurn_sent (s : State) (i : Instr) (u : Subject) : (s.raiseTurn i u).sent = s.sent := rfl
@[simp] theorem State.raiseTurn_nextAtomic (s : State) (i : Instr) (u : Subject) : (s.raiseTurn i u).nextAtomic = s.nextAtomic := rfl
@[simp] theorem State.raiseTurn_queues (s : State) (i : Instr) (u : Subject) : (s.raiseTurn i u).queues = s.queues := rfl
@[simp] theorem State.raiseTurn_held (s : State) (i : Instr) (u : Subject) : (s.raiseTurn i u).held = s.held := rfl
@[simp] theorem State.raiseTurn_comms (s : State) (i : Instr) (u : Subject) : (s.raiseTurn i u).comms = s.comms := rfl
@[simp] theorem State.raiseTurn_exports (s : State) (i : Instr) (u : Subject) : (s.raiseTurn i u).exports = s.exports := rfl
@[simp] theorem State.raiseTurn_keys (s : State) (i : Instr) (u : Subject) : (s.raiseTurn i u).keys = s.keys := rfl
@[simp] theorem State.raiseTurn_runNext (s : State) (i : Instr) (u : Subject) : (s.raiseTurn i u).runNext = s.runNext := rfl
@[simp] theorem State.raiseTurn_waits (s : State) (i : Instr) (u : Subject) : (s.raiseTurn i u).waits = s.waits := rfl
@[simp] theorem State.raiseTurn_boot (s : State) (i : Instr) (u : Subject) : (s.raiseTurn i u).boot = s.boot := rfl
@[simp] theorem State.raiseTurn_spdm (s : State) (i : Instr) (u : Subject) : (s.raiseTurn i u).spdm = s.spdm := rfl
@[simp] theorem State.raiseTurn_identity (s : State) (i : Instr) (u : Subject) : (s.raiseTurn i u).identity = s.identity := rfl
@[simp] theorem State.raiseTurn_keySlots (s : State) (i : Instr) (u : Subject) : (s.raiseTurn i u).keySlots = s.keySlots := rfl
@[simp] theorem State.raiseTurn_mrs (s : State) (i : Instr) (u : Subject) : (s.raiseTurn i u).mrs = s.mrs := rfl
@[simp] theorem State.raiseTurn_banks (s : State) (i : Instr) (u : Subject) : (s.raiseTurn i u).banks = s.banks := rfl
@[simp] theorem State.raiseTurn_scrub (s : State) (i : Instr) (u : Subject) : (s.raiseTurn i u).scrub = s.scrub := rfl
@[simp] theorem State.raiseTurn_scrubTime (s : State) (i : Instr) (u : Subject) : (s.raiseTurn i u).scrubTime = s.scrubTime := rfl
@[simp] theorem State.raiseTurn_priOut (s : State) (i : Instr) (u : Subject) : (s.raiseTurn i u).priOut = s.priOut := rfl
@[simp] theorem State.raiseTurn_out (s : State) (i : Instr) (u : Subject) : (s.raiseTurn i u).out = s.out := rfl
@[simp] theorem State.raiseTurn_fwNext (s : State) (i : Instr) (u : Subject) : (s.raiseTurn i u).fwNext = s.fwNext := rfl
@[simp] theorem State.raiseTurn_part (s : State) (i : Instr) (u : Subject) : (s.raiseTurn i u).part = s.part := rfl
@[simp] theorem State.raiseTurn_lcores (s : State) (i : Instr) (u : Subject) : (s.raiseTurn i u).lcores = s.lcores := rfl
@[simp] theorem State.raiseTurn_bar0 (s : State) (i : Instr) (u : Subject) : (s.raiseTurn i u).bar0 = s.bar0 := rfl
@[simp] theorem State.raiseTurn_featmask (s : State) (i : Instr) (u : Subject) : (s.raiseTurn i u).featmask = s.featmask := rfl
@[simp] theorem State.raiseTurn_packid (s : State) (i : Instr) (u : Subject) : (s.raiseTurn i u).packid = s.packid := rfl
@[simp] theorem State.raiseTurn_focus (s : State) (i : Instr) (u : Subject) : (s.raiseTurn i u).focus = s.focus := rfl
@[simp] theorem State.raiseTurn_subject (s : State) (i : Instr) (u : Subject) : (s.raiseTurn i u).subject = s.subject := rfl
@[simp] theorem State.raiseTurn_picks (s : State) (i : Instr) (u : Subject) : (s.raiseTurn i u).picks = s.picks := rfl
@[simp] theorem State.raiseTurn_free (s : State) (i : Instr) (u : Subject) : (s.raiseTurn i u).free = s.free := rfl

@[simp] theorem State.raisePlien_mem (s : State) (d k : Nat) : (s.raisePlien d k).mem = s.mem := rfl
@[simp] theorem State.raisePlien_poison (s : State) (d k : Nat) : (s.raisePlien d k).poison = s.poison := rfl
@[simp] theorem State.raisePlien_regPoison (s : State) (d k : Nat) : (s.raisePlien d k).regPoison = s.regPoison := rfl
@[simp] theorem State.raisePlien_ats (s : State) (d k : Nat) : (s.raisePlien d k).ats = s.ats := rfl
@[simp] theorem State.raisePlien_atsWaits (s : State) (d k : Nat) : (s.raisePlien d k).atsWaits = s.atsWaits := rfl
@[simp] theorem State.raisePlien_atsEnabled (s : State) (d k : Nat) : (s.raisePlien d k).atsEnabled = s.atsEnabled := rfl
@[simp] theorem State.raisePlien_atsInvs (s : State) (d k : Nat) : (s.raisePlien d k).atsInvs = s.atsInvs := rfl
@[simp] theorem State.raisePlien_domain (s : State) (d k : Nat) : (s.raisePlien d k).domain = s.domain := rfl
@[simp] theorem State.raisePlien_windows (s : State) (d k : Nat) : (s.raisePlien d k).windows = s.windows := rfl
@[simp] theorem State.raisePlien_tier2Bytes (s : State) (d k : Nat) : (s.raisePlien d k).tier2Bytes = s.tier2Bytes := rfl
@[simp] theorem State.raisePlien_links (s : State) (d k : Nat) : (s.raisePlien d k).links = s.links := rfl
@[simp] theorem State.raisePlien_tags (s : State) (d k : Nat) : (s.raisePlien d k).tags = s.tags := rfl
@[simp] theorem State.raisePlien_cores (s : State) (d k : Nat) : (s.raisePlien d k).cores = s.cores := rfl
@[simp] theorem State.raisePlien_ctxs (s : State) (d k : Nat) : (s.raisePlien d k).ctxs = s.ctxs := rfl
@[simp] theorem State.raisePlien_sent (s : State) (d k : Nat) : (s.raisePlien d k).sent = s.sent := rfl
@[simp] theorem State.raisePlien_nextAtomic (s : State) (d k : Nat) : (s.raisePlien d k).nextAtomic = s.nextAtomic := rfl
@[simp] theorem State.raisePlien_queues (s : State) (d k : Nat) : (s.raisePlien d k).queues = s.queues := rfl
@[simp] theorem State.raisePlien_held (s : State) (d k : Nat) : (s.raisePlien d k).held = s.held := rfl
@[simp] theorem State.raisePlien_comms (s : State) (d k : Nat) : (s.raisePlien d k).comms = s.comms := rfl
@[simp] theorem State.raisePlien_exports (s : State) (d k : Nat) : (s.raisePlien d k).exports = s.exports := rfl
@[simp] theorem State.raisePlien_keys (s : State) (d k : Nat) : (s.raisePlien d k).keys = s.keys := rfl
@[simp] theorem State.raisePlien_runNext (s : State) (d k : Nat) : (s.raisePlien d k).runNext = s.runNext := rfl
@[simp] theorem State.raisePlien_waits (s : State) (d k : Nat) : (s.raisePlien d k).waits = s.waits := rfl
@[simp] theorem State.raisePlien_boot (s : State) (d k : Nat) : (s.raisePlien d k).boot = s.boot := rfl
@[simp] theorem State.raisePlien_spdm (s : State) (d k : Nat) : (s.raisePlien d k).spdm = s.spdm := rfl
@[simp] theorem State.raisePlien_identity (s : State) (d k : Nat) : (s.raisePlien d k).identity = s.identity := rfl
@[simp] theorem State.raisePlien_keySlots (s : State) (d k : Nat) : (s.raisePlien d k).keySlots = s.keySlots := rfl
@[simp] theorem State.raisePlien_mrs (s : State) (d k : Nat) : (s.raisePlien d k).mrs = s.mrs := rfl
@[simp] theorem State.raisePlien_banks (s : State) (d k : Nat) : (s.raisePlien d k).banks = s.banks := rfl
@[simp] theorem State.raisePlien_scrub (s : State) (d k : Nat) : (s.raisePlien d k).scrub = s.scrub := rfl
@[simp] theorem State.raisePlien_scrubTime (s : State) (d k : Nat) : (s.raisePlien d k).scrubTime = s.scrubTime := rfl
@[simp] theorem State.raisePlien_priOut (s : State) (d k : Nat) : (s.raisePlien d k).priOut = s.priOut := rfl
@[simp] theorem State.raisePlien_out (s : State) (d k : Nat) : (s.raisePlien d k).out = s.out := rfl
@[simp] theorem State.raisePlien_fwNext (s : State) (d k : Nat) : (s.raisePlien d k).fwNext = s.fwNext := rfl
@[simp] theorem State.raisePlien_part (s : State) (d k : Nat) : (s.raisePlien d k).part = s.part := rfl
@[simp] theorem State.raisePlien_lcores (s : State) (d k : Nat) : (s.raisePlien d k).lcores = s.lcores := rfl
@[simp] theorem State.raisePlien_bar0 (s : State) (d k : Nat) : (s.raisePlien d k).bar0 = s.bar0 := rfl
@[simp] theorem State.raisePlien_featmask (s : State) (d k : Nat) : (s.raisePlien d k).featmask = s.featmask := rfl
@[simp] theorem State.raisePlien_packid (s : State) (d k : Nat) : (s.raisePlien d k).packid = s.packid := rfl
@[simp] theorem State.raisePlien_focus (s : State) (d k : Nat) : (s.raisePlien d k).focus = s.focus := rfl
@[simp] theorem State.raisePlien_agenda (s : State) (d k : Nat) : (s.raisePlien d k).agenda = s.agenda := rfl
@[simp] theorem State.raisePlien_subject (s : State) (d k : Nat) : (s.raisePlien d k).subject = s.subject := rfl
@[simp] theorem State.raisePlien_picks (s : State) (d k : Nat) : (s.raisePlien d k).picks = s.picks := rfl
@[simp] theorem State.raisePlien_free (s : State) (d k : Nat) : (s.raisePlien d k).free = s.free := rfl


@[simp] theorem State.modCore_core_same (s : State) (c : Nat) (f : Core → Core) : (s.modCore c f).core c = f (s.core c) := by
  simp [State.modCore, State.core]

theorem State.modCore_core_ne (s : State) (c d : Nat) (f : Core → Core) (h : d ≠ c) : (s.modCore c f).core d = s.core d := by
  simp [State.modCore, State.core, tget_tput_ne _ _ _ _ h]

@[simp] theorem State.modDie_die_same (s : State) (d : Nat) (f : Die → Die) : (s.modDie d f).die d = f (s.die d) := by
  simp [State.modDie, State.die]

theorem State.modDie_die_ne (s : State) (d e : Nat) (f : Die → Die) (h : e ≠ d) : (s.modDie d f).die e = s.die e := by
  simp [State.modDie, State.die, tget_tput_ne _ _ _ _ h]

theorem State.modCtx_ctx_same (s : State) (c : Nat) (f : Ctx → Ctx) (x : Ctx) (h : s.ctx? c = some x) :
    (s.modCtx c f).ctx? c = some (f x) := by
  unfold State.ctx? at h
  simp [State.modCtx, State.ctx?, h]

theorem State.modCtx_ctx_ne (s : State) (c d : Nat) (f : Ctx → Ctx) (h : d ≠ c) : (s.modCtx c f).ctx? d = s.ctx? d := by
  unfold State.modCtx State.ctx?
  split
  · rfl
  · simp [tget_tput_ne _ _ _ _ h]

@[simp] theorem State.setTeam_team_same (s : State) (c n : Nat) (t : Team) : (s.setTeam c n t).team? c n = some t := by
  simp [State.setTeam, State.team?]

theorem State.modTeam_team_same (s : State) (c n : Nat) (f : Team → Team) (t : Team) (h : s.team? c n = some t) :
    (s.modTeam c n f).team? c n = some (f t) := by
  simp [State.modTeam, h]

theorem State.modTeam_team_none (s : State) (c n : Nat) (f : Team → Team) (h : s.team? c n = none) : s.modTeam c n f = s := by
  simp [State.modTeam, h]

theorem State.setTeam_team_ne (s : State) (c n d m : Nat) (t : Team) (h : d ≠ c ∨ m ≠ n) : (s.setTeam c n t).team? d m = s.team? d m := by
  by_cases hc : d = c
  · subst hc
    have hm : m ≠ n := by tauto
    simp [State.setTeam, State.team?, tget_tput_ne _ _ _ _ hm]
  · simp [State.setTeam, State.team?, State.modCore_core_ne _ _ _ _ hc]

theorem State.modTeam_team_ne (s : State) (c n d m : Nat) (f : Team → Team) (h : d ≠ c ∨ m ≠ n) :
    (s.modTeam c n f).team? d m = s.team? d m := by
  unfold State.modTeam
  split
  · rfl
  · exact State.setTeam_team_ne s c n d m _ h

theorem State.modGroup_group_same (s : State) (g : GRef) (f : Group → Group) (x : Group) (h : s.group? g = some x) :
    (s.modGroup g f).group? g = some (f x) := by
  unfold State.group? at h
  split at h
  · simp at h
  · rename_i t ht
    unfold State.group? State.modGroup
    rw [State.modTeam_team_same _ _ _ _ t ht]
    simp [h]

theorem State.modCore_modCore (s : State) (c : Nat) (f h : Core → Core) : (s.modCore c f).modCore c h = s.modCore c (fun k => h (f k)) := by
  have := State.modCore_core_same s c f
  unfold State.modCore at this ⊢
  rw [this]
  simp

theorem State.setTeam_setTeam (s : State) (c n : Nat) (t u : Team) : (s.setTeam c n t).setTeam c n u = s.setTeam c n u := by
  unfold State.setTeam
  rw [State.modCore_modCore]
  simp

theorem State.modTeam_modTeam (s : State) (c n : Nat) (f h : Team → Team) :
    (s.modTeam c n f).modTeam c n h = s.modTeam c n (fun t => h (f t)) := by
  cases ht : s.team? c n with
  | none => simp only [State.modTeam, ht]
  | some t =>
    have e := State.modTeam_team_same s c n f t ht
    have l : s.modTeam c n f = s.setTeam c n (f t) := by simp only [State.modTeam, ht]
    rw [l] at e ⊢
    rw [show s.modTeam c n (fun t => h (f t)) = s.setTeam c n (h (f t)) by simp only [State.modTeam, ht]]
    rw [show (s.setTeam c n (f t)).modTeam c n h = (s.setTeam c n (f t)).setTeam c n (h (f t)) by simp only [State.modTeam, e]]
    exact State.setTeam_setTeam s c n (f t) (h (f t))

theorem State.core_listed (s : State) (c n : Nat) (t : Team) (h : s.team? c n = some t) : tget s.cores c = some (s.core c) := by
  unfold State.team? State.core at *
  cases hc : tget s.cores c with
  | none => rw [hc] at h; simp [tget] at h
  | some k => rfl

theorem State.setTeam_self (s : State) (c n : Nat) (t : Team) (h : s.team? c n = some t) : s.setTeam c n t = s := by
  have hc := State.core_listed s c n t h
  have e : (fun k : Core => { k with teams := tput k.teams n t }) (s.core c) = s.core c := by
    have : tput (s.core c).teams n t = (s.core c).teams := tput_tget_self _ _ _ h
    show ({ s.core c with teams := tput (s.core c).teams n t } : Core) = s.core c
    rw [this]
  unfold State.setTeam State.modCore
  rw [e, tput_tget_self _ _ _ hc]

theorem State.modGroup_self (s : State) (g : GRef) (f : Group → Group) (x : Group) (h : s.group? g = some x) (hf : f x = x) :
    s.modGroup g f = s := by
  unfold State.group? at h
  unfold State.modGroup State.modTeam
  split at h
  · cases h
  · rename_i t ht
    have : t.groups.modify g.grp f = t.groups := by
      apply List.ext_getElem?
      intro n
      rw [List.getElem?_modify]
      split
      · subst_vars; rw [h]; simp [hf]
      · simp
    show s.setTeam g.core g.slot { t with groups := t.groups.modify g.grp f } = s
    rw [this]
    exact State.setTeam_self s g.core g.slot t ht

theorem State.group_modCore (s : State) (g : GRef) (c : Nat) (f : Core → Core) (hf : ∀ k, (f k).teams = k.teams) :
    (s.modCore c f).group? g = s.group? g := by
  unfold State.group? State.team?
  by_cases h : g.core = c
  · subst h; rw [State.modCore_core_same, hf]
  · rw [State.modCore_core_ne _ _ _ _ h]

theorem State.team_modCore (s : State) (d n : Nat) (c : Nat) (f : Core → Core) (hf : ∀ k, (f k).teams = k.teams) :
    (s.modCore c f).team? d n = s.team? d n := by
  unfold State.team?
  by_cases h : d = c
  · subst h; rw [State.modCore_core_same, hf]
  · rw [State.modCore_core_ne _ _ _ _ h]

theorem State.modGroup_eq_setTeam (s : State) (g : GRef) (f : Group → Group) (t : Team) (h : s.team? g.core g.slot = some t) :
    s.modGroup g f = s.setTeam g.core g.slot { t with groups := t.groups.modify g.grp f } := by
  unfold State.modGroup State.modTeam
  rw [h]

end Sys2Proof.Machine
end

