-- ==== Sys2Proof/Laws/Invariant.lean ====
section
/-!
SUPPORT. The invariant of the machine under every shared operation that writes memory: each keeps its canonical form. An operation that
writes no byte keeps it by its `_mem` lemma (`Inv.of_mem`).
-/
namespace Sys2Proof.Machine

/-- What leaves memory alone keeps the invariant. -/
theorem Inv.of_mem {s t : State} (h : Inv s) (e : t.mem = s.mem) : Inv t := by unfold Inv at *; rw [e]; exact h

/-- A fold of steps that each keep the invariant keeps it. -/
theorem Inv.foldl {α : Type} (f : State → α → State) (hf : ∀ s a, Inv s → Inv (f s a)) (l : List α) {s : State} (h : Inv s) : Inv (l.foldl f s) := by
  induction l generalizing s with
  | nil => exact h
  | cons a l ih => exact ih (hf s a h)

/-- A fold of memory writes keeps the canonical form. -/
theorem Memory.wf_foldl {α : Type} (f : Memory → α → Memory) (hf : ∀ m a, m.wf = true → (f m a).wf = true) (l : List α) {m : Memory} (h : m.wf = true) :
    (l.foldl f m).wf = true := by
  induction l generalizing m with
  | nil => exact h
  | cons a l ih => exact ih (hf m a h)

theorem State.store_inv (s : State) (a : Nat) (bs : List Byte) (h : Inv s) : Inv (s.store a bs) := Memory.wf_writeBytes _ _ _ h

theorem State.storeLE_inv (s : State) (a n v : Nat) (h : Inv s) : Inv (s.storeLE a n v) := State.store_inv s a _ h

theorem State.atomicWrite_inv (s : State) (a n v : Nat) (h : Inv s) : Inv (s.atomicWrite a n v) := Memory.wf_writeLE _ _ _ _ h

theorem State.clearSlice_inv (s : State) (core base len : Nat) (h : Inv s) : Inv (s.clearSlice core base len) := Memory.wf_clear _ _ _ h

theorem State.writeTrapTile_inv (s : State) (g : GRef) (n : Nat) (bs : List Byte) (h : Inv s) : Inv (s.writeTrapTile g n bs) := by
  unfold State.writeTrapTile
  split
  · exact h
  · exact Memory.wf_writeBytes _ _ _ h

theorem State.postEvent_inv (s : State) (typ ctx : Nat) (b : List Byte) (h : Inv s) : Inv (s.postEvent typ ctx b) := by
  unfold State.postEvent
  dsimp only
  split
  · exact h
  · exact Memory.wf_writeBytes _ _ _ h

theorem State.setEntry_inv (s : State) (a v : Nat) (h : Inv s) : Inv (s.setEntry a v) := Memory.wf_writeLE _ _ _ _ h

theorem State.setAD_inv (s : State) (a : Access) (at_ : Nat) (h : Inv s) : Inv (s.setAD a at_) := by
  unfold State.setAD
  refine iteInduction (fun _ => h) (fun _ => Memory.wf_writeLE _ _ _ _ h)

theorem State.complete_inv (s : State) (i st r : Nat) (h : Inv s) : Inv (s.complete i st r) := Memory.wf_writeLE _ _ _ _ (Memory.wf_writeLE _ _ _ _ h)

theorem State.takeFrames_inv (s : State) (n a : Nat) (h : Inv s) : Inv (s.takeFrames n a).2 := Memory.wf_clear _ _ _ h

theorem State.restart_inv (s : State) (h : Inv s) : Inv s.restart := Memory.wf_filter _ _ h

theorem State.placeTeam_inv (s : State) (v : SavedTeam) (core slot w t q : Nat) (h : Inv s) : Inv (s.placeTeam v core slot w t q) := by
  unfold State.placeTeam
  dsimp only
  split <;> exact Memory.wf_foldl _ (fun m a hm => Memory.wf_writeBytes m _ a.2 hm) _ h

theorem State.fileSaveArea_inv (s : State) (ctx : Nat) (h : Inv s) : Inv (s.fileSaveArea ctx) := by
  unfold State.fileSaveArea
  split
  · exact h
  · split
    · exact h
    · dsimp only
      refine Inv.of_mem (s := { (s.takeFrames _ 1).2 with mem := (s.takeFrames _ 1).2.mem.writeBytes _ _, free := _ }) ?_ (State.modCtx_mem _ _ _)
      exact Memory.wf_writeBytes _ _ _ (State.takeFrames_inv s _ 1 h)

/-- Performing a request keeps the invariant where its body does. -/
theorem State.perform_inv (s : State) (op flags : Nat) (on : Bool) (used : List (Nat × Nat)) (body : Nat → List Byte → Answer)
    (hb : ∀ c b, Inv (body c b).2) (h : Inv s) : Inv (s.perform op flags on used body) := by
  unfold State.perform
  split
  · exact h
  · next b _ =>
    dsimp only
    split
    · exact h
    · split
      · exact State.complete_inv s _ _ _ h
      · split
        · exact State.complete_inv s _ _ _ h
        · have := hb (leAt b 2 2) b
          split
          · next e => rw [e] at this; exact this
          · next e => rw [e] at this; exact State.complete_inv _ _ _ _ this

end Sys2Proof.Machine
end

