-- ==== Sys2Proof/Laws/Issue.lean ====
section
/-!
SUPPORT. What issuing an instruction does: the one lemma that every completion is read off.
-/
namespace Sys2Proof.Machine

theorem checkOperands_ok {i j : Iss} {now : Nat} (h : checkOperands i now = .ok j) :
    ∃ short, j = makeIss i.s i.g i.tm i.grp i.x i.op i.f i.r i.o now short := by
  unfold checkOperands at h
  dsimp only at h
  split at h
  · cases h
  · split at h
    · cases h
    · split at h
      · cases h
      · exact ⟨_, (Except.ok.inj h).symm⟩

/-- What a passed check says of the instruction: it stands where the execution does, and only a choice may have been used up. -/
theorem checkIssue_ok {s : State} {g : GRef} {tm : Team} {grp : Group} {x : Exec} {op : Nat} {f : Fields} {i : Iss}
    (h : checkIssue s g tm grp x op f = .ok i) :
    i.g = g ∧ i.tm = tm ∧ i.grp = grp ∧ i.x = x ∧ i.op = op ∧ i.f = f ∧ i.here = x.here ∧ ∃ p, i.s = { s with picks := p } := by
  unfold checkIssue at h
  split at h
  · cases h
  · split at h
    · cases h
    · split at h
      · cases h
      · obtain ⟨short, rfl⟩ := checkOperands_ok h
        exact ⟨rfl, rfl, rfl, rfl, rfl, rfl, rfl, _, rfl⟩

/-- An instruction that nothing stops passes every check, its channels may be used, and it reads nothing poisoned. -/
theorem issueChecks_ok {s : State} {g : GRef} {tm : Team} {grp : Group} {x : Exec} {op : Nat} {f : Fields} {i : Iss}
    (h : issueChecks s g tm grp x op f = .ok i) :
    breakHit s tm x (f.enc == .l9) = none ∧ checkIssue s g tm grp x op f = .ok i ∧ channelChecks i = none
      ∧ poisonedSource i (capture i).words = none := by
  unfold issueChecks at h
  split at h
  · cases h
  · split at h
    · cases h
    · split at h
      · cases h
      · split at h
        · cases h
        · cases h
          exact ⟨by assumption, by assumption, by assumption, by assumption⟩

/-- An instruction that is ready stands where the focused group's execution does. -/
theorem readyAt_some {op : Nat} {f : Fields} {s : State} {i : Iss} (h : readyAt op f s = some i) :
    s.standing = some (i.g, i.tm, i.grp, i.x) ∧ issueChecks s i.g i.tm i.grp i.x op f = .ok i ∧ i.goes = true
      ∧ (capture i).empty = [] ∧ i.here = i.x.here ∧ i.here ≠ [] ∧ i.op = op ∧ i.f = f ∧ ∃ p, i.s = { s with picks := p } := by
  unfold readyAt at h
  split at h
  · cases h
  · rename_i g tm grp x hs
    split at h
    · cases h
    · rename_i j hj
      split at h
      · rename_i hc
        have e := Option.some.inj h
        subst e
        obtain ⟨-, hk, -, -⟩ := issueChecks_ok hj
        obtain ⟨rfl, rfl, rfl, rfl, ho, hf, hh, hp⟩ := checkIssue_ok hk
        have hc' := hc
        simp only [Iss.goes, Bool.and_eq_true, List.isEmpty_iff, Bool.not_eq_true', List.isEmpty_eq_false_iff] at hc'
        exact ⟨hs, hj, hc, hc'.1.1, hh, hc'.1.2, ho, hf, hp⟩
      · cases h

theorem served_self (i : Iss) (h : (capture i).empty = []) : i.served (capture i) = i := by
  simp [Iss.served, h]

/-- An instruction that goes stalls only where its lanes all leave and the group's shadow is behind (R407, R409). -/
theorem stalls_goes {i : Iss} (h : i.goes = true) (res : Res)
    (hl : i.grp.shadowBehind i.x.off = false ∨ i.here.all (fun l => (res.leave.map (·.1)).contains l) = false) :
    i.stalls (capture i) res = false := by
  simp only [Iss.goes, Bool.and_eq_true, Bool.not_eq_true'] at h
  obtain ⟨⟨h1, -⟩, h3⟩ := h
  have h1' := List.isEmpty_iff.mp h1
  have h4 : (i.here.all fun l => (res.leave.map (·.1)).contains l || ((capture i).empty.map (·.1)).contains l)
      = i.here.all fun l => (res.leave.map (·.1)).contains l := by simp [h1']
  unfold Iss.stalls
  rw [h1, h4]
  cases hs : i.grp.shadow with
  | false => rfl
  | true =>
    rw [hs, Bool.true_and] at h3
    rw [h3]
    rcases hl with hl | hl <;> rw [hl] <;> simp

/-- An instruction with which no lane leaves does not stall where it goes. -/
theorem stalls_stay {i : Iss} (h : i.goes = true) (res : Res) (hl : res.leave = []) : i.stalls (capture i) res = false := by
  refine stalls_goes h res (.inr ?_)
  simp only [Iss.goes, Bool.and_eq_true, Bool.not_eq_true'] at h
  obtain ⟨l, ls, e⟩ := List.exists_cons_of_ne_nil (List.isEmpty_eq_false_iff.mp h.1.2)
  simp [hl, e]

/-- Where an instruction is ready, its meaning gives a result and it does not stall, issuing it is applying that result. -/
theorem issueOn_ready {op : Nat} {f : Fields} {s : State} {i : Iss} (body : Body) {res : Res} (h : readyAt op f s = some i)
    (hb : body i (capture i).words = .ok res) (hl : i.stalls (capture i) res = false) :
    issueOn op f body s = .next (applyIssue i (capture i) i.x.word res) := by
  obtain ⟨hs, hk, -, h3, -⟩ := readyAt_some h
  simp [issueOn, hs, hk, issueBody, handBackFor, firstSome, h3, served_self, hb, hl]

/-- Where an instruction is ready, its meaning traps and the group's shadow does not hold it back, issuing it takes the trap. -/
theorem issueOn_trap {op : Nat} {f : Fields} {s : State} {i : Iss} (body : Body) {t : Trap} (h : readyAt op f s = some i)
    (hg : i.grp.shadowBehind i.x.off = false) (hb : body i (capture i).words = .error t) :
    issueOn op f body s = .next (((i.s.leave i.g i.now []).clockTo i.g.core i.now).stopAt i.g t i.x.off (64 ≤ t.cause && t.cause < 80) false) := by
  obtain ⟨hs, hk, -, h3, -⟩ := readyAt_some h
  simp [issueOn, hs, hk, issueBody, handBackFor, firstSome, h3, served_self, hb, emptyLeave, hg, State.trapIn]

theorem standing_some {s : State} {g : GRef} {tm : Team} {grp : Group} {x : Exec} (h : s.standing = some (g, tm, grp, x)) :
    s.focus = some g ∧ s.team? g.core g.slot = some tm ∧ s.group? g = some grp ∧ grp.exec = some x := by
  unfold State.standing at h
  split at h
  · cases h
  · split at h
    · rename_i t' grp' ht hg
      cases he : grp'.exec with
      | none => rw [he] at h; cases h
      | some y =>
        rw [he] at h
        cases h
        exact ⟨by assumption, ht, hg, he⟩
    · cases h

/-- The execution after an instruction with no lane that leaves. -/
theorem afterIssue_of (i : Iss) (word : DWord) (res : Res) (hw : word = i.x.word) :
    Issued.Of (afterIssue i (capture i) word res) i res.writes res.effs := by
  subst hw
  exact ⟨rfl, ⟨_, rfl, rfl, rfl, rfl, rfl, rfl⟩, rfl, rfl, rfl⟩

theorem State.leave_nil (s : State) (g : GRef) (now : Nat) (x : Group) (h : s.group? g = some x) : s.leave g now [] = s := by
  refine State.modGroup_self s g _ x h ?_
  cases x with
  | mk => simp

/-- Applying a result with which no lane leaves. -/
theorem applyIssue_took {op : Nat} {f : Fields} {s : State} {i : Iss} (h : readyAt op f s = some i) (res : Res) (hl : res.leave = []) :
    ∃ x, (applyIssue i (capture i) i.x.word res).execAt i.g = some x ∧ Issued.Of x i res.writes res.effs
      ∧ IssueFrame s (applyIssue i (capture i) i.x.word res) i false := by
  obtain ⟨hs, -, -, he, hh, hn, -, -, p, hp⟩ := readyAt_some h
  obtain ⟨hf, ht, hg, hx⟩ := standing_some hs
  have ht' : i.s.team? i.g.core i.g.slot = some i.tm := by rw [hp]; exact ht
  have hg' : i.s.group? i.g = some i.grp := by rw [hp]; exact hg
  let x := afterIssue i (capture i) i.x.word res
  let y : Group := { i.grp with exec := some x, waited := if i.x.run = 0 then 0 else i.grp.waited }
  let k (c : Core) : Core := { c with
    cycles := i.now
    ldq := if i.grp.shadow && loadsValue i.op then c.ldq ++ [⟨i.g, res.writes, res.effs⟩] else c.ldq }
  let F (grp : Group) : Group := { grp with exec := some x, waited := if i.x.run = 0 then 0 else grp.waited }
  let v := i.s.setTeam i.g.core i.g.slot { i.tm with groups := i.tm.groups.modify i.g.grp F }
  have hv : i.s.modGroup i.g F = v := State.modGroup_eq_setTeam i.s i.g F i.tm ht'
  have hk : ∀ c, (k c).teams = c.teams := fun _ => rfl
  have hu : (v.modCore i.g.core k).group? i.g = some y := by
    rw [State.group_modCore v i.g i.g.core k hk, ← hv, State.modGroup_group_same _ _ _ _ hg']
  have ha : applyIssue i (capture i) i.x.word res = v.modCore i.g.core k := by
    show (((i.s.modGroup i.g F).modCore i.g.core k).leave i.g i.now (emptyLeave i (capture i) ++ res.leave)).closeIfEmpty i.g = _
    simp only [emptyLeave, he, hl, List.map_nil, List.append_nil, hv]
    rw [State.leave_nil _ _ _ y hu]
    unfold State.closeIfEmpty
    rw [hu]
    have : x.here ≠ [] := by rw [show x.here = i.here from hh.symm]; exact hn
    simp [y, this]
  rw [ha]
  have hc : i.s.core i.g.core = s.core i.g.core := by rw [hp]; rfl
  have hcores : i.s.cores = s.cores := by rw [hp]
  refine ⟨x, ?_, afterIssue_of i _ res rfl, ⟨?_, ?_, ?_, ?_, ?_, ?_, ?_⟩⟩
  · unfold State.execAt; rw [hu]; rfl
  · show i.s.mem = s.mem
    rw [hp]
  · show ({ i.s with cores := s.cores, picks := s.picks } : State) = s
    rw [hp]
  · intro c hc'
    show tget (tput (tput i.s.cores _ _) _ _) c = _
    rw [tget_tput_ne _ _ _ _ hc', tget_tput_ne _ _ _ _ hc', hcores]
  · rw [State.modCore_core_same]
    show ({ k (State.core (State.modCore _ _ _) _) with cycles := _, ldq := _, teams := _ } : Core) = _
    rw [State.modCore_core_same, hc]
  · intro n hn'
    rw [State.team_modCore v _ _ _ k hk, State.setTeam_team_ne _ _ _ _ _ _ (.inr hn')]
    show (tget (i.s.core _).teams n) = _
    rw [hc]; rfl
  · refine ⟨i.tm, _, ht, (State.team_modCore v _ _ _ k hk).trans (State.setTeam_team_same _ _ _ _), rfl, ?_⟩
    intro n hn'
    show (i.tm.groups.modify i.g.grp _)[n]? = _
    rw [List.getElem?_modify]
    simp [Ne.symm hn']
  · exact ⟨i.grp, y, hg, hu, rfl, rfl⟩

/-- An instruction completes where its meaning gives a result with those writes and effects and with which no lane leaves. -/
theorem completes_of {ins : Instr} {ok : Iss → Table (List Word) → Prop} {res : Iss → Table (List Word) → Res} (body : Body)
    (he : ∀ op f s, wordOf ins = some (op, f) → exec ins s = issueOn op.toNat f body s)
    (hb : ∀ op f i, wordOf ins = some (op, f) → i.op = op.toNat → i.f = f → ok i (capture i).words →
      ∃ r, body i (capture i).words = .ok r ∧ r.leave = [] ∧ r.writes = (res i (capture i).words).writes
        ∧ r.effs = (res i (capture i).words).effs) : Completes ins ok res := by
  intro op f s i hw hr ho
  obtain ⟨-, -, hgo, -, -, -, h1, h2, -⟩ := readyAt_some hr
  obtain ⟨r, hb, hl, h3, h4⟩ := hb op f i hw h1 h2 ho
  obtain ⟨x, hx, hi, hf⟩ := applyIssue_took hr r hl
  rw [h3, h4] at hi
  exact ⟨_, x, by rw [he op f s hw]; exact issueOn_ready body hr hb (stalls_stay hgo r hl), hx, hi, hf⟩

/-- An instruction whose meaning computes each acting lane's result from the lane's own words completes with those results. -/
theorem computes_of {ins : Instr} {val h : Iss → List Word → List Word}
    (he : ∀ op f s, wordOf ins = some (op, f) → exec ins s = issueOn op.toNat f (pureOp h) s)
    (hv : ∀ op f i w, wordOf ins = some (op, f) → i.op = op.toNat → i.f = f → h i w = val i w) : Computes ins val := by
  refine completes_of (pureOp h) he (fun op f i hw ho hf _ => ?_)
  have : h i = val i := funext (fun w => hv op f i w hw ho hf)
  simp only [pureOp, this]
  refine ⟨_, rfl, ?_, rfl, rfl⟩
  unfold deliver
  split <;> rfl

/-- What is delivered makes no lane leave. -/
theorem deliver_leave (i : Iss) (vals : List (Nat × List Word)) : (deliver i vals).leave = [] := by
  unfold deliver
  split <;> rfl

/-- Where a terminator is ready and names its successors, issuing it commits the execution. -/
theorem terminate_ready {op : Nat} {f : Fields} {s : State} {i : Iss} (body : TermBody) {succ : Nat → Succ} {mig : Option (TRef × TRef × Bool)}
    (h : readyAt op f s = some i) (hb : body i (capture i).words = .ok (succ, mig)) :
    terminate op f body s = .next ((atTerminator i).commit i.g i.now succ mig) := by
  obtain ⟨hs, hk, hgo, h3, -⟩ := readyAt_some h
  simp [terminate, hs, hk, terminateBody, handBackFor, firstSome, h3, served_self, hb, stalls_stay hgo {} rfl, atTerminator]

/-- A terminator ends its execution where its meaning names each lane's successor. -/
theorem ends_of {ins : Instr} {ok : Iss → Table (List Word) → Prop} {succ : Iss → Table (List Word) → Nat → Succ}
    {mig : Iss → Option (TRef × TRef × Bool)} (body : TermBody)
    (he : ∀ op f s, wordOf ins = some (op, f) → exec ins s = terminate op.toNat f body s)
    (hb : ∀ op f i, wordOf ins = some (op, f) → i.op = op.toNat → i.f = f → ok i (capture i).words →
      body i (capture i).words = .ok (succ i (capture i).words, mig i)) : Ends ins ok succ mig := by
  intro op f s i hw hr ho
  obtain ⟨-, -, -, -, -, -, h1, h2, -⟩ := readyAt_some hr
  rw [he op f s hw]
  exact terminate_ready body hr (hb op f i hw h1 h2 ho)

/-- An instruction takes its trap where its meaning is that trap, of a cause that is no consumption of an error. -/
theorem takesTrap_of {ins : Instr} {ok : Iss → Table (List Word) → Prop} {trap : Iss → Trap} (body : Body)
    (he : ∀ op f s, wordOf ins = some (op, f) → exec ins s = issueOn op.toNat f body s)
    (hb : ∀ op f i, wordOf ins = some (op, f) → i.op = op.toNat → i.f = f → ok i (capture i).words →
      body i (capture i).words = .error (trap i)) (hc : ∀ i, (trap i).cause < 256) : TakesTrap ins ok trap := by
  intro op f s i hw hr hg ho
  obtain ⟨-, -, -, -, -, -, h1, h2, -⟩ := readyAt_some hr
  rw [he op f s hw, issueOn_trap body hr hg (hb op f i hw h1 h2 ho)]
  simp only [State.stopAt, if_neg (fun h : 256 ≤ (trap i).cause ∧ (trap i).cause < 320 => absurd (hc i) (by omega))]

end Sys2Proof.Machine
end

