-- ==== Sys2Proof/Laws/Requests.lean ====
section
/-!
SUPPORT. What performing a request does: the lemmas that every management and debug request is read off.
-/
namespace Sys2Proof.Machine

/-- A request that may be performed is answered by its body. -/
theorem perform_asked {s : State} {op flags : Nat} {onCtx : Bool} {used : List (Nat × Nat)} {b : List Byte} (h : Asked s op flags onCtx used b)
    (body : Nat → List Byte → Answer) : s.perform op flags onCtx used body = s.answered (body (leAt b 2 2) b) := by
  obtain ⟨h1, h2, h3, h4, h5⟩ := h
  have h6 : ¬((onCtx = true) ∧ (s.ctx? (leAt b 2 2)).isNone = true) := fun ⟨a, c⟩ => by
    have := h5 a
    cases hc : s.ctx? (leAt b 2 2) <;> simp_all
  simp only [State.perform, h1, h2, ne_eq, not_true_eq_false, if_false, if_neg h6, h3, h4, Bool.false_eq_true, or_self]
  unfold State.answered
  rcases body (leAt b 2 2) b with ⟨_ | ⟨st, r⟩, t⟩ <;> rfl

/-- A debug request that may be performed is answered by its body. -/
theorem debug_asked {s : State} {dop : Nat} {b : List Byte} {g : GRef} (h : AskedDebug s dop b g) (hd : dop ≤ 8) (dops : Nat → Bool)
    (hx : dops dop = true) (body : Nat → List Byte → Answer) : s.debug dops body = s.answered (body (leAt b 2 2) b) := by
  obtain ⟨ha, hb, ⟨c, hc, h1, h2⟩, hg⟩ := h
  have hr := ha.1
  simp only [State.debug, hr, hb, hx, Bool.not_true, Bool.false_eq_true, if_false]
  rw [perform_asked ha]
  simp [hc, h1, h2, hb, Nat.not_lt.mpr hd]

/-- A debug operation acts on the group that the request names. -/
theorem onGroup_asked {s : State} {dop : Nat} {b : List Byte} {g : GRef} (h : AskedDebug s dop b g) (h5 : dop ≠ 5) (h6 : dop ≠ 6)
    (f : GRef → Answer) : s.onGroup (leAt b 2 2) b f = f g := by
  simp only [State.onGroup, h.2.2.2 h5 h6]

end Sys2Proof.Machine
end

