-- ==== Sys2Proof/Laws/Trap.lean ====
section
/-!
SUPPORT. What taking a trap does (R360 to R365): what the frame holds, where each case leaves the group, and what it leaves alone.
-/
namespace Sys2Proof.Machine

/-- Writing into a trap tile changes memory and its poison alone. -/
theorem State.writeTrapTile_eq (s : State) (g : GRef) (n : Nat) (bs : List Byte) :
    s.writeTrapTile g n bs = { s with mem := (s.writeTrapTile g n bs).mem, poison := (s.writeTrapTile g n bs).poison } := by
  unfold State.writeTrapTile
  split <;> rfl

theorem State.writeTrapTile_team (s : State) (g h : GRef) (n : Nat) (bs : List Byte) : (s.writeTrapTile g n bs).team? h.core h.slot = s.team? h.core h.slot := by
  rw [State.writeTrapTile_eq]; rfl

theorem State.writeTrapTile_group (s : State) (g h : GRef) (n : Nat) (bs : List Byte) : (s.writeTrapTile g n bs).group? h = s.group? h := by
  rw [State.writeTrapTile_eq]; rfl

theorem State.writeTrapTile_ctx (s : State) (g : GRef) (c n : Nat) (bs : List Byte) : (s.writeTrapTile g n bs).ctx? c = s.ctx? c := by
  rw [State.writeTrapTile_eq]; rfl

/-- Releasing holds leaves the groups of the team alone. -/
theorem Team.release_groups (t : Team) (hm : Bool) (keep mask : Nat) : (t.release hm keep mask).groups = t.groups := by
  have h : ∀ (ls : List Nat) (t : Team), (ls.foldl (fun t n =>
      if takesHold hm keep mask n then t.modTile n (fun x => { x with held := x.held - 1 }) else t) t).groups = t.groups := by
    intro ls
    induction ls with
    | nil => intro t; rfl
    | cons n ls ih =>
      intro t
      rw [List.foldl_cons, ih]
      split <;> rfl
  exact h _ _

/-- A team update that leaves the groups alone leaves every group as it was. -/
theorem State.modTeam_group (s : State) (g : GRef) (f : Team → Team) (hf : ∀ t, (f t).groups = t.groups) :
    (s.modTeam g.core g.slot f).group? g = s.group? g := by
  unfold State.group?
  cases h : s.team? g.core g.slot with
  | none =>
    unfold State.modTeam
    rw [h]; rw [h]
  | some t =>
    rw [State.modTeam_team_same _ _ _ _ t h]
    simp only [hf]

/-- Poison of results in the TRS is no part of a group. -/
theorem State.dropTrs_group (s : State) (g h : GRef) : (s.dropTrs g).group? h = s.group? h := by
  unfold State.dropTrs State.modTrs
  split <;> rfl

/-- Freeing load values leaves every group alone. -/
theorem State.keepValues_group (s : State) (core : Nat) (keep : LoadValue → Bool) (h : GRef) : (s.keepValues core keep).group? h = s.group? h := by
  unfold State.keepValues
  split
  · rfl
  · exact State.group_modCore _ h _ _ (fun _ => rfl)

/-- Ending an execution takes it from its group, with its shadow's, and leaves the rest of the group alone. -/
theorem State.endExec_group (s : State) (g : GRef) (grp : Group) (h : s.group? g = some grp) (x : Exec) (hx : grp.exec = some x) :
    (s.endExec g).group? g = some { grp with exec := none, trail := none } := by
  unfold State.endExec
  rw [h]
  dsimp only
  rw [hx]
  dsimp only
  refine Eq.trans (State.modTeam_group _ g _ (fun t => Team.release_groups t _ _ _)) ?_
  exact State.modGroup_group_same _ g _ grp (by rw [State.keepValues_group, State.dropTrs_group]; exact h)

/-- The group of a dropped execution is as it was but for it and for its shadow's. -/
theorem State.dropExec_group (s : State) (g : GRef) (grp : Group) (h : s.group? g = some grp) (x : Exec) (hx : grp.exec = some x) :
    (s.dropExec g).group? g = some { grp with exec := none, trail := none } := by
  unfold State.dropExec
  rw [h]
  simp only [Option.bind_some, hx]
  refine State.endExec_group _ g grp ?_ x hx
  split
  · exact Eq.trans (State.modTeam_group s g _ (fun t => rfl)) h
  · exact h

end Sys2Proof.Machine
end

