-- ==== Sys2Proof/Tests/Slice0.lean ====
section
/-!
SUPPORT. The model's own tests: terms that are no instruction of an encoding, words of the spec that decode, values worked in the spec,
and for each statement states that meet what it asks. Expected values are the spec's own or worked from its rules by hand.
-/
namespace Sys2Proof.Tests
open Sys2Proof.Machine

set_option Elab.async false

/-! ### Terms that no word carries -/

/-- Plain fields of a D9 word. -/
def plain : Fields :=
  { enc := .d9, ext := false, rb := false, stall := 0#4, fn := 6#4, pred := 7#4, dst := ⟨false, false, 5#8⟩, sa := ⟨false, false, 3#8⟩,
    sb := ⟨false, false, 2#8⟩, sc := ⟨false, false, 0#8⟩, hint := 0#2, rsv := 0#2, immx := 0#11 }

theorem test_well_formed : wellFormed (.add plain) = none := by decide
theorem test_refuses_extension_outside_l9 : wellFormed (.add { plain with ext := true }) = some .extOutsideL9 := by decide
theorem test_refuses_peek_of_destination : wellFormed (.add { plain with dst := ⟨true, true, 5#8⟩ }) = some .dstPeek := by decide
theorem test_refuses_stall_in_l9 : wellFormed (.add { plain with enc := .l9, ext := true, stall := 2#4 }) = some .stallInL9 := by decide
theorem test_refuses_wide_number_in_l9 : wellFormed (.add { plain with enc := .l9, ext := true, dst := ⟨false, false, 64#8⟩ }) = some .numberTooWide := by
  decide
theorem test_refuses_extension_field_without_it : wellFormed (.add { plain with enc := .l9, pred := 2#4 }) = some .needsExtension := by decide
theorem test_refuses_base_row_as_plain : wellFormed (.add { plain with enc := .l9 }) = some .baseRow := by decide
theorem test_refuses_csr_of_another : wellFormed (.csrwMode { plain with fn := 8#4, sb := ⟨false, false, 0#8⟩, sc := ⟨false, false, 0x0C#8⟩ })
    = some .csrNumber := by decide
theorem test_refuses_assigned_opcode_as_illegal : wellFormed (.illegalOpcode 0x10#8 plain) = some .opcodeAssigned := by decide

/-! ### Words of the spec, decoded -/

/-- The instruction of a D9 word, and of an L9 word with its extension above it. -/
def d9 (w : Nat) : Instr := decodeWord .d9 (BitVec.ofNat 64 w)
def l9 (w : Nat) : Instr := decodeWord .l9 (BitVec.ofNat 64 w)
/-- A register field. -/
def rn (n : Nat) : Opnd := ⟨false, false, BitVec.ofNat 8 n⟩

/-- R180: ADD.B32 v5, v3, 100 under p2, with RB and stall 2. -/
theorem test_decode_add : d9 0x9087101403000640 = .add { plain with rb := true, stall := 2#4, fn := 14#4, pred := 2#4, sb := rn 0, sc := rn 100 } := by decide
/-- R205: FMA.F32 v10, q1, v2, k3. -/
theorem test_decode_fma : d9 0x2218382A01008EB0 = .fma { plain with stall := 4#4, fn := 0#4, dst := rn 10, sa := ⟨true, false, 1#8⟩, sc := rn 235 } := by decide
theorem test_decode_fma_l9 : l9 0xCD038000A1814084 = .fma { plain with enc := .l9, ext := true, fn := 0#4, dst := rn 10, sa := ⟨true, false, 1#8⟩, sc := rn 51 } := by
  decide
/-- R149: LD.B32 v12, t3, v4. -/
theorem test_decode_ld : d9 0x2D02383003010000 = .ld { plain with stall := 5#4, fn := 4#4, dst := rn 12, sa := rn 3, sb := rn 4 } := by decide
/-- R169: ATOM.EXCH.SYSTEM.B32 v6, v5. -/
theorem test_decode_atom : ∃ f, d9 0x0583380006014470 = .atom f ∧ f.fn = 6#4 ∧ f.sa = rn 6 ∧ f.sb = rn 5 := ⟨_, rfl, by decide⟩
/-- R196: VOTE.BALLOT v9, p3. -/
theorem test_decode_vote : d9 0x0421382403000000 = .vote { plain with fn := 2#4, dst := rn 9, sa := rn 3, sb := rn 0 } := by decide
/-- R285: BAR.ARRIVE b1, 4. -/
theorem test_decode_bar : d9 0x0604380400000040 = .barArrive { plain with fn := 8#4, dst := rn 1, sa := rn 0, sb := rn 0, sc := rn 4 } := by decide
/-- R305: PUT q1, v12. -/
theorem test_decode_put : d9 0x06203C040C000000 = .put { plain with fn := 0#4, dst := ⟨true, false, 1#8⟩, sa := rn 12, sb := rn 0 } := by decide
/-- R162: JOB v2, t0, v1. -/
theorem test_decode_job : d9 0x0680380800004000 = .job { plain with fn := 0#4, dst := rn 2, sa := rn 0, sb := rn 1 } := by decide
/-- R223: MXGO t2, v6. -/
theorem test_decode_mxgo : d9 0x0698380002018000 = .mxgo { plain with fn := 0#4, dst := rn 0, sa := rn 2, sb := rn 6 } := by decide
/-- R347: TASKADD v38, v6. -/
theorem test_decode_taskadd : d9 0x0630380026018000 = .taskadd { plain with fn := 0#4, dst := rn 0, sa := rn 38, sb := rn 6 } := by decide
/-- R266: END.SEL of traces 1 and 2 under p2. -/
theorem test_decode_end_sel : d9 0x001C100002000010 = .endSel { plain with fn := 8#4, pred := 2#4, dst := rn 0, sa := rn 2, sb := rn 0, sc := rn 1 } := by decide
/-- R290: MIGRATE.LCORE to ep 3 with alt 7. -/
theorem test_decode_migrate : d9 0x06C4B80007000030 = .migrate { plain with fn := 9#4, dst := rn 0, sa := rn 7, sb := rn 0, sc := rn 3 } := by decide
/-- R373: CSRW v2, SRSEED. -/
theorem test_decode_csrw : d9 0x07243800020000C0 = .csrwSrseed { plain with fn := 8#4, dst := rn 0, sa := rn 2, sb := rn 0, sc := rn 12 } := by decide
/-- R411: CONTAIN.OPEN 4. -/
theorem test_decode_contain : d9 0x072C380000000040 = .containOpen { plain with fn := 8#4, dst := rn 0, sa := rn 0, sb := rn 0, sc := rn 4 } := by decide
/-- R366: an opcode that the map does not assign. -/
theorem test_decode_illegal : ∃ f, d9 0x0008380000000000 = .illegalOpcode 1#8 f ∧ ∃ g, d9 0x07F8000000000000 = .illegalOpcode 255#8 g := ⟨_, rfl, _, rfl⟩

/-! ### An instruction that stands -/

/-- The group of the tests, and its trace. -/
def g0 : GRef := ⟨1, 0, 0⟩
def t0 : TRef := ⟨1, 0, 0⟩
/-- A D9 word standing on core 1, and an L9 word on core 0. -/
def at9 (w : Nat) : State := State.reset.withFetchWord 64 w
def atL9 (w : Nat) : State := State.reset.withFetchWord 32 w
/-- The team and the group of core 1 changed. -/
def tune (s : State) (f : Team → Team) (h : Machine.Group → Machine.Group) : State := (s.modTeam 1 0 f).modGroup g0 h
/-- What stands, where it is ready to issue. -/
def ready (s : State) : Option Iss :=
  match s.standing with
  | some (g, _, _, x) =>
    match wordOf (decodeWord (s.encOf g) x.word) with
    | some (op, f) => readyAt op.toNat f s
    | none => none
  | none => none
def readyAll (s : Nat → State) (ws : List Nat) : Bool := ws.all (fun w => (ready (s w)).isSome)
/-- Whether what stands is ready and something holds of it. -/
def readyWith (s : State) (p : Iss → Bool) : Bool := (ready s).any p

/-- Every instruction of `Obligations.IntegerArithmeticResults` is ready to issue somewhere: in D9, and in its L9 base word. -/
theorem test_ready_integer_arithmetic_results :
    readyAll at9 [0x0080380804018000, 0x0088380804018000, 0x0093380804018000, 0x0098380804018000, 0x00A8380804018000, 0x00B0380804018000,
    0x00A3380804018080, 0x00B8380804000000, 0x00C0380804000000] = true
    ∧ readyAll atL9 [0x08000000, 0x08800000, 0x09300000, 0x09800000, 0x0A800000, 0x0B000000, 0x0B800000, 0x0C000000] = true := by
  decide +kernel

/-- Every instruction of `Obligations.AddressArithmeticResults` is ready to issue somewhere: in D9, and in its L9 base word. -/
theorem test_ready_address_arithmetic_results :
    readyAll at9 [0x00CBB80804018000, 0x00D0380804018080] = true
    ∧ readyAll atL9 [0x0CB80000] = true := by
  decide +kernel

/-- Every instruction of `Obligations.BitwiseAndShiftResults` is ready to issue somewhere: in D9, and in its L9 base word. -/
theorem test_ready_bitwise_and_shift_results :
    readyAll at9 [0x0103380804018000, 0x010B380804018000, 0x0113380804018000, 0x011B380804018000, 0x0123380804000000, 0x012B380804018000,
    0x0130380804018000, 0x013B380804018000] = true
    ∧ readyAll atL9 [0x10300000, 0x10B00000, 0x11300000, 0x11B00000, 0x12300000, 0x12B00000, 0x13000000, 0x13B00000] = true := by
  decide +kernel

/-- Every instruction of `Obligations.BitFieldResults` is ready to issue somewhere: in D9, and in its L9 base word. -/
theorem test_ready_bit_field_results :
    readyAll at9 [0x0140380804018000, 0x014B380804018080, 0x0153380804000000, 0x015B380804000000, 0x0163380804000000, 0x016B380804000000] = true
    ∧ readyAll atL9 [0x14000000, 0x15300000, 0x15B00000, 0x16300000, 0x16B00000] = true := by
  decide +kernel

/-- Every instruction of `Obligations.CompareSelectMoveResults` is ready to issue somewhere: in D9, and in its L9 base word. -/
theorem test_ready_compare_select_move_results :
    readyAll at9 [0x0170380404018000, 0x0183380802018080, 0x018B380804000000, 0x0197380800000000, 0x019F380804000000] = true
    ∧ readyAll atL9 [0x17000000, 0x18B00000] = true := by
  decide +kernel

/-- Every instruction of `Obligations.RegisterReadResults` is ready to issue somewhere: in D9, and in its L9 base word. -/
theorem test_ready_register_read_results :
    readyAll at9 [0x01A3380804000000, 0x01AF380800000000, 0x0444380000000000] = true
    ∧ readyAll atL9 [0x1A300000] = true := by
  decide +kernel

/-- Every instruction of `Obligations.PredicateAndVoteResults` is ready to issue somewhere: in D9, and in its L9 base word. -/
theorem test_ready_predicate_and_vote_results :
    readyAll at9 [0x040038040200C000, 0x040838040200C000, 0x041038040200C000, 0x0418380402000000, 0x0428380400000000, 0x0420380402000000] = true
    ∧ readyAll atL9 [0x40000000, 0x40800000, 0x41000000, 0x41800000, 0x42800000, 0x42000000] = true := by
  decide +kernel

/-- Every instruction of `Obligations.CrossLaneResults` is ready to issue somewhere: in D9, and in its L9 base word. -/
theorem test_ready_cross_lane_results :
    readyAll at9 [0x0433380804018000, 0x0438380804018000, 0x0298380804000000, 0x02A0380804000000] = true
    ∧ readyAll atL9 [0x43300000, 0x43800000, 0x29800000, 0x2A000000] = true := by
  decide +kernel

/-- Every instruction of `Obligations.FloatArithmeticResults` is ready to issue somewhere: in D9, and in its L9 base word. -/
theorem test_ready_float_arithmetic_results :
    readyAll at9 [0x0200380804018000, 0x0208380804018000, 0x0210380804018000, 0x0218380804018080, 0x0220380804018000, 0x0228380804018000,
    0x0230380404018000] = true
    ∧ readyAll atL9 [0x20000000, 0x20800000, 0x21000000, 0x22000000, 0x22800000, 0x23000000] = true := by
  decide +kernel

/-- Every instruction of `Obligations.UnaryFloatResults` is ready to issue somewhere: in D9, and in its L9 base word. -/
theorem test_ready_unary_float_results :
    readyAll at9 [0x0238380804000000, 0x0240380804000000, 0x0248380804000000, 0x0250380804000000, 0x0258380804000000, 0x0260380804000000,
    0x0268380804000000, 0x0270380804000000, 0x0278380804000000] = true
    ∧ readyAll atL9 [0x23800000, 0x24000000, 0x24800000, 0x25000000, 0x25800000, 0x26000000, 0x26800000, 0x27000000, 0x27800000] = true := by
  decide +kernel

/-- Every instruction of `Obligations.ConversionResults` is ready to issue somewhere: in D9, and in its L9 base word. -/
theorem test_ready_conversion_results :
    readyAll at9 [0x0280380804018000, 0x0288380804000000, 0x0290380804000000, 0x02A8380804000000, 0x0388380804018000, 0x0390380804018000] = true
    ∧ readyAll atL9 [0x28000000, 0x28800000, 0x29000000, 0x2A800000, 0x38800000, 0x39000000] = true := by
  decide +kernel

/-- Every instruction of `Obligations.AtomicAndKeyEffects` is ready to issue somewhere: in D9, and in its L9 base word. -/
theorem test_ready_atomic_and_key_effects :
    readyAll at9 [0x0580380004018040, 0x0588380804018040, 0x0590380804018040, 0x0598380000000000, 0x05A0380004000000, 0x05A8380800000000,
    0x05B0380004018000] = true
    ∧ readyAll atL9 [0x59800000, 0x5A000000, 0x5A800000, 0x5B000000] = true := by
  decide +kernel

/-- Every instruction of `Obligations.JobInstructionEffects` is ready to issue somewhere: in D9, and in its L9 base word. -/
theorem test_ready_job_instruction_effects :
    readyAll at9 [0x0680380802018000, 0x0688380804000000, 0x0690380004000000] = true
    ∧ readyAll atL9 [0x68000000, 0x68800000, 0x69000000] = true := by
  decide +kernel

/-- Every instruction of `Obligations.ControlRegisterEffects` is ready to issue somewhere: in D9, and in its L9 base word. -/
theorem test_ready_control_register_effects :
    readyAll at9 [0x071C380800000000, 0x0724380004000000] = true := by
  decide +kernel

/-- Every instruction of `Obligations.SystemInstructionEffects` is ready to issue somewhere: in D9, and in its L9 base word. -/
theorem test_ready_system_instruction_effects :
    readyAll at9 [0x0708380000000000, 0x0710380000000000, 0x072C380000000000, 0x0730380000000000, 0x0738380000000000, 0x06D8380800000000,
    0x06C8380000000000, 0x06D0380000000000, 0x0040380000000000] = true
    ∧ readyAll atL9 [0x70800000, 0x71000000, 0x73000000, 0x73800000, 0x6D800000, 0x6C800000, 0x6D000000, 0x04000000] = true := by
  decide +kernel

/-- Every instruction of `Obligations.GuardAndAbortLeave` is ready to issue somewhere: in D9, and in its L9 base word. -/
theorem test_ready_guard_and_abort_leave :
    readyAll at9 [0x0034380000000000, 0x003C380000000000] = true := by
  decide +kernel

/-- Every instruction of `Obligations.TrapTakesItsException` is ready to issue somewhere: in D9, and in its L9 base word. -/
theorem test_ready_trap_takes_its_exception :
    readyAll at9 [0x0704380000000000] = true := by
  decide +kernel


/-- The group with a value in each of some vector registers of every lane. -/
def holding (y : Machine.Group) (rs : List (Nat × Word)) : Machine.Group :=
  { y with regs := (List.range y.width).foldl (fun m l => rs.foldl (fun m r => sput m (l * 256 + r.1) r.2) m) y.regs }

/-! ### Instructions whose statements ask more than that they are ready -/

/-- A state with room: tiles 1 to 3 READY (F32 elements, 4096 bytes each), all of them named with code 3 by the trace, all tiles and
accumulators allotted, a task queue 1, a channel 1 of the group's own with an item in it, and a task record held. -/
def room (s : State) : State :=
  tune s
    (fun t => { t with
      wlen := 64
      tileAllot := 64
      accAllot := 4
      tiles := [(1, { base := 4#13, len := 16#14, fmt := 1#5, state := .ready }), (2, { base := 20#13, len := 16#14, fmt := 1#5, state := .ready }),
        (3, { base := 36#13, len := 16#14, fmt := 1#5, state := .ready })]
      queues := [(1, { tile := 40, slots := 16, ports := [] })]
      chans := [(1, { mode := 1, depth := 64, count := 20, qaddr := 2 ^ 21 + 2 ^ 16 })] })
    (fun y => { y with
      task := some []
      taskAccepted := true
      exec := y.exec.map (fun x => { x with mask := 2 ^ 128 - 1, view := { x.view with counts := List.replicate 16 20, chans := List.replicate 16 0 } }) })

/-- The tile of SA may be read, or written, by the trace. -/
def tileOk (i : Iss) (need : Nat) : Bool :=
  decide (need ≤ maskCode i.x.mask (i.tile i.o.sa).1) && (i.tile i.o.sa).2.state != .undef && !(i.tile i.o.sa).2.atomic
/-- What the words of every acting lane meet. -/
def eachLane (i : Iss) (p : List Word → Bool) : Bool := (actingWords i (capture i).words).all (fun x => p x.2) && !(actingWords i (capture i).words).isEmpty
/-- Acting lanes stand there. -/
def someAct (i : Iss) : Bool := !i.acting.isEmpty

/-- A byte access of LD, LDX or ST that lies within its tile and is aligned. -/
def accessOk (scale : Bool) (need : Nat) (i : Iss) : Bool :=
  let size := accessSize (i.f.fn.toNat % 8)
  tileOk i need && eachLane i (fun w =>
    let o := (lastWord i w 0).toNat * (if scale then size else 1)
    decide (o + size ≤ (i.tile i.o.sa).2.bytes) && o % size == 0 && (i.s.poisonAt (sliceKey i.g.core ((i.tile i.o.sa).2.start + o)) size).isNone)
/-- An element access of LDF or STF. -/
def elementOk (need : Nat) (i : Iss) : Bool :=
  let t := (i.tile i.o.sa).2
  tileOk i need && t.fmt != 0#5 && (formatFault t.fmt.toNat t.geom.toNat).isNone && eachLane i (fun w =>
    decide ((lastWord i w 0).toNat + 1 ≤ t.nelem)
      && !spareSet t.fmt.toNat (readElement i 0 t (lastWord i w 0).toNat).1 (readElement i 0 t (lastWord i w 0).toNat).2.1
      && (elementWords t (lastWord i w 0).toNat).all (fun k => (i.s.poisonAt (sliceKey i.g.core (8 * k)) 8).isNone))

theorem test_witness_loads :
    readyWith (room (at9 0x0502380802018000)) (accessOk false 1) = true ∧ readyWith (room (at9 0x0510380802018000)) (accessOk true 1) = true
    ∧ readyWith (room (at9 0x0518380802018000)) (fun i => elementOk 1 i && i.f.fn.toNat % 8 != 1) = true := by
  decide +kernel
theorem test_witness_stores :
    readyWith (room (at9 0x050A380802018000)) (accessOk false 2) = true ∧ readyWith (room (at9 0x0520380802018000)) (elementOk 2) = true := by
  decide +kernel
theorem test_witness_tile_instructions :
    readyWith ((room (at9 0x0528380404018000)).modGroup g0 (fun y => holding y [(4, 0x00040034#32), (6, 1#32)])) (fun i => someAct i && !i.tm.isQueueTile (dstTile i) && allSame i (capture i).words
      && tdefValid i.teamAtHead (dstTile i) (nth (leadWords i (capture i).words) 0 0#32).toNat (nth (leadWords i (capture i).words) 1 0#32).toNat
      && (i.teamSoFar.tile (dstTile i)).state != .filling && (i.teamSoFar.tile (dstTile i)).state != .draining) = true
    ∧ readyWith (room (at9 0x0530380400000000)) (fun i => someAct i && !i.tm.isQueueTile (dstTile i)) = true
    ∧ readyWith (room (at9 0x0538380400000000)) (fun i => someAct i && !i.tm.isQueueTile (dstTile i) && (groupTile i.tm i.grp (dstTile i)).state == .ready) = true
    ∧ readyAll at9 [0x0540380400000000, 0x054C380802000000] = true := by
  decide +kernel
theorem test_witness_atomics :
    [0x0580380004018040, 0x0588380804018040, 0x0590380804018040].all (fun w => readyWith (at9 w) (fun i => someAct i && eachLane i (fun ws =>
      let a := atomicOf i ws
      a.space == 0 && decide (a.addr < 2 ^ 49) && a.addr % (if a.typ = 3 then 8 else 4) == 0))) = true
    ∧ readyWith (at9 0x05B0380004018000) (fun i => decide ((pairOf (nth (leadWords i (capture i).words) 0 0#32) (nth (leadWords i (capture i).words) 1 0#32)).toNat < 2 ^ 49)) = true := by
  decide +kernel
theorem test_witness_barriers :
    [0x0604380400000040, 0x060C380400000040].all (fun w => readyWith (at9 w) (fun i => !i.x.cameBefore i.f.enc [0xC0, 0xC1] && someAct i && decide (barCount i (capture i).words < 256))) = true
    ∧ readyWith (at9 0x0614380400000040) (fun i => someAct i && decide (0 < barCount i (capture i).words) && decide (barCount i (capture i).words < 256)) = true := by
  decide +kernel
theorem test_witness_channels :
    readyWith (room (at9 0x0618383201000000)) (fun i => match i.o.sa, i.o.dst with
      | .chan q _, .reg r => (moveCheck i r (moveRegs i q)).isNone | _, _ => false) = true
    ∧ readyWith (room (at9 0x06203C040C000000)) (fun i => match i.o.dst, i.o.sa with
      | .chan q _, .reg r => (moveCheck i r (moveRegs i q)).isNone | _, _ => false) = true
    ∧ (ready (room (at9 0x062C380800000010))).isSome = true := by
  decide +kernel
/-- The card of a FILL of 256 bytes from virtual address 0 into tile 3 (R67), at the start of tile 2. -/
def withCard (s : State) : State :=
  { s with mem := s.mem.writeBytes (sliceKey 1 (20 * 256)) (toBytesLE 8 (1 + 2 ^ 32) ++ toBytesLE 8 0 ++ toBytesLE 8 (2 ^ 62 + 3)) }
theorem test_witness_jobs :
    readyWith (withCard (room (at9 0x0680380802018000))) (fun i =>
      let o := (nth (leadWords i (capture i).words) 0 0#32).toNat
      let c := cardOf (i.view (i.acting.headD 0) ((i.tile i.o.sa).2.start + o) 64)
      someAct i && tileOk i 1 && (i.s.poisonAt (sliceKey i.g.core ((i.tile i.o.sa).2.start + o)) 64).isNone && o % 64 == 0 && decide (o + 64 ≤ (i.tile i.o.sa).2.bytes)
        && (cardFault i.s i.g.core i.teamSoFar c).isNone && (cardTiles i i.teamSoFar c).isNone) = true
    ∧ readyAll at9 [0x0688380804000000, 0x0690380004000000] = true := by
  decide +kernel
theorem test_witness_matrix :
    readyWith (room (at9 0x0698380002018000)) (fun i => !isLcore i.g.core && !i.x.cameBefore i.f.enc [0xD3] && tileOk i 1
      && decide ((nth (leadWords i (capture i).words) 0 0#32).toNat + 16 ≤ (i.tile i.o.sa).2.bytes) && someAct i) = true
    ∧ readyAll at9 [0x06A0380800000000, 0x06A8380000000000] = true
    ∧ readyWith (room (at9 0x06B0380801018000)) (fun i => eachLane i (fun w => decide ((lastWord i w 0).toNat < 16384) && (i.tm.accHit (accOf i.o.sa) (4 * (lastWord i w 0).toNat) 4).isNone)) = true
    ∧ readyWith (room (at9 0x06B8380402018000)) (fun i => tileOk i 1 && eachLane i (fun w => decide (4 * (lastWord i w 0).toNat + 4 ≤ (i.tile i.o.sa).2.bytes)
        && (i.s.poisonAt (sliceKey i.g.core ((i.tile i.o.sa).2.start + 4 * (lastWord i w 0).toNat)) 4).isNone)) = true := by
  decide +kernel
/-- Each lane's record is at the start of tile 1 and goes to queue 1. -/
theorem test_witness_tasks :
    readyWith ((room (at9 0x0630380004018000)).modGroup g0 (fun y => holding y [(5, 1#32), (6, 1#32)]))
      (fun i => eachLane i (fun w => let n (k : Nat) : Nat := (nth w k 0#32).toNat
        decide (n 1 < 64) && decide (n 2 < 16) && decide (n 1 < i.tm.tileAllot) && (groupTile i.tm i.grp (n 1)).state == .ready && n 0 % 64 == 0
          && decide (1 ≤ maskCode i.x.mask (n 1)) && decide (n 0 + 64 ≤ (groupTile i.tm i.grp (n 1)).bytes) && (tget i.tm.queues (n 2)).isSome)) = true
    ∧ readyWith (room (at9 0x0638380000000000)) (fun i => someAct i && i.grp.task.isSome && i.grp.taskAccepted && !i.x.groupEffs.contains .taskdone) = true
    ∧ readyAll at9 [0x0640380004018000, 0x0648380804000000, 0x0650380004000000] = true := by
  decide +kernel
theorem test_witness_conversion : (ready (at9 0x0380382804024300)).isSome = true ∧ (ready (at9 0x0380382804000100)).isSome = true := by decide +kernel
theorem test_witness_control_registers :
    [(0x0724380002000000, 0), (0x07243800020000C0, 0x0C), (0x0724380002000020, 2), (0x0724380002000090, 9), (0x07243800020000A0, 0x0A),
      (0x07243800020000D0, 0x0D), (0x0724380002000130, 0x13)].all (fun p => readyWith (at9 p.1) (fun i => someAct i && immField i.f % 256 == p.2)) = true
    ∧ readyWith ((at9 0x07243800020000F0).modGroup g0 (fun y => { y with priv := true })) (fun i => someAct i && i.grp.priv && immField i.f % 256 == 0x0F) = true := by
  decide +kernel
theorem test_witness_system :
    [0x0708380000000000, 0x0710380000000000].all (fun w => readyWith ((at9 w).modGroup g0 (fun y => { y with hm := true })) (fun i => someAct i && i.grp.hm)) = true
    ∧ readyWith (at9 0x072C380000000040) (fun i => someAct i && !i.regionOpen) = true
    ∧ readyWith ((at9 0x0730380000000000).modGroup g0 (fun y => { y with contain := { opened := true } })) (fun i => someAct i && i.regionOpen) = true
    ∧ [0x06C8380000000000, 0x06D0380000000000].all (fun w => readyWith (tune (at9 w) (fun t => { t with stages := [0] }) id) (fun i => i.tm.stages != [])) = true := by
  decide +kernel
theorem test_witness_guard : readyWith (at9 0x0034180000000000) (fun i => i.acting == [] && i.here.length == 16 && !i.grp.shadowBehind i.x.off) = true
    ∧ readyWith (at9 0x003C380000000000) (fun i => i.acting.length == 16 && !i.grp.shadowBehind i.x.off) = true := by decide +kernel
theorem test_witness_trap : readyWith (at9 0x0704380000000030) (fun i => someAct i && !i.grp.shadowBehind i.x.off) = true ∧ readyWith (at9 0x0704180000000030) (fun i => i.acting == []) = true := by
  decide +kernel

/-- An object of one kernel with two traces, the second an EP. -/
def object : CodeObject :=
  let e : TraceEntry := { d9off := 0, l9off := 0, tmask := 0, req := 0, freq := 0, acct := false, stage := 0, staged := false }
  { kernels := [{ d9 := true, l9 := true, dsel := 0, wave := 0, roles := false, shadow := false, argu := 0, feat := 0, role0 := { groups := 1 }, traces := [e, { e with ep := true }] }] }
/-- A state in which context 1 holds the object under handle 1. -/
def loaded (s : State) : State := s.modCtx 1 (fun c => { c with objects := [(1, object)] })

theorem test_witness_terminators :
    readyAll at9 [0x0014380000000020, 0x001C100002000010, 0x0028380000000000] = true
    ∧ readyWith (at9 0x0020380004000000) (fun i => i.acting.all (fun l => !bit (nth ((tget (capture i).words l).getD []) 1 0#32).toNat 31)) = true
    ∧ readyWith (loaded (at9 0x06C4B80007000010)) (fun i => ((i.s.trace? i.tm.ctx { i.x.tr with idx := 1 }).map (·.ep)) == some true) = true := by
  decide +kernel

/-! ### Events: states that meet what their statements ask, a state for each clause -/

/-- A group of a context that holds the object, with no execution: its lanes are pending at the first trace. -/
def quiet : State := (loaded (at9 0x0040380000000000)).modGroup g0 (fun y => { y with exec := none })
/-- A state with a subject. -/
def about (s : State) (u : Subject) : State := { s with subject := u }
/-- Something of a team and its group. -/
def inTeam (s : State) (p : Team → Machine.Group → Bool) : Bool := (s.team? 1 0).any (fun tm => (s.group? g0).any (fun y => p tm y))
/-- Core 1 and its die hold a translation of the addresses below 2 MiB to HBM from 1 GiB, readable, writable and executable, accessed and dirty. -/
def warm (s : State) (fmt : Nat) : State :=
  s.modCore 1 (fun k => { k with tlb := [⟨1, 0, 2 ^ 21, BitVec.ofNat 64 (0x4000003F + fmt * 2 ^ 52), 0⟩] })
/-- Bytes at a virtual address there. -/
def at_ (s : State) (va : Nat) (b : List Byte) : State := { s with mem := s.mem.writeBytes (memKey .hbm (0x40000000 + va)) b }

/-- A fetched trace of one instruction that retires. -/
def fetched (t : TRef) (ep : Bool) : Fetched :=
  ⟨t, { op := 1, len := 1, head := 0, arg := 0, ep := ep, flash := 0, wset := 0, stw := 0, atom := 0, puts := 0, jobs := 0, arr := 0, rsv := 0 }, [0x0028380000000000#64]⟩
/-- The code of the first trace in memory. -/
def coded : State := about (at_ (warm quiet 0) 0 (toBytesLE 8 (2 ^ 56 + 2 ^ 48) ++ toBytesLE 8 0x0028380000000000)) { g := g0, t := t0 }
theorem test_witness_fetch : inTeam coded (fun tm y => coded.mayRun g0 tm y && y.pending t0 != [] && (y.buffer t0).isNone && coded.traceExists tm.ctx t0
    && (match (let e := coded.traceEnc 1 tm.ctx t0; (e, coded.fetchLines e 1 (asks 0 0 0) tm.ctx (coded.traceVa tm.ctx e t0) 32 [] none)) with | (e, .ok h ws, _) => !h.malformed e && ws.length == 1 | _ => false)) = true := by
  decide +kernel
/-- The state in which the first trace has been fetched. -/
def buffered : State := about (quiet.modGroup g0 (fun y => { y with buffers := [fetched t0 false] })) { g := g0, t := t0 }
theorem test_witness_dispatch : inTeam buffered (fun tm y => y.exec.isNone && !y.haltAsked && buffered.mayRun g0 tm y && y.ready.all (fun l => (y.lane l).bindCall.isNone)
    && !tm.folded && tm.fold.isNone && y.buffers.all (fun b => b.hdr.head != 4)
    && (match buffered.choose g0 tm y with | .start _ 0 => true | _ => false)) = true := by
  decide +kernel
/-- The EP at the second trace, and the context's policy: any average moves to an LCORE at once. -/
def atEp : State :=
  about ((quiet.modGroup g0 (fun y => { y with buffers := [fetched ⟨1, 0, 1⟩ true], lanes := y.lanes.map (fun l => { l with tr := ⟨1, 0, 1⟩ }), migHist := [1] })).modCtx 1
    (fun c => { c with migpol := BitVec.ofNat 32 (1 + 2 + 2 ^ 3 * 0 + 127 * 16) })) { g := g0 }
theorem test_witness_sched_migrate : inTeam atEp (fun tm y => atEp.mayRun g0 tm y && (match atEp.choose g0 tm y with | .migrate .. => true | _ => false)) = true := by
  decide +kernel
/-- A group that waits between two runs. -/
def waiting : State := about (at9 0x0040380000000000) { g := g0 }
theorem test_witness_aging : ((waiting.modGroup g0 (fun y => { y with exec := y.exec.map (fun x => { x with run := 0 }) })).group? g0).any (fun y => y.exec.any (fun x => x.run == 0 && !x.closing)) = true
    ∧ (quiet.group? g0).any (fun y => y.exec.isNone && y.candidates != []) = true := by
  decide +kernel
/-- Every lane held by a cause. -/
def heldBy (k obj : Nat) : State := about (quiet.modGroup g0 (fun y => { y with lanes := y.lanes.map (fun l => { l with held := some ⟨k, obj⟩ }) })) { g := g0, a := 0 }
theorem test_witness_holds :
    [3, 7, 17].all (fun k => !(heldBy k 0).inBank g0 0 && ((heldBy k 0).group? g0).any (fun y => decide (0 < y.lanes.length) && y.halt == .none && (y.lane 0).held.map (·.cause) == some k)) = true
    ∧ inTeam (heldBy 10 0) (fun tm y => tm.fold.isNone && y.halt == .none) = true
    ∧ (let s := (heldBy 16 5).modDie 0 (fun d => { d with bindWait := [⟨g0, 3, 1, 5⟩] })
       ((s.die 0).bindWait.any (fun w => w.handle == 1 && w.entry == 5 && (s.team? w.g.core w.g.slot).any (fun x => x.ctx == 1))
         && (s.group? g0).any (fun y => decide (3 < y.lanes.length) && (y.lane 3).held == some ⟨16, 5⟩)) = true) := by
  decide +kernel

/-- A far atomic as it was sent. -/
def atomicSent : SentAtomic := { ctx := 1, g := g0, lane := 0, a := ⟨0, 1, 2, 0, 0, 0, 5, 0, none⟩, home := 4096, frame := 0, after := [4] }
/-- The team with channels 1 to 3: a queue, a fold slot, a REMOTE entry; and a put of lane 0 into channel `q`. -/
def putting (q : Nat) : State :=
  about (tune quiet (fun t => { t with
    puts := [⟨0, q, [(0, 7)], [9]⟩]
    chans := [(1, { mode := 1, depth := 4, owed := 2, qaddr := 2 ^ 21 + 2 ^ 16 }), (2, { mode := 2, depth := 4 }), (3, { mode := 1, depth := 4, remote := true, credit := 1 })]
    fold := some {} }) id) { g := g0, a := q }
theorem test_witness_atomics_performed :
    (let s := { about quiet { g := g0, a := 5 } with sent := [(5, atomicSent)] }
     tget s.sent 5 = some atomicSent ∧ (∀ a ∈ atomicSent.after, tget s.sent a = none) ∧ s.poisonAt atomicSent.home atomicSent.a.bytes = none ∧ (s.group? g0).isSome = true)
    ∧ (let s := about (tune quiet id (fun y => { y with returns := [⟨2, 3, false, 8, 0, some 5#64, none, false⟩] })) { g := g0, a := 2 }
       (s.group? g0).any (fun y => y.returns.findIdx? (fun r => r.lane == 2 && (r.inHandler || (match y.trapped with | some e => !e.here.contains r.lane | none => true))) == some 0 && y.exec.isNone) = true ∧ s.laneLives g0 2 = true)
    ∧ (let s := about (tune quiet id (fun y => { y with lanes := y.lanes.map (fun l => { l with acquires := [9] }) })) { g := g0, a := 0 }
       (s.group? g0).any (fun y => decide (0 < y.lanes.length) && (y.lane 0).acquires.all (fun a => (tget s.sent a).isNone)) = true) := by
  decide +kernel
theorem test_witness_boundaries :
    inTeam (tune quiet (fun t => { t with tiles := [(1, { post := true, state := .ready })] }) (fun y => { y with boundary := some { scope := 5, waits := [9], publishes := true, rel := false } }))
      (fun tm y => y.boundary.any (fun b => b.waits.all (fun a => (tget quiet.sent a).isNone) && b.publishes && tm.tiles.all (fun p => !(p.2.publish b.scope (y.keptHold p.1)).post))) = true
    ∧ inTeam (tune quiet (fun t => { t with bars := [(2, { tp := true, turnWaits := [9] })] }) id) (fun tm _ => (tm.bar 2).tp && (tm.bar 2).turnWaits.all (fun a => (tget quiet.sent a).isNone)) = true := by
  decide +kernel
theorem test_witness_puts :
    [1, 2].all (fun q => inTeam (putting q) (fun tm _ => tm.puts.findIdx? (fun p => p.chan == q) == some 0 && tm.puts.all (fun p => p.waits.all (fun a => (tget quiet.sent a).isNone))
      && !(tm.chan q).frozen && !(tm.chan q).remote && !tm.ending && decide ((tm.chan q).mode = q) && tm.fold.isSome)) = true
    ∧ inTeam (putting 1) (fun tm _ => decide (0 < (tm.chan 1).owed) && ((putting 1).remoteProducer 1 0 1).isNone) = true := by
  decide +kernel
/-- A producer on another core names the queue of channel 1. -/
def remotely : State :=
  (putting 1).modCore 2 (fun k => { k with teams := tput k.teams 0 { ctx := 1, handle := 1, kernel := 0, groups := [{ width := 16, num := 0, role := 0, cls := 0, lanes := [] }], chans := [(3, { mode := 1, depth := 4, remote := true, qaddr := 2 ^ 21 + 2 ^ 16, pq := 1, pslot := 0 })] } })
theorem test_witness_remote : inTeam remotely (fun tm _ => decide (0 < (tm.chan 1).owed) && remotely.remoteProducer 1 0 1 == some (2, 0, 3)) = true := by
  decide +kernel
/-- A shadow execution at its end, its agreement given. -/
def shadowed : State := tune (about (at9 0x0028380000000000) { g := g0, ok := true }) id (fun y => { y with shadow := true })
theorem test_witness_shadow : (shadowed.group? g0).any (fun y => y.shadow && y.exec.any (fun x => x.off + 1 == x.hdr.len)) = true ∧ shadowed.subject.ok = true := by
  decide +kernel

/-- The bytes of a job card (R67): KIND, bytes 2 and 3, COUNT, SRC, DST, CATGT and the footprint regions. -/
def card (kind head count src dst catgt : Nat) (fps : List Nat) : List Byte :=
  toBytesLE 2 kind ++ toBytesLE 2 head ++ toBytesLE 4 count ++ toBytesLE 8 src ++ toBytesLE 8 dst ++ toBytesLE 8 catgt
    ++ (fps ++ List.replicate (4 - fps.length) 0).flatMap (toBytesLE 8)
/-- A region of virtual addresses from 0x1000 on, of 32 units, read or written (R69). -/
def region (w : Nat) : Nat := 0x10 + 2 ^ 41 * w + 2 ^ 43 + 32 * 2 ^ 44
/-- A started job with a card, in slot 3 of die 0. -/
def job (c : List Byte) : Job :=
  { gen := 1, card := c, state := .running, ctx := 1, core := 1, slot := 0, grp := some 0, keyperm := 0#64, elems := 1, order := 0, started := true }
/-- The card of a FILL of 256 bytes from address 0x1000 into tile 3, with a completion action. -/
def fillCard (ca catgt : Nat) : List Byte := card 1 ca 1 0x1000 (2 ^ 62 + 3) catgt [region 0]
def withJob (j : Job) : State :=
  about ((tune (warm (room quiet) 1) (fun t => { t with chans := (2, { mode := 1, peng := true, depth := 4, qaddr := 2 ^ 21 + 2 ^ 16 }) :: t.chans }) id).modDie 0
    (fun d => { d with truss := [(3, j)] })) { g := g0, a := 0, b := 3 }
/-- Something of the job that the subject names. -/
def ofJob (s : State) (p : Job → Bool) : Bool := s.subjectJob.any (fun x => p x.2.2)
theorem test_witness_jobs_begin :
    ofJob (withJob { job (fillCard 0 0) with state := .waiting, started := false }) (fun j => j.state == .waiting && !j.accepted) = true
    ∧ (let s := withJob { job (fillCard 0 0) with started := false }
       ofJob s (fun j => j.state == .running && !j.started && !j.absent && j.edges == [] && s.enginesRun j.ctx && s.mayTake 0 j && !s.claimBusy j) = true) := by
  decide +kernel

/-- `State.Moves`, as a test. -/
def movesOk (s : State) (j : Job) (tm : Team) (e src dst soff doff len : Nat) (first : Bool) : Bool :=
  (s.reachFault j (cardOf j.card) src soff len false).isNone && (s.reachFault j (cardOf j.card) dst doff len true).isNone
    && (match s.sideOf j tm e src soff len 0 with
      | (.ok l, u) => (match u.sideOf j tm e dst doff len 1 with
        | (.ok m, t) => (opSpace src == 1 || (t.loadFault (t.refFormat j src (segForm l)) first l).isNone) && (storeFault (segForm l).1 (segForm l).2 first m).isNone
        | _ => false)
      | _ => false)
theorem movesOk_moves {s : State} {j : Job} {tm : Team} {e src dst soff doff len : Nat} {first : Bool} (h : movesOk s j tm e src dst soff doff len first = true) :
    ∃ l m t, s.Moves j tm e src dst soff doff len first l m t := by
  simp only [movesOk, Bool.and_eq_true, Option.isNone_iff_eq_none] at h
  obtain ⟨⟨h1, h2⟩, h3⟩ := h
  split at h3
  · split at h3
    · simp only [Bool.and_eq_true, Bool.or_eq_true, beq_iff_eq, Option.isNone_iff_eq_none] at h3
      exact ⟨_, _, _, h1, h2, ⟨_, ‹_›, ‹_›⟩, h3.1, h3.2⟩
    · cases h3
  · cases h3
/-- An element that is due, and what else is asked of it. -/
def dueAnd (s : State) (kind : Nat) (p : Job → Team → Card → Bool) : Bool :=
  ofJob s (fun j => j.state == .running && j.started && (cardOf j.card).kind == kind && decide (s.subject.c < j.elems) && !bit (j.mask ||| j.tried) s.subject.c
    && s.enginesRun j.ctx && s.amongEight j && (s.team? j.core j.slot).any (fun tm => p j tm (cardOf j.card)))
/-- The index tile, tile 1, names address 0x1000 in its first item. -/
def listing (j : Job) : State := let s := withJob j; { s with mem := s.mem.writeBytes (sliceKey 1 1024) (toBytesLE 8 0x1000) }
theorem test_witness_linear_elements :
    [card 1 0 1 0x1000 (2 ^ 62 + 3) 0 [region 0], card 2 0 1 (2 ^ 62 + 3) 0x1000 0 [region 1], card 3 0 1 (2 ^ 62 + 1) (2 ^ 62 + 3) 0 [],
      card 4 0 1 (2 ^ 62 + 1) (2 ^ 62 + 3) 0 []].all (fun c => let s := withJob (job c)
        dueAnd s (cardOf c).kind (fun j tm c => movesOk s j tm 0 c.src c.dst (elementSpan c 0).1 (elementSpan c 0).1 (elementSpan c 0).2 ((elementSpan c 0).1 == 0))) = true := by
  decide +kernel
theorem test_witness_indexed_elements :
    (let s := listing (job (card 5 0 1 (2 ^ 62 + 1) (2 ^ 62 + 3) 0 [region 0]))
     dueAnd s 5 (fun j tm c => (s.indexFault j.core (s.indexField j tm c 0)).isNone && movesOk s j tm 0 (s.indexField j tm c 0) c.dst 0 (0 * eszBytes c.esz) (eszBytes c.esz) true) = true)
    ∧ (let s := listing (job (card 6 0 1 (2 ^ 62 + 1) 0 0 [region 1]))
       dueAnd s 6 (fun j tm c => (s.indexFault j.core (s.indexField j tm c 0)).isNone
         && movesOk s j tm 0 c.src (s.indexField j tm c 0) (c.count * 8 + 0 * eszBytes c.esz) 0 (eszBytes c.esz) true) = true) := by
  decide +kernel
/-- An NMV of one row of 32 elements by 32 columns; A and B hold elements of format 2. -/
def nmvJob : State :=
  let s := withJob (job (card 7 0 (16 + 2 ^ 16) (2 ^ 62 + 1) (2 ^ 62 + 3) 0 [region 0]))
  tune (warm s 2) (fun t => { t with tiles := t.tiles.map (fun x => if x.1 = 1 then (1, { x.2 with fmt := 2#5 }) else x) }) id
theorem test_witness_near_memory :
    dueAnd nmvJob 7 (fun j tm c => (match nmvJob.nmvB j c 0 with
      | (.ok l, t) => (tm.tile (opValue c.src % 64)).geom == 0#4 && [2, 4, 5].contains (tm.tile (opValue c.src % 64)).fmt.toNat && (nmvBFault j c l).isNone
          && !t.nmvSpoilt c l 0 (segForm l).1 (segForm l).2 && (t.nmvPoison j tm c l 0 (segForm l).1 (segForm l).2).isNone
      | _ => false)) = true := by
  decide +kernel

/-- A job all of whose elements have been done. -/
def ended (ca catgt : Nat) : Job := { job (fillCard ca catgt) with mask := 1 }
/-- A job that may complete. -/
def completes (s : State) (p : Job → State → Bool) : Bool :=
  ofJob s (fun j => j.state == .running && s.enginesRun j.ctx && (j.absent || (j.started && j.full)) && !j.putWaits && !j.cancelled
    && p j (if j.moved then s else (s.endTiles j).modJob 0 3 (fun j => { j with moved := true, claimed := [], counted := [] })))
theorem test_witness_completion :
    completes (withJob (ended 0 0)) (fun j _ => (cardOf j.card).ca == 0) = true
    ∧ completes (tune (withJob (ended 1 (2 ^ 63 + 2 ^ 21 + 1024))) (fun t => { t with tiles := t.tiles.map (fun x => (x.1, { x.2 with atomic := true })) }) id)
        (fun j u => (cardOf j.card).ca == 1 && opSpace (cardOf j.card).catgt == 2
          && (match u.sliceCounter (opValue (cardOf j.card).catgt) with | .ok (some key) => (u.poisonAt key 8).isNone | _ => false)) = true
    ∧ completes (warm (withJob (ended 1 0x1000)) 0) (fun j u => (cardOf j.card).ca == 1 && opSpace (cardOf j.card).catgt != 2
        && (match u.translate (j.access 65535 (opValue (cardOf j.card).catgt) 2) with
          | (.ok key _, v) => (v.poisonAt key 8).isNone
          | _ => false)) = true
    ∧ completes (withJob (ended 2 2)) (fun j u => (cardOf j.card).ca == 2 && (u.team? j.core j.slot).any (fun tm => (tm.chan (bits (cardOf j.card).catgt 3 0)).room != 0)) = true := by
  decide +kernel
theorem test_witness_job_ends :
    (let s := withJob { ended 2 2 with putWaits := true }
     ofJob s (fun j => j.state == .running && s.enginesRun j.ctx && j.putWaits && (cardOf j.card).ca == 2
       && (s.team? j.core j.slot).any (fun tm => (tm.chan (bits (cardOf j.card).catgt 3 0)).room != 0)) = true)
    ∧ (let s := withJob { job (fillCard 0 0) with state := .partialDone, tried := 1 }
       ofJob s (fun j => j.state == .partialDone && s.enginesRun j.ctx && j.records == 0 && !j.full && j.grp.isSome) = true)
    ∧ inTeam (tune quiet (fun t => { t with tiles := [(0, { state := .filling, doneFill := true })] }) id) (fun tm _ => (tget tm.tiles 0).any (fun x => x.held == 0 && x.state == .filling && x.doneFill)) = true := by
  decide +kernel

/-- An address of context 1 that nothing has translated, and its walk in flight. -/
def missing : State := about quiet { g := g0, a := 1, b := 0x2000 }
def walk : PendingWalk := { ctx := 1, page := 2, requesters := [(1, 0)] }
theorem test_witness_walks :
    (let a : Access := { core := 1, ctx := 1, va := 0x2000, acc := 0, keyperm := 0#64 }
     0x2000 < 2 ^ 49 ∧ cached a (missing.core 1).tlb = none ∧ cached a (missing.die 0).tlb = none ∧ (missing.die 0).ptt = [])
    ∧ (let s := about (quiet.modDie 0 (fun d => { d with ptt := [walk] })) { a := 0, b := 1, c := 2 }
       (s.die s.subject.a).ptt.find? (fun p => p.ctx == s.subject.b && p.page == s.subject.c) = some walk)
    ∧ (about quiet { a := 1, b := 0, c := 4096 }).inFlight 1 0 4096 = false := by
  decide +kernel
/-- A sent atomic to host memory, at page 2. -/
def hostAtomic : State := about { quiet with sent := [(5, { atomicSent with home := hostKey 0x2000 })] } { a := 1, b := 2, c := 1 }
/-- A request of die 0 to the host. -/
def atsWait : AtsWait := { die := 0, ctx := 1, frame := 2, page := 2, requesters := [(1, 0)] }
theorem test_witness_host_translation :
    (let s := about quiet { a := 1, b := 2, c := 1 }
     s.atsInvs.find? (fun i => i.ctx == 1 && i.page == 2 && i.pages == 1) = none ∧ s.hostUses 1 2 1 = [])
    ∧ (hostAtomic.atsInvs = [] ∧ hostAtomic.hostUses 1 2 1 = [5] ∧ (tget hostAtomic.sent 5).isSome = true)
    ∧ (let s : State := { about quiet { a := 1, b := 2, d := 0, ok := true } with atsWaits := [atsWait] }
       atsWait ∈ s.atsWaits ∧ atsWait.asked s.subject = true ∧ s.subject.ok = true ∧ s.atsEnabled = true) := by
  decide +kernel
/-- The record of a page of the host that is not there, of a group or of a job; and the request for it. -/
def hostRecord (job : Nat) : FaultRecord := { cause := 134, ctx := 1, job := job, va := 0x2000 }
def paged (r : FaultRecord) : State :=
  { withJob { job (fillCard 0 0) with state := .partialDone, tried := 1, records := 1 } with priOut := [⟨1, 2, 0, r⟩], subject := { a := 1, b := 2 } }
theorem test_witness_page_requests :
    (let p : PriRequest := ⟨1, 2, 0, hostRecord 0⟩
     (paged p.record).priOut = [p] ∧ p.ctx = 1 ∧ p.page = 2 ∧ p.record.job = 0)
    ∧ (let p : PriRequest := ⟨1, 2, 0, hostRecord (handleOf 0 3 1)⟩
       let s := paged p.record
       s.priOut = [p] ∧ p.record.job ≠ 0 ∧ (s.job? p.record.ctx p.record.job).any (fun x => x.2.2.records == 1 && x.2.2.state == .partialDone && !x.2.2.full) = true) := by
  decide +kernel
theorem test_witness_page_retries :
    (let s := heldBy 3 2
     (1, 0) ∈ s.residents ∧ dieOf 1 = 0 ∧ (s.team? 1 0).any (fun tm => tm.ctx == 1) = true
       ∧ (s.group? g0).any (fun y => y.halt == .none && decide (0 < y.lanes.length) && (y.lane 0).held == some ⟨3, 2⟩) = true)
    ∧ (let s := about (quiet.modDie 0 (fun d => { d with frq := [hostRecord 0] })) {}
       (s.die 0).frq = [hostRecord 0] ∧ (s.mapFor 1 0x2000 0 0).isSome = true) := by
  decide +kernel

/-- Core 1 with a running sequencer of the team in slot 0, chain in tile 1, at entry 1, whose word is `w`; channels 4 to 6 and ring 0. -/
def chainAt (w : Nat) : State :=
  let s := tune (room quiet) (fun t => { t with
    tiles := t.tiles.map (fun x => if x.1 = 3 then (3, { x.2 with len := 64#14, fmt := 4#5 }) else if x.1 = 2 then (2, { x.2 with len := 64#14 }) else x)
    chans := [(4, { mode := 3, depth := 4 }), (5, { mode := 3, depth := 4 }), (6, { mode := 1, peng := true, depth := 4 })] }) id
  let s := s.modSeq 1 (fun q => { q with state := .running, owner := some 0, tc := 1, entry := 1, issuer := some g0, rings := [{ holds := true, slot := 9, outq := 5 }] })
  about { s with mem := s.mem.writeBytes (sliceKey 1 (4 * 256 + 16)) (toBytesLE 16 w) } { g := g0 }
/-- An entry of a kind stands ready there, and meets what is asked of it. -/
def entryWith (kind rest : Nat) (p : Mx → Bool) : Bool :=
  ((chainAt (kind + rest)).mxEntry 1).any (fun m => m.chain.state != .undef && m.chain.readable && decide (m.i < m.entries) && m.fld 7 0 == kind
    && (m.poisonIn m.chain (m.q.off + 16 * m.i) 16).isNone && p m)
theorem test_witness_sequencer_entries :
    [entryWith 2 (2 ^ 8 + 2 * 2 ^ 20) (fun m => m.loopFault.isNone), entryWith 3 (2 ^ 16) (fun m => m.condStop.isNone), entryWith 5 (2 ^ 8) (fun m => !m.reserved && m.zeroed.all (fun a => !m.accBad a)),
      entryWith 6 (2 ^ 8) (fun m => m.scaleaStop.isNone), entryWith 10 0 (fun m => !m.reserved && (m.s.releaseRings m.core m.slot).isSome)] = List.replicate 5 true := by
  decide +kernel
theorem test_witness_sequencer_tiles :
    [entryWith 1 (2 ^ 10 + 3 * 2 ^ 22 + 3 * 2 ^ 16) (fun m => m.mulStop.isNone), entryWith 7 (2 * 2 ^ 12) (fun m => m.drainStop.isNone && (fmtFormat m.drainTile.fmt.toNat).isSome),
      entryWith 8 0 (fun m => m.bypassStop.isNone)] = List.replicate 3 true := by
  decide +kernel
/-- The sequencer's state with channel 4 holding `n` items, and tile 3 atomic. -/
def ringAt (w n : Nat) : State :=
  tune (chainAt w) (fun t => { t with
    chans := t.chans.map (fun x => if x.1 = 4 then (4, { x.2 with count := n }) else x)
    tiles := t.tiles.map (fun x => if x.1 = 3 then (3, { x.2 with atomic := n == 9 }) else x) }) id
def ringWith (w n : Nat) (p : Mx → Bool) : Bool :=
  ((ringAt w n).mxEntry 1).any (fun m => m.chain.state != .undef && m.chain.readable && decide (m.i < m.entries) && m.fld 7 0 == w % 256
    && (m.poisonIn m.chain (m.q.off + 16 * m.i) 16).isNone && p m)
theorem test_witness_sequencer_waits :
    [0, 1].all (fun n => ringWith (4 + 2 * 2 ^ 10 + 2 ^ 16 + 4 * 2 ^ 20 + 5 * 2 ^ 24) n (fun m => m.ringFault.isNone && m.ringReady.any (fun t => (t.team? m.core m.slot).any (fun tm =>
      !(tm.chan (m.fld 23 20)).frozen && (tm.chan (m.fld 23 20)).count == n)))) = true := by
  decide +kernel
theorem test_witness_sequencer_signals :
    ringWith (9 + 2 ^ 8 + (2 ^ 63 + 2 ^ 21 + 22528) * 2 ^ 64) 9 (fun m => m.signalFault.isNone && m.fld 9 8 == 1
      && (match m.s.sliceCounter (opValue (m.fld 127 64)) with | .ok (some key) => (m.s.poisonAt key 8).isNone | _ => false)) = true
    ∧ ringWith (9 + 2 * 2 ^ 8 + 6 * 2 ^ 13) 0 (fun m => m.signalFault.isNone && m.fld 9 8 != 1 && (m.tm.chan (m.fld 16 13)).room != 0) = true
    ∧ (let s := (chainAt 0).modSeq 1 (fun q => { q with state := .stopping })
       (s.core 1).seqr.owner = some 0 ∧ (s.core 1).seqr.state = .stopping ∧ (s.releaseRings 1 0).isSome = true) := by
  decide +kernel

/-- A descriptor (R421) of an operation over S32 values of communicator 5, with SEQ 7: its source in tile 1, its result in tile 3, its mask in tile 2, its root. -/
def descOf (o root : Nat) : List Byte :=
  toBytesLE 1 (128 + o) ++ [0#8] ++ toBytesLE 2 5 ++ toBytesLE 4 1 ++ toBytesLE 8 7 ++ toBytesLE 8 (2 ^ 63 + 2 ^ 21 + 1280) ++ toBytesLE 8 (2 ^ 63 + 2 ^ 21 + 9216)
    ++ toBytesLE 8 (2 ^ 63 + 2 ^ 21 + 5120) ++ toBytesLE 4 root ++ List.replicate 84 0#8
def collDesc : List Byte := descOf 0 0
/-- Communicator 5 of context 1: this package is rank 0 of two, rank 1 is reached over an adapter; or over a plane. -/
def comm : Comm := { ctx := 1, num := 5, eng := 0, rank := 0, nmemb := 2, suspect := 1, table := List.replicate 32 0#8 ++ [1#8] ++ List.replicate 31 0#8, live := [0, 1], before := [0, 1] }
def planar : Comm := { comm with table := List.replicate 64 0#8 }
/-- The job of the operation, a COLL card whose descriptor is at the start of tile 1, in slot 3 of die 0. -/
def collState (desc : List Byte) (c : Comm) : State :=
  let s := withJob (job (card 8 0 0 (2 ^ 63 + 2 ^ 21 + 1024) 0 0 []))
  let s := tune s (fun t => { t with tiles := t.tiles.map (fun x => if x.1 = 3 then (3, { x.2 with fmt := 8#5, shared := true }) else x) }) id
  { s with comms := [c], mem := s.mem.writeBytes (sliceKey 1 1024) desc }
/-- What COLL asks of its job and its descriptor, with more of the machine then and of the descriptor. -/
def collStarts (desc : List Byte) (p : State → Job → Team → List Byte → Bool) : Bool :=
  let s := collState desc comm
  match s.collJob 0 3 with
  | some (j, tm) => (s.reachFault j (cardOf j.card) (cardOf j.card).src 0 128 true).isNone
      && (match s.collReach 0 3 j tm (cardOf j.card).src 0 128 0 with
        | (some l, t) => (t.collClaim 0 3 j tm comm (t.gatherBytes l)).any (fun t' => t.comm? (leAt (t.gatherBytes l) 2 2) == some comm && comm.ctx == j.ctx && comm.eng == (cardOf j.card).count && !descBad j.core comm.nmemb (t.gatherBytes l)
            && (comm.members (t.gatherBytes l)).contains comm.rank && p t' j tm (t.gatherBytes l))
        | _ => false)
  | none => false
theorem test_witness_coll_starts :
    collStarts (descOf 5 1) (fun _ _ _ b => opOf b == 5 && leAt b 40 4 != comm.rank) = true
    ∧ collStarts collDesc (fun t j tm b => opOf b != 5 && (match t.collReach 0 3 j tm (leAt b 16 8) 0 (contribBytes b) 0 with
        | (some k, u) => (u.loadFault (segForm k) true k).isNone && u.gatherPoison k 0 == []
        | _ => false)) = true := by
  decide +kernel
/-- The operation in flight, of the job or of a spare. -/
def op : CollOp := { job := some (0, 3), desc := collDesc, own := toBytesLE 4 9 }
/-- A communicator with the operation, and its state; the subject names it, rank 1 and chunk 0. -/
def collRuns (c : Comm) (o : CollOp) : State := { collState collDesc { c with op := some o } with subject := { a := 5, b := 1, c := 0 } }
theorem test_witness_coll_sends :
    [comm, planar].all (fun c => let s := collRuns c op
      s.comm? 5 == some { c with op := some op } && s.commRuns { c with op := some op } && (c.members op.desc).contains 1 && decide (0 < chunksOf op.desc) && reduces op.desc
        && (op.partialChunk c.rank 0).isSome) = true
    ∧ leAt (planar.member 1) 0 1 = 0 ∧ ({ quiet with links := [{ up := true, peers := [0] }] } : State).links.any (fun l => l.up && l.peers.contains (leAt (planar.member 1) 2 2)) = true
    ∧ (let s : State := { quiet with mem := quiet.mem.writeBytes (hostKey 8) (toBytesLE 4 4) }
       leAt (comm.member 1) 0 1 ≠ 0 ∧ s.ring (leAt (comm.member 1) 8 8) = some (0, 0, 4)) := by
  decide +kernel
theorem test_witness_coll_receives :
    (let t := trailerOf 5 0 0 7 (checksumOf 8 1 (toBytesLE 4 6))
     t.length = 64 ∧ leAt t 0 2 = 5 ∧ leAt t 8 8 = seqOf op.desc ∧ leAt t 2 2 < chunksOf op.desc ∧ 4 = min chunkBytes (contribBytes op.desc - leAt t 2 2 * chunkBytes)
       ∧ chunkPasses (collFmt op.desc) (toBytesLE 4 6) (checksumIn t) = true)
    ∧ (let s : State := { quiet with mem := quiet.mem.writeBytes (hostKey 8) (toBytesLE 4 4) }
       leAt (comm.member 1) 0 1 = 1 ∧ s.ring (leAt (comm.member 1) 16 8) = some (0, 0, 4))
    ∧ (let s : State := { quiet with mem := (quiet.mem.writeBytes (hostKey 8) (toBytesLE 4 4)).writeBytes (hostKey 0) (toBytesLE 4 1) }
       s.ring (leAt (comm.member 1) 16 8) = some (1, 0, 4) ∧ s.poisonAt (hostKey 0) 64 = none) := by
  decide +kernel
/-- The operation with its result received. -/
def whole : CollOp := { op with results := [(0, 0, toBytesLE 4 9)] }
theorem test_witness_coll_completes :
    (let s := collRuns comm whole
     let c : Comm := { comm with op := some whole }
     match c.result whole, s.collJob 0 3 with
     | some res, some (j, tm) => (cardOf j.card).ca == 0 && (match s.collResults 0 3 j tm (leAt whole.desc 24 8) (collFmt whole.desc) whole.read res with
         | (true, u) => (match (u.carryOwn j tm c whole).collWrite 0 3 j tm (leAt whole.desc 32 8) 0 (maskBytes c.nmemb (c.contributors whole)) whole.read with
           | (true, v) => (match v.collWrite 0 3 j tm (cardOf j.card).src 64 (toBytesLE 1 1 ++ List.replicate 3 0#8 ++ toBytesLE 4 2 ++ toBytesLE 4 0) [] with
             | (true, w) => (tget ((((w.modComm c.num (fun c => { c with op := none })).elementDone 0 3 0 [] none).die 0).truss) 3).any (fun k => (cardOf k.card).ca == 0 && !k.cancelled && !k.absent)
             | _ => false)
           | _ => false)
         | _ => false)
     | _, _ => false) = true := by
  decide +kernel
theorem test_witness_coll_replays :
    (let o : CollOp := { whole with job := none }
     let s := collRuns comm o
     let c : Comm := { comm with op := some o }
     (c.result o).any (fun res => (s.sparePuts c (collFmt o.desc) (leAt o.desc 24 8) res).1) && o.parked.isNone) = true := by
  decide +kernel
theorem test_witness_members :
    (let c : Comm := { comm with rank := 1, root := 0, live := [0, 1, 2] }
     c.actingRoot ≠ c.rank ∧ ({ c with suspected := [2] } : Comm).actingRoot = c.actingRoot ∧ c.live.contains 2 = true ∧ c.live.contains c.rank = true ∧ c.suspected = [])
    ∧ comm.epoch < 1 ∧ (maskRanks comm.nmemb 3).contains comm.rank = true
    ∧ ({ comm with live := [1] } : Comm).live.contains 0 = false ∧ ({ comm with live := [1] } : Comm).live.contains 1 = true := by
  decide +kernel

/-- A group parked since the start for an LCORE; and one parked where no core qualifies. -/
def parked : State := quiet.modGroup g0 (fun y => { y with park := some ⟨⟨1, 0, 1⟩, ⟨1, 0, 0⟩, true, 0⟩ })
def stranded : State := { parked.modCtx 1 (fun c => { c with migpol := 0#32 }) with lcores := false }
theorem test_witness_migration :
    inTeam parked (fun tm y => !tm.folded && y.park.any (fun p => let n := parked.parkNeeds g0 tm y p
      parked.moveReady g0 tm y n && (match parked.parkTarget g0 tm y p with
        | some c => (parked.freeTeamSlot c).isSome && (parked.placeTeamRanges c n.window (trapBytes y.width / 256) (n.storage tm y.num)).isSome
        | none => false))) = true
    ∧ inTeam stranded (fun tm y => y.park.any (fun p => (stranded.parkTarget g0 tm y p).isNone) && bits ((stranded.ctx? tm.ctx).getD {}).migpol.toNat 26 22 != 31) = true := by
  decide +kernel
/-- A team of one stage with a latched fold, its group pending at the EP; and one folded with a latched spread. -/
def latched (c : Bool) : State := tune atEp (fun t => { t with stages := [0], foldLatched := !c, parkedStages := [], folded := c, spreadLatched := c, fold := if c then some {} else none }) id
/-- The stage has parked; or its group stands in handler mode, which refuses the fold. -/
def stageParked (hm : Bool) : State := tune (latched false) (fun t => { t with parkedStages := if hm then [] else [0] }) (fun y => { y with hm := hm })
/-- What CHAIN_FOLD_PERFORM asks of a latched fold. -/
def foldDue (s : State) (p : Team → List (GRef × Machine.Group) → Bool) : Bool :=
  inTeam s (fun tm _ => let a := s.chainGroups 1 0 tm
    tm.foldLatched && !tm.folded && s.chainPutsDone 1 0 tm && a.all (fun x => tm.parkedStages.contains (tm.stageOf x.2.num) || x.2.frame || x.2.hm || x.2.park.isSome) && p tm a)
theorem test_witness_folds :
    inTeam (latched false) (fun tm y => (latched false).stageParks g0 tm y && tm.stages != []) = true
    ∧ foldDue (stageParked false) (fun tm a => a != [] && (stageParked false).foldRefusal 1 0 tm a == 0) = true
    ∧ foldDue (stageParked true) (fun tm a => (stageParked true).foldRefusal 1 0 tm a == 4 + 1) = true := by
  decide +kernel
theorem test_witness_spread :
    inTeam (latched true) (fun tm _ => tm.folded && tm.spreadLatched && tm.fold.any (fun fo => (tm.groups[tm.threadPlace fo]?).any (fun th => (latched true).spreadable g0 tm fo th)
      && tm.chans.all (fun q => q.2.mode != 2)
      && (((latched true).switchStage 1 0 (tm.stageOf fo.thread)).team? 1 0).any (fun t => t.fold.any (fun fo => (t.groups[t.threadPlace fo]?).isSome)))) = true := by
  decide +kernel

/-- Queue 0 of context 1, of a kind, with a claimed packet of given bytes. -/
def packetOf (b : List Byte) : Packet := { idx := 0, bytes := b ++ List.replicate (64 - b.length) 0#8 }
def queueOf (kind : Nat) (ps : List Packet) : HwQueue := { base := 0, slots := 16, kind := kind, prio := 0, ctx := 1, tail := 1, next := 1, packets := ps }
/-- A state with queues and the object, the subject naming queue 0, packet `b`, and core or die `c`. -/
def queued (qs : List (Nat × HwQueue)) (b c : Nat) : State := about { warm (room quiet) 0 with queues := qs } { g := g0, a := 0, b := b, c := c }
def ofPacket (s : State) (p : HwQueue → Packet → Bool) : Bool := (s.packet? 0 s.subject.b).any (fun x => p x.1 x.2)
/-- A packet of a type whose turn has come. -/
def mayGo (s : State) (typ : Nat) (x : HwQueue) (p : Packet) : Bool := !p.started && p.bytes != [] && leAt p.bytes 0 1 == typ && s.queueServes x && x.mayStart p (bit (leAt p.bytes 1 1) 0)
/-- A LAUNCH of kernel 0 of an object, one team; FLAGS and GANG as given. -/
def launchBytes (handle flags gang : Nat) : List Byte :=
  [1#8] ++ toBytesLE 1 flags ++ toBytesLE 6 0 ++ toBytesLE 4 handle ++ toBytesLE 4 0 ++ toBytesLE 4 1 ++ toBytesLE 4 1 ++ toBytesLE 4 1 ++ toBytesLE 1 gang
/-- Whether an agent reaches an address for queue 0, whatever it does there. -/
def reaches (s : State) (i va acc elem : Nat) : Bool := match s.reach 0 i 1 1 va (if va % 64 == 48 then 8 else 64) acc elem with | (.ok _, _) => true | _ => false
theorem test_witness_claims :
    (let x := queueOf 1 []
     x.tail = 1 ∧ (1 + 2 ^ 32 - x.tail) % 2 ^ 32 < 2 ^ 31 ∧ (1 + 2 ^ 32 - x.head) % 2 ^ 32 ≤ x.slots)
    ∧ (let x : HwQueue := { queueOf 1 [] with tail := 2 }
       let s := queued [(0, x)] 0 0
       x.kind = 1 ∧ x.packets = [] ∧ x.next ≠ x.tail ∧ s.queueServes x = true ∧ s.mayClaim 1 0 = true
         ∧ reaches ((s.modDie 0 (fun d => { d with fbLast := 0 })).modQueue 0 (fun x => { x with next := 2, packets := [{ idx := 1, bytes := [] }] })) 1 (x.slotVa 1) 0 0xFE20 = true) := by
  decide +kernel
theorem test_witness_launches :
    [1, 9].all (fun h => let s := queued [(0, queueOf 1 [packetOf (launchBytes h 0 0)])] 0 2
      ofPacket s (fun x p => mayGo s 1 x p && p.status == 0 && p.teams == 0 && s.agentServes (512 * p.die) p.bytes && (s.launchFault x.ctx p.bytes == 0) == (h == 1))) = true
    ∧ (let s := queued [(0, queueOf 1 [packetOf [3#8]])] 0 2
       ofPacket s (mayGo s 3) = true) := by
  decide +kernel
/-- A FEED of a record at address 64 to task queue 1 of team 0 of packet 0, behind its LAUNCH; begun, or not. -/
def feeding (begun : Bool) : State :=
  let feed : List Byte := [2#8] ++ toBytesLE 3 0 ++ toBytesLE 4 1 ++ toBytesLE 4 0 ++ toBytesLE 4 1 ++ toBytesLE 4 0 ++ toBytesLE 4 0 ++ toBytesLE 8 64 ++ List.replicate 32 0#8
  (queued [(0, queueOf 1 [{ packetOf (launchBytes 1 0 0) with started := true, teams := 1, created := 1 }, { packetOf feed with idx := 1, teams := if begun then 1 else 0 }])] 1 0).modCtx 1
    (fun c => { c with objects := [(1, { object with kernels := object.kernels.map (fun k => { k with tqs := [⟨40, 1, 1024, []⟩] }) })] })
theorem test_witness_feeds :
    ofPacket (feeding false) (fun x p => mayGo (feeding false) 2 x p && p.status == 0 && p.teams == 0 && zeroBytes p.bytes [(13, 3), (18, 2), (32, 16)] && decide (leAt p.bytes 12 1 < 16)
      && leAt p.bytes 4 4 != 0 && decide (leAt p.bytes 4 4 ≤ 65536) && leAt p.bytes 24 8 % 64 == 0 && (feeding false).feedGrid x.ctx p.bytes != none) = true
    ∧ ofPacket (feeding true) (fun x p => p.teams != 0 && p.status == 0 && p.page.isNone && leAt p.bytes 0 1 == 2 && (feeding true).packetServes x p
      && (match (feeding true).resolveTeam x.ctx (leAt p.bytes 16 2) (leAt p.bytes 20 4) (0, 0) false (leAt p.bytes 8 4) with
        | .here core slot => (feeding true).tqRoom core slot (leAt p.bytes 12 1) != 0 | _ => false)
      && reaches (feeding true) 1 (leAt p.bytes 24 8 + 64 * p.appended) 0 0xFE20) = true := by
  decide +kernel
/-- A packet that has ended, of a queue of a kind, with a SIGNAL address. -/
def endedPacket (kind signal : Nat) : State :=
  queued [(0, queueOf kind [{ packetOf ((packetOf [3#8]).bytes.take 56 ++ toBytesLE 8 signal) with started := true, status := 1 }])] 0 0
theorem test_witness_packets_end :
    [(2, 0), (1, 0), (1, 0x2000)].all (fun c => let s := endedPacket c.1 c.2
      ofPacket s (fun x p => (s.packetDone 0 x p).isSome && !p.completed && p.page.isNone && !p.failed && x.kind == c.1 && leAt p.bytes 56 8 == c.2 && !p.unsignalled
        && reaches s 0 (x.slotVa 0 + 48) 1 0xFE20
        && (c.2 == 0 || (match s.signalKey 0 0 1 x.ctx (leAt p.bytes 56 8) with
          | (.ok at_, u) => (match u.reach 0 0 1 x.ctx (x.slotVa 0 + 48) 8 1 0xFE20 with | (.ok key, t) => ((t.storeLE key 8 1).poisonAt at_ 8).isNone | _ => false)
          | _ => false)))) = true := by
  decide +kernel
/-- A LAUNCH whose teams are to be admitted, ordinary or a gang. -/
def launching (gang : Bool) : State := queued [(0, queueOf 1 [{ packetOf (launchBytes 1 (if gang then 8 else 0) (if gang then 17 else 0)) with started := true, teams := 1 }])] 0 2
/-- A slot and places for a team on a core. -/
def placeable (s : State) (n : Spec) (core : Nat) : Bool := (s.freeTeamSlot core).isSome && (s.placeSpec n core).isSome
theorem test_witness_team_admit :
    (let s := launching false
     ofPacket s (fun x p => s.launching x p false && (s.launchSpec 0 x p p.created).any (fun n => s.admits n 2 none && placeable s n 2)) = true) := by
  decide +kernel
/-- The task records of queue 0, of the code object's first trace; or of none. -/
def recorded (handle : Nat) : State := queued [(0, queueOf 2 [packetOf (toBytesLE 4 0 ++ toBytesLE 4 handle)])] 0 2
theorem test_witness_task_records :
    [0, 1].all (fun h => let s := recorded h
      (tget s.queues 0).any (fun x => x.kind == 2 && (x.packets.find? (fun p => !p.started && p.bytes != [])).any (fun p => s.queueServes x && x.mayStart p (bit (leAt p.bytes 22 2) 0)
        && (match s.recordSpec 0 x p with | some n => h == 1 && s.admits n 2 none && placeable s n 2 | none => h == 0))) && !(s.die 0).fallback) = true := by
  decide +kernel
/-- The gang where only LCOREs hold its kernel; and where its groups need more registers than a core has. -/
def gangOf (r : Role) : State := (launching true).modCtx 1 (fun c => { c with objects := [(1, { object with kernels := object.kernels.map (fun k => { k with d9 := false, role0 := r }) })] })
def gangs : State := gangOf { groups := 1 }
def starved : State := gangOf { groups := 255, vregl := 64 }
theorem test_witness_gang_admit :
    ofPacket gangs (fun x p => gangs.launching x p true && gangs.agentServes (512 * p.die) p.bytes && (match gangs.bestOf (gangs.gangRects 0 x p), gangs.gangSpecs 0 x p with
      | some [c], [n] => placeable gangs n c | _, _ => false)) = true := by
  decide +kernel
theorem test_witness_gang_waits :
    ofPacket starved (fun x p => starved.launching x p true && starved.reservable 2 p && !starved.gangAhead 0 x p && starved.gangRects 0 x p == []
      && (starved.bestOf ((rectangles 2 (gangShape p).1 (gangShape p).2 (!(((starved.launchKernel x.ctx p.bytes).map (·.d9)).getD false))).filter (fun r => r.all starved.coreEnabled))).isSome) = true
    ∧ (let s := starved.modDie 2 (fun d => { d with reserved := some (gangKey 0 0, []) })
       (s.die 2).reserved = some (gangKey 0 0, []) ∧ ofPacket s (fun x p => s.gangRects 0 x p == []) = true) := by
  decide +kernel
theorem test_witness_team_ends :
    (let s := tune quiet (fun t => { t with ending := true }) id
     inTeam s (fun tm _ => s.teamDone 1 0 tm) = true)
    ∧ (let s := tune quiet (fun t => { t with grantAsked := some 0 }) id
       inTeam s (fun tm _ => leastBy (fun (t : Nat × Team) => t.2.grantAsked.getD 0) ((s.coreTeams 1).filter (fun t => t.2.grantAsked.isSome && !t.2.granted)) == some (0, tm)
         && (s.teamKernel? tm).isSome && decide (s.usedRegs 1 + (s.shortfall 1 tm).1 ≤ fileRegs 1) && (s.shortfall 1 tm).2 == 0) = true) := by
  decide +kernel

/-- Task queue 1 with a port whose ring, in memory from 0x3000 on, holds a record. -/
def ported : State :=
  let s := tune (warm (room quiet) 0) (fun t => { t with queues := [(1, { tile := 1, slots := 8, ports := [⟨0x3000, 4⟩] })] }) id
  about { s with mem := s.mem.writeBytes (sliceKey 1 (1024 + 0x44)) (toBytesLE 4 1) } { g := g0, a := 1, b := 0 }
theorem test_witness_ports :
    inTeam ported (fun tm _ => (tget tm.queues 1).any (fun tq => (nth tq.ports 0 ⟨0, 0⟩).slots != 0 && (tget tq.stopped 0).isNone
        && (match ported.translateRange (ported.pullAccess g0 tm tq 1 0) 64 3 0 [] with | (.ok l, t) => (t.loadFault (segForm l) true l).isNone | _ => false))
      && !tm.ending && ported.enginesRun tm.ctx && ported.tq 1 0 1 0x44 != ported.tq 1 0 1 0x40 && ported.tqRoom 1 0 1 != 0) = true := by
  decide +kernel
/-- Successor work of core 1 whose counter is at an operand, with the tiles atomic. -/
def succeeding (counter : Nat) (zero : Bool) : State :=
  let s := tune (warm (room quiet) 0) (fun t => { t with tiles := t.tiles.map (fun x => (x.1, { x.2 with atomic := true })), queues := [(2, { tile := 1, slots := 8, ports := [] })] }) id
  about (s.modCore 1 (fun k => { k with succs := [{ slot := 0, grp := 0, ctx := 1, counter := counter, record := 0, queue := 2, zero := zero, bytes := if zero then some [] else none }] })) { g := g0, a := 0 }
def ofSucc (s : State) (p : Successor → Bool) : Bool := ((s.core 1).succs[0]?).any (fun w => w.parkedPage.isNone && s.enginesRun w.ctx && p w)
theorem test_witness_successors :
    (let s := succeeding (2 ^ 63 + 2 ^ 21 + 5376) false
     ofSucc s (fun w => !w.decremented && opSpace w.counter == 2 && w.counter % 4 == 0 && (match s.sliceCounter (opValue w.counter) with | .ok (some key) => (s.poisonAt key 4).isNone | _ => false)) = true)
    ∧ (let s := succeeding 0x3000 false
       ofSucc s (fun w => !w.decremented && opSpace w.counter == 0 && w.counter % 4 == 0
         && (match s.translate { core := 1, ctx := w.ctx, va := opValue w.counter, acc := 2, keyperm := s.keypermOf w.ctx } with | (.ok key _, t) => (t.poisonAt key 4).isNone | _ => false)) = true)
    ∧ (let s := succeeding 0 true
       ofSucc s (fun w => w.zero && w.bytes == some [] && (s.team? 1 w.slot).any (fun tm => !tm.ending && !tm.fromTask && (tget tm.queues w.queue).isSome && s.tqRoom 1 w.slot w.queue != 0)) = true) := by
  decide +kernel

/-- Two processes whose queues are there; the first's turn is next. -/
def sharing : State := { quiet with ctxs := quiet.ctxs ++ [(2, {})], queues := [(0, queueOf 1 []), (1, { queueOf 1 [] with ctx := 2 })] }
theorem test_witness_quanta :
    (quiet.runList.length < 2 ∧ quiet.runList = [])
    ∧ (sharing.runList = [1, 2] ∧ ((sharing.runList.find? (fun c => decide (sharing.runNext < c))).or sharing.runList.head?) = some 1 ∧ sharing.runNext ≠ 1)
    ∧ (let c : Ctx := { buckets := List.replicate 3 { level := 5, cap := 9, rate := 2 }, descheduled := true }
       (c.buckets[0]?).any (fun b => b.cap != 0) = true ∧ c.preempted = false) := by
  decide +kernel
/-- The context pre-empted; with a saved team where `v`. -/
def outOfTurn (v : Bool) : State := quiet.modCtx 1 (fun c => { c with preempted := true, saved := if v then [{ core := 1, slot := 3, team := { ctx := 1, handle := 1, kernel := 0, groups := [] }, image := [] }] else [] })
theorem test_witness_preemption :
    (let s := quiet.modDie 0 (fun d => { d with gutter := [⟨1, [1], false⟩] })
     (s.die 0).gutter.find? (fun g => g.ctx == 1) = some ⟨1, [1], false⟩ ∧ s.coreStopped 1 1 = true)
    ∧ (let s := (outOfTurn false).modGroup g0 (fun y => { y with hm := true })
       inTeam s (fun tm y => y.hm && !y.timedOut && (s.ctx? tm.ctx).any (·.preempted)) = true)
    ∧ (1, 0) ∈ quiet.teamsOf 1
    ∧ [true, false].all (fun v => let s := outOfTurn v
      (s.ctx? 1).any (fun c => c.preempted && !c.descheduled && c.stopped.isNone && (match c.saved with
        | [] => !v | x :: _ => v && s.coreEnabled x.core && s.restorable x x.core)) && (List.range 4).all (fun d => (s.die d).gutter.isEmpty) && s.queues.isEmpty) = true := by
  decide +kernel
theorem test_witness_firmware :
    quiet.boot.reloaded = none ∧ quiet.boot.degraded = false ∧ 3 < quiet.bar0.hb.length ∧ (quiet.die 2).fallback = false ∧ 24 < quiet.boot.step ∧ State.reset.starting = true
    ∧ (let s := quiet.modDie 2 (fun d => { d with fallback := true, hbSeen := 7 })
       (s.die 2).fallback = true ∧ (s.die 2).hbSeen ≠ (s.heart 2).toNat) := by
  decide +kernel
theorem test_witness_errors :
    ((quiet.modGroup g0 (fun y => { y with owed := [⟨259, [], 0, 0⟩] })).group? g0).any (fun y => y.exec.isNone && (y.owed.find? (fun t => decide (256 ≤ t.cause ∧ t.cause < 320))).isSome) = true
    ∧ bit (2 ^ 16 + 720) 16 = true ∧ (State.reset.banks[3]?).isSome = true ∧ (0 : Nat) ≤ 7 := by
  decide +kernel
theorem test_witness_fabric :
    (State.reset.links[2]?).any (fun l => !l.up) = true ∧ State.reset.hasLink 2 = true
    ∧ (let l : Link := { up := true, peers := [7], packets := 2 ^ 32 }
       l.up = true ∧ 2 ^ 32 ≤ l.packets ∧ l.peers.contains 7 = true) ∧ 60 % 64 + ([1#8] : List Byte).length ≤ 64 := by
  decide +kernel

/-- A state in which request 0 of the management ring has given bytes, of a context 1 that debugging may reach. -/
def asked (b : List Byte) : State :=
  let s := (loaded quiet).modCtx 1 (fun c => { c with debug := true, objects := c.objects ++ [(2, object)] })
  { s with bar0 := { s.bar0 with mrsize := 16#32, mrtail := 1#32, mrbase := 4096#64 }, mem := s.mem.writeBytes (hostKey 4096) b,
           comms := [comm], subject := {}, boot := { s.boot with step := 25 } }
/-- The bytes of a request of an OP about context 1, with ARGS. -/
def reqBytes (o : Nat) (args : List Byte) : List Byte := toBytesLE 2 o ++ toBytesLE 2 1 ++ List.replicate 12 0#8 ++ args ++ List.replicate (48 - args.length) 0#8
/-- The premise Asked, decided. -/
def isAsked (o flags : Nat) (onCtx : Bool) (used : List (Nat × Nat)) (args : List Byte) (p : State → List Byte → Bool) : Bool :=
  let s := asked (reqBytes o args)
  (s.request? 0).any (fun b => leAt b 0 1 == o && leAt b 1 1 - (leAt b 1 1 &&& flags) == 0 && !argsBad b used && (!onCtx || (s.ctx? (leAt b 2 2)).isSome) && p s b)
theorem test_witness_requests :
    [(2, 0, []), (3, 0, []), (4, 0, [(16, 25)]), (5, 0, [(16, 16), (40, 1)]), (6, 0, [(16, 14)]), (7, 0, [(16, 2)]), (8, 1, [(16, 16)]), (10, 0, [(16, 20)]), (12, 0, [(16, 1), (18, 2)]),
      (13, 0, []), (14, 0, [(16, 1), (24, 24)]), (15, 0, [(16, 14), (32, 8)])].all (fun r => isAsked r.1 r.2.1 true r.2.2 [] (fun _ _ => true)) = true
    ∧ isAsked 9 0 true [(16, 4)] [2#8] (fun s b => (s.ctx? 1).any (fun c => (tget c.objects (leAt b 16 4)).isSome && !s.unloadWaits 1 (leAt b 16 4) c)) = true
    ∧ isAsked 16 0 true [(16, 2)] [5#8] (fun s b => (s.comm? (leAt b 16 2)).any (fun c => c.ctx == 1 && c.op.isNone)) = true
    ∧ ((asked (toBytesLE 2 1 ++ List.replicate 62 0#8)).request? 0).any (fun b => leAt b 0 1 == 1 && leAt b 2 2 == 0 && !argsBad b [(16, 14)]) = true
    ∧ isAsked 2 0 true [] [] (fun s b => s.waiting.filter (fun j => j != 0 && s.requestCtx j == leAt b 2 2) == []) = true
    ∧ ((asked (reqBytes 17 [])).request? 0).any (fun b => decide (16 < leAt b 0 1)) = true := by
  decide +kernel
theorem test_witness_debug :
    (List.range 9).all (fun dop => isAsked 11 0 true [(16, 1), (18, 5), (24, 4), (32, 8)] ([BitVec.ofNat 8 dop] ++ [0#8] ++ toBytesLE 2 1) (fun s b =>
      leAt b 16 1 == dop && (s.ctx? 1).any (fun c => c.debug && !c.conf) && s.debugGroup 1 b == some g0 && s.frameOffset g0 b && (s.group? g0).any (fun y => y.halt == .none)
        && decide (leAt b 22 1 ≤ 3))) = true
    ∧ isAsked 11 0 true [(16, 1), (18, 5), (24, 4), (32, 8)] ([1#8] ++ [0#8] ++ toBytesLE 2 1) (fun s _ => ((s.modGroup g0 (fun y => { y with halt := .request })).group? g0).any (fun y => y.halt != .none)) = true := by
  decide +kernel
/-- Connection states that the attestation statement asks for: each is a state of the responder. -/
theorem test_witness_attestation :
    [({ stage := 1 } : Spdm), { stage := 2 }, { stage := 3 }, { stage := 4 }].map (·.stage) = [1, 2, 3, 4] ∧ ({ stage := 4, handshaking := true } : Spdm).handshaking = true
    ∧ ({ stage := 4, session := true } : Spdm).session = true := by
  decide

/-! ### The machine as a whole -/

theorem test_witness_steps :
    (let s := at9 0x0014380000000020
     s.agenda = [] ∧ s.starting = false ∧ (match s.arbitrate.standing with | some (g, _, _, x) => decide (g = g0) && (match decode (s.encOf g) (toBytesLE 8 x.word.toNat) with | .ok (_, []) => true | _ => false) | none => false) = true)
    ∧ (buffered.arbitrate.standing.isNone && buffered.agenda == [] && (match buffered.turn with | some (.traceDispatch, _) => true | _ => false)) = true
    ∧ (at9 0x0014380000000020).standing.any (fun p => p.2.2.2.run != 0) = true ∧ wordOf .trussAccept = none ∧ wordOf .packageStart = none := by
  decide +kernel
/-- Nothing is set to happen: no group, and the start over. -/
theorem test_witness_idle : (let s : State := { State.reset with boot := { step := 25 } }
    s.agenda = [] ∧ s.starting = false ∧ s.arbitrate.standing = none ∧ s.turn = none) := by decide +kernel
/-- A group that traps with a handler, in its handler, and with none. -/
theorem test_witness_trap_entry :
    [((at9 0x0704380000000030).modCtx 1 (fun c => { c with trapbase := 0x8000000000000001#64 }), false, true),
     ((at9 0x0704380000000030).modGroup g0 (fun y => { y with hm := true }), true, false), (at9 0x0704380000000030, false, false)].all (fun p =>
      inTeam p.1 (fun tm y => y.exec.isSome && y.hm == p.2.1 && (p.1.ctx? tm.ctx).any (fun c => c.trapbase.getLsbD 63 == p.2.2))) = true
    ∧ (at9 0x0704380000000030).mem.wf = true := by
  decide +kernel
/-- The lanes of an access of a tile that fail one check, with every lane of the group acting at an offset. -/
def lanesAt (w o : Nat) (f : Team → Team) (p : Iss → List (Nat × Nat) → Bool) : Bool :=
  readyWith ((tune (room (at9 w)) f id).modGroup g0 (fun y => holding y [(6, BitVec.ofNat 32 o)])) (fun i =>
    let offs := (actingWords i (capture i).words).map (fun p => (p.1, (lastWord i p.2 0).toNat))
    offs.length == 16 && !i.grp.shadowBehind i.x.off && p i offs)
/-- Words that use tile 2 at the offset in v6: LD, ST, LDF, STF, ACCWR, JOB, MXGO. -/
def users : List Nat := [0x0502380802018000, 0x050A380802018000, 0x0518380802018000, 0x0520380802018000, 0x06B8380402018000, 0x0680380802018000, 0x0698380002018000]
/-- Tiles 1 and 2 changed. -/
def tile2 (f : Tile → Tile) (t : Team) : Team := { t with tiles := t.tiles.map (fun x => if x.1 < 3 then (x.1, f x.2) else x) }
theorem test_witness_misuse :
    users.all (fun w => readyWith ((room (at9 w)).modGroup g0 (fun y => { y with exec := y.exec.map (fun x => { x with mask := 0 }) })) (fun i => decide (maskCode i.x.mask (i.tile i.o.sa).1 < 1) && actingWords i (capture i).words != [])) = true
    ∧ users.all (fun w => lanesAt w 0 (fun t => { t with tiles := [] }) (fun i _ => decide (2 ≤ maskCode i.x.mask (i.tile i.o.sa).1) && (i.tile i.o.sa).2.state == .undef)) = true
    ∧ users.all (fun w => lanesAt w 0 (tile2 (fun x => { x with atomic := true })) (fun i _ => decide (2 ≤ maskCode i.x.mask (i.tile i.o.sa).1) && (i.tile i.o.sa).2.atomic)) = true := by
  decide +kernel
theorem test_witness_checks :
    [0x0502380802018000, 0x050A380802018000].all (fun w => lanesAt w 4096 id (fun i l => tileOk i 2 && l.all (fun p => decide ((i.tile i.o.sa).2.bytes < p.2 + accessSize (i.f.fn.toNat % 8))))
      && lanesAt w 2 id (fun i l => tileOk i 2 && l.all (fun p => decide (p.2 + accessSize (i.f.fn.toNat % 8) ≤ (i.tile i.o.sa).2.bytes) && p.2 % accessSize (i.f.fn.toNat % 8) != 0))) = true
    ∧ [0x0518380802018000, 0x0520380802018000].all (fun w => lanesAt w 1024 id (fun i l => tileOk i 2 && l.all (fun p => decide ((i.tile i.o.sa).2.nelem ≤ p.2)))
      && lanesAt w 0 (tile2 (fun x => { x with fmt := 0#5 })) (fun i _ => tileOk i 2 && (i.tile i.o.sa).2.fmt == 0#5)
      && lanesAt w 0 (tile2 (fun x => { x with fmt := 31#5 })) (fun i _ => tileOk i 2 && (formatFault (i.tile i.o.sa).2.fmt.toNat (i.tile i.o.sa).2.geom.toNat).isSome)) = true
    ∧ [(0x0680380802018000, 64, 4), (0x0698380002018000, 16, 4)].all (fun c => lanesAt c.1 c.2.2 id (fun i l => tileOk i 1 && l.all (fun p => p.2 % c.2.1 != 0))
      && lanesAt c.1 4096 id (fun i l => tileOk i 1 && l.all (fun p => p.2 % c.2.1 == 0 && decide ((i.tile i.o.sa).2.bytes < p.2 + c.2.1)))) = true := by
  decide +kernel
theorem test_witness_element_pairs : lanesAt 0x0518B80802018000 1 id (fun i l => tileOk i 1 && i.f.fn.toNat % 8 == 1
    && l.all (fun p => decide (p.2 + 1 < (i.tile i.o.sa).2.nelem) && p.2 % 2 == 1)) = true := by
  decide +kernel
theorem test_witness_accumulators :
    [0x06B0380801018000, 0x06B8380402018000].all (fun w => lanesAt w 16384 id (fun _ l => l.all (fun p => decide (16384 ≤ p.2)))) = true
    ∧ lanesAt 0x06B8380402018000 1024 id (fun i l => tileOk i 1 && l.all (fun p => decide (p.2 < 16384) && decide ((i.tile i.o.sa).2.bytes < 4 * p.2 + 4))) = true := by
  decide +kernel
theorem test_witness_tile_traps :
    [0x0528380404018000, 0x0530380400000000, 0x0538380400000000].all (fun w => readyWith (tune (room (at9 w)) (fun t => { t with queues := [(1, { tile := 1, slots := 16, ports := [] })] }) id)
      (fun i => someAct i && i.tm.isQueueTile (dstTile i))) = true
    ∧ readyWith (room (at9 0x0528380404018000)) (fun i => someAct i && !i.tm.isQueueTile (dstTile i)
        && !(allSame i (capture i).words && tdefValid i.teamAtHead (dstTile i) (nth (leadWords i (capture i).words) 0 0#32).toNat (nth (leadWords i (capture i).words) 1 0#32).toNat)) = true
    ∧ readyWith (tune (room (at9 0x0538380400000000)) (tile2 (fun x => { x with state := .empty })) id) (fun i => someAct i && (groupTile i.tm i.grp (dstTile i)).state != .ready) = true
    ∧ readyWith ((tune (room (at9 0x0528380404018000)) (tile2 (fun x => { x with state := .filling })) id).modGroup g0 (fun y => holding y [(4, 0x00040034#32), (6, 1#32)]))
        (fun i => someAct i && allSame i (capture i).words && tdefValid i.teamAtHead (dstTile i) (nth (leadWords i (capture i).words) 0 0#32).toNat (nth (leadWords i (capture i).words) 1 0#32).toNat
          && (i.teamSoFar.tile (dstTile i)).state == .filling) = true := by
  decide +kernel
theorem test_witness_modes :
    readyWith (at9 0x07243800020000F0) (fun i => i.acting != [] && immField i.f % 256 == 0x0F && !i.grp.priv) = true
    ∧ readyWith (at9 0x0708380000000000) (fun i => i.acting != [] && !i.grp.hm) = true
    ∧ readyWith ((at9 0x0604380400000040).modGroup g0 (fun y => { y with exec := y.exec.map (fun x => { x with hdr := { x.hdr with len := 3 }, words := [0x0604380400000040#64, 0x0604380400000040#64, 0x0028380000000000#64], off := 1 }) }))
        (fun i => i.x.cameBefore i.f.enc [0xC0, 0xC1]) = true
    ∧ (at9 0x0008380000000000).standing.any (fun p => (breakHit (at9 0x0008380000000000) p.2.1 p.2.2.2 false).isNone) = true := by
  decide +kernel
theorem test_witness_commit :
    inTeam (at9 0x0014380000000020) (fun tm y => y.exec.any (fun x => x.buf == [] && x.uses == [] && x.mask == 0 && !x.diverged && x.here == x.started && x.here != [] && !x.gotTask) && !y.shadow
      && tm.tasks == [] && tm.fold.isNone && tm.stages == [] && y.halt == .none && y.returns == [] && decide (((at9 0).die 0).uncompleted ≤ 4096)) = true
    ∧ (2 ^ 49 : Nat) / 2 ^ 49 ≠ 0 := by
  decide +kernel

/-! ### Clauses of several statements -/

/-- A lane of a banked stage, held by the page that its access missed. -/
def banked : State :=
  { about (tune quiet (fun t => { t with folded := true, stages := [0, 1], fold := some { thread := 0, stage := 0, cont := [(1 * 128 + 2, { live := true, held := some ⟨3, 2⟩ })] } }) id)
      { g := g0, a := 2, b := 1 } with focus := none }
theorem test_witness_banked_hold : inTeam banked (fun tm y => banked.inBank g0 1 && y.halt == .none
    && tm.fold.any (fun fo => (tget fo.cont 130).any (fun l => l.held == some ⟨3, 2⟩))) = true := by
  decide +kernel
/-- A leading group at a NOP with its shadow an instruction behind, or level with it at the end of the trace. -/
def trailing (off : Nat) (w : Nat) : State :=
  tune (about (at9 w) { g := g0, ok := true }) id (fun y => { y with shadow := true, trail := y.exec, exec := y.exec.map (fun x => { x with off := off, closing := off == 0 }) })
theorem test_witness_shadow_follows :
    inTeam (trailing 1 0x0040380000000000) (fun tm y => y.shadow && (match y.exec, y.trail with
      | some x, some z => decide (z.off < x.off) && ((trailing 1 0x0040380000000000).follow g0 tm y z).isSome | _, _ => false)) = true
    ∧ ((trailing 0 0x0028380000000000).group? g0).any (fun y => y.reruns == 0) = true
    ∧ (trailing 1 0x0040380000000000).shadowDue g0 = true ∧ ((at9 0).group? g0).any (fun y => !y.shadow) = true := by
  decide +kernel
/-- Both stand at the terminator, with the same results. -/
def level : State :=
  tune (about (at9 0x0028380000000000) { g := g0, ok := true }) id (fun y =>
    let x := y.exec.map (fun x => { x with closing := true })
    { y with shadow := true, exec := x, trail := x })
theorem test_witness_shadow_agrees : ∃ tm y x, level.team? 1 0 = some tm ∧ level.group? g0 = some y ∧ y.exec = some x ∧ y.trail = some x ∧ y.shadow = true ∧ x.closing = true
    ∧ x.compared = false ∧ level.signatureAt g0 tm y x = level.signatureAt g0 tm y x :=
  ⟨_, _, _, rfl, rfl, rfl, rfl, rfl, rfl, rfl, rfl⟩
/-- The operation with a chunk of rank 1; asked for again; and with a sum's result received. -/
def heard : CollOp := { op with received := [(1, 0, toBytesLE 4 3, trailerOf 5 0 0 7 (checksumOf 8 1 (toBytesLE 4 3)))] }
theorem test_witness_coll_again :
    (({ heard with excluded := [0] } : CollOp).partialChunk 0 0).isSome = true ∧ opOf heard.desc = 0
    ∧ (let o : CollOp := { op with results := [(0, 0, toBytesLE 4 9)], sums := [(0, trailerOf 5 0 0 7 (checksumOf 8 2 (toBytesLE 4 9)))] }
       ({ comm with op := some o } : Comm).resultChunk o 0 0 = some (toBytesLE 4 9) ∧ (tget o.sums 0).isSome = true)
    ∧ (let t := trailerOf 5 0 0 7 (checksumOf 8 1 (toBytesLE 4 6))
       leAt t 0 2 = 5 ∧ leAt t 8 8 = seqOf op.desc ∧ leAt t 2 2 < chunksOf op.desc) := by
  decide +kernel
/-- A link that is up to package 7. -/
def linked : State := { quiet with links := [{ up := true, reach := [7], peers := [7] }], exports := [⟨1, 0, 2 ^ 20, 7, 3⟩] }
theorem test_witness_peer :
    (linked.links.any (fun l => l.up && l.peers.contains 7)) = true
    ∧ (linked.exports.find? (fun w => w.pack == 7 && w.ictx == 3)).any (fun w => (linked.ctx? w.ctx).isSome && decide (64 + 8 ≤ w.len)) = true := by
  decide +kernel
/-- A window of a peer: its page tables let it in; a read, a write and an atomic of an F32 or 32-bit value. -/
theorem test_witness_peer_reaches :
    (let m := ([(0x100000, 0x200001), (0x200000, 0x300001), (0x300000, 0x400001), (0x400000, 0x4000003F)] : List (Nat × Nat)).foldl
       (fun (m : Memory) p => m.writeBytes (memKey .hbm p.1) (toBytesLE 8 p.2)) []
     let s : State := { State.reset with mem := m, ctxs := [(1, { root := 0x100000 })] }
     [0, 1, 2].all (fun acc => match s.translatePeer { core := 0, who := asks 7 7 3, ctx := 1, va := 64, acc := acc, keyperm := 0#64 } with
       | (.ok _ _, _) => true | _ => false)) = true := by
  decide +kernel
theorem test_witness_registers :
    bit ({ quiet.bar0 with scrubcfg := 0x000102D0#32 } : Bar0).scrubcfg.toNat 16 = true ∧ (quiet.banks[15]?).isSome = true
    ∧ (quiet.ctx? 1).any (fun c => c.buckets.length == 3 && !c.preempted) = true := by
  decide +kernel
/-- A record of the team's hardware queue, queue 2, with a successor. -/
def returning : State :=
  let s := succeeding 0 true
  about { (s.modCore 1 (fun k => { k with succs := k.succs.map (fun w => { w with queue := 16 }) })) with queues := [(0, { queueOf 2 [] with base := 0x3000 })] } { g := g0, a := 0 }
theorem test_witness_successor_of_a_hardware_queue :
    ofSucc returning (fun w => w.zero && w.queue == 16 && w.bytes == some [] && (returning.team? 1 w.slot).any (fun tm => (tget returning.queues tm.lqueue).any (fun x =>
      decide ((x.tail + 2 ^ 32 - x.head) % 2 ^ 32 < x.slots) && (match returning.translateBytes
        { core := 1, who := asks 4 w.slot w.grp, ctx := w.ctx, va := x.slotVa x.tail, acc := 1, keyperm := returning.keypermOf w.ctx } 64 with | (.ok _ _, _) => true | _ => false)))) = true := by
  decide +kernel
theorem test_witness_pending_table :
    (let a : Access := { core := 1, who := 0, ctx := 1, va := 0x2000, acc := 0, keyperm := 0#64 }
     missing.atsWaits.any (fun t => t.matches_ a && t.open_) = false ∧ missing.pending 0 < 256)
    ∧ [143, 158].all (fun k => ((quiet.modDie 0 (fun d => { d with frq := [{ hostRecord 0 with cause := k }] })).die 0).frq.any (fun r => r.cause == k)) = true
    ∧ (hostRecord 0).cause ∉ [143, 155, 158] := by
  decide +kernel

/-! ### The unary functions: operands of each clause -/

/-- Finite operands of F32: 3, −3, 2^−149 and the largest; −1.5 and 100; powers of two; the ends of FEXP2's range. -/
theorem test_witness_unary :
    [0x40400000, 0xC0400000, 0x00000001, 0x7F7FFFFF, 0xBFC00000, 0x42C80000, 0x3F000000, 0x43000000, 0xC3160000].all (fun w => (f32.decode w).nonzeroFinite) = true
    ∧ f32.decode 0x40400000 = .fin false 12582912 (-22) ∧ f32.decode 0xC0400000 = .fin true 12582912 (-22) ∧ f32.decode 0x7FC00000 = .nan
    ∧ f32.decode 0x43000000 = .fin false 8388608 (-16) ∧ f32.decode 0xC3160000 = .fin true 9830400 (-16) ∧ f32.decode 0x3F000000 = .fin false 8388608 (-24) := by
  decide +kernel

/-! ### Values worked in the spec -/

/-- The words that an instruction leaves for lane 0, after one step of core 1 with registers of every lane set. -/
def leaves (w : Nat) (rs : List (Nat × Word)) (change : Machine.Group → Machine.Group) : List (Reg × Word) :=
  match step ((at9 w).modGroup g0 (fun y => change (holding y rs))) with
  | .next t => ((t.execAt g0).map (fun x => ((allWrites x).filter (fun p => p.1.lane == 0)).map (fun p => (p.1.reg, p.2)))).getD []
  | _ => []

/-- spec/03 (the example of stochastic rounding): the first state of lane 0 under SRSEED 0x9E3779B8 would be 0 and is 1; the two states that follow it. -/
theorem test_value_seed : srSeed 0x9E3779B8#32 0 = 1#32 ∧ srStep 1#32 = 0x00042021#32 ∧ srStep 0x00042021#32 = 0x04080601#32 := by decide
/-- spec/10 (the example of a row scale): CVT.RNE.E4M3.F32 of −2.875 under scale 0x78 is 0xFC. -/
theorem test_value_cvt : leaves 0x0380382804024300 [(4, 0xC0380000#32), (9, 0x78#32)] id = [(.v 10, 0xFC#32)] := by decide +kernel
/-- spec/10 (the same example): SCALE.E4M3 of 2.875 is 0x78. -/
theorem test_value_scale : leaves 0x0AA8382408000000 [(8, 0x40380000#32)] id = [(.v 9, 0x78#32)] := by decide +kernel
/-- spec/10: FADD.F32 v3, v3, 1.5 of 1.0 is 2.5. -/
theorem test_value_fadd : leaves 0x0204380C033FC000 [(3, 0x3F800000#32)] id = [(.v 3, 0x40200000#32)] := by decide +kernel
/-- spec/09: ICMP.LT.S32 p1, v2, 7 of −1 holds, of 7 does not. -/
theorem test_value_icmp : leaves 0x0175380402000070 [(2, 0xFFFFFFFF#32)] id = [(.p 1, 1#32)] ∧ leaves 0x0175380402000070 [(2, 7#32)] id = [(.p 1, 0#32)] := by decide +kernel
/-- spec/09: ADD wraps. -/
theorem test_value_add : leaves 0x0087381403000640 [(3, 0xFFFFFFFF#32)] id = [(.v 5, 99#32)] := by decide +kernel
/-- spec/02 (the example of a walk): context 7, root 0x0010_0000, address 0x02E8_8FF3_04C8 reaches 0x0030_5A3C_04C8. -/
theorem test_value_walk :
    (let m := ([(0x100028, 0x200001), (0x200D10, 0x300001), (0x3003F8, 0x400011), (0x400098, 0x06A200305A3C0013)] : List (Nat × Nat)).foldl
       (fun (m : Memory) p => m.writeBytes (memKey .hbm p.1) (toBytesLE 8 p.2)) []
     let s : State := { State.reset with mem := m, ctxs := [(7, { root := 0x100000 })] }
     let r := s.walk 7 0x02E88FF304C8
     r.1 = 0 ∧ placeIn r.2.1 r.2.2.2.1 0x02E88FF304C8 = 0x00305A3C04C8) := by
  decide +kernel
/-- R48: the least significant byte of a word lies lowest. -/
theorem test_value_byte_order : toBytesLE 4 0x01020304 = [4#8, 3#8, 2#8, 1#8] := by decide
/-- R116 (the worked example): of a group of width 32 with 128 registers, v19 of lane 5 lies at 0xAAC of its record, that lane's predicates
at 0x0C5 and its stochastic-rounding state at 0x0F4. -/
theorem test_value_group_record :
    (let y : Machine.Group := { width := 32, num := 0, role := 0, cls := 0, vallot := 128, lanes := List.replicate 32 {},
                                regs := [(5 * 256 + 19, 0xDEADBEEF#32)], preds := [(41, 1#1)], sr := [(5, 7#32)] }
     granuleBase 32 = 0x200 ∧ leAt ((y.record false).take 0x1000) 0xAAC 4 = 0xDEADBEEF ∧ leAt ((y.record false).take 0x1000) 0x0C5 1 = 0x82 ∧ leAt ((y.record false).take 0x1000) 0x0F4 4 = 7) := by
  decide +kernel


end Sys2Proof.Tests
end

section
/-!
Translation of device virtual addresses (spec/02): the range check of R20, which stands before every look-up and every walk.
-/
namespace Sys2Proof.Machine

/-- R20: an address of more than 49 bits fails with ADDR_RANGE, and the state is left as it was. -/
theorem State.translate_of_two_pow_49_le (s : State) {a : Access} (h : 2 ^ 49 ≤ a.va) :
    s.translate a = (.fail 128 0, s) :=
  if_pos h

/-- Settles O51: one of bits 63 to 49 is set exactly where the address is at least 2^49, and there the range check answers first. -/
theorem addressesBeyond49BitsFail : Obligations.AddressesBeyond49BitsFail := by
  unfold Obligations.AddressesBeyond49BitsFail
  intro s a hbits
  have hva : 2 ^ 49 ≤ a.va := (Nat.div_ne_zero_iff.mp hbits).2
  exact s.translate_of_two_pow_49_le hva

end Sys2Proof.Machine
end

section
/-!
The integer and W formats (spec/03, R48): an element is the two's complement or the unsigned value of the low bits that its width names.
-/
namespace Sys2Proof.Machine

/-- One bit of a word is the library's test of that bit. -/
theorem bit_eq_testBit (w i : Nat) : bit w i = w.testBit i := by
  simp [bit, Nat.testBit_eq_decide_div_mod_eq, Nat.shiftRight_eq_div_pow, beq_eq_decide]

/-- The sign that a signed format tests is the sign bit of the element as a machine word. -/
theorem bit_mod_two_pow_eq_msb (n w : Nat) : bit (w % 2 ^ n) (n - 1) = (BitVec.ofNat n w).msb := by
  rw [bit_eq_testBit, BitVec.msb_eq_getLsbD_last, BitVec.getLsbD, BitVec.toNat_ofNat]

/-- A natural number as an exact value, which has no sign. -/
theorem ofSigned_natCast (v : Nat) : ofSigned (v : Int) 0 = .fin false v 0 := by
  simp [ofSigned]

/-- A negative number as an exact value: the sign, and how far the number lies below zero. -/
theorem ofSigned_natCast_sub_of_lt {v m : Nat} (h : v < m) : ofSigned ((v : Int) - m) 0 = .fin true (m - v) 0 := by
  have hneg : (v : Int) - m < 0 := by omega
  have habs : ((v : Int) - m).natAbs = m - v := by omega
  simp [ofSigned, hneg, habs]

/-- R48: an element of an unsigned format has the unsigned value of its low bits. -/
theorem IntFormat.decode_unsigned (n w : Nat) :
    (⟨n, false⟩ : IntFormat).decode w = ofSigned (BitVec.ofNat n w).toNat 0 := by
  rw [ofSigned_natCast, BitVec.toNat_ofNat]
  simp [IntFormat.decode]

/-- R48: an element of a signed format has the two's complement value of its low bits. -/
theorem IntFormat.decode_signed (n w : Nat) :
    (⟨n, true⟩ : IntFormat).decode w = ofSigned (BitVec.ofNat n w).toInt 0 := by
  have hlt : w % 2 ^ n < 2 ^ n := Nat.mod_lt w (Nat.two_pow_pos n)
  rw [BitVec.toInt_eq_msb_cond, BitVec.toNat_ofNat]
  cases hsign : (BitVec.ofNat n w).msb with
  | false => simpa [IntFormat.decode, bit_mod_two_pow_eq_msb, hsign] using (ofSigned_natCast (w % 2 ^ n)).symm
  | true => simpa [IntFormat.decode, bit_mod_two_pow_eq_msb, hsign] using (ofSigned_natCast_sub_of_lt hlt).symm

/-- The largest value of a signed format, as the bound of two's complement. -/
theorem IntFormat.top_signed (n : Nat) : ((⟨n, true⟩ : IntFormat).top : Int) = 2 ^ (n - 1) - 1 := by
  have hpos : 1 ≤ 2 ^ (n - 1) := Nat.one_le_two_pow
  simp [IntFormat.top, Nat.cast_sub hpos]

/-- The smallest value of a signed format, as the bound of two's complement. -/
theorem IntFormat.bottom_signed (n : Nat) : (⟨n, true⟩ : IntFormat).bottom = -2 ^ (n - 1) := rfl

/-- R48: the value of an element of a signed format lies between the format's bounds. -/
theorem IntFormat.exists_decode_signed_mem_range (n w : Nat) :
    ∃ v, (⟨n, true⟩ : IntFormat).bottom ≤ v ∧ v ≤ (⟨n, true⟩ : IntFormat).top ∧ (⟨n, true⟩ : IntFormat).decode w = ofSigned v 0 := by
  refine ⟨(BitVec.ofNat n w).toInt, ?_, ?_, decode_signed n w⟩
  · rw [bottom_signed]
    exact BitVec.le_toInt _
  · rw [top_signed]
    exact Int.le_sub_one_of_lt (BitVec.toInt_lt)

/-- R48: every value between a signed format's bounds is that of an encoding of the format's width. -/
theorem IntFormat.exists_encoding_of_mem_range {n : Nat} (hn : 0 < n) (v : Int) (hlo : (⟨n, true⟩ : IntFormat).bottom ≤ v)
    (hhi : v ≤ (⟨n, true⟩ : IntFormat).top) : ∃ w, w < 2 ^ n ∧ (⟨n, true⟩ : IntFormat).decode w = ofSigned v 0 := by
  rw [bottom_signed] at hlo
  rw [top_signed] at hhi
  refine ⟨(BitVec.ofInt n v).toNat, (BitVec.ofInt n v).isLt, ?_⟩
  rw [decode_signed, BitVec.ofNat_toNat, BitVec.setWidth_eq, BitVec.toInt_ofInt_eq_self hn hlo (Int.lt_of_le_sub_one hhi)]

/-- R5: the byte at the lowest key is the least significant of a number in memory. -/
theorem Memory.readLE_succ (m : Memory) (a n : Nat) : m.readLE a (n + 1) = (m.read a).toNat + 256 * m.readLE (a + 1) n := rfl

/-- Settles O52: each conversion code names an integer format of its width and sign, whose elements have the value R48 gives them; the W
ranges are the bounds of the signed formats of 3, 4 and 6 bits. -/
theorem integerFormatsAreTwosComplementOrUnsigned : Obligations.IntegerFormatsAreTwosComplementOrUnsigned := by
  unfold Obligations.IntegerFormatsAreTwosComplementOrUnsigned
  intro signed unsigned range
  have hsigned : ∀ k n, convFormat k = some (.int ⟨n, true⟩) → signed k n :=
    fun k n hk => ⟨_, hk, rfl, IntFormat.decode_signed n⟩
  have hunsigned : ∀ k n, convFormat k = some (.int ⟨n, false⟩) → unsigned k n :=
    fun k n hk => ⟨_, hk, rfl, IntFormat.decode_unsigned n⟩
  have hrange : ∀ k n, 0 < n → convFormat k = some (.int ⟨n, true⟩) → range k (⟨n, true⟩ : IntFormat).bottom (⟨n, true⟩ : IntFormat).top :=
    fun k n hn hk => ⟨_, hk, IntFormat.exists_decode_signed_mem_range n, IntFormat.exists_encoding_of_mem_range hn⟩
  exact ⟨hsigned 5 8 rfl, hsigned 7 16 rfl, hsigned 9 32 rfl, hunsigned 6 8 rfl, hunsigned 8 16 rfl, hunsigned 10 32 rfl,
    hsigned 11 3 rfl, hsigned 12 4 rfl, hsigned 13 6 rfl,
    hrange 11 3 (by decide) rfl, hrange 12 4 (by decide) rfl, hrange 13 6 (by decide) rfl, Memory.readLE_succ⟩

end Sys2Proof.Machine
end

section
/-!
Traps at an instruction (spec/16, R360): whatever route a trap takes, the execution that it stops stands no longer.
-/
namespace Sys2Proof.Machine

/-- A group stands in its core: what leaves the cores alone leaves every group alone. -/
theorem State.group_of_cores {s t : State} (h : t.cores = s.cores) (g : GRef) : t.group? g = s.group? g := by
  simp only [State.group?, State.team?, State.core, h]

theorem State.execAt_of_group {s : State} {g : GRef} {y : Group} (h : s.group? g = some y) : s.execAt g = y.exec := by
  simp [State.execAt, h]

/-- A change of a group that is there, seen in its execution. -/
theorem State.execAt_modGroup {s : State} {g : GRef} {y : Group} (f : Group → Group) (h : s.group? g = some y) :
    (s.modGroup g f).execAt g = (f y).exec :=
  State.execAt_of_group (State.modGroup_group_same s g f y h)

@[simp] theorem State.postEvent_cores (s : State) (typ ctx : Nat) (b : List Byte) : (s.postEvent typ ctx b).cores = s.cores := by
  unfold State.postEvent
  dsimp only
  split <;> rfl

@[simp] theorem State.stopContext_cores (s : State) (ctx : Nat) (g : GRef) (tr : Trap) (t : TRef) (off : Nat) :
    (s.stopContext ctx g tr t off).cores = s.cores := by
  simp [State.stopContext]

/-- Stopping a context leaves the executions as they are: its teams are pre-empted by a later step (R360). -/
theorem State.stopContext_execAt (s : State) (ctx : Nat) (g h : GRef) (tr : Trap) (t : TRef) (off : Nat) :
    (s.stopContext ctx g tr t off).execAt h = s.execAt h := by
  rw [State.execAt, State.execAt, State.group_of_cores (State.stopContext_cores s ctx g tr t off)]

/-- Poison of frozen results is no part of a group. -/
theorem State.freezeTrs_group (s : State) (g h : GRef) (fr : Option Exec) : (s.freezeTrs g fr).group? h = s.group? h := by
  unfold State.freezeTrs State.modTrs
  split <;> rfl

/-- The clock is no part of a team. -/
theorem State.clockTo_team (s : State) (core now c n : Nat) : (s.clockTo core now).team? c n = s.team? c n :=
  State.team_modCore s c n core _ (fun _ => rfl)

/-- The clock is no part of a group. -/
theorem State.clockTo_group (s : State) (core now : Nat) (g : GRef) : (s.clockTo core now).group? g = s.group? g :=
  State.group_modCore s g core _ (fun _ => rfl)

/-- A trap that is routed leaves its group without an execution: in handler mode, at a breakpoint, where the context stops, and where the
handler starts. -/
theorem State.routeTrap_execAt {s : State} {g : GRef} {tm : Team} {y : Group} {x : Exec} (ht : s.team? g.core g.slot = some tm)
    (hg : s.group? g = some y) (hx : y.exec = some x) (tr : Trap) (t : TRef) (off : Nat) (lanes : List Nat) (fr : Option Exec) :
    (s.routeTrap g tr t off lanes fr).execAt g = none := by
  have hdrop := State.dropExec_group s g y hg x hx
  have hfreeze : (s.freezeTrs g fr).group? g = some y := (State.freezeTrs_group s g g fr).trans hg
  unfold State.routeTrap
  rw [ht, hg]
  dsimp only
  split
  · rw [State.stopContext_execAt, State.execAt, State.group_of_cores (State.raisePlien_cores _ _ _)]
    exact State.execAt_modGroup _ hdrop
  · split
    · exact State.execAt_modGroup _ hfreeze
    · split
      · rw [State.stopContext_execAt]
        exact State.execAt_modGroup _ hdrop
      · split
        · exact State.execAt_modGroup _ hdrop
        · exact State.execAt_modGroup _ hfreeze

/-- A trap taken at an instruction leaves its group without an execution. -/
theorem State.takeTrap_execAt {s : State} {g : GRef} {tm : Team} {y : Group} {x : Exec} (ht : s.team? g.core g.slot = some tm)
    (hg : s.group? g = some y) (hx : y.exec = some x) (tr : Trap) (off : Nat) (skip restart : Bool) :
    (s.takeTrap g tr off skip restart).execAt g = none := by
  unfold State.takeTrap
  rw [ht, hg]
  dsimp only
  rw [hx]
  exact State.routeTrap_execAt ((State.writeTrapTile_team s g g 0 _).trans ht) ((State.writeTrapTile_group s g g 0 _).trans hg) hx tr _ off _ _

/-- The encoding causes of every decoder lie below 64 (R459, R460). -/
theorem encCause_lt_64 (e : Enc) {k : Nat} (hk : k < 16) : encCause e k < 64 := by
  cases e <;> simp only [encCause, decoderNo] <;> omega

/-- Where an instruction is ready and its meaning traps, its execution does not go on (R360); of a group whose shadow is behind, it stands
where it stood (R409). -/
theorem issueOn_trap_stays {op : Nat} {f : Fields} {s : State} {i : Iss} (body : Body) {tr : Trap} (h : readyAt op f s = some i)
    (hb : body i (capture i).words = .error tr) (hc : tr.cause < 256) :
    ∃ t, issueOn op f body s = .next t ∧ ∀ x, t.execAt i.g = some x → x = i.x := by
  obtain ⟨hs, hk, -, he, -, -, -, -, p, hp⟩ := readyAt_some h
  obtain ⟨-, ht, hg, hx⟩ := standing_some hs
  have ht' : i.s.team? i.g.core i.g.slot = some i.tm := by rw [hp]; exact ht
  have hg' : i.s.group? i.g = some i.grp := by rw [hp]; exact hg
  cases hbehind : i.grp.shadowBehind i.x.off with
  | true =>
    refine ⟨i.s, by simp [issueOn, hs, hk, issueBody, handBackFor, firstSome, he, served_self, hb, hbehind], fun x hx' => ?_⟩
    rw [State.execAt_of_group hg', hx] at hx'
    exact (Option.some.inj hx').symm
  | false =>
    refine ⟨_, issueOn_trap body h hbehind hb, fun x hx' => ?_⟩
    rw [State.stopAt, if_neg (by omega), State.leave_nil _ _ _ _ hg',
      State.takeTrap_execAt ((State.clockTo_team _ _ _ _ _).trans ht') ((State.clockTo_group _ _ _ _).trans hg') hx] at hx'
    cases hx'

end Sys2Proof.Machine
end

section
/-!
What an instruction at issue leaves of its team, its group and the contexts (R145): what `IssueFrame` says of them, and the group whole.
-/
namespace Sys2Proof.Machine

/-- What an instruction leaves alone at issue holds its team but for its groups. -/
theorem IssueFrame.team_kept {s t : State} {i : Iss} {lanes : Bool} (h : IssueFrame s t i lanes) (ht : s.team? i.g.core i.g.slot = some i.tm) :
    ∃ tm' : Team, t.team? i.g.core i.g.slot = some tm' ∧ { tm' with groups := i.tm.groups } = i.tm := by
  obtain ⟨tm, tm', hs, hn, hkept, -⟩ := h.team
  obtain rfl : tm = i.tm := Option.some.inj (hs.symm.trans ht)
  exact ⟨tm', hn, hkept⟩

/-- An execution with a lane left goes on where no lane leaves it. -/
theorem State.leave_nil_closeIfEmpty_group {s : State} {g : GRef} {y : Group} {x : Exec} (h : s.group? g = some y) (hx : y.exec = some x)
    (hn : x.here ≠ []) (now : Nat) : ((s.leave g now []).closeIfEmpty g).group? g = some y := by
  rw [State.leave_nil s g now y h]
  simp [State.closeIfEmpty, h, hx, hn]

/-- A change of a group under a change of its core that keeps the core's teams. -/
theorem State.modGroup_modCore_group {s : State} {g : GRef} {y : Group} (F : Group → Group) (k : Core → Core) (h : s.group? g = some y)
    (hk : ∀ c, (k c).teams = c.teams) : ((s.modGroup g F).modCore g.core k).group? g = some (F y) :=
  (State.group_modCore _ g g.core k hk).trans (State.modGroup_group_same s g F y h)

/-- The group of an instruction that has issued: its execution goes on, and it returns to its base class where it begins a run (R249). -/
def Group.issued (grp : Group) (i : Iss) (x : Exec) : Group := { grp with exec := some x, waited := if i.x.run = 0 then 0 else grp.waited }

/-- The core of an instruction that has issued: its clock, and of a shadowed group's load the load-value queue (R407). -/
def Core.issued (k : Core) (i : Iss) (res : Res) : Core :=
  { k with cycles := i.now, ldq := if i.grp.shadow && loadsValue i.op then k.ldq ++ [⟨i.g, res.writes, res.effs⟩] else k.ldq }

theorem applyIssue_eq (i : Iss) (c : Captured) (word : DWord) (res : Res) :
    applyIssue i c word res
      = (((i.s.modGroup i.g (fun y => y.issued i (afterIssue i c word res))).modCore i.g.core (fun k => k.issued i res)).leave i.g i.now
          (emptyLeave i c ++ res.leave)).closeIfEmpty i.g := rfl

/-- Where no lane leaves, applying a result changes the instruction's group in its execution and the priority gained by waiting alone:
no lane and no control state of it. -/
theorem applyIssue_group {op : Nat} {f : Fields} {s : State} {i : Iss} (h : readyAt op f s = some i) (word : DWord) (res : Res)
    (hl : res.leave = []) : (applyIssue i (capture i) word res).group? i.g = some (i.grp.issued i (afterIssue i (capture i) word res)) := by
  obtain ⟨hs, -, -, he, hhere, hne, -, -, p, hp⟩ := readyAt_some h
  obtain ⟨-, -, hg, -⟩ := standing_some hs
  have hg' : i.s.group? i.g = some i.grp := by rw [hp]; exact hg
  have hstay : emptyLeave i (capture i) ++ res.leave = [] := by simp [emptyLeave, he, hl]
  have hissued := State.modGroup_modCore_group (fun y => y.issued i (afterIssue i (capture i) word res)) (fun k => k.issued i res) hg' (fun _ => rfl)
  rw [applyIssue_eq, hstay]
  exact State.leave_nil_closeIfEmpty_group hissued rfl (hhere ▸ hne) i.now

theorem IssueFrame.ctxs {s t : State} {i : Iss} {lanes : Bool} (h : IssueFrame s t i lanes) : t.ctxs = s.ctxs :=
  (congrArg State.ctxs h.machine :)

end Sys2Proof.Machine
end

section
/-!
The integer and lane instructions keep no flags (spec/09, R178). What the meaning of each may leave is said once (`Body.ResultsOnly`), and an
instruction whose meaning leaves no more keeps the team and the control state of its group (`keepsNoFlags_of`). Every meaning but those of
UMOV and MOVX does nothing but deliver values (`Body.Delivers`).
-/
namespace Sys2Proof.Machine

/-- A result that leaves nothing but values at the places that the destination names, or at the register that UMOV's immediate does, and an
item in the channel that the destination names. -/
structure Res.OnlyAtDst (r : Res) (i : Iss) : Prop where
  stay : r.leave = []
  writes : ∀ w ∈ r.writes, w.1.reg ∈ i.o.dst.regs ∨ i.op = 0x88
  effs : ∀ e ∈ r.effs, ∃ q items b, e = .put q items ∧ i.o.dst = .chan q b

/-- A meaning of an opcode that gives such a result or else traps, with a cause that is no consumption of an error. -/
def Body.ResultsOnly (op : Nat) (body : Body) : Prop :=
  ∀ i ws, i.op = op → match body i ws with
    | .ok r => r.OnlyAtDst i
    | .error t => t.cause < 256

/-- What R178 asks of an instruction: where it has issued, its team and its group's control state are as before, and it leaves nothing but
results at its destination, an item in its destination's channel and the pops of its sources. -/
def KeepsNoFlags (ins : Instr) : Prop := ∀ op f s i t x, wordOf ins = some (op, f) → readyAt op.toNat f s = some i → exec ins s = .next t →
  t.execAt i.g = some x → x.off = i.x.off + 1 →
  (∃ tm' : Team, t.team? i.g.core i.g.slot = some tm' ∧ { tm' with groups := i.tm.groups } = i.tm)
  ∧ (∃ y : Group, t.group? i.g = some y ∧ { y with exec := i.grp.exec, waited := i.grp.waited } = i.grp) ∧ t.ctxs = s.ctxs
  ∧ ∃ n effs, x.issued = n :: i.x.issued ∧ x.buf = i.x.buf ++ ((capture i).pops ++ effs).map (fun e => ⟨i.x.off, e⟩)
    ∧ (∀ w ∈ n.writes, w.1.reg ∈ i.o.dst.regs ∨ i.op = 0x88) ∧ (∀ e ∈ effs, ∃ q items b, e = .put q items ∧ i.o.dst = .chan q b)

/-- An instruction whose meaning leaves results alone keeps no flags: where the meaning gives a result, applying it is all that issue does;
where it traps, the execution has not gone on. -/
theorem keepsNoFlags_of {ins : Instr} {op : BitVec 8} {f : Fields} {body : Body} (hw : wordOf ins = some (op, f))
    (he : ∀ s, exec ins s = issueOn op.toNat f body s) (hb : body.ResultsOnly op.toNat) : KeepsNoFlags ins := by
  intro op' f' s i t x hw' hr hn hx hoff
  obtain ⟨rfl, rfl⟩ : op = op' ∧ f = f' := by simpa [hw] using hw'
  rw [he] at hn
  obtain ⟨hs, -, hgoes, -, -, -, hop, -⟩ := readyAt_some hr
  obtain ⟨-, hteam, -, -⟩ := standing_some hs
  have hbody := hb i (capture i).words hop
  cases hres : body i (capture i).words with
  | error tr =>
    rw [hres] at hbody
    obtain ⟨u, hu, hstay⟩ := issueOn_trap_stays body hr hres hbody
    obtain rfl : u = t := by simpa [hu] using hn
    rw [hstay x hx] at hoff
    omega
  | ok r =>
    rw [hres] at hbody
    rw [issueOn_ready body hr hres (stalls_stay hgoes r hbody.stay)] at hn
    obtain rfl := Host.Outcome.next.inj hn
    obtain ⟨x', hx', hissued, hframe⟩ := applyIssue_took hr r hbody.stay
    obtain rfl : x' = x := Option.some.inj (hx'.symm.trans hx)
    obtain ⟨n, hwindow, -, -, -, -, hwrites⟩ := hissued.window
    exact ⟨hframe.team_kept hteam, ⟨_, applyIssue_group hr _ r hbody.stay, rfl⟩, hframe.ctxs, n, r.effs, hwindow, hissued.buffer,
      hwrites ▸ hbody.writes, hbody.effs⟩

@[simp] theorem placeOf_reg (lane : Nat) (r : Reg) : (placeOf lane r).reg = r := by
  cases r <;> rfl

/-- Delivering values leaves them at the destination, whichever kind of operand it is (R119, R305). -/
theorem deliver_onlyAtDst (i : Iss) (vals : List (Nat × List Word)) : (deliver i vals).OnlyAtDst i := by
  refine ⟨deliver_leave i vals, ?_, ?_⟩ <;> unfold deliver
  · cases i.o.dst with
    | reg r =>
      intro w hw
      obtain ⟨p, -, rfl⟩ := List.mem_map.mp hw
      simp [Operand.regs]
    | pair a b =>
      intro w hw
      obtain ⟨p, -, hp⟩ := List.mem_flatMap.mp hw
      simp only [List.mem_cons, List.not_mem_nil, or_false] at hp
      rcases hp with rfl | rfl <;> simp [Operand.regs]
    | _ => simp
  · cases i.o.dst with
    | chan q b =>
      intro e he
      exact ⟨q, _, b, List.mem_singleton.mp he, rfl⟩
    | _ => simp

/-- Which lane consumed from which (R195), and the cycles that it took, are no record beyond the result. -/
theorem Res.OnlyAtDst.with_uses_extra {r : Res} {i : Iss} (h : r.OnlyAtDst i) (uses : List (Nat × Nat)) (extra : Nat) :
    ({ r with uses := uses, extra := extra } : Res).OnlyAtDst i :=
  ⟨h.stay, h.writes, h.effs⟩

/-- A meaning that traps nowhere and delivers values to the destination, whatever lane they come from and whatever time it takes. -/
def Body.Delivers (body : Body) : Prop :=
  ∀ i ws, ∃ vals uses extra, body i ws = .ok { deliver i vals with uses := uses, extra := extra }

theorem Body.Delivers.resultsOnly {body : Body} (h : body.Delivers) (op : Nat) : body.ResultsOnly op := by
  intro i ws _
  obtain ⟨vals, uses, extra, hres⟩ := h i ws
  rw [hres]
  exact (deliver_onlyAtDst i vals).with_uses_extra uses extra

/-- UMOV names its destination in its immediate and not in DST (R192). -/
theorem bodyUmov_resultsOnly : Body.ResultsOnly 0x88 bodyUmov :=
  fun _ _ hop => ⟨rfl, fun _ _ => .inr hop, by simp⟩

/-- MOVX delivers what its lanes name, or traps with REG_ALLOT (R190). -/
theorem bodyMovx_resultsOnly (op : Nat) : Body.ResultsOnly op bodyMovx := by
  intro i ws _
  unfold bodyMovx
  dsimp only
  split
  case h_1 r hr =>
    split at hr
    · cases hr
    · cases hr
      exact (deliver_onlyAtDst i _).with_uses_extra _ _
  case h_2 t ht =>
    split at ht
    · cases ht
      exact (encCause_lt_64 i.f.enc (by decide)).trans (by decide)
    · cases ht

/-- An instruction whose meaning delivers values keeps no flags. -/
theorem keepsNoFlags_of_delivers {ins : Instr} {op : BitVec 8} {f : Fields} (body : Body) (hw : wordOf ins = some (op, f))
    (he : ∀ s, exec ins s = issueOn op.toNat f body s := by exact fun _ => rfl)
    (hd : body.Delivers := by exact fun _ _ => ⟨_, _, _, rfl⟩) : KeepsNoFlags ins :=
  keepsNoFlags_of hw he (hd.resultsOnly _)

/-- ICMP is two opcodes, one for each reading of its operands (R187). -/
theorem icmp_keepsNoFlags (n32 : Bool) (f : Fields) : KeepsNoFlags (.icmp n32 f) := by
  cases n32 with
  | false => exact keepsNoFlags_of_delivers bodyIcmp rfl
  | true => exact keepsNoFlags_of_delivers bodyIcmp rfl

/-- The opcode of an L9 base word of ICMP has the type in its low bit. -/
theorem icmpL9_opcode (z : BitVec 1) : (0x17#7 ++ z).toNat = if z == 1#1 then 0x2F else 0x2E := by
  decide +revert

theorem icmpL9_keepsNoFlags (z : BitVec 1) (c : BitVec 3) (d a b : BitVec 6) (r : BitVec 1) : KeepsNoFlags (.icmpL9 z c d a b r) := by
  refine keepsNoFlags_of_delivers bodyIcmp rfl (fun s => ?_)
  rw [icmpL9_opcode]
  rfl

/-- Settles O50: each meaning delivers its values and does nothing else; UMOV's writes the register that its immediate names; MOVX's may trap
instead, and then the execution has not gone on. -/
theorem integerAndLaneInstructionsKeepNoFlags : Obligations.IntegerAndLaneInstructionsKeepNoFlags := by
  unfold Obligations.IntegerAndLaneInstructionsKeepNoFlags
  exact ⟨
    -- integer arithmetic (R180)
    fun _ => keepsNoFlags_of_delivers bodyAdd rfl, fun _ _ _ _ _ => keepsNoFlags_of_delivers bodyAdd rfl,
    fun _ => keepsNoFlags_of_delivers bodySub rfl, fun _ _ _ _ _ => keepsNoFlags_of_delivers bodySub rfl,
    fun _ => keepsNoFlags_of_delivers bodyMullo rfl, fun _ _ _ _ => keepsNoFlags_of_delivers bodyMullo rfl,
    fun _ => keepsNoFlags_of_delivers bodyMulhi rfl, fun _ _ _ _ _ => keepsNoFlags_of_delivers bodyMulhi rfl,
    fun _ => keepsNoFlags_of_delivers bodyMad rfl,
    fun _ => keepsNoFlags_of_delivers bodyMin rfl, fun _ _ _ _ _ => keepsNoFlags_of_delivers bodyMin rfl,
    fun _ => keepsNoFlags_of_delivers bodyMax rfl, fun _ _ _ _ _ => keepsNoFlags_of_delivers bodyMax rfl,
    fun _ => keepsNoFlags_of_delivers bodyAbs rfl, fun _ _ _ => keepsNoFlags_of_delivers bodyAbs rfl,
    fun _ => keepsNoFlags_of_delivers bodyNeg rfl, fun _ _ _ _ => keepsNoFlags_of_delivers bodyNeg rfl,
    -- addresses (R182)
    fun _ => keepsNoFlags_of_delivers bodyAadd rfl, fun _ _ _ _ => keepsNoFlags_of_delivers bodyAadd rfl,
    fun _ => keepsNoFlags_of_delivers bodyAmad rfl,
    -- bitwise, shifts and bit fields (R185)
    fun _ => keepsNoFlags_of_delivers bodyAnd rfl, fun _ _ _ _ => keepsNoFlags_of_delivers bodyAnd rfl,
    fun _ => keepsNoFlags_of_delivers bodyOr rfl, fun _ _ _ _ => keepsNoFlags_of_delivers bodyOr rfl,
    fun _ => keepsNoFlags_of_delivers bodyXor rfl, fun _ _ _ _ => keepsNoFlags_of_delivers bodyXor rfl,
    fun _ => keepsNoFlags_of_delivers bodyAndn rfl, fun _ _ _ _ => keepsNoFlags_of_delivers bodyAndn rfl,
    fun _ => keepsNoFlags_of_delivers bodyNot rfl, fun _ _ _ => keepsNoFlags_of_delivers bodyNot rfl,
    fun _ => keepsNoFlags_of_delivers bodyShl rfl, fun _ _ _ _ => keepsNoFlags_of_delivers bodyShl rfl,
    fun _ => keepsNoFlags_of_delivers bodyShr rfl, fun _ _ _ _ _ => keepsNoFlags_of_delivers bodyShr rfl,
    fun _ => keepsNoFlags_of_delivers bodyRot rfl, fun _ _ _ _ => keepsNoFlags_of_delivers bodyRot rfl,
    fun _ => keepsNoFlags_of_delivers bodyBfx rfl, fun _ _ _ _ _ => keepsNoFlags_of_delivers bodyBfx rfl,
    fun _ => keepsNoFlags_of_delivers bodyBfi rfl,
    fun _ => keepsNoFlags_of_delivers bodyPopc rfl, fun _ _ _ => keepsNoFlags_of_delivers bodyPopc rfl,
    fun _ => keepsNoFlags_of_delivers bodyClz rfl, fun _ _ _ => keepsNoFlags_of_delivers bodyClz rfl,
    fun _ => keepsNoFlags_of_delivers bodyCtz rfl, fun _ _ _ => keepsNoFlags_of_delivers bodyCtz rfl,
    fun _ => keepsNoFlags_of_delivers bodyBrev rfl, fun _ _ _ => keepsNoFlags_of_delivers bodyBrev rfl,
    -- selects, moves and register reads (R188 to R192)
    fun _ => keepsNoFlags_of_delivers bodySel rfl,
    fun _ => keepsNoFlags_of_delivers bodyMov rfl, fun _ _ _ => keepsNoFlags_of_delivers bodyMov rfl,
    fun _ => keepsNoFlags_of_delivers bodyMovi rfl,
    fun _ => keepsNoFlags_of_delivers bodyMovh rfl,
    fun _ => keepsNoFlags_of rfl (fun _ => rfl) (bodyMovx_resultsOnly _), fun _ _ _ => keepsNoFlags_of rfl (fun _ => rfl) (bodyMovx_resultsOnly _),
    fun _ => keepsNoFlags_of_delivers bodySreg rfl,
    fun _ => keepsNoFlags_of rfl (fun _ => rfl) bodyUmov_resultsOnly,
    -- predicates (R193)
    fun _ => keepsNoFlags_of_delivers bodyPand rfl, fun _ _ _ _ => keepsNoFlags_of_delivers bodyPand rfl,
    fun _ => keepsNoFlags_of_delivers bodyPor rfl, fun _ _ _ _ => keepsNoFlags_of_delivers bodyPor rfl,
    fun _ => keepsNoFlags_of_delivers bodyPxor rfl, fun _ _ _ _ => keepsNoFlags_of_delivers bodyPxor rfl,
    fun _ => keepsNoFlags_of_delivers bodyPnot rfl, fun _ _ _ => keepsNoFlags_of_delivers bodyPnot rfl,
    -- cross-lane (R196 to R199)
    fun _ => keepsNoFlags_of_delivers bodyVote rfl, fun _ _ _ _ => keepsNoFlags_of_delivers bodyVote rfl,
    fun _ => keepsNoFlags_of_delivers bodyElect rfl, fun _ _ => keepsNoFlags_of_delivers bodyElect rfl,
    fun _ => keepsNoFlags_of_delivers bodyReadlane rfl, fun _ _ _ _ => keepsNoFlags_of_delivers bodyReadlane rfl,
    fun _ => keepsNoFlags_of_delivers bodyShfl rfl, fun _ _ _ _ _ => keepsNoFlags_of_delivers bodyShfl rfl,
    -- compares (R187)
    icmp_keepsNoFlags,
    icmpL9_keepsNoFlags⟩

end Sys2Proof.Machine
end

section
/-!
Finite values as real numbers (spec/03, R45): the sign, the order, and one ulp (spec/10, R208).
-/
namespace Sys2Proof.Machine

/-- A sign as a factor. -/
def signFactor (neg : Bool) : ℝ := if neg then -1 else 1

@[simp] theorem abs_signFactor (neg : Bool) : |signFactor neg| = 1 := by
  cases neg <;> simp [signFactor]

/-- A finite value. -/
def Val.Finite (v : Val) : Prop := ∃ n m e, v = .fin n m e

theorem Val.finite_fin (n : Bool) (m : ℕ) (e : ℤ) : (Val.fin n m e).Finite := ⟨n, m, e, rfl⟩

theorem ofSigned_finite (v e : ℤ) : (ofSigned v e).Finite := Val.finite_fin _ _ e

/-- The real number of a finite value, and 0 of what is none. -/
noncomputable def Val.toReal : Val → ℝ
  | .fin n m e => signFactor n * (m : ℝ) * (2 : ℝ) ^ e
  | _ => 0

@[simp] theorem Val.toReal_fin (n : Bool) (m : ℕ) (e : ℤ) : (Val.fin n m e).toReal = signFactor n * m * (2 : ℝ) ^ e := rfl

theorem Val.abs_toReal_fin (n : Bool) (m : ℕ) (e : ℤ) : |(Val.fin n m e).toReal| = m * (2 : ℝ) ^ e := by
  rw [Val.toReal_fin, abs_mul, abs_mul, abs_signFactor, one_mul, Nat.abs_cast, abs_of_pos (zpow_pos two_pos e)]

/-- A natural power of two, of an exponent that is no less than another, as a quotient. -/
theorem two_pow_toNat_sub {e u : ℤ} (h : u ≤ e) : ((2 ^ (e - u).toNat : ℕ) : ℝ) = (2 : ℝ) ^ (e - u) := by
  rw [Nat.cast_pow, Nat.cast_ofNat, ← zpow_natCast, Int.toNat_of_nonneg (by omega)]

/-- The signed numerator at an exponent is the value in units of that power of two. -/
theorem signedAt_mul_zpow (n : Bool) (m : ℕ) {e e0 : ℤ} (h : e0 ≤ e) :
    (signedAt n m e e0 : ℝ) * (2 : ℝ) ^ e0 = (Val.fin n m e).toReal := by
  have hsplit : (2 : ℝ) ^ e = (2 : ℝ) ^ (e - e0) * (2 : ℝ) ^ e0 := by rw [← zpow_add₀ two_ne_zero, sub_add_cancel]
  rw [Val.toReal_fin, hsplit, ← two_pow_toNat_sub h]
  cases n <;> simp [signedAt, signFactor, mul_assoc]

@[simp] theorem toReal_ofSigned (v e : ℤ) : (ofSigned v e).toReal = v * (2 : ℝ) ^ e := by
  have hv : signFactor (decide (v < 0)) * (v.natAbs : ℝ) = v := by
    rw [Nat.cast_natAbs, Int.cast_abs]
    rcases lt_or_ge v 0 with h | h
    · simp [signFactor, h, abs_of_neg (Int.cast_lt_zero.mpr h)]
    · simp [signFactor, not_lt.mpr h, abs_of_nonneg (Int.cast_nonneg h)]
  rw [ofSigned, Val.toReal_fin, hv]

/-- The order of finite values is that of the real numbers (R207). -/
theorem Val.fin_lt_fin_iff (a b : Bool) (m n : ℕ) (e f : ℤ) :
    (Val.fin a m e).lt (Val.fin b n f) = true ↔ (Val.fin a m e).toReal < (Val.fin b n f).toReal := by
  rw [← signedAt_mul_zpow a m (min_le_left e f), ← signedAt_mul_zpow b n (min_le_right e f),
    mul_lt_mul_iff_left₀ (zpow_pos two_pos _), Int.cast_lt]
  simp [Val.lt]

/-- One ulp of an exact value (R208). -/
noncomputable def ulpAt (y : ℝ) : ℝ :=
  if |y| < (2 : ℝ) ^ (-126 : ℤ) then (2 : ℝ) ^ (-149 : ℤ) else (2 : ℝ) ^ (Int.log 2 |y| - 23)

theorem ulpAt_of_abs_eq {x y : ℝ} (h : |x| = |y|) : ulpAt x = ulpAt y := by
  rw [ulpAt, ulpAt, h]

/-- A number between two powers of two has the ulp that the lower one names, but no less than 2^-149. -/
theorem ulpAt_of_mem {y : ℝ} {k : ℤ} (hlo : (2 : ℝ) ^ k ≤ |y|) (hhi : |y| < (2 : ℝ) ^ (k + 1)) : ulpAt y = (2 : ℝ) ^ (max (-149) (k - 23)) := by
  have hpos : 0 < |y| := (zpow_pos two_pos k).trans_le hlo
  have hlog : Int.log 2 |y| = k := by
    have h1 := (Int.zpow_le_iff_le_log one_lt_two hpos).mp (by exact_mod_cast hlo)
    have h2 := (Int.lt_zpow_iff_log_lt one_lt_two hpos).mp (by exact_mod_cast hhi)
    omega
  unfold ulpAt
  split
  case isTrue hsmall =>
    have hk : k < -126 := (zpow_lt_zpow_iff_right₀ one_lt_two).mp (hlo.trans_lt hsmall)
    rw [max_eq_left (by omega)]
  case isFalse hlarge =>
    have hk : -126 < k + 1 := (zpow_lt_zpow_iff_right₀ one_lt_two).mp ((not_lt.mp hlarge).trans_lt hhi)
    rw [hlog, max_eq_right (by omega)]

@[simp] theorem ulpAt_zero : ulpAt 0 = (2 : ℝ) ^ (-149 : ℤ) := by
  rw [ulpAt, abs_zero, if_pos (zpow_pos two_pos _)]

/-- An ulp is no less than the least subnormal. -/
theorem zpow_le_ulpAt (y : ℝ) : (2 : ℝ) ^ (-149 : ℤ) ≤ ulpAt y := by
  unfold ulpAt
  split
  case isTrue => exact le_rfl
  case isFalse hlarge =>
    have hlog := (Int.zpow_le_iff_le_log one_lt_two ((zpow_pos two_pos _).trans_le (not_lt.mp hlarge))).mp (by exact_mod_cast not_lt.mp hlarge)
    exact zpow_le_zpow_right₀ one_le_two (by omega)

theorem ulpAt_pos (y : ℝ) : 0 < ulpAt y := (zpow_pos two_pos _).trans_le (zpow_le_ulpAt y)

/-- The ulp of a number grows with its magnitude. -/
theorem ulpAt_mono {x y : ℝ} (h : |x| ≤ |y|) : ulpAt x ≤ ulpAt y := by
  rcases lt_or_ge |x| ((2 : ℝ) ^ (-126 : ℤ)) with hsmall | hlarge
  · rw [ulpAt, if_pos hsmall]
    exact zpow_le_ulpAt y
  · have hpos : 0 < |x| := (zpow_pos two_pos _).trans_le hlarge
    rw [ulpAt, ulpAt, if_neg (not_lt.mpr hlarge), if_neg (not_lt.mpr (hlarge.trans h))]
    exact zpow_le_zpow_right₀ one_le_two (sub_le_sub_right (Int.log_mono_right hpos h) 23)

/-- A number has no more than 2^24 of its ulps. -/
theorem abs_le_ulpAt (y : ℝ) : |y| ≤ 2 ^ 24 * ulpAt y := by
  unfold ulpAt
  split
  case isTrue hsmall => exact hsmall.le.trans (by norm_num)
  case isFalse =>
    have hlt : |y| < (2 : ℝ) ^ (Int.log 2 |y| + 1) := by exact_mod_cast Int.lt_zpow_succ_log_self one_lt_two |y|
    refine hlt.le.trans (le_of_eq ?_)
    rw [show Int.log 2 |y| + 1 = 24 + (Int.log 2 |y| - 23) by ring, zpow_add₀ two_ne_zero]
    norm_num

end Sys2Proof.Machine
end

section
/-!
Numerators that stand for real numbers. A value with more bits than a significand keeps may carry a sticky bit in place of all
that follow it: it rounds as the number it stands for.
-/
namespace Sys2Proof.Machine

/-- A numerator that stands for a real number where 24 bits are kept: it is the number, or it has bits to spare, its last bit is
set, and the number lies strictly between its even neighbours. -/
def StandsFor (m : ℕ) (s : ℝ) : Prop := (m : ℝ) = s ∨ (2 ^ 25 ≤ m ∧ m % 2 = 1 ∧ |s - m| < 1)

theorem StandsFor.refl (m : ℕ) : StandsFor m m := .inl rfl

/-- A quotient with a sticky bit stands for the number of which it is the integer part, doubled. -/
theorem standsFor_sticky {q : ℕ} {s : ℝ} {inexact : Bool} (hq : 2 ^ 24 ≤ q)
    (h : if inexact then (q : ℝ) < s ∧ s < q + 1 else s = q) : StandsFor (2 * q + b2n inexact) (2 * s) := by
  cases inexact with
  | false => exact .inl (by simp [b2n, show s = q from h])
  | true =>
    obtain ⟨hlo, hhi⟩ : (q : ℝ) < s ∧ s < q + 1 := h
    refine .inr ⟨by simp only [b2n, if_true]; omega, by simp only [b2n, if_true]; omega, ?_⟩
    simp only [b2n, if_true]
    push_cast
    exact abs_lt.mpr ⟨by linarith, by linarith⟩

/-- The number lies on the same side of an integer as the numerator does, where the integer is even or the numerator is exact. -/
theorem StandsFor.compare {m c : ℕ} {s : ℝ} (h : StandsFor m s) (hc : m < 2 ^ 25 ∨ c % 2 = 0) :
    ((c : ℝ) ≤ s ↔ c ≤ m) ∧ (s ≤ c ↔ m ≤ c) := by
  rcases h with rfl | ⟨hbig, hodd, hnear⟩
  · exact ⟨Nat.cast_le, Nat.cast_le⟩
  · have hne : c ≠ m := by omega
    obtain ⟨hlo, hhi⟩ := abs_lt.mp hnear
    rcases Nat.lt_or_gt_of_ne hne with hlt | hgt
    · have hstep : (c : ℝ) + 1 ≤ m := by exact_mod_cast hlt
      exact ⟨⟨fun _ => hlt.le, fun _ => by linarith⟩, ⟨fun _ => by linarith, fun _ => by omega⟩⟩
    · have hstep : (m : ℝ) + 1 ≤ c := by exact_mod_cast hgt
      exact ⟨⟨fun _ => by linarith, fun _ => by omega⟩, ⟨fun _ => hgt.le, fun _ => by linarith⟩⟩

theorem StandsFor.le_of_le {m c : ℕ} {s : ℝ} (h : StandsFor m s) (hc : m < 2 ^ 25 ∨ c % 2 = 0) (hle : m ≤ c) : s ≤ c :=
  (h.compare hc).2.mpr hle

theorem StandsFor.ge_of_le {m c : ℕ} {s : ℝ} (h : StandsFor m s) (hc : m < 2 ^ 25 ∨ c % 2 = 0) (hle : c ≤ m) : (c : ℝ) ≤ s :=
  (h.compare hc).1.mpr hle

theorem StandsFor.eq_of_lt {m : ℕ} {s : ℝ} (h : StandsFor m s) (hm : m < 2 ^ 25) : s = m := by
  rcases h with h | ⟨hbig, -⟩
  · exact h.symm
  · omega

theorem StandsFor.nonneg {m : ℕ} {s : ℝ} (h : StandsFor m s) : 0 ≤ s := by
  simpa using h.ge_of_le (c := 0) (.inr rfl) (Nat.zero_le m)

/-- A power of two is even, or the numerator is 1 and exact. -/
theorem even_two_pow_or_lt {m k : ℕ} (h : k = 0 → m < 2 ^ 25) : m < 2 ^ 25 ∨ 2 ^ k % 2 = 0 := by
  cases k with
  | zero => exact .inl (h rfl)
  | succ k => exact .inr (by omega)

/-- The number has the leading bit of its numerator. -/
theorem StandsFor.log2_le {m : ℕ} {s : ℝ} (h : StandsFor m s) (hm : m ≠ 0) : (2 : ℝ) ^ (Nat.log2 m : ℤ) ≤ s := by
  have hc : m < 2 ^ 25 ∨ 2 ^ Nat.log2 m % 2 = 0 :=
    even_two_pow_or_lt (fun h0 => ((Nat.log2_lt hm).mp (by omega : Nat.log2 m < 25)))
  have := h.ge_of_le hc (Nat.log2_self_le hm)
  exact_mod_cast this

theorem StandsFor.lt_log2 {m : ℕ} {s : ℝ} (h : StandsFor m s) : s < (2 : ℝ) ^ ((Nat.log2 m : ℤ) + 1) := by
  have hlt : ¬ 2 ^ (Nat.log2 m + 1) ≤ m := not_le.mpr Nat.lt_log2_self
  have := not_le.mp (mt ((h.compare (.inr (by omega : 2 ^ (Nat.log2 m + 1) % 2 = 0))).1.mp) hlt)
  exact_mod_cast this

theorem ulpExp_fin (n : Bool) {m : ℕ} (hm : m ≠ 0) (e : ℤ) : ulpExp (.fin n m e) = max (-149) ((Nat.log2 m : ℤ) + e - 23) := if_neg hm

/-- The exponent of an ulp of a value is that of an ulp of the number it stands for. -/
theorem StandsFor.ulpAt_eq {m : ℕ} {s : ℝ} (h : StandsFor m s) (hm : m ≠ 0) (n : Bool) (e : ℤ) :
    ulpAt (s * (2 : ℝ) ^ e) = (2 : ℝ) ^ ulpExp (.fin n m e) := by
  have habs : |s * (2 : ℝ) ^ e| = s * (2 : ℝ) ^ e := abs_of_nonneg (mul_nonneg h.nonneg (zpow_pos two_pos e).le)
  rw [ulpExp_fin n hm]
  apply ulpAt_of_mem
  · rw [habs, zpow_add₀ two_ne_zero]
    exact mul_le_mul_of_nonneg_right (h.log2_le hm) (zpow_pos two_pos e).le
  · rw [habs, add_right_comm, zpow_add₀ two_ne_zero]
    exact mul_lt_mul_of_pos_right h.lt_log2 (zpow_pos two_pos e)

/-- One ulp of a finite value as the model has it is one ulp of its number (R208). -/
theorem ulpAt_toReal (n : Bool) (m : ℕ) (e : ℤ) : ulpAt (Val.fin n m e).toReal = (2 : ℝ) ^ ulpExp (.fin n m e) := by
  by_cases hm : m = 0
  · simp [hm, ulpExp]
  · rw [← (StandsFor.refl m).ulpAt_eq hm n e]
    apply ulpAt_of_abs_eq
    rw [Val.abs_toReal_fin, abs_of_nonneg (by positivity)]

end Sys2Proof.Machine
end

section
/-!
F32 encodings (spec/03, R45) and rounding to nearest even (R57, R58): what the magnitude bits name, and how far the rounded number lies from
the one that the numerator stands for.
-/
namespace Sys2Proof.Machine

/-- The F32 encoding is that of the finite number. -/
def F32Is (w : ℕ) (x : ℝ) : Prop := (f32.decode w).Finite ∧ (f32.decode w).toReal = x

/-- The F32 encoding is that of a finite number, which lies within a distance of another. -/
def F32Near (w : ℕ) (y b : ℝ) : Prop := (f32.decode w).Finite ∧ |(f32.decode w).toReal - y| ≤ b

theorem F32Is.near {w : ℕ} {x y b : ℝ} (h : F32Is w x) (hb : |x - y| ≤ b) : F32Near w y b :=
  ⟨h.1, h.2.symm ▸ hb⟩

theorem F32Is.near_self {w : ℕ} {x : ℝ} (h : F32Is w x) : F32Near w x 0 :=
  h.near (by rw [sub_self, abs_zero])

theorem F32Near.trans {w : ℕ} {y z b c : ℝ} (h : F32Near w y b) (hz : |y - z| + b ≤ c) : F32Near w z c := by
  refine ⟨h.1, ?_⟩
  have := abs_sub_le (f32.decode w).toReal y z
  linarith [h.2]

theorem F32Near.mono {w : ℕ} {y b c : ℝ} (h : F32Near w y b) (hbc : b ≤ c) : F32Near w y c :=
  ⟨h.1, h.2.trans hbc⟩

/-- An encoding of F32, by its sign bit, exponent field and mantissa field. -/
theorem f32_decode (w : ℕ) : f32.decode w =
    if w % 2 ^ 31 ≤ 0x7F7FFFFF then
      if w % 2 ^ 31 / 2 ^ 23 = 0 then .fin (bit w 31) (w % 2 ^ 31 % 2 ^ 23) (-149)
      else .fin (bit w 31) (2 ^ 23 + w % 2 ^ 31 % 2 ^ 23) (-149 + ((w % 2 ^ 31 / 2 ^ 23 : ℕ) : ℤ) - 1)
    else if w % 2 ^ 31 = 0x7F800000 then .inf (bit w 31) else .nan := by
  simp [FloatFormat.decode, f32]

/-- An encoding is read from its low 32 bits. -/
@[simp] theorem f32_decode_mod (w : ℕ) : f32.decode (w % 2 ^ 32) = f32.decode w := by
  have hbit : bit (w % 2 ^ 32) 31 = bit w 31 := by
    rw [bit_eq_testBit, bit_eq_testBit, Nat.testBit_mod_two_pow, decide_eq_true (by decide), Bool.true_and]
  rw [f32_decode, f32_decode, hbit, Nat.mod_mod_of_dvd w (pow_dvd_pow 2 (by decide : 31 ≤ 32))]

@[simp] theorem f32_decode_toNat_ofNat (r : ℕ) : f32.decode (BitVec.ofNat 32 r).toNat = f32.decode r := by
  rw [BitVec.toNat_ofNat, f32_decode_mod]

/-- The fields of a finite encoding. -/
theorem f32_decode_fin {w : ℕ} {n : Bool} {m : ℕ} {e : ℤ} (h : f32.decode w = .fin n m e) :
    w % 2 ^ 31 ≤ 0x7F7FFFFF ∧ n = bit w 31 ∧ m < 2 ^ 24 ∧ -149 ≤ e ∧ e ≤ 104 := by
  rw [f32_decode] at h
  split at h
  case isTrue hle =>
    split at h <;> obtain ⟨rfl, rfl, rfl⟩ := Val.fin.inj h <;> refine ⟨hle, rfl, ?_, ?_, ?_⟩ <;> omega
  case isFalse => split at h <;> cases h

theorem f32_decode_pack_bits (neg : Bool) {mag : ℕ} (h : mag < 2 ^ 31) :
    bit (f32.pack neg mag) 31 = neg ∧ f32.pack neg mag % 2 ^ 31 = mag := by
  cases neg <;> simp [FloatFormat.pack, f32, bit, Nat.shiftRight_eq_div_pow] <;> omega

/-- Magnitude bits as a count of binades and a count of units, which may reach into the next binade: the value is the units, each of the
binade's ulp. -/
theorem f32_pack_is (neg : Bool) {j k : ℕ} (hk : k ≤ 2 ^ 24) (hj : j = 0 ∨ 2 ^ 23 ≤ k) (hle : j * 2 ^ 23 + k ≤ 0x7F7FFFFF) :
    F32Is (f32.pack neg (j * 2 ^ 23 + k)) (signFactor neg * k * (2 : ℝ) ^ ((j : ℤ) - 149)) := by
  obtain ⟨hbit, hmag⟩ := f32_decode_pack_bits neg (hle.trans_lt (by decide))
  have hdec := f32_decode (f32.pack neg (j * 2 ^ 23 + k))
  rw [hbit, hmag, if_pos hle] at hdec
  rcases Nat.lt_or_ge k (2 ^ 23) with hsmall | hlarge
  · obtain rfl : j = 0 := by omega
    rw [if_pos (by omega)] at hdec
    refine ⟨⟨_, _, _, hdec⟩, ?_⟩
    rw [hdec, Val.toReal_fin, show (0 * 2 ^ 23 + k) % 2 ^ 23 = k by omega]
    norm_num
  · rw [if_neg (by omega)] at hdec
    refine ⟨⟨_, _, _, hdec⟩, ?_⟩
    rw [hdec, Val.toReal_fin]
    rcases Nat.lt_or_ge k (2 ^ 24) with hmid | htop
    · rw [show 2 ^ 23 + (j * 2 ^ 23 + k) % 2 ^ 23 = k by omega, show (j * 2 ^ 23 + k) / 2 ^ 23 = j + 1 by omega]
      congr 2
      push_cast
      ring
    · obtain rfl : k = 2 ^ 24 := by omega
      rw [show 2 ^ 23 + (j * 2 ^ 23 + 2 ^ 24) % 2 ^ 23 = 2 ^ 23 by omega, show (j * 2 ^ 23 + 2 ^ 24) / 2 ^ 23 = j + 2 by omega,
        show (-149 + ((j + 2 : ℕ) : ℤ) - 1) = ((j : ℤ) - 149) + 1 by push_cast; ring, zpow_add₀ two_ne_zero]
      push_cast
      ring

@[simp] theorem f32_decode_pack_zero (neg : Bool) : f32.decode (f32.pack neg 0) = .fin neg 0 (-149) := by
  cases neg <;> decide

@[simp] theorem f32_decode_pack_inf (neg : Bool) : f32.decode (f32.pack neg 0x7F800000) = .inf neg := by
  cases neg <;> decide

/-- An encoding whose magnitude bits are no more than those of 1 is a number of magnitude no more than 1. -/
theorem abs_toReal_decode_le_one {w : ℕ} (h : w % 2 ^ 31 ≤ 0x3F800000) : |(f32.decode w).toReal| ≤ 1 := by
  rw [f32_decode, if_pos (h.trans (by decide))]
  generalize w % 2 ^ 31 = mag at h
  split
  · rw [Val.abs_toReal_fin]
    have hm : ((mag % 2 ^ 23 : ℕ) : ℝ) ≤ 2 ^ 23 := by exact_mod_cast (Nat.mod_lt mag (by decide)).le
    calc _ ≤ (2 : ℝ) ^ 23 * (2 : ℝ) ^ (-149 : ℤ) := by gcongr
      _ ≤ 1 := by norm_num
  · rw [Val.abs_toReal_fin]
    rcases Nat.lt_or_ge (mag / 2 ^ 23) 127 with hlt | hge
    · have hm : ((2 ^ 23 + mag % 2 ^ 23 : ℕ) : ℝ) ≤ 2 ^ 24 := by exact_mod_cast (by omega : 2 ^ 23 + mag % 2 ^ 23 ≤ 2 ^ 24)
      calc _ ≤ (2 : ℝ) ^ 24 * (2 : ℝ) ^ (-24 : ℤ) := by
            gcongr
            · exact one_le_two
            · omega
        _ = 1 := by norm_num
    · obtain rfl : mag = 127 * 2 ^ 23 := by omega
      norm_num

/-! ### Rounding to nearest even -/

/-- Rounding to nearest even at a coarser unit: the numerator lies within half a unit of the result, and half-way only if that is even. -/
theorem roundAt_rne_half (neg : Bool) (m : ℕ) {e u : ℤ} (h : e < u) (r : ℕ) :
    let k := roundAt .rne neg m e u r
    let unit := 2 ^ (u - e).toNat
    2 * (k * unit) ≤ 2 * m + unit ∧ 2 * m ≤ 2 * (k * unit) + unit ∧ (2 * m = 2 * (k * unit) + unit → k % 2 = 0) := by
  intro k unit
  have hpos : 0 < unit := Nat.two_pow_pos _
  have hm : m = m / unit * unit + m % unit := (Nat.div_add_mod' m unit).symm
  have hrem : m % unit < unit := Nat.mod_lt m hpos
  have hk : k = if unit < 2 * (m % unit) ∨ (unit = 2 * (m % unit) ∧ m / unit % 2 = 1) then m / unit + 1 else m / unit := by
    simp [k, unit, roundAt, not_le.mpr h]
  generalize m / unit = q at hm hk
  generalize m % unit = rem at hm hk hrem
  rw [hk]
  split
  case isTrue hup =>
    have hsucc : (q + 1) * unit = q * unit + unit := Nat.succ_mul q unit
    omega
  case isFalse hdown => omega

/-- From half-way below 2^24 units on, rounding gives that many: the tie goes to the even neighbour. -/
theorem two_pow_le_roundAt {m d : ℕ} {e u : ℤ} (hd : (u - e).toNat = d + 1) (hhalf : (2 ^ 25 - 1) * 2 ^ d ≤ m) (neg : Bool) (r : ℕ) :
    2 ^ 24 ≤ roundAt .rne neg m e u r := by
  obtain ⟨-, hdown, htie⟩ := roundAt_rne_half neg m (e := e) (u := u) (by omega) r
  have hpos : 0 < 2 ^ d := Nat.two_pow_pos _
  rw [hd, pow_succ] at hdown htie
  generalize roundAt .rne neg m e u r = k at hdown htie ⊢
  generalize 2 ^ d = half at hdown htie hhalf hpos
  rw [← Nat.mul_assoc k half 2] at hdown htie
  by_contra hlt
  have hmul : k * half ≤ (2 ^ 24 - 1) * half := Nat.mul_le_mul_right half (by omega)
  have htop : k = 2 ^ 24 - 1 := Nat.eq_of_mul_eq_mul_right hpos (by omega)
  have heven := htie (by rw [htop]; omega)
  omega

/-- Where a numerator lies within half a unit of a multiple of it, so does the number that it stands for: the half-way points are even, or
the numerator is exact. -/
theorem StandsFor.abs_sub_le_half {m k d : ℕ} {s : ℝ} (h : StandsFor m s) (hd : d = 0 → m < 2 ^ 25)
    (hup : 2 * (k * (2 * 2 ^ d)) ≤ 2 * m + 2 * 2 ^ d) (hdown : 2 * m ≤ 2 * (k * (2 * 2 ^ d)) + 2 * 2 ^ d) :
    |(k : ℝ) * (2 * (2 ^ d : ℕ)) - s| ≤ (2 ^ d : ℕ) := by
  have heven : ∀ c, m < 2 ^ 25 ∨ (c * 2 ^ d) % 2 = 0 := by
    intro c
    rcases even_two_pow_or_lt hd with hm | hd
    · exact .inl hm
    · exact .inr (by rw [Nat.mul_mod, hd, Nat.mul_zero, Nat.zero_mod])
  have hle : s ≤ (2 * k + 1) * (2 ^ d : ℕ) := by
    have := h.le_of_le (heven (2 * k + 1)) (by ring_nf at hdown ⊢; omega)
    exact_mod_cast this
  have hge : (2 * k - 1) * ((2 ^ d : ℕ) : ℝ) ≤ s := by
    cases k with
    | zero =>
      have : (0 : ℝ) < (2 ^ d : ℕ) := by positivity
      rw [Nat.cast_zero]
      linarith [h.nonneg]
    | succ k =>
      have := h.ge_of_le (heven (2 * k + 1)) (by ring_nf at hup ⊢; omega)
      push_cast at this ⊢
      linarith
  exact abs_le.mpr ⟨by linarith, by linarith⟩

/-- The result of rounding to nearest even lies within half a unit of the number that the numerator stands for. -/
theorem abs_roundAt_sub_le {m : ℕ} {s : ℝ} (h : StandsFor m s) (neg : Bool) {e u : ℤ} (hu : (Nat.log2 m : ℤ) + e - 23 ≤ u) (r : ℕ) :
    |(roundAt .rne neg m e u r : ℝ) * (2 : ℝ) ^ u - s * (2 : ℝ) ^ e| ≤ (2 : ℝ) ^ u / 2 := by
  have hexact : u ≤ e + 1 → m < 2 ^ 25 := fun hle =>
    (Nat.lt_log2_self (n := m)).trans_le (Nat.pow_le_pow_right two_pos (by omega))
  rcases le_or_gt u e with hle | hlt
  · have hscale : ((m * 2 ^ (e - u).toNat : ℕ) : ℝ) * (2 : ℝ) ^ u = s * (2 : ℝ) ^ e := by
      rw [h.eq_of_lt (hexact (by omega)), Nat.cast_mul, two_pow_toNat_sub hle, mul_assoc, ← zpow_add₀ two_ne_zero, sub_add_cancel]
    rw [roundAt, if_pos hle, hscale, sub_self, abs_zero]
    positivity
  · obtain ⟨hup, hdown, -⟩ := roundAt_rne_half neg m hlt r
    obtain ⟨d, hd⟩ : ∃ d, (u - e).toNat = d + 1 := ⟨(u - e).toNat - 1, by omega⟩
    rw [hd, pow_succ'] at hup hdown
    have hnear := h.abs_sub_le_half (fun h0 => hexact (by omega)) hup hdown
    have hunit : (2 : ℝ) ^ u = 2 * (2 ^ d : ℕ) * (2 : ℝ) ^ e := by
      rw [show u = ((d : ℤ) + 1) + e by omega, zpow_add₀ two_ne_zero, zpow_add₀ two_ne_zero, zpow_natCast]
      push_cast
      ring
    have hpos : (0 : ℝ) < (2 : ℝ) ^ e := zpow_pos two_pos e
    rw [hunit, ← mul_assoc, ← sub_mul, abs_mul, abs_of_pos hpos]
    calc _ ≤ ((2 ^ d : ℕ) : ℝ) * (2 : ℝ) ^ e := mul_le_mul_of_nonneg_right hnear hpos.le
      _ = _ := by ring

end Sys2Proof.Machine
end

section
/-!
The conversion of an exact value to F32, nearest even (spec/03, R58): the number that it gives, where it gives an infinity, and where it
loses nothing.
-/
namespace Sys2Proof.Machine

/-- The number from which on rounding to nearest even gives an infinity: half-way between the largest finite number and 2^128. -/
noncomputable def overflowPoint : ℝ := (2 : ℝ) ^ (128 : ℤ) - (2 : ℝ) ^ (103 : ℤ)

theorem overflowPoint_eq : overflowPoint = (2 ^ 25 - 1) * (2 : ℝ) ^ (103 : ℤ) := by
  norm_num [overflowPoint]

/-- The units in the last place of a value rounded to nearest even. -/
def roundedUnits (neg : Bool) (m : ℕ) (e : ℤ) : ℕ := roundAt .rne neg m e (ulpExp (.fin neg m e)) 0

/-- The magnitude bits of a value rounded to nearest even, as if exponents had no upper bound. -/
def roundedMag (neg : Bool) (m : ℕ) (e : ℤ) : ℕ := (ulpExp (.fin neg m e) + 149).toNat * 2 ^ 23 + roundedUnits neg m e

theorem f32_rne_zero (neg : Bool) (e : ℤ) : f32.rne (.fin neg 0 e) = f32.pack neg 0 := by
  simp [FloatFormat.rne, FloatFormat.encode]

theorem f32_rne_fin (neg : Bool) {m : ℕ} (hm : m ≠ 0) (e : ℤ) :
    f32.rne (.fin neg m e) = f32.pack neg (if 0x7F7FFFFF < roundedMag neg m e then 0x7F800000 else roundedMag neg m e) := by
  have hmag : f32.roundMag .rne neg m e 0 = roundedMag neg m e := by
    simp [FloatFormat.roundMag, f32, roundedMag, roundedUnits, ulpExp_fin neg hm, max_comm]
  simp only [FloatFormat.rne, FloatFormat.encode, if_neg hm, reduceCtorEq, false_and, if_false, hmag, apply_ite (f32.pack neg)]
  rfl

theorem ulpExp_ge (neg : Bool) (m : ℕ) (e : ℤ) : -149 ≤ ulpExp (.fin neg m e) := by
  unfold ulpExp
  split <;> omega

theorem log2_le_ulpExp (neg : Bool) {m : ℕ} (hm : m ≠ 0) (e : ℤ) : (Nat.log2 m : ℤ) + e - 23 ≤ ulpExp (.fin neg m e) := by
  rw [ulpExp_fin neg hm]
  exact le_max_right _ _

section
variable {m : ℕ} {s : ℝ} (h : StandsFor m s) (hm : m ≠ 0) (neg : Bool) (e : ℤ)
include h hm

/-- The number in its binade. -/
theorem StandsFor.zpow_le : (2 : ℝ) ^ ((Nat.log2 m : ℤ) + e) ≤ s * (2 : ℝ) ^ e := by
  rw [zpow_add₀ two_ne_zero]
  exact mul_le_mul_of_nonneg_right (h.log2_le hm) (zpow_pos two_pos e).le

omit hm in
theorem StandsFor.lt_zpow : s * (2 : ℝ) ^ e < (2 : ℝ) ^ ((Nat.log2 m : ℤ) + e + 1) := by
  rw [add_right_comm, zpow_add₀ two_ne_zero]
  exact mul_lt_mul_of_pos_right h.lt_log2 (zpow_pos two_pos e)

theorem StandsFor.abs_rounded_sub_le :
    |(roundedUnits neg m e : ℝ) * (2 : ℝ) ^ ulpExp (.fin neg m e) - s * (2 : ℝ) ^ e| ≤ (2 : ℝ) ^ ulpExp (.fin neg m e) / 2 :=
  abs_roundAt_sub_le h neg (log2_le_ulpExp neg hm e) 0

/-- A rounded number has at most 2^24 units: 2^24 where it was rounded up to the next binade. -/
theorem StandsFor.roundedUnits_le : roundedUnits neg m e ≤ 2 ^ 24 := by
  have hround := (abs_le.mp (h.abs_rounded_sub_le hm neg e)).2
  have hlog := log2_le_ulpExp neg hm e
  have hlt : s * (2 : ℝ) ^ e < 2 ^ 24 * (2 : ℝ) ^ ulpExp (.fin neg m e) := by
    calc _ < (2 : ℝ) ^ ((Nat.log2 m : ℤ) + e + 1) := h.lt_zpow e
      _ ≤ (2 : ℝ) ^ (24 + ulpExp (.fin neg m e)) := zpow_le_zpow_right₀ one_le_two (by omega)
      _ = _ := by rw [zpow_add₀ two_ne_zero]; norm_num
  have hpos : (0 : ℝ) < (2 : ℝ) ^ ulpExp (.fin neg m e) := zpow_pos two_pos _
  have : (roundedUnits neg m e : ℝ) < 2 ^ 24 + 1 := by
    refine lt_of_mul_lt_mul_right ?_ hpos.le
    linarith
  exact Nat.lt_succ_iff.mp (by exact_mod_cast this)

/-- Above the subnormals a rounded number has at least 2^23 units. -/
theorem StandsFor.le_roundedUnits : ulpExp (.fin neg m e) = -149 ∨ 2 ^ 23 ≤ roundedUnits neg m e := by
  refine or_iff_not_imp_left.mpr (fun hne => ?_)
  have hround := (abs_le.mp (h.abs_rounded_sub_le hm neg e)).1
  have hu : ulpExp (.fin neg m e) = (Nat.log2 m : ℤ) + e - 23 := by
    rw [ulpExp_fin neg hm] at hne ⊢
    omega
  have hle : 2 ^ 23 * (2 : ℝ) ^ ulpExp (.fin neg m e) ≤ s * (2 : ℝ) ^ e := by
    calc _ = (2 : ℝ) ^ ((Nat.log2 m : ℤ) + e) := by
          rw [show (Nat.log2 m : ℤ) + e = 23 + ulpExp (.fin neg m e) by omega, zpow_add₀ two_ne_zero]; norm_num
      _ ≤ _ := h.zpow_le hm e
  have hpos : (0 : ℝ) < (2 : ℝ) ^ ulpExp (.fin neg m e) := zpow_pos two_pos _
  have : (2 ^ 23 : ℝ) < roundedUnits neg m e + 1 := by
    refine lt_of_mul_lt_mul_right ?_ hpos.le
    linarith
  exact Nat.lt_succ_iff.mp (by exact_mod_cast this)

/-- Below the point of overflow the rounded magnitude is that of a finite number. -/
theorem StandsFor.roundedMag_le (hlim : s * (2 : ℝ) ^ e < overflowPoint) : roundedMag neg m e ≤ 0x7F7FFFFF := by
  have hlt : s * (2 : ℝ) ^ e < (2 : ℝ) ^ (128 : ℤ) := hlim.trans (sub_lt_self _ (zpow_pos two_pos _))
  have hlog : (Nat.log2 m : ℤ) + e < 128 := (zpow_lt_zpow_iff_right₀ one_lt_two).mp ((h.zpow_le hm e).trans_lt hlt)
  have hunits := h.roundedUnits_le hm neg e
  have hround := (abs_le.mp (h.abs_rounded_sub_le hm neg e)).2
  have hu := ulpExp_fin neg hm e
  unfold roundedMag
  generalize ulpExp (.fin neg m e) = u at hround hu
  rcases lt_or_ge u 104 with hsmall | hlarge
  · omega
  · obtain rfl : u = 104 := by omega
    have : (roundedUnits neg m e : ℝ) * (2 : ℝ) ^ (104 : ℤ) < 2 ^ 24 * (2 : ℝ) ^ (104 : ℤ) := by
      rw [overflowPoint] at hlim
      norm_num at hlim hround ⊢
      linarith
    have : roundedUnits neg m e < 2 ^ 24 := by exact_mod_cast lt_of_mul_lt_mul_right this (zpow_pos two_pos _).le
    omega

/-- The number that a value is rounded to. -/
theorem StandsFor.f32_rne_is (hlim : s * (2 : ℝ) ^ e < overflowPoint) :
    F32Is (f32.rne (.fin neg m e)) (signFactor neg * (roundedUnits neg m e * (2 : ℝ) ^ ulpExp (.fin neg m e))) := by
  have hle := h.roundedMag_le hm neg e hlim
  have hge := ulpExp_ge neg m e
  have hj : (ulpExp (.fin neg m e) + 149).toNat = 0 ∨ 2 ^ 23 ≤ roundedUnits neg m e := by
    have := h.le_roundedUnits hm neg e
    omega
  have his := f32_pack_is neg (h.roundedUnits_le hm neg e) hj hle
  rw [f32_rne_fin neg hm e, if_neg (not_lt.mpr hle), roundedMag]
  rwa [Int.toNat_of_nonneg (by omega), add_sub_cancel_right, mul_assoc] at his

/-- R57: below the point of overflow the rounded number lies within half an ulp. -/
theorem StandsFor.f32_rne_near (hlim : s * (2 : ℝ) ^ e < overflowPoint) :
    F32Near (f32.rne (.fin neg m e)) (signFactor neg * (s * (2 : ℝ) ^ e)) (ulpAt (s * (2 : ℝ) ^ e) / 2) := by
  refine (h.f32_rne_is hm neg e hlim).near ?_
  rw [← mul_sub, abs_mul, abs_signFactor, one_mul, h.ulpAt_eq hm neg e]
  exact h.abs_rounded_sub_le hm neg e

/-- R58: from the point of overflow on, a value with bits to spare is rounded to an infinity. -/
theorem StandsFor.f32_rne_inf (hspare : 2 ^ 25 ≤ m) (hlim : overflowPoint ≤ s * (2 : ℝ) ^ e) :
    f32.decode (f32.rne (.fin neg m e)) = .inf neg := by
  have hge : (2 : ℝ) ^ (127 : ℤ) ≤ s * (2 : ℝ) ^ e := le_trans (by norm_num [overflowPoint]) hlim
  have hlog : 127 < (Nat.log2 m : ℤ) + e + 1 := (zpow_lt_zpow_iff_right₀ one_lt_two).mp (hge.trans_lt (h.lt_zpow e))
  have hu := ulpExp_fin neg hm e
  have hnormal := h.le_roundedUnits hm neg e
  have hbeyond : 0x7F7FFFFF < roundedMag neg m e := by
    unfold roundedMag
    rcases eq_or_ne (ulpExp (.fin neg m e)) 104 with h104 | h104
    · have h25 : 25 ≤ Nat.log2 m := (Nat.le_log2 hm).mpr hspare
      obtain ⟨d, hd⟩ : ∃ d, (104 - e).toNat = d + 1 + 1 := ⟨(104 - e).toNat - 2, by omega⟩
      have hhalf : (2 ^ 25 - 1) * 2 ^ (d + 1) ≤ m := by
        refine (h.compare (.inr (by rw [pow_succ]; omega))).1.mp ?_
        refine le_of_mul_le_mul_right (hlim.trans' (le_of_eq ?_)) (zpow_pos (two_pos (α := ℝ)) e)
        rw [overflowPoint_eq, show (103 : ℤ) = ((d + 1 : ℕ) : ℤ) + e by omega, zpow_add₀ two_ne_zero, zpow_natCast]
        push_cast
        ring
      have htop : 2 ^ 24 ≤ roundedUnits neg m e := by
        rw [roundedUnits, h104]
        exact two_pow_le_roundAt hd hhalf neg 0
      omega
    · omega
  rw [f32_rne_fin neg hm e, if_pos hbeyond, f32_decode_pack_inf]

end

/-- A value of at most 24 bits from the grid of F32 is rounded to itself. -/
theorem f32_rne_exact (neg : Bool) {m : ℕ} (hm : m < 2 ^ 24) {e : ℤ} (he : -149 ≤ e) (hlim : m * (2 : ℝ) ^ e < overflowPoint) :
    F32Is (f32.rne (.fin neg m e)) (Val.fin neg m e).toReal := by
  rcases eq_or_ne m 0 with rfl | h0
  · rw [f32_rne_zero]
    exact ⟨⟨_, _, _, f32_decode_pack_zero neg⟩, by simp⟩
  · have hlog : Nat.log2 m < 24 := (Nat.log2_lt h0).mpr hm
    have hu : ulpExp (.fin neg m e) ≤ e := by
      rw [ulpExp_fin neg h0]
      omega
    have his := (StandsFor.refl m).f32_rne_is h0 neg e hlim
    rw [roundedUnits, roundAt, if_pos hu, Nat.cast_mul, two_pow_toNat_sub hu, mul_assoc, ← zpow_add₀ two_ne_zero,
      sub_add_cancel, ← mul_assoc] at his
    exact his

/-- R58: a finite value below the point of overflow is rounded to a number within half an ulp. -/
theorem f32_rne_near (neg : Bool) (m : ℕ) (e : ℤ) (hlim : |(Val.fin neg m e).toReal| < overflowPoint) :
    F32Near (f32.rne (.fin neg m e)) (Val.fin neg m e).toReal (ulpAt (Val.fin neg m e).toReal / 2) := by
  rcases eq_or_ne m 0 with rfl | h0
  · rw [f32_rne_zero]
    refine F32Is.near ⟨⟨_, _, _, f32_decode_pack_zero neg⟩, (by simp : _ = (Val.fin neg 0 e).toReal)⟩ ?_
    rw [sub_self, abs_zero]
    exact (half_pos (ulpAt_pos _)).le
  · rw [Val.abs_toReal_fin] at hlim
    have hulp : ulpAt (Val.fin neg m e).toReal = ulpAt (m * (2 : ℝ) ^ e) := by
      apply ulpAt_of_abs_eq
      rw [Val.abs_toReal_fin, abs_of_nonneg (by positivity)]
    rw [hulp, Val.toReal_fin, mul_assoc]
    exact (StandsFor.refl m).f32_rne_near h0 neg e hlim

/-- Rounding takes no value beyond 1 that is not beyond it. -/
theorem abs_toReal_rne_le_one (neg : Bool) (m : ℕ) (e : ℤ) (hone : |(Val.fin neg m e).toReal| ≤ 1) :
    |(f32.decode (f32.rne (.fin neg m e))).toReal| ≤ 1 := by
  rcases eq_or_ne m 0 with rfl | h0
  · simp [f32_rne_zero]
  · rw [Val.abs_toReal_fin] at hone
    have h := StandsFor.refl m
    have hlim : m * (2 : ℝ) ^ e < overflowPoint := hone.trans_lt (by norm_num [overflowPoint])
    have hlog : (Nat.log2 m : ℤ) + e ≤ 0 := by
      rw [← zpow_le_zpow_iff_right₀ (one_lt_two (α := ℝ)), zpow_zero]
      exact (h.zpow_le h0 e).trans hone
    have hunits := h.roundedUnits_le h0 neg e
    have hround := (abs_le.mp (h.abs_rounded_sub_le h0 neg e)).2
    have hu := ulpExp_fin neg h0 e
    rw [(h.f32_rne_is h0 neg e hlim).2, abs_mul, abs_signFactor, one_mul, abs_of_nonneg (by positivity)]
    generalize ulpExp (.fin neg m e) = u at hround hu
    rcases le_or_gt u (-24) with hsmall | hlarge
    · have hk : (roundedUnits neg m e : ℝ) ≤ 2 ^ 24 := by exact_mod_cast hunits
      calc _ ≤ (2 : ℝ) ^ 24 * (2 : ℝ) ^ (-24 : ℤ) := by
            gcongr
            exact one_le_two
        _ = 1 := by norm_num
    · obtain rfl : u = -23 := by omega
      have hk : (roundedUnits neg m e : ℝ) < 2 ^ 23 + 1 := by
        norm_num at hround
        linarith
      have hk : (roundedUnits neg m e : ℝ) ≤ 2 ^ 23 := by exact_mod_cast Nat.lt_succ_iff.mp (by exact_mod_cast hk)
      calc _ ≤ (2 : ℝ) ^ 23 * (2 : ℝ) ^ (-23 : ℤ) := by gcongr
        _ = 1 := by norm_num

end Sys2Proof.Machine
end

section
/-!
The approximated functions (spec/10, R208 and R209; log 9): whatever candidate the free choice names, the result lies within the bound of
the model's evaluation, and within the magnitude limit where there is one.
-/
namespace Sys2Proof.Machine

/-- The bound of an approximated function at an exact value: so many ulps or, where that is larger and the function has that floor, 2^-24;
with the slack of log 9. -/
noncomputable def approxBound (ulps : ℕ) (floor24 : Bool) (y : ℝ) : ℝ :=
  (1 + (2 : ℝ) ^ (-140 : ℤ)) * max (ulps * ulpAt y) (if floor24 then (2 : ℝ) ^ (-24 : ℤ) else 0)

/-- The bound of a function without a floor is a number of ulps. -/
theorem approxBound_no_floor (ulps : ℕ) (y : ℝ) : approxBound ulps false y = (1 + (2 : ℝ) ^ (-140 : ℤ)) * (ulps * ulpAt y) := by
  rw [approxBound, if_neg Bool.false_ne_true, max_eq_left (mul_nonneg (Nat.cast_nonneg _) (ulpAt_pos y).le)]

theorem ulpAt_le_approxBound {ulps : ℕ} (hulps : 1 ≤ ulps) (floor24 : Bool) (y : ℝ) : ulpAt y ≤ approxBound ulps floor24 y := by
  have hone : (1 : ℝ) ≤ ulps := by exact_mod_cast hulps
  have hpos := ulpAt_pos y
  have hmax : ulpAt y ≤ max (ulps * ulpAt y) (if floor24 then (2 : ℝ) ^ (-24 : ℤ) else 0) :=
    le_max_of_le_left (le_mul_of_one_le_left hpos.le hone)
  have hslack : (0 : ℝ) < (2 : ℝ) ^ (-140 : ℤ) := zpow_pos two_pos _
  unfold approxBound
  nlinarith

/-- The bound that the model counts in units of 2^e0 is no more than the bound of the exact value. -/
theorem unitBound_le {ulps : ℕ} (hulps : 1 ≤ ulps) (floor24 : Bool) {u e0 : ℤ} (hu : e0 ≤ u) :
    ((max (ulps * 2 ^ (u - e0).toNat) (if floor24 then 2 ^ (-24 - e0).toNat else 0) : ℕ) : ℝ) * (2 : ℝ) ^ e0
      ≤ max (ulps * (2 : ℝ) ^ u) (if floor24 then (2 : ℝ) ^ (-24 : ℤ) else 0) := by
  have hpos : (0 : ℝ) < (2 : ℝ) ^ e0 := zpow_pos two_pos e0
  have hulp : ((ulps * 2 ^ (u - e0).toNat : ℕ) : ℝ) * (2 : ℝ) ^ e0 = ulps * (2 : ℝ) ^ u := by
    rw [Nat.cast_mul, two_pow_toNat_sub hu, mul_assoc, ← zpow_add₀ two_ne_zero, sub_add_cancel]
  rw [Nat.cast_max, max_mul_of_nonneg _ _ hpos.le, hulp]
  refine max_le (le_max_left _ _) ?_
  cases floor24 with
  | false => simp
  | true =>
    simp only [if_true]
    rcases le_or_gt e0 (-24) with hfine | hcoarse
    · rw [two_pow_toNat_sub hfine, ← zpow_add₀ two_ne_zero, sub_add_cancel]
      exact le_max_right _ _
    · rw [Int.toNat_of_nonpos (by omega), pow_zero, Nat.cast_one, one_mul]
      have hone : (1 : ℝ) ≤ ulps := by exact_mod_cast hulps
      have hle : (2 : ℝ) ^ e0 ≤ (2 : ℝ) ^ u := zpow_le_zpow_right₀ one_le_two hu
      exact le_max_of_le_left (hle.trans (le_mul_of_one_le_left (zpow_pos two_pos u).le hone))

/-- A candidate that the model admits lies within the bound of R208. -/
theorem within_near {w ulps : ℕ} {floor24 b : Bool} {n : ℕ} {f : ℤ} (hulps : 1 ≤ ulps) (h : within w ulps floor24 (.fin b n f) = true) :
    F32Near w (Val.fin b n f).toReal (approxBound ulps floor24 (Val.fin b n f).toReal) := by
  unfold within at h
  split at h
  case h_2 => cases h
  case h_1 a m e b' n' f' hw hy =>
    obtain ⟨rfl, rfl, rfl⟩ := Val.fin.inj hy
    refine ⟨⟨a, m, e, hw⟩, ?_⟩
    simp only [Bool.and_eq_true, decide_eq_true_eq] at h
    have hle := h.1
    rw [approxBound, ulpAt_toReal]
    generalize ulpExp (.fin b n f) = u at hle
    generalize he0 : min (min e f) (u - 300) = e0 at hle
    have hbound := unitBound_le hulps floor24 (show e0 ≤ u by omega)
    generalize max (ulps * 2 ^ (u - e0).toNat) (if floor24 then 2 ^ (-24 - e0).toNat else 0) = units at hle hbound
    have hslack : ((units / 2 ^ 140 : ℕ) : ℝ) ≤ units * (2 : ℝ) ^ (-140 : ℤ) := by
      refine Nat.cast_div_le.trans (le_of_eq ?_)
      rw [zpow_neg, div_eq_mul_inv]
      norm_cast
    have hdist : |(Val.fin a m e).toReal - (Val.fin b n f).toReal| = ((signedAt a m e e0 - signedAt b n f e0).natAbs : ℝ) * (2 : ℝ) ^ e0 := by
      rw [← signedAt_mul_zpow a m (show e0 ≤ e by omega), ← signedAt_mul_zpow b n (show e0 ≤ f by omega), ← sub_mul, abs_mul,
        abs_of_pos (zpow_pos (two_pos (α := ℝ)) e0), Nat.cast_natAbs, ← Int.cast_sub, Int.cast_abs]
    rw [hw, hdist]
    calc _ ≤ ((units + units / 2 ^ 140 : ℕ) : ℝ) * (2 : ℝ) ^ e0 := by gcongr
      _ ≤ (units + units * (2 : ℝ) ^ (-140 : ℤ)) * (2 : ℝ) ^ e0 := by rw [Nat.cast_add]; gcongr
      _ = (1 + (2 : ℝ) ^ (-140 : ℤ)) * (units * (2 : ℝ) ^ e0) := by ring
      _ ≤ _ := by gcongr

/-- R208: the result of an approximated function lies within its bound of the exact value that the model has. -/
theorem approxResult_near (op arg : ℕ) {ulps : ℕ} (hulps : 1 ≤ ulps) (floor24 cap : Bool) {y : Val} (hy : y.Finite)
    (hlim : |y.toReal| < overflowPoint) :
    F32Near (approxResult op arg ulps floor24 cap y) y.toReal (approxBound ulps floor24 y.toReal) := by
  obtain ⟨b, n, f, rfl⟩ := hy
  unfold approxResult
  dsimp only
  split
  case isTrue hc =>
    rw [Bool.and_eq_true] at hc
    exact within_near hulps hc.1
  case isFalse =>
    exact (f32_rne_near b n f hlim).mono ((half_le_self (ulpAt_pos _).le).trans (ulpAt_le_approxBound hulps floor24 _))

/-- R208: under the magnitude limit a result has magnitude at most 1. -/
theorem abs_toReal_approxResult_le_one (op arg ulps : ℕ) (floor24 : Bool) {y : Val} (hy : y.Finite) (hone : |y.toReal| ≤ 1) :
    |(f32.decode (approxResult op arg ulps floor24 true y)).toReal| ≤ 1 := by
  obtain ⟨b, n, f, rfl⟩ := hy
  unfold approxResult
  dsimp only
  split
  case isTrue hc =>
    simp only [Bool.not_true, Bool.false_or, Bool.and_eq_true, decide_eq_true_eq] at hc
    exact abs_toReal_decode_le_one hc.2
  case isFalse => exact abs_toReal_rne_le_one b n f hone

end Sys2Proof.Machine
end

section
/-!
Reciprocals and roots (spec/10, R208): the model's quotient and root with a sticky bit stand for the exact ones, so that rounding them is
rounding the exact ones; the evaluation of the reciprocal root lies so near that it costs no ulp.
-/
namespace Sys2Proof.Machine

/-- What it is for a value to stand for an exact positive number: for its sign, its numerator with bits to spare. -/
def Val.Stands (v : Val) (neg : Bool) (y : ℝ) : Prop :=
  ∃ m e s, v = .fin neg m e ∧ StandsFor m s ∧ 2 ^ 25 ≤ m ∧ s * (2 : ℝ) ^ e = y

/-- The numerator of a reciprocal keeps more bits than a significand has. -/
theorem two_pow_le_recip {m : ℕ} (hm : m ≠ 0) : 2 ^ 24 ≤ 2 ^ (96 + Nat.log2 m) / m := by
  refine (Nat.le_div_iff_mul_le (Nat.pos_of_ne_zero hm)).mpr ?_
  calc 2 ^ 24 * m ≤ 2 ^ 24 * 2 ^ (Nat.log2 m + 1) := by gcongr; exact Nat.lt_log2_self.le
    _ ≤ 2 ^ (96 + Nat.log2 m) := by rw [← pow_add]; exact Nat.pow_le_pow_right two_pos (by omega)

/-- A quotient lies strictly between two integers where it leaves a remainder. -/
theorem natCast_div_mem (n : ℕ) {m : ℕ} (hm : m ≠ 0) :
    if (n % m != 0) = true then ((n / m : ℕ) : ℝ) < n / m ∧ (n : ℝ) / m < (n / m : ℕ) + 1 else (n : ℝ) / m = (n / m : ℕ) := by
  have hpos : (0 : ℝ) < m := by exact_mod_cast Nat.pos_of_ne_zero hm
  have hn : (n : ℝ) = m * (n / m : ℕ) + (n % m : ℕ) := by exact_mod_cast (Nat.div_add_mod n m).symm
  have hlt : ((n % m : ℕ) : ℝ) < m := by exact_mod_cast Nat.mod_lt n (Nat.pos_of_ne_zero hm)
  split
  case isTrue hrem =>
    have : (0 : ℝ) < (n % m : ℕ) := by exact_mod_cast Nat.pos_of_ne_zero (by simpa using hrem)
    constructor
    · rw [lt_div_iff₀ hpos]; nlinarith
    · rw [div_lt_iff₀ hpos]; nlinarith
  case isFalse hrem =>
    have hzero : n % m = 0 := by simpa using hrem
    rw [hn, hzero, Nat.cast_zero, add_zero, mul_div_cancel_left₀ _ hpos.ne']

/-- The reciprocal of the model stands for the exact reciprocal. -/
theorem recipOf_stands (neg : Bool) {m : ℕ} (hm : m ≠ 0) (e : ℤ) : (recipOf neg m e).Stands neg (1 / (m * (2 : ℝ) ^ e)) := by
  have hpos : (m : ℝ) ≠ 0 := by exact_mod_cast hm
  have hq := two_pow_le_recip hm
  refine ⟨_, _, _, rfl, standsFor_sticky hq (natCast_div_mem _ hm), by omega, ?_⟩
  rw [show -(96 + (Nat.log2 m : ℤ)) - 1 - e = -((96 + Nat.log2 m : ℕ) : ℤ) + (-1 + -e) by push_cast; ring,
    zpow_add₀ two_ne_zero, zpow_add₀ two_ne_zero, zpow_neg, zpow_neg, zpow_neg, zpow_natCast]
  push_cast
  field_simp

/-- Bit by bit the root stays the largest whose square is no more. -/
theorem isqrtFrom_spec (n k r : ℕ) (hlo : r * r ≤ n) (hhi : n < (r + 2 ^ k) * (r + 2 ^ k)) :
    isqrtFrom n k r * isqrtFrom n k r ≤ n ∧ n < (isqrtFrom n k r + 1) * (isqrtFrom n k r + 1) := by
  induction k generalizing r with
  | zero => exact ⟨hlo, hhi⟩
  | succ k ih =>
    have hstep : r + 2 ^ (k + 1) = r + 2 ^ k + 2 ^ k := by rw [pow_succ, Nat.mul_two, Nat.add_assoc]
    unfold isqrtFrom
    dsimp only
    split
    case isTrue hle => exact ih _ hle (hstep ▸ hhi)
    case isFalse hgt => exact ih _ hlo (not_le.mp hgt)

/-- The model's root is the integer part of the root. -/
theorem isqrt_eq_sqrt (n : ℕ) : isqrt n = Nat.sqrt n := by
  refine Nat.eq_sqrt.mpr (isqrtFrom_spec n _ 0 (Nat.zero_le n) ?_)
  rw [Nat.zero_add, ← pow_add]
  exact Nat.lt_log2_self.trans_le (Nat.pow_le_pow_right two_pos (by omega))

/-- The root of a number lies strictly between two integers where the number is no square. -/
theorem sqrt_mem (n : ℕ) : if (isqrt n * isqrt n != n) = true then (isqrt n : ℝ) < √(n : ℝ) ∧ √(n : ℝ) < isqrt n + 1 else √(n : ℝ) = isqrt n := by
  rw [isqrt_eq_sqrt]
  split
  case isTrue hne =>
    have hroot : (Nat.sqrt n : ℝ) ≠ √(n : ℝ) := by
      intro heq
      have hsq : (Nat.sqrt n : ℝ) * Nat.sqrt n = n := by rw [heq, Real.mul_self_sqrt (Nat.cast_nonneg n)]
      exact absurd (by exact_mod_cast hsq) (by simpa using hne)
    exact ⟨Real.nat_sqrt_le_real_sqrt.lt_of_ne hroot, Real.real_sqrt_lt_nat_sqrt_succ⟩
  case isFalse hsquare =>
    have hsq : Nat.sqrt n * Nat.sqrt n = n := by simpa using hsquare
    have hcast : (Nat.sqrt n : ℝ) * Nat.sqrt n = n := by exact_mod_cast hsq
    rw [← hcast, Real.sqrt_mul_self (Nat.cast_nonneg _)]

/-- A value at an exponent is one at an even exponent. -/
theorem sqrt_mul_zpow (x : ℝ) (hx : 0 ≤ x) (h : ℤ) : √(x * (2 : ℝ) ^ (2 * h)) = √x * (2 : ℝ) ^ h := by
  rw [Real.sqrt_mul hx, mul_comm 2 h, zpow_mul, zpow_ofNat, Real.sqrt_sq (zpow_pos two_pos h).le]

/-- The root of the model stands for the exact root. -/
theorem sqrtOf_stands {m : ℕ} (hm : m ≠ 0) (e : ℤ) : (sqrtOf m e).Stands false (√(m * (2 : ℝ) ^ e)) := by
  have hbig : 2 ^ 24 ≤ isqrt (m * 2 ^ ((e % 2).toNat + 128)) := by
    rw [isqrt_eq_sqrt, Nat.le_sqrt]
    calc 2 ^ 24 * 2 ^ 24 ≤ 1 * 2 ^ (0 + 128) := by norm_num
      _ ≤ m * 2 ^ ((e % 2).toNat + 128) := Nat.mul_le_mul (Nat.pos_of_ne_zero hm) (Nat.pow_le_pow_right two_pos (by omega))
  refine ⟨_, _, _, rfl, standsFor_sticky hbig (sqrt_mem _), by omega, ?_⟩
  obtain ⟨h, p, hp, he⟩ : ∃ h : ℤ, ∃ p : ℕ, (e % 2).toNat = p ∧ e = 2 * h + p := ⟨e / 2, _, rfl, by omega⟩
  rw [hp, show (e - (p : ℤ)) / 2 - 65 = (h - 64) - 1 by omega, zpow_sub_one₀ two_ne_zero]
  have hvalue : (m : ℝ) * (2 : ℝ) ^ e = ((m * 2 ^ (p + 128) : ℕ) : ℝ) * (2 : ℝ) ^ (2 * (h - 64)) := by
    rw [he, show 2 * h + (p : ℤ) = ((p + 128 : ℕ) : ℤ) + 2 * (h - 64) by push_cast; ring, zpow_add₀ two_ne_zero, zpow_natCast]
    push_cast
    ring
  rw [hvalue, sqrt_mul_zpow _ (by positivity)]
  ring

/-- R208: a value that stands for an exact number is rounded as that number is. -/
theorem Val.Stands.f32_rne_near {v : Val} {neg : Bool} {y : ℝ} (h : v.Stands neg y) (hlim : y < overflowPoint) :
    F32Near (f32.rne v) (signFactor neg * y) (ulpAt y / 2) := by
  obtain ⟨m, e, s, rfl, hs, hm, rfl⟩ := h
  exact hs.f32_rne_near (by omega) neg e hlim

theorem Val.Stands.f32_rne_inf {v : Val} {neg : Bool} {y : ℝ} (h : v.Stands neg y) (hlim : overflowPoint ≤ y) :
    f32.decode (f32.rne v) = .inf neg := by
  obtain ⟨m, e, s, rfl, hs, hm, rfl⟩ := h
  exact hs.f32_rne_inf (by omega) neg e hm hlim

end Sys2Proof.Machine
end

section
/-!
The model's evaluation of the approximated functions (spec/10, R208; log 9): every value is finite, those under the magnitude limit are at
most 1, and that of the reciprocal root lies so near the exact one that it costs no more than the slack.
-/
namespace Sys2Proof.Machine

theorem trueValue_finite (op m : ℕ) (neg : Bool) (e : ℤ) : (trueValue op m neg e).Finite := by
  unfold trueValue
  dsimp only
  repeat' split
  all_goals exact ofSigned_finite _ _

/-- A fixed-point number of magnitude at most 1. -/
theorem abs_toReal_fixed_le_one {v : ℤ} (hlo : -2 ^ fxBits ≤ v) (hhi : v ≤ 2 ^ fxBits) : |(ofSigned v (-fxBits)).toReal| ≤ 1 := by
  have hpos : (0 : ℝ) < (2 : ℝ) ^ fxBits := pow_pos two_pos _
  have hv : |(v : ℝ)| ≤ (2 : ℝ) ^ fxBits := abs_le.mpr ⟨by exact_mod_cast hlo, by exact_mod_cast hhi⟩
  rw [toReal_ofSigned, abs_mul, zpow_neg, zpow_natCast, abs_of_pos (inv_pos.mpr hpos), ← div_eq_mul_inv]
  exact (div_le_one hpos).mpr hv

theorem abs_toReal_fxCap_le_one (v : ℤ) : |(ofSigned (fxCap v) (-fxBits)).toReal| ≤ 1 := by
  have hpos : (0 : ℤ) < 2 ^ fxBits := pow_pos two_pos _
  apply abs_toReal_fixed_le_one <;> unfold fxCap <;> omega

/-- Just below 1. -/
theorem abs_toReal_fxOne_sub_le_one : |(ofSigned (2 ^ fxBits - 1) (-fxBits)).toReal| ≤ 1 := by
  have hpos : (0 : ℤ) < 2 ^ fxBits := pow_pos two_pos _
  apply abs_toReal_fixed_le_one <;> omega

/-- The functions that R208 gives a magnitude limit: FTANH, FERF, FSIN and FCOS. -/
def IsLimited (op : ℕ) : Prop := op = 0x4C ∨ op = 0x4D ∨ op = 0x4E ∨ op = 0x4F

theorem abs_toReal_trueValue_le_one {op : ℕ} (hop : IsLimited op) (m : ℕ) (neg : Bool) (e : ℤ) : |(trueValue op m neg e).toReal| ≤ 1 := by
  rcases hop with rfl | rfl | rfl | rfl <;> simp only [trueValue]
  · split
    · exact abs_toReal_fxOne_sub_le_one
    · exact abs_toReal_fxCap_le_one _
  · split
    · exact abs_toReal_fxOne_sub_le_one
    · exact abs_toReal_fxCap_le_one _
  · exact abs_toReal_fxCap_le_one _
  · exact abs_toReal_fxCap_le_one _

theorem one_lt_overflowPoint : 1 < overflowPoint := by
  norm_num [overflowPoint]

/-- The root of a quotient lies between its integer part and the next integer. -/
theorem sqrt_div_mem (n : ℕ) {m : ℕ} (hm : m ≠ 0) : (isqrt (n / m) : ℝ) ≤ √((n : ℝ) / m) ∧ √((n : ℝ) / m) < isqrt (n / m) + 1 := by
  have hpos : (0 : ℝ) < m := by exact_mod_cast Nat.pos_of_ne_zero hm
  rw [isqrt_eq_sqrt]
  constructor
  · exact Real.nat_sqrt_le_real_sqrt.trans (Real.sqrt_le_sqrt Nat.cast_div_le)
  · have hlt : (n : ℝ) / m < (n / m : ℕ) + 1 := by
      rw [div_lt_iff₀ hpos]
      rw [mul_comm]
      exact_mod_cast Nat.lt_mul_div_succ n (Nat.pos_of_ne_zero hm)
    have hnext : ((n / m : ℕ) : ℝ) + 1 ≤ (Nat.sqrt (n / m) + 1) * (Nat.sqrt (n / m) + 1) := by
      exact_mod_cast Nat.lt_succ_sqrt (n / m)
    rw [Real.sqrt_lt' (by positivity), sq]
    exact hlt.trans_le hnext

/-- A reciprocal root, as the root of a quotient that keeps 400 bits. -/
theorem one_div_sqrt_eq (m p : ℕ) (h : ℤ) :
    1 / √(m * (2 : ℝ) ^ (2 * h + p)) = √(((2 ^ (400 + p) : ℕ) : ℝ) / m) * (2 : ℝ) ^ (-200 - p - h) := by
  have hinv : ((2 ^ (400 + p) : ℕ) : ℝ) / m * (2 : ℝ) ^ (2 * (-200 - p - h)) = (m * (2 : ℝ) ^ (2 * h + p))⁻¹ := by
    rw [mul_inv, ← zpow_neg, Nat.cast_pow, Nat.cast_ofNat, ← zpow_natCast, div_mul_eq_mul_div, ← zpow_add₀ two_ne_zero, div_eq_mul_inv, mul_comm]
    congr 2
    push_cast
    ring
  rw [← sqrt_mul_zpow _ (by positivity), hinv, Real.sqrt_inv, ← one_div]

/-- The root of the quotient of a significand keeps 188 bits. -/
theorem two_pow_le_isqrt_div {m : ℕ} (hm : m ≠ 0) (hlt : m < 2 ^ 24) (p : ℕ) : 2 ^ 188 ≤ isqrt (2 ^ (400 + p) / m) := by
  rw [isqrt_eq_sqrt, Nat.le_sqrt, Nat.le_div_iff_mul_le (Nat.pos_of_ne_zero hm)]
  calc 2 ^ 188 * 2 ^ 188 * m ≤ 2 ^ 188 * 2 ^ 188 * 2 ^ (24 + p) :=
        Nat.mul_le_mul_left _ (hlt.le.trans (Nat.pow_le_pow_right two_pos (by omega)))
    _ = 2 ^ (188 + 188 + (24 + p)) := by rw [← pow_add, ← pow_add]
    _ = 2 ^ (400 + p) := by congr 1; omega

/-- The evaluation of the reciprocal root of an F32 number, and how little of it is lost. -/
theorem rsqrtValue_near {m : ℕ} (hm : m ≠ 0) (hlt : m < 2 ^ 24) (e : ℤ) :
    let y := 1 / √(m * (2 : ℝ) ^ e)
    let v := (trueValue 0x48 m false e).toReal
    0 ≤ v ∧ v ≤ y ∧ |v - y| ≤ (2 : ℝ) ^ (-164 : ℤ) * ulpAt y := by
  intro y v
  obtain ⟨h, p, hp, rfl⟩ : ∃ h : ℤ, ∃ p : ℕ, (e % 2).toNat = p ∧ e = 2 * h + p := ⟨e / 2, _, rfl, by omega⟩
  obtain ⟨hlo, hhi⟩ := sqrt_div_mem (2 ^ (400 + p)) hm
  have hv : v = isqrt (2 ^ (400 + p) / m) * (2 : ℝ) ^ (-200 - p - h) := by
    simp only [v, trueValue, hp, toReal_ofSigned, Int.cast_natCast]
    congr 2
    omega
  have hbig : (2 : ℝ) ^ 188 ≤ isqrt (2 ^ (400 + p) / m) := by exact_mod_cast two_pow_le_isqrt_div hm hlt p
  have hunit : (0 : ℝ) < (2 : ℝ) ^ (-200 - p - h) := zpow_pos two_pos _
  rw [hv, show y = _ from one_div_sqrt_eq m p h]
  generalize (2 : ℝ) ^ (-200 - p - h) = unit at hunit
  generalize √(((2 ^ (400 + p) : ℕ) : ℝ) / m) = root at hlo hhi
  generalize (isqrt (2 ^ (400 + p) / m) : ℝ) = s at hlo hhi hbig
  have hle : s * unit ≤ root * unit := mul_le_mul_of_nonneg_right hlo hunit.le
  have hgap : unit ≤ (2 : ℝ) ^ (-164 : ℤ) * ulpAt (root * unit) := by
    have hulp := (le_abs_self _).trans (abs_le_ulpAt (root * unit))
    have hscale : (2 : ℝ) ^ 188 * unit ≤ 2 ^ 24 * ulpAt (root * unit) := (mul_le_mul_of_nonneg_right hbig hunit.le).trans (hle.trans hulp)
    norm_num at hscale ⊢
    linarith
  refine ⟨by nlinarith, hle, abs_le.mpr ⟨?_, ?_⟩⟩ <;> nlinarith

/-- R208: a result within an ulp of the evaluation of the reciprocal root is within an ulp of the exact one, but for the slack. -/
theorem rsqrt_near {r m : ℕ} (hm : m ≠ 0) (hlt : m < 2 ^ 24) {e : ℤ}
    (h : F32Near r (trueValue 0x48 m false e).toReal (approxBound 1 false (trueValue 0x48 m false e).toReal)) :
    F32Near r (1 / √(m * (2 : ℝ) ^ e)) ((1 + (2 : ℝ) ^ (-100 : ℤ)) * ulpAt (1 / √(m * (2 : ℝ) ^ e))) := by
  obtain ⟨hnonneg, hle, hlost⟩ := rsqrtValue_near hm hlt e
  generalize (trueValue 0x48 m false e).toReal = v at *
  generalize 1 / √(m * (2 : ℝ) ^ e) = y at *
  have hulp : ulpAt v ≤ ulpAt y := ulpAt_mono (by rwa [abs_of_nonneg hnonneg, abs_of_nonneg (hnonneg.trans hle)])
  refine h.trans ?_
  rw [approxBound_no_floor, Nat.cast_one, one_mul]
  have hpos := ulpAt_pos y
  norm_num at hlost ⊢
  linarith

/-- The reciprocal root of an F32 number is far from overflow. -/
theorem rsqrtValue_lt_overflowPoint {m : ℕ} (hm : m ≠ 0) (hlt : m < 2 ^ 24) {e : ℤ} (he : -149 ≤ e) :
    |(trueValue 0x48 m false e).toReal| < overflowPoint := by
  obtain ⟨hnonneg, hle, -⟩ := rsqrtValue_near hm hlt e
  have hone : (1 : ℝ) ≤ m := by exact_mod_cast Nat.pos_of_ne_zero hm
  have hroot : (2 : ℝ) ^ (-75 : ℤ) ≤ √(m * (2 : ℝ) ^ e) := by
    calc (2 : ℝ) ^ (-75 : ℤ) = √(1 * (2 : ℝ) ^ (2 * (-75) : ℤ)) := by rw [sqrt_mul_zpow 1 zero_le_one, Real.sqrt_one, one_mul]
      _ ≤ √(m * (2 : ℝ) ^ e) := by
        apply Real.sqrt_le_sqrt
        gcongr
        · exact one_le_two
        · omega
  rw [abs_of_nonneg hnonneg]
  calc _ ≤ 1 / √(m * (2 : ℝ) ^ e) := hle
    _ ≤ 1 / (2 : ℝ) ^ (-75 : ℤ) := one_div_le_one_div_of_le (zpow_pos two_pos _) hroot
    _ < overflowPoint := by norm_num [overflowPoint]

end Sys2Proof.Machine
end

section
/-!
What each unary function does with an F32 number (spec/10, R208): one equation for each case of the model.
-/
namespace Sys2Proof.Machine

/-- The magnitude of a function with a limit at a number: 0 or 1 at 0, and an approximated result of the magnitude elsewhere. -/
def limitedMagnitude (op w m : ℕ) (e : ℤ) : ℕ :=
  if m = 0 then (if op = 0x4F then 0x3F800000 else 0) else approxResult op (w % 2 ^ 31) 2 true true (trueValue op m false e)

theorem unaryFloat_nan {w : ℕ} (h : f32.decode w = .nan) (op : ℕ) : unaryFloat op w = 0x7FC00000 := by
  simp only [unaryFloat, h]
  rfl

section
variable {w m : ℕ} {n : Bool} {e : ℤ} (h : f32.decode w = .fin n m e)
include h

section
variable (hm : m ≠ 0)
include hm

theorem unaryFloat_rcp : unaryFloat 0x47 w = f32.rne (recipOf n m e) := by
  obtain ⟨m, rfl⟩ := Nat.exists_eq_succ_of_ne_zero hm
  simp only [unaryFloat, h]

theorem unaryFloat_rsq : unaryFloat 0x48 w = if n then 0x7FC00000 else approxResult 0x48 w 1 false false (trueValue 0x48 m n e) := by
  obtain ⟨m, rfl⟩ := Nat.exists_eq_succ_of_ne_zero hm
  simp only [unaryFloat, h]
  rfl

theorem unaryFloat_sqrt : unaryFloat 0x49 w = if n then 0x7FC00000 else f32.rne (sqrtOf m e) := by
  obtain ⟨m, rfl⟩ := Nat.exists_eq_succ_of_ne_zero hm
  simp only [unaryFloat, h]
  rfl

theorem unaryFloat_exp2 : unaryFloat 0x4A w =
    if !(Val.fin n m e).lt (.fin false 128 0) then 0x7F800000
    else if !(Val.fin true 150 0).lt (.fin n m e) then 0
    else if m % 2 ^ (-e).toNat = 0 ∧ -149 ≤ signedAt n m e (min e 0) / 2 ^ (-(min e 0)).toNat then
      f32.rne (.fin false 1 (signedAt n m e (min e 0) / 2 ^ (-(min e 0)).toNat))
    else approxResult 0x4A w 1 false false (trueValue 0x4A m n e) := by
  obtain ⟨m, rfl⟩ := Nat.exists_eq_succ_of_ne_zero hm
  simp only [unaryFloat, h]
  rfl

theorem unaryFloat_log2 : unaryFloat 0x4B w =
    if n then 0x7FC00000
    else if m = 2 ^ Nat.log2 m then f32.rne (ofSigned ((Nat.log2 m : ℤ) + e) 0)
    else approxResult 0x4B w 1 true false (trueValue 0x4B m n e) := by
  obtain ⟨m, rfl⟩ := Nat.exists_eq_succ_of_ne_zero hm
  simp only [unaryFloat, h]
  rfl

/-- FRSQ, FSQRT and FLOG2 give a NaN below zero. -/
theorem unaryFloat_below_zero {op : ℕ} (hop : op = 0x48 ∨ op = 0x49 ∨ op = 0x4B) (hn : n = true) : unaryFloat op w = 0x7FC00000 := by
  rcases hop with rfl | rfl | rfl
  · rw [unaryFloat_rsq h hm, if_pos hn]
  · rw [unaryFloat_sqrt h hm, if_pos hn]
  · rw [unaryFloat_log2 h hm, if_pos hn]

end

/-- FTANH, FERF and FSIN give a result of the operand's magnitude, under the operand's sign. -/
theorem unaryFloat_odd {op : ℕ} (hop : op = 0x4C ∨ op = 0x4D ∨ op = 0x4E) :
    unaryFloat op w = if n then limitedMagnitude op w m e ^^^ 2 ^ 31 else limitedMagnitude op w m e := by
  cases m with
  | zero =>
    have hpack : unaryFloat op w = f32.pack n 0 := by rcases hop with rfl | rfl | rfl <;> simp only [unaryFloat, h]
    have hzero : limitedMagnitude op w 0 e = 0 := by rw [limitedMagnitude, if_pos rfl, if_neg (by omega)]
    rw [hpack, hzero]
    cases n <;> rfl
  | succ m => rcases hop with rfl | rfl | rfl <;> simp only [unaryFloat, h, limitedMagnitude, if_neg m.succ_ne_zero]

/-- FCOS gives a result of the operand's magnitude. -/
theorem unaryFloat_cos : unaryFloat 0x4F w = limitedMagnitude 0x4F w m e := by
  cases m with
  | zero => simp only [unaryFloat, h]; rfl
  | succ m => simp only [unaryFloat, h, limitedMagnitude, if_neg m.succ_ne_zero]

end

/-! ### Signs -/

/-- Inverting the sign bit of a finite encoding inverts the number's sign. -/
theorem f32_decode_xor_sign {w m : ℕ} {n : Bool} {e : ℤ} (h : f32.decode w = .fin n m e) : f32.decode (w ^^^ 2 ^ 31) = .fin (!n) m e := by
  have hmag : (w ^^^ 2 ^ 31) % 2 ^ 31 = w % 2 ^ 31 := by rw [Nat.xor_mod_two_pow, Nat.mod_self, Nat.xor_zero]
  have hbit : bit (w ^^^ 2 ^ 31) 31 = !bit w 31 := by
    rw [bit_eq_testBit, bit_eq_testBit, Nat.testBit_xor, Nat.testBit_two_pow_self, Bool.xor_true]
  rw [f32_decode] at h ⊢
  rw [hmag, hbit]
  split at h
  case isTrue hle =>
    rw [if_pos hle]
    split at h <;> obtain ⟨rfl, rfl, rfl⟩ := Val.fin.inj h
    · rw [if_pos (by assumption)]
    · rw [if_neg (by assumption)]
  case isFalse => split at h <;> cases h

theorem limitedMagnitude_xor_sign (op w m : ℕ) (e : ℤ) : limitedMagnitude op (w ^^^ 2 ^ 31) m e = limitedMagnitude op w m e := by
  rw [limitedMagnitude, Nat.xor_mod_two_pow, Nat.mod_self, Nat.xor_zero, limitedMagnitude]

/-- R208: FTANH, FERF and FSIN are odd bit for bit. -/
theorem unaryFloat_xor_sign_odd {op w : ℕ} (hop : op = 0x4C ∨ op = 0x4D ∨ op = 0x4E) (hw : (f32.decode w).Finite) :
    unaryFloat op (w ^^^ 2 ^ 31) = unaryFloat op w ^^^ 2 ^ 31 := by
  obtain ⟨n, m, e, h⟩ := hw
  rw [unaryFloat_odd h hop, unaryFloat_odd (f32_decode_xor_sign h) hop, limitedMagnitude_xor_sign]
  cases n with
  | false => rfl
  | true => simp

/-- R208: FCOS is even bit for bit. -/
theorem unaryFloat_xor_sign_cos {w : ℕ} (hw : (f32.decode w).Finite) : unaryFloat 0x4F (w ^^^ 2 ^ 31) = unaryFloat 0x4F w := by
  obtain ⟨n, m, e, h⟩ := hw
  rw [unaryFloat_cos h, unaryFloat_cos (f32_decode_xor_sign h), limitedMagnitude_xor_sign]

/-- A result of a positive magnitude, under the limit, lies within 2 ulps or 2^-24 of the model's evaluation. -/
theorem limitedMagnitude_near {op : ℕ} (hop : IsLimited op) (w : ℕ) {m : ℕ} (hm : m ≠ 0) (e : ℤ) :
    F32Near (limitedMagnitude op w m e) (trueValue op m false e).toReal (approxBound 2 true (trueValue op m false e).toReal) := by
  rw [limitedMagnitude, if_neg hm]
  exact approxResult_near op _ one_le_two true true (trueValue_finite op m false e)
    ((abs_toReal_trueValue_le_one hop m false e).trans_lt one_lt_overflowPoint)

theorem f32_decode_zero : f32.decode 0 = .fin false 0 (-149) := by decide

theorem f32_decode_one : f32.decode 0x3F800000 = .fin false (2 ^ 23) (-23) := by decide

/-- The magnitude is that of a number of at most 1. -/
theorem limitedMagnitude_le_one {op : ℕ} (hop : IsLimited op) (w m : ℕ) (e : ℤ) :
    (f32.decode (limitedMagnitude op w m e)).Finite ∧ |(f32.decode (limitedMagnitude op w m e)).toReal| ≤ 1 := by
  rcases eq_or_ne m 0 with rfl | hm
  · rw [limitedMagnitude, if_pos rfl]
    split
    · exact ⟨⟨_, _, _, f32_decode_one⟩, abs_toReal_decode_le_one (by decide)⟩
    · exact ⟨⟨_, _, _, f32_decode_zero⟩, abs_toReal_decode_le_one (by decide)⟩
  · refine ⟨(limitedMagnitude_near hop w hm e).1, ?_⟩
    rw [limitedMagnitude, if_neg hm]
    exact abs_toReal_approxResult_le_one _ _ _ _ (trueValue_finite op m false e) (abs_toReal_trueValue_le_one hop m false e)

/-- R208: FTANH, FERF, FSIN and FCOS give no magnitude above 1. -/
theorem unaryFloat_limited_le_one {op w : ℕ} (hop : IsLimited op) (hw : (f32.decode w).Finite) :
    (f32.decode (unaryFloat op w)).Finite ∧ |(f32.decode (unaryFloat op w)).toReal| ≤ 1 := by
  obtain ⟨n, m, e, h⟩ := hw
  have hmag := limitedMagnitude_le_one hop w m e
  by_cases hcos : op = 0x4F
  · subst hcos
    rwa [unaryFloat_cos h]
  · rw [unaryFloat_odd h (by unfold IsLimited at hop; tauto)]
    cases n with
    | false => exact hmag
    | true =>
      obtain ⟨⟨n', m', e', hdec⟩, hle⟩ := hmag
      rw [if_pos rfl, f32_decode_xor_sign hdec]
      rw [hdec] at hle
      exact ⟨Val.finite_fin _ _ _, by rwa [Val.abs_toReal_fin] at hle ⊢⟩

/-- R208: at a positive number FTANH, FERF, FSIN and FCOS lie within 2 ulps or 2^-24. -/
theorem unaryFloat_limited_near {op w m : ℕ} {e : ℤ} (hop : IsLimited op) (h : f32.decode w = .fin false m e) (hm : m ≠ 0) :
    F32Near (unaryFloat op w) (trueValue op m false e).toReal (approxBound 2 true (trueValue op m false e).toReal) := by
  have hmag := limitedMagnitude_near hop w hm e
  by_cases hcos : op = 0x4F
  · subst hcos
    rwa [unaryFloat_cos h]
  · rwa [unaryFloat_odd h (by unfold IsLimited at hop; tauto)]

/-! ### Reciprocals and roots -/

/-- The reciprocal of a number: its sign, and the reciprocal of its magnitude. -/
theorem one_div_toReal (n : Bool) (m : ℕ) (e : ℤ) : 1 / (Val.fin n m e).toReal = signFactor n * (1 / (m * (2 : ℝ) ^ e)) := by
  cases n <;> simp [signFactor]

theorem abs_one_div_toReal (n : Bool) (m : ℕ) (e : ℤ) : |1 / (Val.fin n m e).toReal| = 1 / (m * (2 : ℝ) ^ e) := by
  rw [abs_div, abs_one, Val.abs_toReal_fin]

section
variable {w m : ℕ} {n : Bool} {e : ℤ} (h : f32.decode w = .fin n m e) (hm : m ≠ 0)
include h hm

/-- R208: FRCP is correctly rounded. -/
theorem unaryFloat_rcp_near (hlim : |1 / (f32.decode w).toReal| < overflowPoint) :
    F32Near (unaryFloat 0x47 w) (1 / (f32.decode w).toReal) (ulpAt (1 / (f32.decode w).toReal) / 2) := by
  rw [h] at hlim ⊢
  have hulp : ulpAt (1 / (Val.fin n m e).toReal) = ulpAt (1 / (m * (2 : ℝ) ^ e)) := by
    apply ulpAt_of_abs_eq
    rw [abs_one_div_toReal, abs_of_nonneg (by positivity)]
  rw [abs_one_div_toReal] at hlim
  rw [unaryFloat_rcp h hm, hulp, one_div_toReal]
  exact (recipOf_stands n hm e).f32_rne_near hlim

/-- R208: beyond the range FRCP gives an infinity. -/
theorem unaryFloat_rcp_inf (hlim : overflowPoint ≤ |1 / (f32.decode w).toReal|) : f32.decode (unaryFloat 0x47 w) = .inf n := by
  rw [h, abs_one_div_toReal] at hlim
  rw [unaryFloat_rcp h hm]
  exact (recipOf_stands n hm e).f32_rne_inf hlim

end

theorem toReal_fin_false (m : ℕ) (e : ℤ) : (Val.fin false m e).toReal = m * (2 : ℝ) ^ e := by simp [signFactor]

/-- The root of an F32 number is far from overflow. -/
theorem sqrt_lt_overflowPoint {m : ℕ} (hlt : m < 2 ^ 24) {e : ℤ} (he : e ≤ 104) : √(m * (2 : ℝ) ^ e) < overflowPoint := by
  have hm : (m : ℝ) ≤ 2 ^ 24 := by exact_mod_cast hlt.le
  have hle : m * (2 : ℝ) ^ e ≤ 1 * (2 : ℝ) ^ (2 * 64 : ℤ) :=
    calc m * (2 : ℝ) ^ e ≤ 2 ^ 24 * (2 : ℝ) ^ (104 : ℤ) := by
          gcongr
          exact one_le_two
      _ = 1 * (2 : ℝ) ^ (2 * 64 : ℤ) := by norm_num
  calc √(m * (2 : ℝ) ^ e) ≤ √(1 * (2 : ℝ) ^ (2 * 64 : ℤ)) := Real.sqrt_le_sqrt hle
    _ = (2 : ℝ) ^ (64 : ℤ) := by rw [sqrt_mul_zpow 1 zero_le_one, Real.sqrt_one, one_mul]
    _ < overflowPoint := by norm_num [overflowPoint]

section
variable {w m : ℕ} {e : ℤ} (h : f32.decode w = .fin false m e) (hm : m ≠ 0)
include h hm

/-- R208: FSQRT is correctly rounded. -/
theorem unaryFloat_sqrt_near : F32Near (unaryFloat 0x49 w) (√(f32.decode w).toReal) (ulpAt (√(f32.decode w).toReal) / 2) := by
  obtain ⟨-, -, hlt, -, he⟩ := f32_decode_fin h
  have hnear := (sqrtOf_stands hm e).f32_rne_near (sqrt_lt_overflowPoint hlt he)
  rw [unaryFloat_sqrt h hm, if_neg Bool.false_ne_true, h, toReal_fin_false]
  rwa [signFactor, if_neg Bool.false_ne_true, one_mul] at hnear

/-- R208: FRSQ lies within 1 ulp, but for the slack. -/
theorem unaryFloat_rsq_near :
    F32Near (unaryFloat 0x48 w) (1 / √(f32.decode w).toReal) ((1 + (2 : ℝ) ^ (-100 : ℤ)) * ulpAt (1 / √(f32.decode w).toReal)) := by
  obtain ⟨-, -, hlt, he, -⟩ := f32_decode_fin h
  rw [unaryFloat_rsq h hm, if_neg Bool.false_ne_true, h, toReal_fin_false]
  exact rsqrt_near hm hlt (approxResult_near 0x48 w le_rfl false false (trueValue_finite _ _ _ _) (rsqrtValue_lt_overflowPoint hm hlt he))

end

end Sys2Proof.Machine
end

section
/-!
FEXP2 and FLOG2 (spec/10, R208): the ends of FEXP2's range, the numbers at which both are exact, and the bounds elsewhere.
-/
namespace Sys2Proof.Machine

theorem toReal_128 : (Val.fin false 128 0).toReal = 128 := by simp [signFactor]

theorem toReal_neg_150 : (Val.fin true 150 0).toReal = -150 := by simp [signFactor]

theorem zpow_lt_overflowPoint {k : ℤ} (hk : k < 128) : (2 : ℝ) ^ k < overflowPoint :=
  calc (2 : ℝ) ^ k ≤ (2 : ℝ) ^ (127 : ℤ) := zpow_le_zpow_right₀ one_le_two (by omega)
    _ < overflowPoint := by norm_num [overflowPoint]

/-- The signed numerator at the units of a value or at 1, as a multiple of a power of two, where the value is an integer. -/
theorem signedAt_eq_of_toReal_eq {n : Bool} {m : ℕ} {e k : ℤ} (hk : (Val.fin n m e).toReal = k) :
    signedAt n m e (min e 0) = k * 2 ^ (-(min e 0)).toNat := by
  have hval := signedAt_mul_zpow n m (min_le_left e 0)
  have hpow : ((2 ^ (0 - min e 0).toNat : ℕ) : ℝ) = (2 : ℝ) ^ (0 - min e 0) := two_pow_toNat_sub (min_le_right e 0)
  have hreal : (signedAt n m e (min e 0) : ℝ) = k * (2 ^ (0 - min e 0).toNat : ℕ) := by
    rw [hpow, ← hk, ← hval, mul_assoc, ← zpow_add₀ two_ne_zero, add_sub_cancel, zpow_zero, mul_one]
  rw [← zero_sub]
  exact_mod_cast hreal

theorem signedAt_div_of_toReal_eq {n : Bool} {m : ℕ} {e k : ℤ} (hk : (Val.fin n m e).toReal = k) :
    signedAt n m e (min e 0) / 2 ^ (-(min e 0)).toNat = k := by
  rw [signedAt_eq_of_toReal_eq hk, Int.mul_ediv_cancel k (pow_ne_zero _ two_ne_zero)]

/-- A value is an integer where its numerator has no bits below 1. -/
theorem mod_eq_zero_iff_toReal_int (n : Bool) (m : ℕ) (e : ℤ) : m % 2 ^ (-e).toNat = 0 ↔ ∃ k : ℤ, (Val.fin n m e).toReal = k := by
  constructor
  · intro hmod
    obtain ⟨c, rfl⟩ := Nat.dvd_of_mod_eq_zero hmod
    have hint : ((2 ^ (-e).toNat * c : ℕ) : ℝ) * (2 : ℝ) ^ e = (c * 2 ^ e.toNat : ℕ) := by
      have hscale : ((2 ^ (-e).toNat : ℕ) : ℝ) * (2 : ℝ) ^ e = (2 ^ e.toNat : ℕ) := by
        rw [Nat.cast_pow, Nat.cast_pow, Nat.cast_ofNat, ← zpow_natCast, ← zpow_natCast, ← zpow_add₀ two_ne_zero]
        congr 1
        omega
      rw [Nat.cast_mul, mul_right_comm, hscale, Nat.cast_mul, mul_comm]
    refine ⟨(if n then -1 else 1) * (c * 2 ^ e.toNat : ℕ), ?_⟩
    rw [Val.toReal_fin, mul_assoc, hint]
    cases n <;> simp [signFactor]
  · rintro ⟨k, hk⟩
    rcases le_or_gt 0 e with hpos | hneg
    · rw [Int.toNat_of_nonpos (by omega), pow_zero, Nat.mod_one]
    · have habs := congrArg Int.natAbs (signedAt_eq_of_toReal_eq hk)
      rw [min_eq_left hneg.le, Int.natAbs_mul] at habs
      have hm : m = k.natAbs * 2 ^ (-e).toNat := by
        cases n <;> simpa [signedAt, Int.natAbs_mul, Int.natAbs_pow] using habs
      rw [hm, Nat.mul_mod_left]

/-- A finite number that is not zero has a numerator that is not zero. -/
theorem ne_zero_of_toReal_ne_zero {n : Bool} {m : ℕ} {e : ℤ} (h : (Val.fin n m e).toReal ≠ 0) : m ≠ 0 := by
  rintro rfl
  simp at h

/-- R208: FEXP2 gives an infinity from 128 on. -/
theorem unaryFloat_exp2_large {w : ℕ} (hw : (f32.decode w).Finite) (hx : 128 ≤ (f32.decode w).toReal) : unaryFloat 0x4A w = 0x7F800000 := by
  obtain ⟨n, m, e, h⟩ := hw
  rw [h] at hx
  rw [unaryFloat_exp2 h (ne_zero_of_toReal_ne_zero (by linarith)), if_pos]
  rw [Bool.not_eq_true', ← Bool.not_eq_true, Val.fin_lt_fin_iff, toReal_128]
  exact not_lt.mpr hx

/-- R208: FEXP2 gives zero from -150 down. -/
theorem unaryFloat_exp2_small {w : ℕ} (hw : (f32.decode w).Finite) (hx : (f32.decode w).toReal ≤ -150) : unaryFloat 0x4A w = 0 := by
  obtain ⟨n, m, e, h⟩ := hw
  rw [h] at hx
  rw [unaryFloat_exp2 h (ne_zero_of_toReal_ne_zero (by linarith)), if_neg, if_pos]
  · rw [Bool.not_eq_true', ← Bool.not_eq_true, Val.fin_lt_fin_iff, toReal_neg_150]
    exact not_lt.mpr hx
  · rw [Bool.not_eq_true', Bool.not_eq_false, Val.fin_lt_fin_iff, toReal_128]
    linarith

section
variable {w m : ℕ} {n : Bool} {e : ℤ} (h : f32.decode w = .fin n m e) (hm : m ≠ 0)
include h hm

variable (hlo : -150 < (f32.decode w).toReal) (hhi : (f32.decode w).toReal < 128)
include hlo hhi

/-- Between its ends FEXP2 takes an integer whose power is representable to that power, and any other number to an approximation. -/
theorem unaryFloat_exp2_mid :
    unaryFloat 0x4A w = if m % 2 ^ (-e).toNat = 0 ∧ -149 ≤ signedAt n m e (min e 0) / 2 ^ (-(min e 0)).toNat then
        f32.rne (.fin false 1 (signedAt n m e (min e 0) / 2 ^ (-(min e 0)).toNat))
      else approxResult 0x4A w 1 false false (trueValue 0x4A m n e) := by
  rw [unaryFloat_exp2 h hm, if_neg, if_neg]
  · rwa [Bool.not_eq_true', Bool.not_eq_false, Val.fin_lt_fin_iff, toReal_neg_150, ← h]
  · rwa [Bool.not_eq_true', Bool.not_eq_false, Val.fin_lt_fin_iff, toReal_128, ← h]

/-- R208: between integers FEXP2 lies within an ulp. -/
theorem unaryFloat_exp2_near (hint : ∀ k : ℤ, (f32.decode w).toReal ≠ k) (hlim : |(trueValue 0x4A m n e).toReal| < overflowPoint) :
    F32Near (unaryFloat 0x4A w) (trueValue 0x4A m n e).toReal (approxBound 1 false (trueValue 0x4A m n e).toReal) := by
  rw [unaryFloat_exp2_mid h hm hlo hhi, if_neg]
  · exact approxResult_near _ _ le_rfl _ _ (trueValue_finite _ _ _ _) hlim
  · rintro ⟨hmod, -⟩
    obtain ⟨k, hk⟩ := (mod_eq_zero_iff_toReal_int n m e).mp hmod
    exact hint k (h ▸ hk)

end

/-- R208: FEXP2 is exact at an integer whose power is representable. -/
theorem unaryFloat_exp2_int {w : ℕ} {k : ℤ} (hw : (f32.decode w).Finite) (hk : (f32.decode w).toReal = k) (hlo : -149 ≤ k) (hhi : k < 128) :
    F32Is (unaryFloat 0x4A w) ((2 : ℝ) ^ k) := by
  obtain ⟨n, m, e, h⟩ := hw
  rcases eq_or_ne m 0 with rfl | hm
  · obtain rfl : k = 0 := by simpa [h, eq_comm] using hk
    have hone : unaryFloat 0x4A w = 0x3F800000 := by simp only [unaryFloat, h]; rfl
    rw [hone]
    exact ⟨⟨_, _, _, f32_decode_one⟩, by rw [f32_decode_one]; norm_num [signFactor]⟩
  · have hlo' : (-149 : ℝ) ≤ k := by exact_mod_cast hlo
    have hhi' : (k : ℝ) < 128 := by exact_mod_cast hhi
    have hmid := unaryFloat_exp2_mid h hm (by linarith) (by linarith)
    rw [h] at hk
    rw [hmid, signedAt_div_of_toReal_eq hk, if_pos ⟨(mod_eq_zero_iff_toReal_int n m e).mpr ⟨k, hk⟩, hlo⟩]
    have his := f32_rne_exact false (m := 1) (by norm_num) hlo (by rw [Nat.cast_one, one_mul]; exact zpow_lt_overflowPoint hhi)
    simpa [signFactor] using his

/-- A power of two names the leading bit of its numerator, which has no other. -/
theorem log2_of_mul_zpow_eq {m : ℕ} (hm : m ≠ 0) {e k : ℤ} (h : m * (2 : ℝ) ^ e = (2 : ℝ) ^ k) :
    (Nat.log2 m : ℤ) + e = k ∧ m = 2 ^ Nat.log2 m := by
  have hlo := (StandsFor.refl m).zpow_le hm e
  have hhi := (StandsFor.refl m).lt_zpow e
  rw [h] at hlo hhi
  have hlog : (Nat.log2 m : ℤ) + e = k := by
    have h1 := (zpow_le_zpow_iff_right₀ (one_lt_two (α := ℝ))).mp hlo
    have h2 := (zpow_lt_zpow_iff_right₀ (one_lt_two (α := ℝ))).mp hhi
    omega
  refine ⟨hlog, ?_⟩
  rw [← hlog, zpow_add₀ two_ne_zero, zpow_natCast] at h
  exact_mod_cast mul_right_cancel₀ (zpow_ne_zero e two_ne_zero) h

/-- R208: FLOG2 is exact at a power of two. -/
theorem unaryFloat_log2_two_pow {w : ℕ} {k : ℤ} (hw : (f32.decode w).Finite) (hk : (f32.decode w).toReal = (2 : ℝ) ^ k) :
    F32Is (unaryFloat 0x4B w) k := by
  obtain ⟨n, m, e, h⟩ := hw
  rw [h] at hk
  have hpos : 0 < (Val.fin n m e).toReal := hk ▸ zpow_pos two_pos k
  obtain rfl : n = false := by
    cases n with
    | false => rfl
    | true =>
      have : 0 ≤ (m : ℝ) * (2 : ℝ) ^ e := by positivity
      rw [Val.toReal_fin, signFactor, if_pos rfl] at hpos
      linarith
  have hm : m ≠ 0 := ne_zero_of_toReal_ne_zero hpos.ne'
  obtain ⟨hlog, hpow⟩ := log2_of_mul_zpow_eq hm ((toReal_fin_false m e).symm.trans hk)
  obtain ⟨-, -, hlt, hlo, hhi⟩ := f32_decode_fin h
  have hlog24 : Nat.log2 m < 24 := (Nat.log2_lt hm).mpr hlt
  rw [unaryFloat_log2 h hm, if_neg Bool.false_ne_true, if_pos hpow, hlog, ofSigned]
  have his := f32_rne_exact (decide (k < 0)) (m := k.natAbs) (by omega) (e := 0) (by omega) (by
    have : (k.natAbs : ℝ) ≤ 149 := by exact_mod_cast (by omega : k.natAbs ≤ 149)
    rw [zpow_zero, mul_one]
    exact this.trans_lt (by norm_num [overflowPoint]))
  have hval := toReal_ofSigned k 0
  rw [ofSigned, zpow_zero, mul_one] at hval
  rwa [hval] at his

/-- R208: elsewhere FLOG2 lies within an ulp or 2^-24. -/
theorem unaryFloat_log2_near {w m : ℕ} {e : ℤ} (h : f32.decode w = .fin false m e) (hm : m ≠ 0)
    (hpow : ∀ k : ℤ, (f32.decode w).toReal ≠ (2 : ℝ) ^ k) (hlim : |(trueValue 0x4B m false e).toReal| < overflowPoint) :
    F32Near (unaryFloat 0x4B w) (trueValue 0x4B m false e).toReal (approxBound 1 true (trueValue 0x4B m false e).toReal) := by
  have hne : m ≠ 2 ^ Nat.log2 m := by
    intro heq
    refine hpow (Nat.log2 m + e) ?_
    have hcast : (m : ℝ) = (2 : ℝ) ^ Nat.log2 m := by exact_mod_cast heq
    rw [h, toReal_fin_false, hcast, zpow_add₀ two_ne_zero, zpow_natCast]
  rw [unaryFloat_log2 h hm, if_neg Bool.false_ne_true, if_neg hne]
  exact approxResult_near _ _ le_rfl _ _ (trueValue_finite _ _ _ _) hlim

end Sys2Proof.Machine
end

section
/-!
The unary float instructions (spec/10, R208 and R209).
-/
namespace Sys2Proof.Machine

/-- An instruction whose meaning is the unary function of its opcode computes that function of each lane's source. -/
theorem computes_unaryFloat {ins : Instr} {op : BitVec 8} {f : Fields} {n : ℕ} (hn : op.toNat = n) (hw : wordOf ins = some (op, f))
    (he : ∀ s, exec ins s = issueOn op.toNat f bodyUnary s) :
    Computes ins (fun _ w => [BitVec.ofNat 32 (unaryFloat n (nth w 0 0#32).toNat)]) := by
  refine computes_of (h := fun i ws => [w32 (unaryFloat i.op (nth ws 0 0#32).toNat)]) (fun op' f' s hw' => ?_) (fun op' f' i w hw' hop _ => ?_)
  · obtain ⟨rfl, rfl⟩ : op = op' ∧ f = f' := by simpa [hw] using hw'
    exact he s
  · obtain ⟨rfl, -⟩ : op = op' ∧ f = f' := by simpa [hw] using hw'
    rw [hop, hn, w32]

/-- The word with its sign bit inverted, as a number. -/
theorem toNat_xor_sign (w : Word) : (w ^^^ 0x80000000#32).toNat = w.toNat ^^^ 2 ^ 31 := BitVec.toNat_xor w _

theorem ofNat_xor_sign (r : ℕ) : BitVec.ofNat 32 (r ^^^ 2 ^ 31) = BitVec.ofNat 32 r ^^^ 0x80000000#32 := BitVec.ofNat_xor

/-- The results of a list of operations and operands, from their evaluation. -/
theorem unaryFloat_of_mem {l : List (ℕ × Word × Word)} (hl : l.all (fun x => BitVec.ofNat 32 (unaryFloat x.1 x.2.1.toNat) == x.2.2) = true)
    {op : ℕ} {a r : Word} (h : (op, a, r) ∈ l) : BitVec.ofNat 32 (unaryFloat op a.toNat) = r :=
  eq_of_beq (List.all_eq_true.mp hl _ h)

/-- Whether a value lies within 10^-40 of a number of 40 decimals. -/
def isPinned (v : Val) (x : ℤ) : Bool := match v with
  | .fin n m e => decide (((if n then -1 else 1) * m * 10 ^ 40 * 2 ^ (e + 400).toNat - x * 2 ^ 400 : ℤ).natAbs ≤ 2 ^ 400)
  | _ => false

/-- The values that a list of operands is evaluated to, from their evaluation. -/
theorem isPinned_of_mem {l : List (ℕ × ℕ × Bool × ℤ × ℤ)}
    (hl : l.all (fun y => isPinned (trueValue y.1 y.2.1 y.2.2.1 y.2.2.2.1) y.2.2.2.2) = true) {op m : ℕ} {n : Bool} {e x : ℤ}
    (h : (op, m, n, e, x) ∈ l) : isPinned (trueValue op m n e) x = true :=
  List.all_eq_true.mp hl _ h

/-- Settles O10. FRCP and FSQRT round a value that stands for the exact one; an approximated result is admitted by its bound or is the nearest
number, so that it obeys R208 whatever the free choice names. -/
theorem unaryFloatResults : Obligations.UnaryFloatResults := by
  unfold Obligations.UnaryFloatResults
  intro f u d q finite ulp near floored bound pinned
  have hd : ∀ op w, d (f op w) = f32.decode (unaryFloat op w.toNat) := fun _ _ => f32_decode_toNat_ofNat _
  have hq : q = Val.toReal := by funext v; cases v <;> rfl
  have hnear : ∀ {op w y b}, F32Near (unaryFloat op w.toNat) y b → near (f op w) y b := by
    intro op w y b h
    show (d (f op w)).Finite ∧ |q (d (f op w)) - y| ≤ b
    rwa [hd, hq]
  have hexp2 : ∀ y, approxBound 1 false y = bound 0x4A y := fun y => by
    rw [approxBound_no_floor, Nat.cast_one, one_mul]; rfl
  have hlog2 : ∀ y, approxBound 1 true y = bound 0x4B y := fun y => by
    rw [approxBound, Nat.cast_one, one_mul]; rfl
  have hlimited : ∀ op y, floored op → approxBound 2 true y = bound op y := by
    rintro op y (rfl | rfl | rfl | rfl) <;> rfl
  have hpinned : ∀ {v x}, isPinned v x = true → pinned v x := by
    intro v x h
    cases v with
    | fin n m e => exact of_decide_eq_true h
    | inf n => cases h
    | nan => cases h
  clear_value q
  subst hq
  refine ⟨
    fun _ => computes_unaryFloat (op := 0x47) rfl rfl (fun _ => rfl), fun _ _ _ => computes_unaryFloat (op := 0x47) rfl rfl (fun _ => rfl),
    fun _ => computes_unaryFloat (op := 0x48) rfl rfl (fun _ => rfl), fun _ _ _ => computes_unaryFloat (op := 0x48) rfl rfl (fun _ => rfl),
    fun _ => computes_unaryFloat (op := 0x49) rfl rfl (fun _ => rfl), fun _ _ _ => computes_unaryFloat (op := 0x49) rfl rfl (fun _ => rfl),
    fun _ => computes_unaryFloat (op := 0x4A) rfl rfl (fun _ => rfl), fun _ _ _ => computes_unaryFloat (op := 0x4A) rfl rfl (fun _ => rfl),
    fun _ => computes_unaryFloat (op := 0x4B) rfl rfl (fun _ => rfl), fun _ _ _ => computes_unaryFloat (op := 0x4B) rfl rfl (fun _ => rfl),
    fun _ => computes_unaryFloat (op := 0x4C) rfl rfl (fun _ => rfl), fun _ _ _ => computes_unaryFloat (op := 0x4C) rfl rfl (fun _ => rfl),
    fun _ => computes_unaryFloat (op := 0x4D) rfl rfl (fun _ => rfl), fun _ _ _ => computes_unaryFloat (op := 0x4D) rfl rfl (fun _ => rfl),
    fun _ => computes_unaryFloat (op := 0x4E) rfl rfl (fun _ => rfl), fun _ _ _ => computes_unaryFloat (op := 0x4E) rfl rfl (fun _ => rfl),
    fun _ => computes_unaryFloat (op := 0x4F) rfl rfl (fun _ => rfl), fun _ _ _ => computes_unaryFloat (op := 0x4F) rfl rfl (fun _ => rfl),
    fun op a r h => unaryFloat_of_mem (by decide +kernel) h,
    fun op w h => congrArg (BitVec.ofNat 32) (unaryFloat_nan h op),
    fun op w m e hop h hm => congrArg (BitVec.ofNat 32) (unaryFloat_below_zero h hm hop rfl),
    fun w n m e h hm hlim => hnear (unaryFloat_rcp_near h hm hlim),
    fun w n m e h hm hlim => (hd 0x47 w).trans (unaryFloat_rcp_inf h hm hlim),
    fun w m e h hm => hnear (unaryFloat_sqrt_near h hm),
    fun w m e h hm => hnear (unaryFloat_rsq_near h hm),
    fun w hw hx => congrArg (BitVec.ofNat 32) (unaryFloat_exp2_large hw hx),
    fun w hw hx => congrArg (BitVec.ofNat 32) (unaryFloat_exp2_small hw hx),
    fun w k hw hk hlo hhi => hnear (unaryFloat_exp2_int hw hk hlo hhi).near_self,
    fun w k hw hk => hnear (unaryFloat_log2_two_pow hw hk).near_self,
    fun op w hop hw => by
      show BitVec.ofNat 32 (unaryFloat op (w ^^^ 0x80000000#32).toNat) = _
      rw [toNat_xor_sign, unaryFloat_xor_sign_odd hop hw, ofNat_xor_sign],
    fun w hw => by
      show BitVec.ofNat 32 (unaryFloat 0x4F (w ^^^ 0x80000000#32).toNat) = _
      rw [toNat_xor_sign, unaryFloat_xor_sign_cos hw],
    fun op w hop hw => by
      show (d (f op w)).Finite ∧ _
      rw [hd]
      exact unaryFloat_limited_le_one hop hw,
    fun w n m e h hm hlo hhi hint hlim => hnear ((unaryFloat_exp2_near h hm hlo hhi hint hlim).mono (hexp2 _).le),
    fun w m e h hm hpow hlim => hnear ((unaryFloat_log2_near h hm hpow hlim).mono (hlog2 _).le),
    fun op w m e hop h hm => hnear ((unaryFloat_limited_near hop h hm).mono (hlimited op _ hop).le),
    fun op m n e x h => hpinned (isPinned_of_mem (by decide +kernel) h)⟩

end Sys2Proof.Machine
end

section
/-!
The words that the spec prints beside the lines that they assemble (spec/07, R117, R126), and the instructions whose row of the map names no
operand (R322, R376). A row with DST unused names no uniform register there, so the instruction runs for the lanes that PRED selects (R112, R122).
-/
namespace Sys2Proof.Machine

/-- A D9 word is the instruction of its opcode in [58:51], with the fields of R117. -/
theorem exists_decodeWord_d9 {w : DWord} {ins : Fields → Instr} {P : Fields → Prop} (hop : ∀ f, ofOp (unpackD9 .d9 w).1 f = ins f)
    (hfields : P (unpackD9 .d9 w).2) : ∃ f, decodeWord .d9 w = ins f ∧ P f :=
  ⟨_, hop _, hfields⟩

/-- An L9 word whose bit 31 announces the extension word is the instruction of its opcode, with the fields of both (R126). -/
theorem exists_decodeWord_l9 {w : DWord} {ins : Fields → Instr} {P : Fields → Prop} (hext : w.getLsbD 31 = true)
    (hop : ∀ f, ofOp (unpackL9 (loWord w) (hiWord w)).1 f = ins f) (hfields : P (unpackL9 (loWord w) (hiWord w)).2) :
    ∃ f, decodeWord .l9 w = ins f ∧ P f :=
  ⟨_, (if_pos hext).trans (hop _), hfields⟩

/-- What a passed check of the word says: the row of its opcode, and the operands as its fields were read. -/
theorem checkWord_ok {op : Nat} {f : Fields} {r : OpInfo} {o : Operands} (h : checkWord op f = .ok (r, o)) :
    ∃ row, rowOf op f = some row ∧ r = positions op row f ∧ o = (readFields op row f).1 := by
  unfold checkWord at h
  split at h
  · cases h
  · rename_i row hrow
    split at h
    · cases h
    · split at h
      · cases h
      · dsimp only at h
        split at h
        · cases h
        · cases h
          exact ⟨row, hrow, rfl, rfl⟩

/-- A word whose decoder has a row for its opcode has the row of the map. -/
theorem opInfo_of_rowOf {op : Nat} {f : Fields} {r : OpInfo} (h : rowOf op f = some r) : opInfo op (f.fn.toNat % 8) = some r := by
  unfold rowOf at h
  split at h
  · cases h
  · exact h

/-- A position that the map leaves unused names nothing. -/
theorem readField_unused {e : Enc} {p : Pos} {own : Nat} {isDst : Bool} {fld : Opnd} {x : Operand} (hp : p.kind = .unused)
    (h : readField e p own isDst fld = .ok x) : x = .none := by
  unfold readField at h
  rw [hp] at h
  dsimp only at h
  split at h <;> cases h
  rfl

/-- Where the map leaves DST unused, the word names no destination. -/
theorem readFields_dst_of_unused {op : Nat} {r : OpInfo} {f : Fields} (h : (positions op r f).dst.kind = .unused) :
    (readFields op r f).1.dst = .none := by
  unfold readFields
  dsimp only
  split
  · rfl
  · cases hd : readField f.enc (positions op r f).dst 3 (!(positions op r f).dstSrc) f.dst with
    | ok x => exact readField_unused h hd
    | error k => rfl

/-- Relocation of the operands relocates the destination. -/
theorem relocateAll_dst {t : Team} {o o' : Operands} (h : relocateAll t o = .ok o') : relocateOperand t o.dst = .ok o'.dst := by
  unfold relocateAll at h
  split at h
  · cases h
    assumption
  all_goals cases h

/-- The lanes that act when a check passes: the group at once on the scalar pipe (R112), else those for which PRED holds (R122); the operands
are those of the word, relocated (R316). -/
theorem checkIssue_acting {s : State} {g : GRef} {tm : Team} {grp : Group} {x : Exec} {op : Nat} {f : Fields} {i : Iss}
    (h : checkIssue s g tm grp x op f = .ok i) :
    ∃ r o o', checkWord op f = .ok (r, o) ∧ relocateAll tm o = .ok o'
      ∧ i.acting = if isScalar op r o' then [0] else i.here.filter (fun l => predHolds i.grp i.x i.x.off i.now (servedEarly i.old l 15) i.f l) := by
  unfold checkIssue at h
  split at h
  · cases h
  · rename_i r o hw
    split at h
    · cases h
    · split at h
      · cases h
      · rename_i o' ho
        obtain ⟨short, rfl⟩ := checkOperands_ok h
        exact ⟨r, o, o', hw, ho, rfl⟩

/-- An instruction without a destination, other than UMOV, does not run on the scalar pipe (R112, R192). -/
theorem isScalar_of_no_dst {op : Nat} {r : OpInfo} {o : Operands} (hop : op ≠ 0x88) (ho : o.dst = .none) : isScalar op r o = false := by
  simp [isScalar, ho, hop, Operand.isK]

/-- R122: the lanes that act on an instruction whose row leaves DST unused, other than UMOV, are those that stand there and for which PRED
holds. -/
theorem acting_of_dst_unused {op : Nat} {f : Fields} {s : State} {i : Iss} (hop : op ≠ 0x88)
    (hrow : ∀ row, opInfo op (f.fn.toNat % 8) = some row → (positions op row f).dst.kind = .unused) (h : readyAt op f s = some i) :
    i.acting = i.here.filter (fun l => predHolds i.grp i.x i.x.off i.now (servedEarly i.old l 15) f l) := by
  obtain ⟨-, hchecks, -, -, -, -, -, hf, -⟩ := readyAt_some h
  obtain ⟨-, hissue, -, -⟩ := issueChecks_ok hchecks
  obtain ⟨r, o, o', hword, hreloc, hacting⟩ := checkIssue_acting hissue
  obtain ⟨row, hr, -, rfl⟩ := checkWord_ok hword
  have hdst := relocateAll_dst hreloc
  rw [readFields_dst_of_unused (hrow row (opInfo_of_rowOf hr))] at hdst
  rw [isScalar_of_no_dst hop (Except.ok.inj hdst).symm, hf] at hacting
  exact hacting

/-- R322: PRED selects the lanes that act on CHAIN.FOLD and CHAIN.SPREAD. -/
theorem chain_acting {op : Nat} {f : Fields} {s : State} {i : Iss} (hop : op = 0xD9 ∨ op = 0xDA) (h : readyAt op f s = some i) :
    i.acting = i.here.filter (fun l => predHolds i.grp i.x i.x.off i.now (servedEarly i.old l 15) f l) := by
  rcases hop with rfl | rfl
  all_goals
    refine acting_of_dst_unused (by decide) (fun row hrow => ?_) h
    cases hrow
    rfl

/-- Settles O44: each printed word is unpacked by the layout of its encoding; the rows of HALT and of the chain instructions leave every
position unused, so that PRED alone selects the lanes that act on the latter. -/
theorem wordsDecodeAsTheSpecAssemblesThem : Obligations.WordsDecodeAsTheSpecAssemblesThem := by
  unfold Obligations.WordsDecodeAsTheSpecAssemblesThem
  exact ⟨
    exists_decodeWord_d9 (ins := .add) (fun _ => rfl) (by decide),
    exists_decodeWord_d9 (ins := .fma) (fun _ => rfl) (by decide),
    exists_decodeWord_d9 (ins := .bfx) (fun _ => rfl) (by decide),
    exists_decodeWord_d9 (ins := .vote) (fun _ => rfl) (by decide),
    exists_decodeWord_d9 (ins := .atomr) (fun _ => rfl) (by decide),
    exists_decodeWord_d9 (ins := .trap) (fun _ => rfl) (by decide),
    exists_decodeWord_d9 (ins := .endTrace) (fun _ => rfl) (by decide),
    exists_decodeWord_l9 (ins := .fma) (by decide) (fun _ => rfl) (by decide),
    exists_decodeWord_l9 (ins := .icmp false) (by decide) (fun _ => rfl) (by decide),
    fun _ => ⟨rfl, rfl, rfl⟩, rfl, rfl, by decide,
    exists_decodeWord_d9 (ins := .halt) (fun _ => rfl) (by decide), fun _ => rfl,
    exists_decodeWord_d9 (ins := .chainFold) (fun _ => rfl) (by decide), fun _ => rfl,
    exists_decodeWord_d9 (ins := .chainFold) (fun _ => rfl) (by decide), fun _ => rfl,
    fun _ _ _ _ hop h => chain_acting hop h⟩

end Sys2Proof.Machine
end

section
/-!
The decoder reads from the encoding of a well-formed instruction that instruction, in every encoding: each layout of fields unpacks what it
packed (R117, R126), and the check of a well-formed instruction says which constructor its opcode and fields name.
-/
namespace Sys2Proof

/-! ### Fields of a word -/

/-- A bit of a word, as the field of that one bit. -/
theorem getLsbD_eq_extractLsb'_beq {n : Nat} (w : BitVec n) (lo : Nat) : w.getLsbD lo = (w.extractLsb' lo 1 == 1#1) := by
  rw [Bool.eq_iff_iff]
  simp [BitVec.eq_of_getLsbD_eq_iff]

theorem ofBool_beq_one (b : Bool) : (BitVec.ofBool b == 1#1) = b := by cases b <;> rfl

/-- A number of six bits survives the number field of a base word (R126). -/
theorem setWidth_setWidth_of_lt {n : BitVec 8} (h : n.toNat < 64) : (n.setWidth 6).setWidth 8 = n :=
  BitVec.eq_of_toNat_eq (by simp only [BitVec.toNat_setWidth]; omega)

/-- A D9 word written out, its width the sum of its fields' (R117). -/
theorem extractLsb'_packD9 (op : BitVec 8) (f : Fields) (lo n : Nat) : (packD9 op f).extractLsb' lo n
    = BitVec.extractLsb' lo n (BitVec.ofBool f.rb ++ f.stall ++ op ++ f.fn ++ f.pred ++ BitVec.ofBool f.dst.cls ++ f.dst.num
      ++ BitVec.ofBool f.sa.cls ++ BitVec.ofBool f.sa.peek ++ f.sa.num ++ BitVec.ofBool f.sb.cls ++ BitVec.ofBool f.sb.peek ++ f.sb.num
      ++ BitVec.ofBool f.sc.cls ++ BitVec.ofBool f.sc.peek ++ f.sc.num ++ f.hint ++ f.rsv) := rfl

/-- An L9 base word written out (R126). -/
theorem extractLsb'_packBase (op : BitVec 8) (f : Fields) (lo n : Nat) : (packBase op f).extractLsb' lo n
    = BitVec.extractLsb' lo n (BitVec.ofBool f.ext ++ op ++ f.fn ++ f.dst.num.setWidth 6 ++ f.sa.num.setWidth 6 ++ f.sb.num.setWidth 6
      ++ BitVec.ofBool f.rb) := rfl

/-- An L9 extension word written out (R126). -/
theorem extractLsb'_packExt (f : Fields) (lo n : Nat) : (packExt f).extractLsb' lo n
    = BitVec.extractLsb' lo n (f.sc.num.setWidth 6 ++ BitVec.ofBool f.dst.cls ++ BitVec.ofBool f.sa.cls ++ BitVec.ofBool f.sb.cls
      ++ BitVec.ofBool f.sc.cls ++ BitVec.ofBool f.sa.peek ++ BitVec.ofBool f.sb.peek ++ BitVec.ofBool f.sc.peek ++ f.pred ++ f.hint ++ f.rsv
      ++ f.immx) := rfl

/-! ### Each layout unpacks what it packed -/

theorem unpackD9_packD9 (op : BitVec 8) {f : Fields} (hext : f.ext = false) (himm : f.immx = 0#11) (hpeek : f.dst.peek = false) :
    unpackD9 f.enc (packD9 op f) = (op, f) := by
  obtain ⟨enc, ext, rb, stall, fn, pred, ⟨dc, dp, dn⟩, ⟨ac, ap, an⟩, ⟨bc, bp, bn⟩, ⟨cc, cp, cn⟩, hint, rsv, immx⟩ := f
  subst hext himm hpeek
  simp only [unpackD9, opndAt, getLsbD_eq_extractLsb'_beq, extractLsb'_packD9, Prod.mk.injEq, Fields.mk.injEq, Opnd.mk.injEq, true_and,
    and_true, and_assoc]
  refine ⟨?_, ?_, ?_, ?_, ?_, ?_, ?_, ?_, ?_, ?_, ?_, ?_, ?_, ?_, ?_, ?_, ?_, ?_⟩
  all_goals
    repeat rw [BitVec.extractLsb'_append_eq_of_le (by decide)]
    try rw [BitVec.extractLsb'_append_eq_of_add_le (by decide)]
    simp only [Nat.reduceAdd, Nat.reduceSub, BitVec.extractLsb'_eq_self, ofBool_beq_one]

/-- The extension flag of a base word (R126). -/
theorem getLsbD_packBase_ext (op : BitVec 8) (f : Fields) : (packBase op f).getLsbD 31 = f.ext := by
  rw [getLsbD_eq_extractLsb'_beq, extractLsb'_packBase]
  simp (decide := true) only [BitVec.extractLsb'_append_eq_of_le, Nat.reduceSub, BitVec.extractLsb'_eq_self, ofBool_beq_one]

/-- The fields of a base word: opcode, FN, three numbers and RB (R126). -/
theorem packBase_fields (op : BitVec 8) (f : Fields) : (packBase op f).extractLsb' 23 8 = op ∧ (packBase op f).extractLsb' 19 4 = f.fn
    ∧ (packBase op f).extractLsb' 13 6 = f.dst.num.setWidth 6 ∧ (packBase op f).extractLsb' 7 6 = f.sa.num.setWidth 6
    ∧ (packBase op f).extractLsb' 1 6 = f.sb.num.setWidth 6 ∧ (packBase op f).extractLsb' 0 1 = BitVec.ofBool f.rb := by
  simp only [extractLsb'_packBase]
  refine ⟨?_, ?_, ?_, ?_, ?_, ?_⟩
  all_goals
    repeat rw [BitVec.extractLsb'_append_eq_of_le (by decide)]
    try rw [BitVec.extractLsb'_append_eq_of_add_le (by decide)]
    simp only [Nat.reduceSub, BitVec.extractLsb'_eq_self]

theorem unpackL9_pack (op : BitVec 8) {f : Fields} (henc : f.enc = .l9) (hext : f.ext = true) (hstall : f.stall = 0#4) (hpeek : f.dst.peek = false)
    (hd : f.dst.num.toNat < 64) (ha : f.sa.num.toNat < 64) (hb : f.sb.num.toNat < 64) (hc : f.sc.num.toNat < 64) :
    unpackL9 (packBase op f) (packExt f) = (op, f) := by
  obtain ⟨hop, hfn, hdst, hsa, hsb, hrb⟩ := packBase_fields op f
  obtain ⟨enc, ext, rb, stall, fn, pred, ⟨dc, dp, dn⟩, ⟨ac, ap, an⟩, ⟨bc, bp, bn⟩, ⟨cc, cp, cn⟩, hint, rsv, immx⟩ := f
  subst henc hext hstall hpeek
  simp only [unpackL9, getLsbD_eq_extractLsb'_beq, hop, hfn, hdst, hsa, hsb, hrb, setWidth_setWidth_of_lt hd, setWidth_setWidth_of_lt ha,
    setWidth_setWidth_of_lt hb, ofBool_beq_one, extractLsb'_packExt, Prod.mk.injEq, Fields.mk.injEq, Opnd.mk.injEq, true_and, and_true, and_assoc]
  refine ⟨?_, ?_, ?_, ?_, ?_, ?_, ?_, ?_, ?_, ?_, ?_, ?_⟩
  all_goals
    repeat rw [BitVec.extractLsb'_append_eq_of_le (by decide)]
    try rw [BitVec.extractLsb'_append_eq_of_add_le (by decide)]
    simp only [Nat.reduceSub, BitVec.extractLsb'_eq_self, ofBool_beq_one, setWidth_setWidth_of_lt hc]

/-- The fields that an L9 word without extension leaves out, at the values that the decoder gives them (R127). -/
structure Fields.Plain (f : Fields) : Prop where
  enc : f.enc = .l9
  ext : f.ext = false
  stall : f.stall = 0#4
  dstPeek : f.dst.peek = false
  narrow : f.dst.num.toNat < 64 ∧ f.sa.num.toNat < 64 ∧ f.sb.num.toNat < 64
  classes : f.dst.cls = false ∧ f.sa.cls = false ∧ f.sb.cls = false
  peeks : f.sa.peek = false ∧ f.sb.peek = false
  sc : f.sc = ⟨false, false, 0#8⟩
  pred : f.pred = 7#4
  hint : f.hint = 0#2
  rsv : f.rsv = 0#2
  immx : f.immx = 0#11

theorem unpackBase_packBase (op : BitVec 8) {f : Fields} (h : f.Plain) : unpackBase (packBase op f) = (op, f) := by
  obtain ⟨hop, hfn, hdst, hsa, hsb, hrb⟩ := packBase_fields op f
  obtain ⟨enc, ext, stall, dstPeek, ⟨hd, ha, hb⟩, ⟨dcls, acls, bcls⟩, ⟨apeek, bpeek⟩, sc, pred, hint, rsv, immx⟩ := h
  obtain ⟨_, _, rb, _, fn, _, ⟨_, _, dn⟩, ⟨_, _, an⟩, ⟨_, _, bn⟩, _, _, _, _⟩ := f
  subst enc ext stall dstPeek dcls acls bcls apeek bpeek sc pred hint rsv immx
  simp only [unpackBase, hop, hfn, hdst, hsa, hsb, hrb, baseFields, opndOf, setWidth_setWidth_of_lt hd, setWidth_setWidth_of_lt ha,
    setWidth_setWidth_of_lt hb, ofBool_beq_one]

/-! ### What a well-formed instruction is -/

/-- The fields of a D9, D8 or D7 word that pass the checks (R117). -/
theorem fieldsError_none_of_not_l9 {f : Fields} (henc : f.enc ≠ .l9) (h : fieldsError f = none) :
    f.ext = false ∧ f.immx = 0#11 ∧ f.dst.peek = false := by
  unfold fieldsError at h
  split at h
  · contradiction
  · split_ifs at h
    simp_all

/-- The fields of an L9 word that pass the checks (R126, R127). -/
theorem fieldsError_none_of_l9 {f : Fields} (henc : f.enc = .l9) (h : fieldsError f = none) :
    f.dst.peek = false ∧ f.stall = 0#4 ∧ (f.dst.num.toNat < 64 ∧ f.sa.num.toNat < 64 ∧ f.sb.num.toNat < 64 ∧ f.sc.num.toNat < 64)
      ∧ (f.ext = false → f.Plain) := by
  unfold fieldsError at h
  rw [henc] at h
  dsimp only at h
  split_ifs at h with hpeek hstall hwide hext hplain
  all_goals
    simp only [not_or, not_le, not_not, Bool.not_eq_true, ne_eq] at hpeek hstall hwide
    refine ⟨hpeek, hstall, hwide, fun he => ?_⟩
  · simp [hext] at he
  · simp only [not_or, not_not, Bool.not_eq_true, ne_eq] at hplain
    obtain ⟨dcls, acls, bcls, ccls, apeek, bpeek, cpeek, cnum, hpred, hhint, hrsv, himmx⟩ := hplain
    exact ⟨henc, he, hstall, hpeek, ⟨hwide.1, hwide.2.1, hwide.2.2.1⟩, ⟨dcls, acls, bcls⟩, ⟨apeek, bpeek⟩,
      Opnd.mk.injEq .. ▸ ⟨ccls, cpeek, cnum⟩, hpred, hhint, hrsv, himmx⟩

/-- What `wellFormed` leaves of an instruction: its fields fit its encoding, and the table or the opcode map gives it back. -/
theorem wellFormed_none {i : Instr} {op : BitVec 8} {f : Fields} (hw : wordOf i = some (op, f)) (h : wellFormed i = none) :
    fieldsError f = none ∧ if isBaseRow op f then l9Row op f.fn (f.dst.num.setWidth 6) (f.sa.num.setWidth 6) (f.sb.num.setWidth 6)
      (BitVec.ofBool f.rb) = some i else ofOp op f = i := by
  unfold wellFormed at h
  rw [hw] at h
  dsimp only at h
  cases he : fieldsError f with
  | some e => rw [he] at h; cases h
  | none =>
    rw [he] at h
    refine ⟨rfl, ?_⟩
    split_ifs at h ⊢ <;> simp_all


/-! ### Bytes -/

theorem take_toBytesLE {k n : Nat} (h : k ≤ n) (w : Nat) : (toBytesLE n w).take k = toBytesLE k w := by
  induction k generalizing n w with
  | zero => rfl
  | succ k ih =>
    obtain ⟨n, rfl⟩ := Nat.exists_eq_add_of_le' (Nat.lt_of_lt_of_le (Nat.succ_pos k) h)
    rw [toBytesLE, List.take_succ_cons, ih (by omega), toBytesLE]

theorem take_toBytesLE_append {k n : Nat} (h : k ≤ n) (w : Nat) (rest : List Byte) : (toBytesLE n w ++ rest).take k = toBytesLE k w := by
  rw [List.take_append_of_le_length (by simpa using h), take_toBytesLE h]

/-- The decoder reads the word whose bytes stand at the head of the list, where they hold all of its bits and are as many as it takes. -/
theorem decode_toBytesLE {e : Enc} {n : Nat} {w : DWord} {rest : List Byte} (hlen : wordLength e (toBytesLE n w.toNat ++ rest) = n)
    (h : w.toNat < 256 ^ n) : decode e (toBytesLE n w.toNat ++ rest) = .ok (decodeWord e w, rest) := by
  have hread : BitVec.ofNat 64 (ofBytesLE (toBytesLE n w.toNat)) = w := by
    rw [Machine.ofBytesLE_toBytesLE, Nat.mod_eq_of_lt h, BitVec.ofNat_toNat, BitVec.setWidth_eq]
  unfold decode
  rw [hlen]
  simp only [take_toBytesLE_append le_rfl, hread, List.drop_left' (Machine.length_toBytesLE n _), List.length_append, Machine.length_toBytesLE]
  exact if_neg (by omega)

/-- The low four bytes of a word say whether an extension follows (R126). -/
theorem wordLength_l9 {n : Nat} (hn : 4 ≤ n) (w : Nat) (rest : List Byte) :
    wordLength .l9 (toBytesLE n w ++ rest) = if w.testBit 31 then 8 else 4 := by
  unfold wordLength
  dsimp only
  rw [take_toBytesLE_append hn, Machine.ofBytesLE_toBytesLE, Machine.bit_eq_testBit, show 256 ^ 4 = 2 ^ 32 from rfl, Nat.testBit_mod_two_pow]
  simp

theorem loWord_append (hi lo : Word) : loWord (hi ++ lo) = lo := by
  ext i h
  rw [loWord, BitVec.getElem_setWidth]
  exact (BitVec.getLsbD_append (x := hi) (y := lo)).trans (by rw [if_pos h, BitVec.getLsbD_eq_getElem h])

theorem hiWord_append (hi lo : Word) : hiWord (hi ++ lo) = hi := by
  ext i h
  rw [hiWord, BitVec.getElem_setWidth, BitVec.getLsbD_ushiftRight]
  exact (BitVec.getLsbD_append (x := hi) (y := lo)).trans (by rw [if_neg (by omega), Nat.add_sub_cancel_left, BitVec.getLsbD_eq_getElem h])

/-! ### Each encoding decodes to the instruction that its opcode and fields name -/

theorem decodeWord_packD9 (op : BitVec 8) {f : Fields} (henc : f.enc ≠ .l9) (hext : f.ext = false) (himm : f.immx = 0#11)
    (hpeek : f.dst.peek = false) : decodeWord f.enc (packD9 op f) = ofOp op f := by
  have h := unpackD9_packD9 op hext himm hpeek
  unfold decodeWord
  split
  · contradiction
  · rw [h]

theorem decodeWord_l9 (ext base : Word) : decodeWord .l9 (ext ++ base)
    = if base.getLsbD 31 then ofOp (unpackL9 base ext).1 (unpackL9 base ext).2 else decodeBase base := by
  have hbit : (ext ++ base).getLsbD 31 = base.getLsbD 31 := BitVec.getLsbD_append
  simp only [decodeWord, hbit, loWord_append, hiWord_append]

theorem decodeBase_packBase (op : BitVec 8) {f : Fields} (h : f.Plain) : decodeBase (packBase op f)
    = (l9Row op f.fn (f.dst.num.setWidth 6) (f.sa.num.setWidth 6) (f.sb.num.setWidth 6) (BitVec.ofBool f.rb)).getD (ofOp op f) := by
  obtain ⟨hop, hfn, hdst, hsa, hsb, hrb⟩ := packBase_fields op f
  simp only [decodeBase, hop, hfn, hdst, hsa, hsb, hrb, unpackBase_packBase op h]
  split <;> simp [*]

/-- The word of a well-formed instruction decodes to it. -/
theorem decodeWord_encodeWord {i : Instr} {op : BitVec 8} {f : Fields} (hw : wordOf i = some (op, f)) (h : wellFormed i = none) :
    decodeWord f.enc (encodeWord i) = i := by
  obtain ⟨hf, hi⟩ := wellFormed_none hw h
  by_cases henc : f.enc = .l9
  · obtain ⟨hpeek, hstall, ⟨hd, ha, hb, hc⟩, hplain⟩ := fieldsError_none_of_l9 henc hf
    simp only [encodeWord, hw, henc, decodeWord_l9, getLsbD_packBase_ext]
    cases hext : f.ext with
    | true =>
      have : isBaseRow op f = false := by simp [isBaseRow, hext]
      rw [this] at hi
      simpa [unpackL9_pack op henc hext hstall hpeek hd ha hb hc] using hi
    | false =>
      simp only [Bool.false_eq_true, if_false, decodeBase_packBase op (hplain hext)]
      split_ifs at hi with hrow
      · simp [hi]
      · simp only [isBaseRow, henc, hext, beq_self_eq_true, Bool.not_false, Bool.true_and, Bool.not_eq_true, Option.isSome_eq_false_iff, Option.isNone_iff_eq_none] at hrow
        simp [hrow, hi]
  · obtain ⟨hext, himm, hpeek⟩ := fieldsError_none_of_not_l9 henc hf
    have : isBaseRow op f = false := by simp [isBaseRow, henc]
    rw [this] at hi
    have : encodeWord i = packD9 op f := by
      unfold encodeWord
      rw [hw]
      dsimp only
      split
      · contradiction
      · rfl
    rw [this, decodeWord_packD9 op henc hext himm hpeek]
    simpa using hi

/-- The decoder takes from the bytes of an instruction as many as its encoding has. -/
theorem wordLength_encode {i : Instr} {op : BitVec 8} {f : Fields} (hw : wordOf i = some (op, f)) (rest : List Byte) :
    wordLength f.enc (encode i ++ rest) = if f.enc = .l9 ∧ ¬ f.ext then 4 else 8 := by
  simp only [encode, hw]
  by_cases henc : f.enc = .l9
  · have hbit : (encodeWord i).toNat.testBit 31 = f.ext := by
      rw [BitVec.testBit_toNat]
      simp only [encodeWord, hw, henc]
      rw [BitVec.getLsbD_append]
      exact getLsbD_packBase_ext op f
    rw [henc, wordLength_l9 (by split <;> omega), hbit]
    cases f.ext <;> simp
  · unfold wordLength
    split
    · contradiction
    · simp [henc]

/-- The bits of an instruction's word lie in the bytes of its encoding. -/
theorem encodeWord_lt {i : Instr} {op : BitVec 8} {f : Fields} (hw : wordOf i = some (op, f)) :
    (encodeWord i).toNat < 256 ^ (if f.enc = .l9 ∧ ¬ f.ext then 4 else 8) := by
  split
  case isTrue h =>
    simp only [encodeWord, hw, h.1, h.2, BitVec.toNat_append]
    simpa using (packBase op f).isLt
  case isFalse => exact (encodeWord i).isLt

/-- Settles O45: a word holds what its layout packs, and the check of a well-formed instruction is that its table row or the opcode map gives
it back. -/
theorem decodeOfEncodeIsTheInstruction : Obligations.DecodeOfEncodeIsTheInstruction := by
  unfold Obligations.DecodeOfEncodeIsTheInstruction
  intro i op f hw h rest
  have hlen := wordLength_encode hw rest
  have hlt := encodeWord_lt hw
  simp only [encode, hw] at hlen ⊢
  rw [decode_toBytesLE hlen hlt, decodeWord_encodeWord hw h]

end Sys2Proof
end

section
/-!
The integer, address, logic, compare and move instructions (R180 to R189): each meaning gives every acting lane the value that the spec states.
-/
namespace Sys2Proof.Machine

/-! ### How an instruction with a word completes -/

/-- An instruction of the word `op`, `f` completes where its meaning gives the writes and effects stated, with which no lane leaves. -/
theorem completes_of_body {ins : Instr} {op : BitVec 8} {f : Fields} {ok : Iss → Table (List Word) → Prop}
    {res : Iss → Table (List Word) → Res} (body : Body) (hw : wordOf ins = some (op, f))
    (hb : ∀ i, i.op = op.toNat → i.f = f → ok i (capture i).words → ∃ r, body i (capture i).words = .ok r ∧ r.leave = []
      ∧ r.writes = (res i (capture i).words).writes ∧ r.effs = (res i (capture i).words).effs)
    (he : ∀ s, exec ins s = issueOn op.toNat f body s := by exact fun _ => rfl) : Completes ins ok res := by
  refine completes_of body (fun op' f' s hw' => ?_) (fun op' f' i hw' hop hf hok => ?_)
  all_goals obtain ⟨rfl, rfl⟩ : op = op' ∧ f = f' := by simpa [hw] using hw'
  · exact he s
  · exact hb i hop hf hok

/-- An instruction computes `val` where its meaning is that of a pure operation with these values. -/
theorem computes_of_pureOp {ins : Instr} {op : BitVec 8} {f : Fields} {val : Iss → List Word → List Word} (body : Body)
    (hw : wordOf ins = some (op, f)) (hb : ∀ i ws, i.op = op.toNat → body i ws = pureOp val i ws)
    (he : ∀ s, exec ins s = issueOn op.toNat f body s := by exact fun _ => rfl) : Computes ins val :=
  completes_of_body body hw (fun i hop _ _ => ⟨_, hb i _ hop, deliver_leave i _, rfl, rfl⟩) he

/-- Settles O1: each meaning is the exact operation fitted by type (R180). -/
theorem integerArithmeticResults : Obligations.IntegerArithmeticResults := by
  unfold Obligations.IntegerArithmeticResults
  exact ⟨
    fun _ => computes_of_pureOp bodyAdd rfl fun _ _ _ => rfl, fun _ _ _ _ _ => computes_of_pureOp bodyAdd rfl fun _ _ _ => rfl,
    fun _ => computes_of_pureOp bodySub rfl fun _ _ _ => rfl, fun _ _ _ _ _ => computes_of_pureOp bodySub rfl fun _ _ _ => rfl,
    fun _ => computes_of_pureOp bodyMullo rfl fun _ _ _ => rfl, fun _ _ _ _ => computes_of_pureOp bodyMullo rfl fun _ _ _ => rfl,
    fun _ => computes_of_pureOp bodyMulhi rfl fun _ _ _ => rfl, fun _ _ _ _ _ => computes_of_pureOp bodyMulhi rfl fun _ _ _ => rfl,
    fun _ => computes_of_pureOp bodyMin rfl fun _ _ _ => rfl, fun _ _ _ _ _ => computes_of_pureOp bodyMin rfl fun _ _ _ => rfl,
    fun _ => computes_of_pureOp bodyMax rfl fun _ _ _ => rfl, fun _ _ _ _ _ => computes_of_pureOp bodyMax rfl fun _ _ _ => rfl,
    fun _ => computes_of_pureOp bodyMad rfl fun _ _ _ => rfl,
    fun _ => computes_of_pureOp bodyAbs rfl fun _ _ _ => rfl, fun _ _ _ => computes_of_pureOp bodyAbs rfl fun _ _ _ => rfl,
    fun _ => computes_of_pureOp bodyNeg rfl fun _ _ _ => rfl, fun _ _ _ _ => computes_of_pureOp bodyNeg rfl fun _ _ _ => rfl⟩

/-- Settles O2: sign-extending a word is taking its signed value modulo 2^64 (R182). -/
theorem addressArithmeticResults : Obligations.AddressArithmeticResults := by
  unfold Obligations.AddressArithmeticResults
  exact ⟨fun _ => computes_of_pureOp bodyAadd rfl fun _ _ _ => rfl, fun _ _ _ _ => computes_of_pureOp bodyAadd rfl fun _ _ _ => rfl,
    fun _ => computes_of_pureOp bodyAmad rfl fun _ _ _ => rfl⟩

/-! ### Shifts -/

theorem shiftLeft_eq_ite (x : Word) (n : Nat) : x <<< n = if 32 ≤ n then 0#32 else x <<< n := by
  split
  case isTrue h => exact BitVec.shiftLeft_eq_zero h
  case isFalse => rfl

theorem ushiftRight_eq_ite (x : Word) (n : Nat) : x >>> n = if 32 ≤ n then 0#32 else x >>> n := by
  split
  case isTrue h => exact BitVec.ushiftRight_eq_zero h
  case isFalse => rfl

theorem sshiftRight_eq_ite (x : Word) (n : Nat) :
    x.sshiftRight n = if 32 ≤ n then (if x.getLsbD 31 then 0xFFFFFFFF#32 else 0#32) else x.sshiftRight n := by
  split
  case isTrue h =>
    have hfill : (if x.msb then 0xFFFFFFFF#32 else 0#32) = x.sshiftRight n := by
      ext k hk
      rw [BitVec.getElem_sshiftRight, dif_neg (by omega)]
      cases x.msb with
      | true => exact (BitVec.getElem_allOnes k hk)
      | false => simp
    rw [← hfill, BitVec.msb_eq_getLsbD_last]
  case isFalse => rfl

theorem rotateLeft_eq_or (x : Word) (n : Nat) : x.rotateLeft (n % 32) = (x <<< (n % 32)) ||| (x >>> (32 - n % 32)) := by
  rw [BitVec.rotateLeft_eq_rotateLeftAux_of_lt (Nat.mod_lt _ (by decide)), BitVec.rotateLeftAux]

theorem bodyShl_eq : bodyShl = pureOp (fun i w => [if 32 ≤ shiftCount i w then 0#32 else nth w 0 0#32 <<< shiftCount i w]) := by
  unfold bodyShl
  congr 1
  funext i w
  rw [← shiftLeft_eq_ite]

theorem bodyShr_eq : bodyShr = pureOp (fun i w => [if intType i.f = .s32 then
    (if 32 ≤ shiftCount i w then (if (nth w 0 0#32).getLsbD 31 then 0xFFFFFFFF#32 else 0#32) else (nth w 0 0#32).sshiftRight (shiftCount i w))
    else if 32 ≤ shiftCount i w then 0#32 else nth w 0 0#32 >>> shiftCount i w]) := by
  unfold bodyShr
  congr 1
  funext i w
  rw [← sshiftRight_eq_ite, ← ushiftRight_eq_ite]
  cases intType i.f <;> rfl

theorem bodyRot_eq : bodyRot = pureOp (fun i w =>
    [(nth w 0 0#32 <<< ((lastWord i w 1).toNat % 32)) ||| (nth w 0 0#32 >>> (32 - (lastWord i w 1).toNat % 32))]) := by
  unfold bodyRot
  congr 1
  funext i w
  rw [rotateLeft_eq_or]

/-- Settles O3: a count of 32 or more shifts every bit out, and ROT is a pair of shifts (R184, R185). -/
theorem bitwiseAndShiftResults : Obligations.BitwiseAndShiftResults := by
  unfold Obligations.BitwiseAndShiftResults
  exact ⟨
    fun _ => computes_of_pureOp bodyAnd rfl fun _ _ _ => rfl, fun _ _ _ _ => computes_of_pureOp bodyAnd rfl fun _ _ _ => rfl,
    fun _ => computes_of_pureOp bodyOr rfl fun _ _ _ => rfl, fun _ _ _ _ => computes_of_pureOp bodyOr rfl fun _ _ _ => rfl,
    fun _ => computes_of_pureOp bodyXor rfl fun _ _ _ => rfl, fun _ _ _ _ => computes_of_pureOp bodyXor rfl fun _ _ _ => rfl,
    fun _ => computes_of_pureOp bodyAndn rfl fun _ _ _ => rfl, fun _ _ _ _ => computes_of_pureOp bodyAndn rfl fun _ _ _ => rfl,
    fun _ => computes_of_pureOp bodyNot rfl fun _ _ _ => rfl, fun _ _ _ => computes_of_pureOp bodyNot rfl fun _ _ _ => rfl,
    fun _ => computes_of_pureOp bodyShl rfl fun _ _ _ => by rw [bodyShl_eq], fun _ _ _ _ => computes_of_pureOp bodyShl rfl fun _ _ _ => by rw [bodyShl_eq],
    fun _ => computes_of_pureOp bodyShr rfl fun _ _ _ => by rw [bodyShr_eq], fun _ _ _ _ _ => computes_of_pureOp bodyShr rfl fun _ _ _ => by rw [bodyShr_eq],
    fun _ => computes_of_pureOp bodyRot rfl fun _ _ _ => by rw [bodyRot_eq], fun _ _ _ _ => computes_of_pureOp bodyRot rfl fun _ _ _ => by rw [bodyRot_eq]⟩

/-! ### Bit fields -/

/-- A field of `n` bits, sign-extended to a word: its value, less 2^n where its top bit is 1 (R185). -/
theorem signExtend_ofNat_of_lt {n g : Nat} (hg : g < 2 ^ n) :
    (BitVec.ofNat n g).signExtend 32 = if n = 0 then 0#32 else if 2 ^ (n - 1) ≤ g then BitVec.ofInt 32 ((g : Int) - 2 ^ n) else BitVec.ofNat 32 g := by
  cases n with
  | zero => simp [BitVec.of_length_zero]
  | succ n =>
    have hpow : 2 ^ (n + 1) = 2 * 2 ^ n := by rw [Nat.pow_succ, Nat.mul_comm]
    rw [BitVec.signExtend, BitVec.toInt_eq_toNat_cond, BitVec.toNat_ofNat, Nat.mod_eq_of_lt hg, if_neg (Nat.succ_ne_zero n), Nat.add_sub_cancel]
    split_ifs with hlow hhigh hhigh
    · omega
    · rw [← BitVec.ofInt_natCast]
    · norm_cast
    · omega

/-- The field that BFX extracts from `x` under the control word of value `c` (R184, R185). -/
def extractedField (signed : Prop) [Decidable signed] (x : Word) (c : Nat) : Word :=
  let p := c % 32
  let n := min (c / 32 % 64) (32 - p)
  let g := x.toNat / 2 ^ p % 2 ^ n
  if n = 0 then 0#32 else if signed ∧ 2 ^ (n - 1) ≤ g then BitVec.ofInt 32 ((g : Int) - 2 ^ n) else BitVec.ofNat 32 g

theorem bodyBfx_eq : bodyBfx = pureOp (fun i w => [extractedField (intType i.f = .s32) (nth w 0 0#32) (lastWord i w 1).toNat]) := by
  unfold bodyBfx
  congr 1
  funext i w
  simp only [fieldOf, extractedField, Nat.shiftRight_eq_div_pow, List.cons.injEq, and_true]
  generalize hn : min ((lastWord i w 1).toNat / 32 % 64) (32 - (lastWord i w 1).toNat % 32) = n
  have hlt : (nth w 0 0#32).toNat / 2 ^ ((lastWord i w 1).toNat % 32) % 2 ^ n < 2 ^ n := Nat.mod_lt _ (Nat.two_pow_pos n)
  cases intType i.f with
  | s32 => simp [signExtend_ofNat_of_lt hlt]
  | n32 | b32 =>
    by_cases h0 : n = 0
    · simp [h0, Nat.mod_one]
    · simp [h0]

theorem ofNat_shiftLeft (m p : Nat) : BitVec.ofNat 32 m <<< p = BitVec.ofNat 32 (m * 2 ^ p) := by
  apply BitVec.eq_of_toNat_eq
  simp [Nat.shiftLeft_eq]

/-- The number of zeros above the highest bit of a word (R185). -/
theorem clz_eq_log2 (x : Word) : BitVec.ofNat 32 (((upto 32).find? (fun j => x.getLsbD (31 - j))).getD 32)
    = if x = 0#32 then 32#32 else BitVec.ofNat 32 (31 - Nat.log2 x.toNat) := by
  by_cases hx : x = 0#32
  · have : (upto 32).find? (fun j => x.getLsbD (31 - j)) = none := by simp [hx]
    rw [this, if_pos hx]
    rfl
  · have h0 : x.toNat ≠ 0 := fun h => hx (BitVec.eq_of_toNat_eq h)
    have hlog : x.toNat.log2 < 32 := (Nat.log2_lt h0).mpr x.isLt
    have hfind : (upto 32).find? (fun j => x.getLsbD (31 - j)) = some (31 - x.toNat.log2) := by
      rw [upto, List.find?_range_eq_some]
      refine ⟨?_, by simp; omega, fun j hj => ?_⟩
      · rw [show 31 - (31 - x.toNat.log2) = x.toNat.log2 by omega, BitVec.getLsbD, Nat.testBit_log2 h0]
      · rw [BitVec.getLsbD, Nat.testBit_lt_two_pow]
        · rfl
        · exact Nat.lt_log2_self.trans_le (Nat.pow_le_pow_right (by decide) (by omega))
    rw [hfind, if_neg hx]
    rfl

/-- Settles O4: a field of n bits is sign-extended by its value less 2^n; the first bit set from the top is the logarithm (R184, R185). -/
theorem bitFieldResults : Obligations.BitFieldResults := by
  unfold Obligations.BitFieldResults
  have hbfi : bodyBfi = pureOp (fun _ w => let c := (nth w 2 0#32).toNat
      let p := c % 32
      let n := min (c / 32 % 64) (32 - p)
      let m : Word := BitVec.ofNat 32 ((2 ^ n - 1) * 2 ^ p)
      [(nth w 0 0#32 &&& ~~~m) ||| ((nth w 1 0#32 <<< p) &&& m)]) := by
    unfold bodyBfi
    simp only [fieldOf, ofNat_shiftLeft]
  have hclz : bodyClz = pureOp (fun _ w => [if nth w 0 0#32 = 0#32 then 32#32 else BitVec.ofNat 32 (31 - Nat.log2 (nth w 0 0#32).toNat)]) := by
    unfold bodyClz
    simp only [clz_eq_log2]
  exact ⟨
    fun _ => computes_of_pureOp bodyBfx rfl fun _ _ _ => by rw [bodyBfx_eq]; rfl,
    fun _ _ _ _ _ => computes_of_pureOp bodyBfx rfl fun _ _ _ => by rw [bodyBfx_eq]; rfl,
    fun _ => computes_of_pureOp bodyBfi rfl fun _ _ _ => by rw [hbfi],
    fun _ => computes_of_pureOp bodyPopc rfl fun _ _ _ => rfl, fun _ _ _ => computes_of_pureOp bodyPopc rfl fun _ _ _ => rfl,
    fun _ => computes_of_pureOp bodyClz rfl fun _ _ _ => by rw [hclz], fun _ _ _ => computes_of_pureOp bodyClz rfl fun _ _ _ => by rw [hclz],
    fun _ => computes_of_pureOp bodyCtz rfl fun _ _ _ => rfl, fun _ _ _ => computes_of_pureOp bodyCtz rfl fun _ _ _ => rfl,
    fun _ => computes_of_pureOp bodyBrev rfl fun _ _ _ => rfl, fun _ _ _ => computes_of_pureOp bodyBrev rfl fun _ _ _ => rfl⟩

/-! ### Compares and moves -/

/-- ICMP's opcode says how its operands are read (R187). -/
theorem bodyIcmp_eq {n32 : Bool} {i : Iss} (hop : i.op = if n32 then 0x2F else 0x2E) (ws : Table (List Word)) : bodyIcmp i ws
    = pureOp (fun i w => let t : IntType := if n32 then .n32 else .s32
        [BitVec.ofNat 32 (b2n (intRel (i.f.fn.toNat % 8) (readInt t (nth w 0 0#32)) (readInt t (lastWord i w 1))))]) i ws := by
  cases n32 <;> simp [bodyIcmp, pureOp, hop]

/-- The low 16 bits of an immediate above the low half of a word (R189). -/
theorem high_or_low_half (k : Nat) (x : Word) : (BitVec.ofNat 32 (k % 65536) <<< 16) ||| (x &&& 0xFFFF#32)
    = BitVec.ofNat 32 (k % 65536 * 65536 + x.toNat % 65536) := by
  apply BitVec.eq_of_toNat_eq
  have hmask : x.toNat &&& 65535 = x.toNat % 2 ^ 16 := Nat.and_two_pow_sub_one_eq_mod x.toNat 16
  have hor := Nat.shiftLeft_add_eq_or_of_lt (Nat.mod_lt x.toNat (Nat.two_pow_pos 16)) (k % 65536)
  rw [Nat.shiftLeft_eq] at hor
  rw [ofNat_shiftLeft, BitVec.toNat_or, BitVec.toNat_and, BitVec.toNat_ofNat, BitVec.toNat_ofNat, show 65535 % 2 ^ 32 = 65535 from rfl, hmask,
    Nat.mod_eq_of_lt (by omega), ← hor, BitVec.toNat_ofNat]
  omega

/-- Settles O5: ICMP reads its operands as its opcode says; MOVH joins two halves (R187 to R189). -/
theorem compareSelectMoveResults : Obligations.CompareSelectMoveResults := by
  unfold Obligations.CompareSelectMoveResults
  have hmovh : bodyMovh = pureOp (fun i w => [BitVec.ofNat 32 (immField i.f % 65536 * 65536 + (nth w 0 0#32).toNat % 65536)]) := by
    unfold bodyMovh
    simp only [high_or_low_half]
  refine ⟨fun n32 _ => ?_, fun z _ _ _ _ _ => ?_, fun _ => computes_of_pureOp bodySel rfl fun _ _ _ => rfl,
    fun _ => computes_of_pureOp bodyMov rfl fun _ _ _ => rfl, fun _ _ _ => computes_of_pureOp bodyMov rfl fun _ _ _ => rfl,
    fun _ => computes_of_pureOp bodyMovi rfl fun _ _ _ => rfl, fun _ => computes_of_pureOp bodyMovh rfl fun _ _ _ => by rw [hmovh]⟩
  · cases n32 with
    | false => exact computes_of_pureOp bodyIcmp rfl fun _ ws hop => bodyIcmp_eq hop ws
    | true => exact computes_of_pureOp bodyIcmp rfl fun _ ws hop => bodyIcmp_eq hop ws
  · refine computes_of_pureOp bodyIcmp rfl (fun i ws hop => bodyIcmp_eq (hop.trans (icmpL9_opcode z)) ws) (fun s => ?_)
    rw [icmpL9_opcode]
    rfl

end Sys2Proof.Machine
end

section
/-!
The register, predicate, lane, float and conversion instructions (R190 to R220): each meaning delivers to every acting lane the value that the
spec states.
-/
namespace Sys2Proof.Machine

/-- An instruction completes with what its meaning delivers, whatever lanes it notes as read and however long it takes. -/
theorem completes_of_delivers {ins : Instr} {op : BitVec 8} {f : Fields} {ok : Iss → Table (List Word) → Prop}
    {vals : Iss → Table (List Word) → List (Nat × List Word)} (body : Body) (hw : wordOf ins = some (op, f))
    (hb : ∀ i ws, ok i ws → ∃ uses extra, body i ws = .ok { deliver i (vals i ws) with uses := uses, extra := extra })
    (he : ∀ s, exec ins s = issueOn op.toNat f body s := by exact fun _ => rfl) : Completes ins ok (fun i ws => deliver i (vals i ws)) := by
  refine completes_of_body body hw (fun i _ _ hok => ?_) he
  obtain ⟨uses, extra, hres⟩ := hb i _ hok
  exact ⟨_, hres, deliver_leave i _, rfl, rfl⟩

/-! ### Registers read by number -/

/-- The base that a folded chain's stage counts its registers from (R316). -/
def stageBase (t : Team) : Nat := match t.folded, t.fold with | true, some fo => nth fo.vbase fo.stage 0 | _, _ => 0

/-- How many registers an instruction may name: the stage's in a folded chain, else the allotment (R190). -/
def stageCount (i : Iss) : Nat := match i.tm.folded, i.tm.fold with | true, some fo => nth fo.vcount fo.stage 0 | _, _ => i.grp.vallot

/-- MOVX where every acting lane names a register that it may name (R190). -/
theorem bodyMovx_of_named {i : Iss} {ws : Table (List Word)} (h : ∀ p ∈ actingWords i ws, (nth p.2 0 0#32).toNat < stageCount i
      ∧ (nth p.2 0 0#32).toNat + stageBase i.tm < i.grp.vallot) :
    ∃ uses extra, bodyMovx i ws = .ok { deliver i ((actingWords i ws).map (fun p =>
      (p.1, [sourceValue i.grp i.x i.x.off i.now false ⟨p.1, .v ((nth p.2 0 0#32).toNat + stageBase i.tm)⟩]))) with uses := uses, extra := extra } := by
  have hnone : ((actingWords i ws).map (fun p => (p.1, (nth p.2 0 0#32).toNat))).filter
      (fun p => decide (stageCount i ≤ p.2 ∨ i.grp.vallot ≤ p.2 + stageBase i.tm)) = [] := by
    rw [List.filter_eq_nil_iff]
    intro q hq
    obtain ⟨p, hp, rfl⟩ := List.mem_map.mp hq
    have := h p hp
    simpa using this
  rcases hfolded : i.tm.folded with _ | _ <;> rcases hfold : i.tm.fold with _ | fo
  all_goals
    simp only [stageBase, stageCount, hfolded, hfold] at hnone ⊢
    simp only [bodyMovx, hfolded, hfold, hnone, List.map_map]
    exact ⟨_, _, rfl⟩

/-- Settles O6: a register that MOVX may name is read where the stage's base puts it (R190 to R192). -/
theorem registerReadResults : Obligations.RegisterReadResults := by
  unfold Obligations.RegisterReadResults
  exact ⟨fun _ => completes_of_delivers bodyMovx rfl fun _ _ h => bodyMovx_of_named h,
    fun _ _ _ => completes_of_delivers bodyMovx rfl fun _ _ h => bodyMovx_of_named h,
    fun _ => completes_of_delivers bodySreg rfl fun _ _ _ => ⟨_, _, rfl⟩,
    fun _ => completes_of_body bodyUmov rfl fun _ _ _ _ => ⟨_, rfl, rfl, rfl, rfl⟩⟩

/-! ### Predicates and votes -/

theorem bodyPnot_eq : bodyPnot = pureOp (fun _ w => [BitVec.ofNat 32 (b2n (!(nth w 0 0#32 == 1#32)))]) := by
  unfold bodyPnot
  congr 1
  funext _ w
  by_cases h : nth w 0 0#32 = 1#32 <;> simp [h, b2n]

/-- A list of lanes mapped by two functions that agree on the lanes. -/
theorem map_pair_congr {ls : List Nat} {v w : Nat → List Word} (h : ∀ l ∈ ls, v l = w l) : ls.map (fun l => (l, v l)) = ls.map (fun l => (l, w l)) :=
  List.map_congr_left fun l hl => by rw [h l hl]

/-- The lane that ELECT chooses is the first that acts (R197). -/
theorem elect_word {ls : List Nat} {l : Nat} (hl : l ∈ ls) :
    [BitVec.ofNat 32 (b2n (l == ls.headD 0))] = [if ls.head? = some l then 1#32 else 0#32] := by
  cases ls with
  | nil => cases hl
  | cons a ls =>
    by_cases h : a = l
    · simp [h, b2n]
    · simp [h, Ne.symm h, b2n]

/-- A lane of the 32-lane segment of another, and its place there (R196). -/
theorem segment_iff (l j : Nat) : (32 * (l / 32) ≤ j ∧ j < 32 * (l / 32) + 32) ↔ j / 32 = l / 32 := by omega

theorem ballot_eq (a : List Nat) (holds : Nat → Bool) (l : Nat) :
    ((a.filter (fun j => decide (32 * (l / 32) ≤ j ∧ j < 32 * (l / 32) + 32) && holds j)).map (fun j => 2 ^ (j - 32 * (l / 32)))).sum
      = ((a.filter (fun j => j / 32 == l / 32 && holds j)).map (fun j => 2 ^ (j % 32))).sum := by
  have hpred : (fun j => decide (32 * (l / 32) ≤ j ∧ j < 32 * (l / 32) + 32) && holds j) = fun j => j / 32 == l / 32 && holds j := by
    funext j
    rw [decide_eq_decide.mpr (segment_iff l j)]
    rfl
  rw [hpred]
  congr 1
  refine List.map_congr_left fun j hj => ?_
  have : j / 32 = l / 32 := by simpa using (Bool.and_eq_true_iff.mp (List.mem_filter.mp hj).2).1
  congr 1
  omega

/-- VOTE over the acting lanes (R196). -/
theorem bodyVote_delivers (i : Iss) (ws : Table (List Word)) :
    ∃ uses extra, bodyVote i ws = .ok { deliver i (i.acting.map (fun l => (l, [match i.f.fn.toNat % 8 with
        | 0 => BitVec.ofNat 32 (b2n (i.acting.all (fun l => nth ((tget ws l).getD []) 0 0#32 == 1#32)))
        | 1 => BitVec.ofNat 32 (b2n (i.acting.any (fun l => nth ((tget ws l).getD []) 0 0#32 == 1#32)))
        | 2 => BitVec.ofNat 32 ((i.acting.filter (fun j => j / 32 == l / 32 && nth ((tget ws j).getD []) 0 0#32 == 1#32)).map (fun j => 2 ^ (j % 32))).sum
        | _ => BitVec.ofNat 32 (b2n (i.acting.all (fun j => nth ((tget ws j).getD []) 0 0#32
            == nth ((tget ws (i.acting.headD 0)).getD []) 0 0#32)))]))) with uses := uses, extra := extra } := by
  unfold bodyVote
  simp only [srcOf, ballot_eq]
  exact ⟨_, _, rfl⟩

theorem bodyElect_delivers (i : Iss) (ws : Table (List Word)) : ∃ uses extra, bodyElect i ws
    = .ok { deliver i (i.acting.map (fun l => (l, [if i.acting.head? = some l then 1#32 else 0#32]))) with uses := uses, extra := extra } := by
  unfold bodyElect
  rw [map_pair_congr (fun l hl => elect_word hl)]
  exact ⟨_, _, rfl⟩

/-- Settles O7: BALLOT's segment is that of the lanes with the same quotient by 32, and ELECT's lane is the head of the acting ones (R193 to R197). -/
theorem predicateAndVoteResults : Obligations.PredicateAndVoteResults := by
  unfold Obligations.PredicateAndVoteResults
  exact ⟨
    fun _ => computes_of_pureOp bodyPand rfl fun _ _ _ => rfl, fun _ _ _ _ => computes_of_pureOp bodyPand rfl fun _ _ _ => rfl,
    fun _ => computes_of_pureOp bodyPor rfl fun _ _ _ => rfl, fun _ _ _ _ => computes_of_pureOp bodyPor rfl fun _ _ _ => rfl,
    fun _ => computes_of_pureOp bodyPxor rfl fun _ _ _ => rfl, fun _ _ _ _ => computes_of_pureOp bodyPxor rfl fun _ _ _ => rfl,
    fun _ => computes_of_pureOp bodyPnot rfl fun _ _ _ => by rw [bodyPnot_eq], fun _ _ _ => computes_of_pureOp bodyPnot rfl fun _ _ _ => by rw [bodyPnot_eq],
    fun _ => completes_of_delivers bodyElect rfl fun i ws _ => bodyElect_delivers i ws,
    fun _ _ => completes_of_delivers bodyElect rfl fun i ws _ => bodyElect_delivers i ws,
    fun _ => completes_of_delivers bodyVote rfl fun i ws _ => bodyVote_delivers i ws,
    fun _ _ _ _ => completes_of_delivers bodyVote rfl fun i ws _ => bodyVote_delivers i ws⟩

/-! ### Lanes that read other lanes -/

/-- The lane that SHFL names, by its kind (R199). -/
theorem shflLane_eq (k l b : Nat) : shflLane k l b
    = if k = 0 then (b : Int) else if k = 1 then (l : Int) - b else if k = 2 then (l : Int) + b else ((l ^^^ b : Nat) : Int) := by
  unfold shflLane
  split <;> simp_all

/-- SHFL delivers the named lane's value where it is in range and present, else the lane's own (R199). -/
theorem bodyShfl_delivers (i : Iss) (ws : Table (List Word)) :
    ∃ uses extra, bodyShfl i ws = .ok { deliver i (i.acting.map (fun l => (l, [
      let own (l : Nat) : Word := nth ((tget ws l).getD []) 0 0#32
      let b := (lastWord i ((tget ws l).getD []) 1).toNat
      let k := i.f.fn.toNat % 8
      let j : Int := if k = 0 then (b : Int) else if k = 1 then (l : Int) - b else if k = 2 then (l : Int) + b else ((l ^^^ b : Nat) : Int)
      if 0 ≤ j ∧ j < i.grp.width ∧ i.here.contains j.toNat = true then own j.toNat else own l]))) with uses := uses, extra := extra } := by
  have hword : ∀ l, srcOf ws ((shflNames i ws l).getD l) = (let own (l : Nat) : Word := nth ((tget ws l).getD []) 0 0#32
      let j := shflLane (i.f.fn.toNat % 8) l (lastWord i ((tget ws l).getD []) 1).toNat
      if 0 ≤ j ∧ j < i.grp.width ∧ i.here.contains j.toNat = true then own j.toNat else own l) := by
    intro l
    simp only [shflNames]
    split <;> rfl
  unfold bodyShfl
  simp only [hword, shflLane_eq]
  exact ⟨_, _, rfl⟩

/-- Settles O8: READLANE, FRED and FAMAX deliver one value to every acting lane; SHFL each lane's own or another's (R198, R199, R211 to R213). -/
theorem crossLaneResults : Obligations.CrossLaneResults := by
  unfold Obligations.CrossLaneResults
  exact ⟨
    fun _ => completes_of_delivers bodyReadlane rfl fun _ _ _ => ⟨_, _, rfl⟩, fun _ _ _ _ => completes_of_delivers bodyReadlane rfl fun _ _ _ => ⟨_, _, rfl⟩,
    fun _ => completes_of_delivers bodyShfl rfl fun i ws _ => bodyShfl_delivers i ws,
    fun _ _ _ _ _ => completes_of_delivers bodyShfl rfl fun i ws _ => bodyShfl_delivers i ws,
    fun _ => completes_of_delivers bodyFred rfl fun _ _ _ => ⟨_, _, rfl⟩, fun _ _ _ => completes_of_delivers bodyFred rfl fun _ _ _ => ⟨_, _, rfl⟩,
    fun _ => completes_of_delivers bodyFamax rfl fun _ _ _ => ⟨_, _, rfl⟩, fun _ _ _ _ => completes_of_delivers bodyFamax rfl fun _ _ _ => ⟨_, _, rfl⟩⟩

/-! ### Float arithmetic -/

/-- Settles O9: each meaning decodes the elements, computes exactly and rounds once (R201 to R207). -/
theorem floatArithmeticResults : Obligations.FloatArithmeticResults := by
  unfold Obligations.FloatArithmeticResults
  exact ⟨
    fun _ => computes_of_pureOp bodyFadd rfl fun _ _ _ => rfl, fun _ _ _ _ _ => computes_of_pureOp bodyFadd rfl fun _ _ _ => rfl,
    fun _ => computes_of_pureOp bodyFsub rfl fun _ _ _ => rfl, fun _ _ _ _ _ => computes_of_pureOp bodyFsub rfl fun _ _ _ => rfl,
    fun _ => computes_of_pureOp bodyFmul rfl fun _ _ _ => rfl, fun _ _ _ _ _ => computes_of_pureOp bodyFmul rfl fun _ _ _ => rfl,
    fun _ => computes_of_pureOp bodyFma rfl fun _ _ _ => rfl,
    fun _ => computes_of_pureOp bodyFmin rfl fun _ _ _ => rfl, fun _ _ _ _ _ => computes_of_pureOp bodyFmin rfl fun _ _ _ => rfl,
    fun _ => computes_of_pureOp bodyFmax rfl fun _ _ _ => rfl, fun _ _ _ _ _ => computes_of_pureOp bodyFmax rfl fun _ _ _ => rfl,
    fun _ => computes_of_pureOp bodyFcmp rfl fun _ _ _ => rfl, fun _ _ _ _ _ => computes_of_pureOp bodyFcmp rfl fun _ _ _ => rfl⟩

/-! ### Conversions -/

/-- A conversion to its own format keeps the bits of every value but a NaN (R218). -/
theorem cvt_element (src dst : Nat) (df : Format) (mode : Mode) (ovf : Overflow) (a r : Nat) (x : Val) :
    (if src = dst then (match x with | .nan => df.encode .rne .default 0 x | _ => a % 2 ^ df.width) else df.encode mode ovf r x)
      = if src = dst ∧ x ≠ .nan then a % 2 ^ df.width else if src = dst then df.encode .rne .default 0 x else df.encode mode ovf r x := by
  by_cases h : src = dst
  · cases x <;> simp [h]
  · simp [h]

/-- The value that CVT converts for a lane: its source under its scale, where it has a second source (R217, R218). -/
def cvtValue (i : Iss) (w : List Word) : Val :=
  convValue (ctrlField i.f % 16) ((convFormat (ctrlField i.f % 16)).getD (.float f32)) (nth w 0 0#32)
    (match i.o.sb with | .none => none | _ => some (nth w 1 0#32))

/-- Whether CVT draws a stochastic rounding for a lane (R60). -/
def cvtDraws (i : Iss) (w : List Word) : Bool := decide (modeOf (i.f.fn.toNat % 8) = .sr) && (cvtValue i w).nonzeroFinite

/-- The word that CVT gives a lane (R216, R218). -/
def cvtWord (i : Iss) (l : Nat) (w : List Word) : Word :=
  let c := ctrlField i.f
  let df := (convFormat (c / 16 % 16)).getD (.float f32)
  fillElement df (
    if c % 16 = c / 16 % 16 ∧ cvtValue i w ≠ .nan then (nth w 0 0#32).toNat % 2 ^ df.width
    else if c % 16 = c / 16 % 16 then df.encode .rne .default 0 (cvtValue i w)
    else df.encode (modeOf (i.f.fn.toNat % 8)) (match c / 256 with | 1 => .saturate | 2 => .toNan | _ => .default)
      (if cvtDraws i w then srBits (srStep (srState i l)) else 0) (cvtValue i w))

/-- CVT delivers each acting lane's word, and writes the states that it has drawn from (R215 to R218). -/
theorem bodyCvt_eq (i : Iss) (ws : Table (List Word)) : bodyCvt i ws = .ok
    (let r := deliver i ((actingWords i ws).map (fun p => (p.1, [cvtWord i p.1 p.2])))
     { r with writes := r.writes ++ (actingWords i ws).flatMap (fun p => if cvtDraws i p.2 then [(⟨p.1, .sr⟩, srStep (srState i p.1))] else []) }) := by
  unfold bodyCvt
  dsimp only
  rw [List.map_map, List.flatMap_map, List.map_congr_left (l := actingWords i ws) (g := fun p => (p.1, [cvtWord i p.1 p.2])) (fun p _ => ?_)]
  · unfold cvtDraws cvtValue
    cases i.o.sb <;> rfl
  · dsimp only [Function.comp, cvtWord]
    rw [← cvt_element]
    unfold cvtDraws cvtValue
    cases i.o.sb <;> rfl

/-- Settles O11: a conversion delivers the encoded element and writes the state that it has drawn from (R210 to R220). -/
theorem conversionResults : Obligations.ConversionResults := by
  unfold Obligations.ConversionResults
  refine ⟨
    fun _ => computes_of_pureOp bodyLdexp rfl fun _ _ _ => rfl, fun _ _ _ _ => computes_of_pureOp bodyLdexp rfl fun _ _ _ => rfl,
    fun _ => computes_of_pureOp bodyFrnd rfl fun _ _ _ => rfl, fun _ _ _ _ => computes_of_pureOp bodyFrnd rfl fun _ _ _ => rfl,
    fun _ => computes_of_pureOp bodyFrac rfl fun _ _ _ => rfl, fun _ _ _ => computes_of_pureOp bodyFrac rfl fun _ _ _ => rfl,
    fun _ => computes_of_pureOp bodyScale rfl fun _ _ _ => rfl, fun _ _ _ _ => computes_of_pureOp bodyScale rfl fun _ _ _ => rfl,
    fun _ => computes_of_pureOp bodyPackw rfl fun _ _ _ => rfl, fun _ _ _ _ _ => computes_of_pureOp bodyPackw rfl fun _ _ _ => rfl,
    fun _ => computes_of_pureOp bodyUnpkw rfl fun _ _ _ => rfl, fun _ _ _ _ _ => computes_of_pureOp bodyUnpkw rfl fun _ _ _ => rfl, fun _ => ?_⟩
  exact completes_of_body bodyCvt rfl fun i _ _ _ => ⟨_, bodyCvt_eq i _, deliver_leave i _, rfl, rfl⟩

end Sys2Proof.Machine
end

section
/-!
Access to tiles by instructions (R145 to R160): the checks of a tile use, in their order, and what the loads, the stores and the tile
instructions give where the checks hold.
-/
namespace Sys2Proof.Machine

/-! ### The checks -/

/-- A tile may be used: the mask allows it, it is defined, and it is not for atomics (R152). -/
def Iss.Usable (i : Iss) (need : Nat) : Prop :=
  need ≤ maskCode i.x.mask (i.tile i.o.sa).1 ∧ (i.tile i.o.sa).2.state ≠ .undef ∧ (i.tile i.o.sa).2.atomic = false

theorem tileCheck_usable {i : Iss} {need : Nat} (h : i.Usable need) : tileCheck i (i.tile i.o.sa) need = none := by
  obtain ⟨hmask, hstate, hatomic⟩ := h
  simp [tileCheck, Nat.not_lt.mpr hmask, hstate, hatomic]

@[simp] theorem laneCheck_nil (i : Iss) (cause tile : Nat) : laneCheck i cause tile [] = none := rfl

theorem boundsCheck_none {i : Iss} {t : Nat × Tile} {size : Nat} {offs : List (Nat × Nat)}
    (h : ∀ p ∈ offs, p.2 + size ≤ t.2.bytes ∧ p.2 % size = 0) : boundsCheck i t size offs = none := by
  have hbound : offs.filter (fun p => decide (t.2.bytes < p.2 + size)) = [] :=
    List.filter_eq_nil_iff.mpr fun p hp => by simpa using (h p hp).1
  have halign : offs.filter (fun p => p.2 % size != 0) = [] :=
    List.filter_eq_nil_iff.mpr fun p hp => by simpa using (h p hp).2
  simp [boundsCheck, hbound, halign]

theorem firstSome_none {α β : Type} {h : α → Option β} {l : List α} (hl : ∀ a ∈ l, h a = none) : firstSome h l = none := by
  induction l with
  | nil => rfl
  | cons a l ih => simp [firstSome, hl a (by simp), ih fun b hb => hl b (by simp [hb])]

theorem poisonCheck_none {i : Iss} {reads : List (Nat × Nat × Nat)} (h : ∀ r ∈ reads, i.s.poisonAt (sliceKey i.g.core r.2.1) r.2.2 = none) :
    poisonCheck i reads = none := by
  unfold poisonCheck
  split
  · rfl
  · exact firstSome_none fun r hr => by rw [h r hr]; rfl

/-! ### Loads (R149) -/

section
variable {i : Iss} {ws : Table (List Word)} {k : Nat}

/-- A load where its tile may be read and each acting lane's access lies within it, is aligned and reads no poison. -/
theorem loadBody_of_ok {scaled : Bool} (hne : actingWords i ws ≠ []) (ht : i.Usable 1)
    (hk : k = if scaled then accessSize (i.f.fn.toNat % 8) else 1)
    (h : ∀ p ∈ actingWords i ws, (lastWord i p.2 0).toNat * k + accessSize (i.f.fn.toNat % 8) ≤ (i.tile i.o.sa).2.bytes
      ∧ (lastWord i p.2 0).toNat * k % accessSize (i.f.fn.toNat % 8) = 0
      ∧ i.s.poisonAt (sliceKey i.g.core ((i.tile i.o.sa).2.start + (lastWord i p.2 0).toNat * k)) (accessSize (i.f.fn.toNat % 8)) = none) :
    ∃ extra, loadBody scaled i ws = .ok { deliver i ((actingWords i ws).map (fun p => (p.1, loadWords (i.f.fn.toNat % 8)
      (ofBytesLE (i.view p.1 ((i.tile i.o.sa).2.start + (lastWord i p.2 0).toNat * k) (accessSize (i.f.fn.toNat % 8))))))) with extra := extra } := by
  subst hk
  unfold loadBody
  dsimp only
  rw [if_neg (by simpa using hne), tileCheck_usable ht, boundsCheck_none, poisonCheck_none]
  · exact ⟨_, by rw [List.map_map]; rfl⟩
  all_goals
    simp only [List.map_map, List.forall_mem_map]
    intro p hp
    obtain ⟨hbound, halign, hclean⟩ := h p hp
  · exact hclean
  · exact ⟨hbound, halign⟩

theorem loadBody_nil {scaled : Bool} (h : actingWords i ws = []) : loadBody scaled i ws = .ok {} := by
  simp [loadBody, h]

end

/-- A load completes with what each acting lane sees at its offset, counted in units of `k` bytes (R149, R150). -/
theorem completes_load {ins : Instr} {op : BitVec 8} {f : Fields} (scaled : Bool) (k : Iss → Nat) (hw : wordOf ins = some (op, f))
    (hk : ∀ i, k i = if scaled then accessSize (i.f.fn.toNat % 8) else 1) (he : ∀ s, exec ins s = issueOn op.toNat f (loadBody scaled) s) :
    Completes ins (fun i ws => actingWords i ws ≠ [] → i.Usable 1 ∧ ∀ p ∈ actingWords i ws,
        (lastWord i p.2 0).toNat * k i + accessSize (i.f.fn.toNat % 8) ≤ (i.tile i.o.sa).2.bytes
        ∧ (lastWord i p.2 0).toNat * k i % accessSize (i.f.fn.toNat % 8) = 0
        ∧ i.s.poisonAt (sliceKey i.g.core ((i.tile i.o.sa).2.start + (lastWord i p.2 0).toNat * k i)) (accessSize (i.f.fn.toNat % 8)) = none)
      (fun i ws => if actingWords i ws = [] then {} else deliver i ((actingWords i ws).map (fun p => (p.1, loadWords (i.f.fn.toNat % 8)
        (ofBytesLE (i.view p.1 ((i.tile i.o.sa).2.start + (lastWord i p.2 0).toNat * k i) (accessSize (i.f.fn.toNat % 8)))))))) := by
  refine completes_of_body (loadBody scaled) hw (fun i _ _ hok => ?_) he
  by_cases hne : actingWords i (capture i).words = []
  · exact ⟨_, loadBody_nil hne, rfl, by rw [if_pos hne], by rw [if_pos hne]⟩
  · obtain ⟨ht, h⟩ := hok hne
    obtain ⟨extra, hres⟩ := loadBody_of_ok hne ht (hk i) h
    exact ⟨_, hres, deliver_leave i _, by rw [if_neg hne], by rw [if_neg hne]⟩

/-- LDF where its tile may be read, its format is valid, each acting lane's elements exist, are paired and are well formed, and none of their
words is poisoned (R154, R156). -/
theorem bodyLdf_of_ok {i : Iss} {ws : Table (List Word)} {many : Nat} (hne : actingWords i ws ≠ []) (ht : i.Usable 1)
    (hfmt : (i.tile i.o.sa).2.fmt ≠ 0#5) (hform : formatFault (i.tile i.o.sa).2.fmt.toNat (i.tile i.o.sa).2.geom.toNat = none)
    (hmany : many = if i.f.fn.toNat % 8 = 1 then 2 else 1)
    (h : ∀ p ∈ actingWords i ws, (lastWord i p.2 0).toNat + many ≤ (i.tile i.o.sa).2.nelem ∧ (lastWord i p.2 0).toNat % many = 0
      ∧ ∀ k, k < many → (let r := readElement i p.1 (i.tile i.o.sa).2 ((lastWord i p.2 0).toNat + k)
          spareSet (i.tile i.o.sa).2.fmt.toNat r.1 r.2.1 = false)
        ∧ ∀ w ∈ elementWords (i.tile i.o.sa).2 ((lastWord i p.2 0).toNat + k), i.s.poisonAt (sliceKey i.g.core (8 * w)) 8 = none) :
    ∃ extra, bodyLdf i ws = .ok { deliver i ((actingWords i ws).map (fun p =>
      let e (k : Nat) : Val := (readElement i p.1 (i.tile i.o.sa).2 ((lastWord i p.2 0).toNat + k)).2.2
      (p.1, [BitVec.ofNat 32 (if many = 2 then bf16.rne (e 0) + 65536 * bf16.rne (e 1) else f32.rne (e 0))]))) with extra := extra } := by
  unfold bodyLdf
  dsimp only
  have hall : ∀ (e : Nat), (if (i.f.fn.toNat % 8 == 1) = true then [e, e + 1] else [e]) = (List.range many).map (fun k => e + k) := by
    intro e
    subst hmany
    by_cases hp : i.f.fn.toNat % 8 = 1 <;> simp [hp, List.range_succ]
  have hlast : many = b2n (i.f.fn.toNat % 8 == 1) + 1 := by
    subst hmany
    by_cases hp : i.f.fn.toNat % 8 = 1 <;> simp [hp, b2n]
  have hbound : ((actingWords i ws).map (fun p => (p.1, (lastWord i p.2 0).toNat))).filter
      (fun p => decide ((i.tile i.o.sa).2.nelem ≤ p.2 + b2n (i.f.fn.toNat % 8 == 1))) = [] := by
    rw [List.filter_eq_nil_iff, List.forall_mem_map]
    intro p hp
    have := (h p hp).1
    simp only [decide_eq_true_eq]
    omega
  have halign : ((actingWords i ws).map (fun p => (p.1, (lastWord i p.2 0).toNat))).filter
      (fun p => i.f.fn.toNat % 8 == 1 && p.2 % 2 == 1) = [] := by
    rw [List.filter_eq_nil_iff, List.forall_mem_map]
    intro p hp
    have := (h p hp).2.1
    by_cases hpair : i.f.fn.toNat % 8 = 1
    · simp only [hmany, hpair, if_true] at this
      simp [this]
    · simp [hpair]
  have hspare : ((actingWords i ws).map (fun p => (p.1, (lastWord i p.2 0).toNat))).filter (fun p => ((List.range many).map (fun k => p.2 + k)).any
      (fun e => spareSet (i.tile i.o.sa).2.fmt.toNat (readElement i p.1 (i.tile i.o.sa).2 e).1 (readElement i p.1 (i.tile i.o.sa).2 e).2.1)) = [] := by
    rw [List.filter_eq_nil_iff, List.forall_mem_map]
    intro p hp
    simp only [Bool.not_eq_true, List.any_eq_false, List.forall_mem_map, List.mem_range]
    exact fun k hk => ((h p hp).2.2 k hk).1
  have hformat : formatCheck i (i.tile i.o.sa) = none := by simp [formatCheck, hfmt, hform]
  simp only [hall]
  rw [if_neg (by simpa using hne), tileCheck_usable ht, hformat, hbound, halign, poisonCheck_none]
  · simp only [hspare, laneCheck_nil, Option.or_none, List.map_map]
    subst hmany
    by_cases hp : i.f.fn.toNat % 8 = 1
    · simp only [hp, if_true, beq_self_eq_true]
      exact ⟨_, rfl⟩
    · simp only [hp, if_false, beq_iff_eq]
      exact ⟨_, rfl⟩
  · simp only [List.forall_mem_flatMap, List.forall_mem_map, List.mem_range]
    exact fun p hp k hk w hmem => ((h p hp).2.2 k hk).2 w hmem

theorem bodyLdf_nil {i : Iss} {ws : Table (List Word)} (h : actingWords i ws = []) : bodyLdf i ws = .ok {} := by
  simp [bodyLdf, h]

/-- LDF completes with the exact elements, rounded (R154, R156). -/
theorem completes_ldf {ins : Instr} {op : BitVec 8} {f : Fields} (many : Iss → Nat) (hw : wordOf ins = some (op, f))
    (hmany : ∀ i, many i = if i.f.fn.toNat % 8 = 1 then 2 else 1) (he : ∀ s, exec ins s = issueOn op.toNat f bodyLdf s) :
    Completes ins (fun i ws => actingWords i ws ≠ [] → i.Usable 1 ∧ (i.tile i.o.sa).2.fmt ≠ 0#5
        ∧ formatFault (i.tile i.o.sa).2.fmt.toNat (i.tile i.o.sa).2.geom.toNat = none
        ∧ ∀ p ∈ actingWords i ws, (lastWord i p.2 0).toNat + many i ≤ (i.tile i.o.sa).2.nelem ∧ (lastWord i p.2 0).toNat % many i = 0
          ∧ ∀ k, k < many i → (let r := readElement i p.1 (i.tile i.o.sa).2 ((lastWord i p.2 0).toNat + k)
              spareSet (i.tile i.o.sa).2.fmt.toNat r.1 r.2.1 = false)
            ∧ ∀ w ∈ elementWords (i.tile i.o.sa).2 ((lastWord i p.2 0).toNat + k), i.s.poisonAt (sliceKey i.g.core (8 * w)) 8 = none)
      (fun i ws => if actingWords i ws = [] then {} else deliver i ((actingWords i ws).map (fun p =>
        let e (k : Nat) : Val := (readElement i p.1 (i.tile i.o.sa).2 ((lastWord i p.2 0).toNat + k)).2.2
        (p.1, [BitVec.ofNat 32 (if many i = 2 then bf16.rne (e 0) + 65536 * bf16.rne (e 1) else f32.rne (e 0))])))) := by
  refine completes_of_body bodyLdf hw (fun i _ _ hok => ?_) he
  by_cases hne : actingWords i (capture i).words = []
  · exact ⟨_, bodyLdf_nil hne, rfl, by rw [if_pos hne], by rw [if_pos hne]⟩
  · obtain ⟨ht, hfmt, hform, h⟩ := hok hne
    obtain ⟨extra, hres⟩ := bodyLdf_of_ok hne ht hfmt hform (hmany i) h
    exact ⟨_, hres, deliver_leave i _, by rw [if_neg hne], by rw [if_neg hne]⟩

/-- Settles O12: the checks of a load pass, and it delivers what each lane's view holds (R149 to R156). -/
theorem loadResults : Obligations.LoadResults := by
  unfold Obligations.LoadResults
  exact ⟨
    fun _ => completes_load false (fun _ => 1) rfl (fun _ => rfl) fun _ => rfl,
    fun _ _ _ _ _ => completes_load false (fun _ => 1) rfl (fun _ => rfl) fun _ => rfl,
    fun _ => completes_load true (fun i => accessSize (i.f.fn.toNat % 8)) rfl (fun _ => rfl) fun _ => rfl,
    fun _ _ _ _ _ => completes_load true (fun i => accessSize (i.f.fn.toNat % 8)) rfl (fun _ => rfl) fun _ => rfl,
    fun _ => completes_ldf _ rfl (fun _ => rfl) fun _ => rfl,
    fun _ _ _ _ _ => completes_ldf _ rfl (fun _ => rfl) fun _ => rfl⟩

end Sys2Proof.Machine
end

section
/-!
Stores (R149, R155) and the tile instructions (R157 to R160).
-/
namespace Sys2Proof.Machine

theorem formatCheck_ok {i : Iss} {t : Nat × Tile} (hfmt : t.2.fmt ≠ 0#5) (hform : formatFault t.2.fmt.toNat t.2.geom.toNat = none) :
    formatCheck i t = none := by
  simp [formatCheck, hfmt, hform]

/-! ### Stores -/

theorem nth_drop_ite (c : Bool) (ws : List Word) (k : Nat) : nth (ws.drop (if c then 0 else 1)) k 0#32 = nth ws (if c then k else k + 1) 0#32 := by
  cases c with
  | true => simp
  | false => simp [nth]

/-- ST where its tile may be written and each acting lane's access lies within it and is aligned. -/
theorem bodySt_of_ok {i : Iss} {ws : Table (List Word)} (hne : actingWords i ws ≠ []) (ht : i.Usable 2)
    (h : ∀ p ∈ actingWords i ws, (lastWord i p.2 0).toNat + accessSize (i.f.fn.toNat % 8) ≤ (i.tile i.o.sa).2.bytes
      ∧ (lastWord i p.2 0).toNat % accessSize (i.f.fn.toNat % 8) = 0) :
    bodySt i ws = .ok { effs := (actingWords i ws).map (fun p =>
        let size := accessSize (i.f.fn.toNat % 8)
        let v (k : Nat) : Nat := (nth p.2 (if immForm i.r i.f then k else k + 1) 0#32).toNat
        .store p.1 (storeTile i (i.tile i.o.sa).1) ((i.tile i.o.sa).2.start + (lastWord i p.2 0).toNat) (toBytesLE size (v 0 + v 1 * 2 ^ 32))
          (List.replicate size 255#8)) } := by
  unfold bodySt
  dsimp only
  rw [if_neg (by simpa using hne), tileCheck_usable ht, boundsCheck_none]
  · rw [List.map_map]
    simp only [Option.or_none, nth_drop_ite, Function.comp_def]
  · simp only [List.map_map, List.forall_mem_map]
    exact h

theorem bodySt_nil {i : Iss} {ws : Table (List Word)} (h : actingWords i ws = []) : bodySt i ws = .ok {} := by
  simp [bodySt, h]

/-- A store completes with one buffered store for each acting lane (R149). -/
theorem completes_st {ins : Instr} {op : BitVec 8} {f : Fields} (hw : wordOf ins = some (op, f))
    (he : ∀ s, exec ins s = issueOn op.toNat f bodySt s) :
    Completes ins (fun i ws => actingWords i ws ≠ [] → i.Usable 2 ∧ ∀ p ∈ actingWords i ws,
        (lastWord i p.2 0).toNat + accessSize (i.f.fn.toNat % 8) ≤ (i.tile i.o.sa).2.bytes
        ∧ (lastWord i p.2 0).toNat % accessSize (i.f.fn.toNat % 8) = 0)
      (fun i ws => { effs := (actingWords i ws).map (fun p =>
        let size := accessSize (i.f.fn.toNat % 8)
        let v (k : Nat) : Nat := (nth p.2 (if immForm i.r i.f then k else k + 1) 0#32).toNat
        .store p.1 (storeTile i (i.tile i.o.sa).1) ((i.tile i.o.sa).2.start + (lastWord i p.2 0).toNat) (toBytesLE size (v 0 + v 1 * 2 ^ 32))
          (List.replicate size 255#8)) }) := by
  refine completes_of_body bodySt hw (fun i _ _ hok => ?_) he
  by_cases hne : actingWords i (capture i).words = []
  · exact ⟨_, bodySt_nil hne, rfl, rfl, by simp [hne]⟩
  · obtain ⟨ht, h⟩ := hok hne
    exact ⟨_, bodySt_of_ok hne ht h, rfl, rfl, rfl⟩

/-- The value that STF stores for a lane, over the scale of its element's block (R155). -/
def stfValue (i : Iss) (t : Tile) (l e : Nat) (v : Word) : Val :=
  let at_ := elementAt t.fmt.toNat t.geom.toNat e
  let byte (k : Nat) : Int := ((nth (i.view l (t.start + k) 1) 0 0#8).toNat : Int)
  if at_.nscale = 0 then f32.decode v.toNat else if (i.view l (t.start + at_.block) at_.nscale).contains 255#8 then .nan
  else (f32.decode v.toNat).scale (254 - byte at_.row - byte at_.col)

/-- Whether STF draws stochastic bits for a lane (R60). -/
def stfDraws (i : Iss) (x : Val) : Bool := decide (modeOf (i.f.fn.toNat % 8) = .sr) && x.nonzeroFinite

/-- The store that STF buffers for a lane. -/
def stfStore (i : Iss) (t : Nat × Tile) (l e : Nat) (v : Word) : Effect :=
  let at_ := elementAt t.2.fmt.toNat t.2.geom.toNat e
  let x := stfValue i t.2 l e v
  let b := elementStore t.2.fmt.toNat at_ (((fmtFormat t.2.fmt.toNat).getD (.float f32)).encode (modeOf (i.f.fn.toNat % 8)) .default
    (if stfDraws i x then srBits (srStep (srState i l)) else 0) x)
  .store l (storeTile i t.1) (t.2.start + at_.word) (toBytesLE 16 b.1) (toBytesLE 16 b.2)

/-- The stochastic state that STF leaves a lane, where it draws. -/
def stfDrawn (i : Iss) (t : Tile) (l e : Nat) (v : Word) : List (Place × Word) :=
  if stfDraws i (stfValue i t l e v) then [(⟨l, .sr⟩, srStep (srState i l))] else []

/-- STF where its tile may be written, its format is valid and each acting lane's element exists. -/
theorem bodyStf_of_ok {i : Iss} {ws : Table (List Word)} (hne : actingWords i ws ≠ []) (ht : i.Usable 2)
    (hfmt : (i.tile i.o.sa).2.fmt ≠ 0#5) (hform : formatFault (i.tile i.o.sa).2.fmt.toNat (i.tile i.o.sa).2.geom.toNat = none)
    (h : ∀ p ∈ actingWords i ws, (lastWord i p.2 0).toNat < (i.tile i.o.sa).2.nelem) :
    bodyStf i ws = .ok {
      effs := (actingWords i ws).map (fun p => stfStore i (i.tile i.o.sa) p.1 (lastWord i p.2 0).toNat (nth p.2 (if immForm i.r i.f then 0 else 1) 0#32)),
      writes := (actingWords i ws).flatMap (fun p =>
        stfDrawn i (i.tile i.o.sa).2 p.1 (lastWord i p.2 0).toNat (nth p.2 (if immForm i.r i.f then 0 else 1) 0#32)) } := by
  have hbound : ((actingWords i ws).map (fun p => (p.1, (lastWord i p.2 0).toNat, nth p.2 (if immForm i.r i.f then 0 else 1) 0#32))).filter
      (fun p => decide ((i.tile i.o.sa).2.nelem ≤ p.2.1)) = [] := by
    rw [List.filter_eq_nil_iff, List.forall_mem_map]
    intro p hp
    simpa using h p hp
  unfold bodyStf
  dsimp only
  rw [if_neg (by simpa using hne), tileCheck_usable ht, formatCheck_ok hfmt hform, hbound]
  simp only [List.map_nil, laneCheck_nil, Option.or_none, List.map_map, List.flatMap_map]
  rfl

theorem bodyStf_nil {i : Iss} {ws : Table (List Word)} (h : actingWords i ws = []) : bodyStf i ws = .ok {} := by
  simp [bodyStf, h]

/-- STF completes with one buffered store of an element for each acting lane (R155, R156). -/
theorem completes_stf {ins : Instr} {op : BitVec 8} {f : Fields} (hw : wordOf ins = some (op, f))
    (he : ∀ s, exec ins s = issueOn op.toNat f bodyStf s) :
    Completes ins (fun i ws => actingWords i ws ≠ [] → i.Usable 2 ∧ (i.tile i.o.sa).2.fmt ≠ 0#5
        ∧ formatFault (i.tile i.o.sa).2.fmt.toNat (i.tile i.o.sa).2.geom.toNat = none
        ∧ ∀ p ∈ actingWords i ws, (lastWord i p.2 0).toNat < (i.tile i.o.sa).2.nelem)
      (fun i ws => {
        effs := (actingWords i ws).map (fun p => stfStore i (i.tile i.o.sa) p.1 (lastWord i p.2 0).toNat (nth p.2 (if immForm i.r i.f then 0 else 1) 0#32)),
        writes := (actingWords i ws).flatMap (fun p =>
          stfDrawn i (i.tile i.o.sa).2 p.1 (lastWord i p.2 0).toNat (nth p.2 (if immForm i.r i.f then 0 else 1) 0#32)) }) := by
  refine completes_of_body bodyStf hw (fun i _ _ hok => ?_) he
  by_cases hne : actingWords i (capture i).words = []
  · exact ⟨_, bodyStf_nil hne, rfl, by simp [hne], by simp [hne]⟩
  · obtain ⟨ht, hfmt, hform, h⟩ := hok hne
    exact ⟨_, bodyStf_of_ok hne ht hfmt hform h, rfl, rfl, rfl⟩

/-- Settles O13: the checks of a store pass, and it buffers one store for each acting lane (R149, R155). -/
theorem storeEffects : Obligations.StoreEffects := by
  unfold Obligations.StoreEffects
  exact ⟨fun _ => completes_st rfl fun _ => rfl, fun _ _ _ _ _ => completes_st rfl fun _ => rfl,
    fun _ => completes_stf rfl fun _ => rfl, fun _ _ _ _ _ => completes_stf rfl fun _ => rfl⟩

/-! ### Effects of the lanes that act -/

theorem groupRes_eq (i : Iss) (e : GroupEff) : groupRes i e = if i.acting = [] then {} else { effs := [.group i.acting e] } := by
  simp [groupRes]

/-- An instruction whose meaning is one effect of the lanes that act buffers it. -/
theorem buffers_of_body {ins : Instr} {op : BitVec 8} {f : Fields} {ok : Iss → Table (List Word) → Prop}
    {eff : Iss → Table (List Word) → GroupEff} (body : Body) (hw : wordOf ins = some (op, f))
    (hb : ∀ i ws, i.op = op.toNat → i.f = f → ok i ws → body i ws = .ok (groupRes i (eff i ws)))
    (he : ∀ s, exec ins s = issueOn op.toNat f body s := by exact fun _ => rfl) : Buffers ins ok eff := by
  refine completes_of_body body hw (fun i hop hf hok => ⟨_, hb i _ hop hf hok, ?_⟩) he
  rw [groupRes_eq]
  refine ⟨?_, rfl, rfl⟩
  split <;> rfl

theorem groupRes_nil {i : Iss} (e : GroupEff) (h : i.acting = []) : groupRes i e = {} := by
  rw [groupRes_eq, if_pos h]

/-! ### Tile instructions -/

theorem bodyTdef_of_ok {i : Iss} {ws : Table (List Word)}
    (h : i.acting ≠ [] → i.tm.isQueueTile (dstTile i) = false ∧ allSame i ws = true
      ∧ tdefValid i.teamAtHead (dstTile i) (nth (leadWords i ws) 0 0#32).toNat (nth (leadWords i ws) 1 0#32).toNat = true
      ∧ (i.teamSoFar.tile (dstTile i)).state ≠ .filling ∧ (i.teamSoFar.tile (dstTile i)).state ≠ .draining) :
    bodyTdef i ws = .ok (groupRes i (.tdef (dstTile i) (nth (leadWords i ws) 0 0#32).toNat (nth (leadWords i ws) 1 0#32).toNat)) := by
  unfold bodyTdef
  by_cases hacting : i.acting = []
  · simp [hacting, groupRes]
  · obtain ⟨hqueue, hsame, hvalid, hfilling, hdraining⟩ := h hacting
    simp [hacting, hqueue, hsame, hvalid, hfilling, hdraining]

theorem bodyTrel_of_ok {i : Iss} {ws : Table (List Word)} (h : i.acting ≠ [] → i.tm.isQueueTile (dstTile i) = false) :
    bodyTrel i ws = .ok (groupRes i (.trel (dstTile i))) := by
  refine if_neg ?_
  by_cases hacting : i.acting = []
  · simp [hacting]
  · simp [h hacting]

theorem bodyTpost_of_ok {i : Iss} {ws : Table (List Word)}
    (h : i.acting ≠ [] → i.tm.isQueueTile (dstTile i) = false ∧ (groupTile i.tm i.grp (dstTile i)).state = .ready) :
    bodyTpost i ws = .ok (groupRes i (.tpost (dstTile i))) := by
  refine if_neg ?_
  by_cases hacting : i.acting = []
  · simp [hacting]
  · obtain ⟨hqueue, hready⟩ := h hacting
    simp [hqueue, hready]

/-- Settles O14: the checks pass and one effect on the tile is buffered (R157 to R160). -/
theorem tileInstructionEffects : Obligations.TileInstructionEffects := by
  unfold Obligations.TileInstructionEffects
  exact ⟨
    fun _ => buffers_of_body bodyTdef rfl fun _ _ _ _ => bodyTdef_of_ok, fun _ _ _ _ => buffers_of_body bodyTdef rfl fun _ _ _ _ => bodyTdef_of_ok,
    fun _ => buffers_of_body bodyTrel rfl fun _ _ _ _ => bodyTrel_of_ok, fun _ _ => buffers_of_body bodyTrel rfl fun _ _ _ _ => bodyTrel_of_ok,
    fun _ => buffers_of_body bodyTpost rfl fun _ _ _ _ => bodyTpost_of_ok, fun _ _ => buffers_of_body bodyTpost rfl fun _ _ _ _ => bodyTpost_of_ok,
    fun _ => buffers_of_body bodyTreclaim rfl fun _ _ _ _ _ => rfl, fun _ _ => buffers_of_body bodyTreclaim rfl fun _ _ _ _ _ => rfl,
    fun _ => completes_of_delivers bodyTstat rfl fun _ _ _ => ⟨_, _, rfl⟩⟩

end Sys2Proof.Machine
end

section
/-!
Atomics, protection keys, barriers, channels, jobs and the matrix and task instructions (R161 to R175, R223, R236 to R239, R285, R304 to
R310, R347 to R354): what each buffers or gives where its checks hold.
-/
namespace Sys2Proof.Machine

/-! ### Bits of an operand -/

theorem bits_high_eq_zero {w hi lo : Nat} (h : w < 2 ^ lo) : bits w hi lo = 0 := by
  simp [bits, Nat.shiftRight_eq_div_pow, Nat.div_eq_of_lt h]

theorem bit_high_eq_false {w n : Nat} (h : w < 2 ^ n) : bit w n = false := by
  simp [bit, Nat.shiftRight_eq_div_pow, Nat.div_eq_of_lt h]

/-! ### Atomics (R166 to R171) -/

/-- The checks of an atomic pass for an address in range, aligned, in a space that holds atomics. -/
theorem atomicChecks_none {i : Iss} {as : List (Nat × Atomic)}
    (h : ∀ p ∈ as, ((p.2.space = 0 ∧ p.2.addr < 2 ^ 49) ∨ (p.2.space = 2 ∧ i.s.sliceRange p.2.addr = false))
      ∧ p.2.addr % (if p.2.typ = 3 then 8 else 4) = 0) : atomicChecks i as = none := by
  have hspace : as.filter (fun a => a.2.space == 1 || a.2.space == 3) = [] := by
    refine List.filter_eq_nil_iff.mpr fun p hp => ?_
    rcases (h p hp).1 with ⟨hs, -⟩ | ⟨hs, -⟩ <;> simp [hs]
  have haddr : as.filter (fun a => a.2.space == 0 && a.2.addr / 2 ^ 49 != 0) = [] := by
    refine List.filter_eq_nil_iff.mpr fun p hp => ?_
    rcases (h p hp).1 with ⟨-, ha⟩ | ⟨hs, -⟩
    · rw [Nat.div_eq_of_lt ha]; simp
    · simp [hs]
  have hslice : as.filter (fun a => a.2.space == 2 && i.s.sliceRange a.2.addr) = [] := by
    refine List.filter_eq_nil_iff.mpr fun p hp => ?_
    rcases (h p hp).1 with ⟨hs, -⟩ | ⟨-, hr⟩
    · simp [hs]
    · simp [hr]
  have halign : as.filter (fun a => a.2.addr % (if a.2.typ = 3 then 8 else 4) != 0) = [] :=
    List.filter_eq_nil_iff.mpr fun p hp => by simp [(h p hp).2]
  simp only [atomicChecks, hspace, haddr, hslice, halign, Option.or_none]

theorem atomicBody_of_ok {i : Iss} {ws : Table (List Word)}
    (h : ∀ p ∈ actingWords i ws, let a := atomicOf i p.2
      ((a.space = 0 ∧ a.addr < 2 ^ 49) ∨ (a.space = 2 ∧ i.s.sliceRange a.addr = false)) ∧ a.addr % (if a.typ = 3 then 8 else 4) = 0) :
    atomicBody i ws = .ok { effs := (actingWords i ws).map (fun p => .atom p.1 (atomicOf i p.2)) } := by
  unfold atomicBody
  dsimp only
  rw [atomicChecks_none]
  · rw [List.map_map]; rfl
  · exact List.forall_mem_map.mpr h

/-- An atomic completes with what it buffers for each acting lane (R169). -/
theorem completes_atomic {ins : Instr} {op : BitVec 8} {f : Fields} (hw : wordOf ins = some (op, f))
    (he : ∀ s, exec ins s = issueOn op.toNat f atomicBody s) :
    Completes ins (fun i ws => ∀ p ∈ actingWords i ws, let a := atomicOf i p.2
        ((a.space = 0 ∧ a.addr < 2 ^ 49) ∨ (a.space = 2 ∧ i.s.sliceRange a.addr = false)) ∧ a.addr % (if a.typ = 3 then 8 else 4) = 0)
      (fun i ws => { effs := (actingWords i ws).map (fun p => .atom p.1 (atomicOf i p.2)) }) :=
  completes_of_body atomicBody hw (fun _ _ _ hok => ⟨_, atomicBody_of_ok hok, rfl, rfl, rfl⟩) he

theorem bodyIcinv_of_ok {i : Iss} {ws : Table (List Word)}
    (h : i.acting ≠ [] → (pairOf (nth (leadWords i ws) 0 0#32) (nth (leadWords i ws) 1 0#32)).toNat < 2 ^ 49) :
    bodyIcinv i ws = .ok (groupRes i (.icinv (pairOf (nth (leadWords i ws) 0 0#32) (nth (leadWords i ws) 1 0#32)).toNat
      (nth (leadWords i ws) 2 0#32).toNat)) := by
  unfold bodyIcinv
  by_cases hacting : i.acting = []
  · simp [hacting, groupRes_nil]
  · simp [hacting, bits_high_eq_zero (h hacting)]

/-- Settles O15: the checks of an atomic pass and it is buffered; PHASE, KEYSET and ICINV buffer their effect, KEYGET reads KEYPERM (R166 to
R175). -/
theorem atomicAndKeyEffects : Obligations.AtomicAndKeyEffects := by
  unfold Obligations.AtomicAndKeyEffects
  exact ⟨fun _ => completes_atomic rfl fun _ => rfl, fun _ => completes_atomic rfl fun _ => rfl, fun _ => completes_atomic rfl fun _ => rfl,
    fun _ => buffers_of_body bodyPhase rfl fun _ _ _ _ _ => rfl, fun _ _ => buffers_of_body bodyPhase rfl fun _ _ _ _ _ => rfl,
    fun _ => buffers_of_body bodyKeyset rfl fun _ _ _ _ _ => rfl, fun _ _ => buffers_of_body bodyKeyset rfl fun _ _ _ _ _ => rfl,
    fun _ => completes_of_delivers bodyKeyget rfl fun _ _ _ => ⟨_, _, rfl⟩, fun _ _ => completes_of_delivers bodyKeyget rfl fun _ _ _ => ⟨_, _, rfl⟩,
    fun _ => buffers_of_body bodyIcinv rfl fun _ _ _ _ => bodyIcinv_of_ok, fun _ _ _ => buffers_of_body bodyIcinv rfl fun _ _ _ _ => bodyIcinv_of_ok⟩

/-! ### Barriers and channels -/

theorem arriveBody_of_ok {e : Nat → Nat → GroupEff} {i : Iss} {ws : Table (List Word)}
    (h : i.x.cameBefore i.f.enc [0xC0, 0xC1] = false ∧ (i.acting ≠ [] → barCount i ws < 256)) :
    arriveBody e i ws = .ok (groupRes i (e (dstBar i) (barCount i ws))) := by
  obtain ⟨hfirst, hcount⟩ := h
  unfold arriveBody
  by_cases hacting : i.acting = []
  · simp [hfirst, hacting, groupRes_nil]
  · simp [hfirst, hacting, Nat.not_le.mpr (hcount hacting)]

theorem bodyBarInit_of_ok {i : Iss} {ws : Table (List Word)} (h : i.acting ≠ [] → 0 < barCount i ws ∧ barCount i ws < 256) :
    bodyBarInit i ws = .ok (groupRes i (.barInit (dstBar i) (barCount i ws))) := by
  unfold bodyBarInit
  by_cases hacting : i.acting = []
  · simp [hacting, groupRes_nil]
  · obtain ⟨hpos, hlt⟩ := h hacting
    simp [hacting, Nat.not_le.mpr hlt, Nat.pos_iff_ne_zero.mp hpos]

theorem bodyGet_of_ok {i : Iss} {ws : Table (List Word)} (h : ∃ q b r, i.o.sa = .chan q b ∧ i.o.dst = .reg r ∧ moveCheck i r (moveRegs i q) = none) :
    bodyGet i ws = .ok (match i.o.sa, i.o.dst with
      | .chan q _, .reg r => { writes := (actingWords i ws).flatMap (fun p =>
          (upto (itemBytes (i.tm.chan q).size / 4)).map (fun j => (placeOf p.1 (r.next j), nth p.2 j 0#32))) }
      | _, _ => {}) := by
  obtain ⟨q, b, r, hsa, hdst, hcheck⟩ := h
  simp only [bodyGet, hsa, hdst, hcheck]
  rfl

theorem bodyPut_of_ok {i : Iss} {ws : Table (List Word)} (h : ∃ q b r, i.o.dst = .chan q b ∧ i.o.sa = .reg r ∧ moveCheck i r (moveRegs i q) = none) :
    bodyPut i ws = .ok (match i.o.dst, i.o.sa with
      | .chan q _, .reg r =>
        let item (p : Nat × List Word) : Nat := ((upto (itemBytes (i.tm.chan q).size / 4)).map (fun j =>
          (if j = 0 then nth p.2 0 0#32 else i.reads p.1 (8 + j) (r.next j)).toNat * 2 ^ (32 * j))).sum
        { effs := [.put q ((actingWords i ws).map (fun p => (p.1, if (i.tm.chan q).size = 3 then item p % 64 else item p)))] }
      | _, _ => {}) := by
  obtain ⟨q, b, r, hdst, hsa, hcheck⟩ := h
  simp only [bodyPut, hdst, hsa, hcheck]
  rfl

/-- Settles O16: the checks pass; an arrival or a count is buffered, GET and PUT move an item's registers (R285, R304 to R310). -/
theorem barrierAndChannelEffects : Obligations.BarrierAndChannelEffects := by
  unfold Obligations.BarrierAndChannelEffects
  refine ⟨
    fun _ => buffers_of_body bodyBarArrive rfl fun _ _ _ _ => arriveBody_of_ok, fun _ _ _ => buffers_of_body bodyBarArrive rfl fun _ _ _ _ => arriveBody_of_ok,
    fun _ => buffers_of_body bodyBarSync rfl fun _ _ _ _ => arriveBody_of_ok, fun _ _ _ => buffers_of_body bodyBarSync rfl fun _ _ _ _ => arriveBody_of_ok,
    fun _ => buffers_of_body bodyBarInit rfl fun _ _ _ _ => bodyBarInit_of_ok, fun _ _ _ => buffers_of_body bodyBarInit rfl fun _ _ _ _ => bodyBarInit_of_ok,
    fun _ => completes_of_body bodyGet rfl fun i _ _ hok => ⟨_, bodyGet_of_ok hok, ?_, rfl, rfl⟩,
    fun _ => completes_of_body bodyPut rfl fun i _ _ hok => ⟨_, bodyPut_of_ok hok, ?_, rfl, rfl⟩,
    fun _ => completes_of_delivers bodyChstat rfl fun _ _ _ => ⟨_, _, rfl⟩⟩
  all_goals split <;> rfl

/-! ### Jobs -/

theorem bodyJob_of_ok {i : Iss} {ws : Table (List Word)}
    (h : i.acting ≠ [] → i.Usable 1 ∧ (nth (leadWords i ws) 0 0#32).toNat % 64 = 0 ∧ (nth (leadWords i ws) 0 0#32).toNat + 64 ≤ (i.tile i.o.sa).2.bytes
      ∧ i.s.poisonAt (sliceKey i.g.core ((i.tile i.o.sa).2.start + (nth (leadWords i ws) 0 0#32).toNat)) 64 = none
      ∧ cardFault i.s i.g.core i.teamSoFar (cardOf (i.view (i.acting.headD 0) ((i.tile i.o.sa).2.start + (nth (leadWords i ws) 0 0#32).toNat) 64)) = none
      ∧ cardTiles i i.teamSoFar (cardOf (i.view (i.acting.headD 0) ((i.tile i.o.sa).2.start + (nth (leadWords i ws) 0 0#32).toNat) 64)) = none) :
    bodyJob i ws = .ok (groupRes i (.job (i.view (i.acting.headD 0) ((i.tile i.o.sa).2.start + (nth (leadWords i ws) 0 0#32).toNat) 64) (dstReg i))) := by
  unfold bodyJob
  by_cases hacting : i.acting = []
  · simp [hacting, groupRes_nil]
  · obtain ⟨hused, halign, hbound, hclean, hcard, htiles⟩ := h hacting
    have hpoison : poisonCheck i [(i.acting.headD 0, (i.tile i.o.sa).2.start + (nth (leadWords i ws) 0 0#32).toNat, 64)] = none :=
      poisonCheck_none fun r hr => by rw [List.mem_singleton.mp hr]; exact hclean
    simp only [List.isEmpty_iff, hacting, if_false, tileCheck_usable hused, halign, ne_eq, not_true_eq_false, Nat.not_lt.mpr hbound, hpoison,
      hcard, htiles]

/-- Settles O17: the checks of a card pass, and one effect of the lanes that act is buffered (R161 to R165). -/
theorem jobInstructionEffects : Obligations.JobInstructionEffects := by
  unfold Obligations.JobInstructionEffects
  exact ⟨
    fun _ => buffers_of_body bodyJob rfl fun _ _ _ _ => bodyJob_of_ok, fun _ _ _ _ => buffers_of_body bodyJob rfl fun _ _ _ _ => bodyJob_of_ok,
    fun _ => buffers_of_body bodyJobq rfl fun _ _ _ _ _ => rfl, fun _ _ _ => buffers_of_body bodyJobq rfl fun _ _ _ _ _ => rfl,
    fun _ => buffers_of_body bodyJcancel rfl fun _ _ _ _ _ => rfl, fun _ _ => buffers_of_body bodyJcancel rfl fun _ _ _ _ _ => rfl⟩

/-! ### Matrix instructions -/

theorem featureAbsent_none {i : Iss} (h : isLcore i.g.core = false) : featureAbsent i = none := by
  simp [featureAbsent, h]

theorem bodyMxgo_of_ok {i : Iss} {ws : Table (List Word)} (h : isLcore i.g.core = false ∧ i.x.cameBefore i.f.enc [0xD3] = false
      ∧ (i.acting ≠ [] → i.Usable 1 ∧ (nth (leadWords i ws) 0 0#32).toNat % 16 = 0
        ∧ (nth (leadWords i ws) 0 0#32).toNat + 16 ≤ (i.tile i.o.sa).2.bytes)) :
    bodyMxgo i ws = .ok (groupRes i (.mxgo (i.tile i.o.sa).1 (nth (leadWords i ws) 0 0#32).toNat)) := by
  obtain ⟨hdcore, hfirst, hchecks⟩ := h
  unfold bodyMxgo
  by_cases hacting : i.acting = []
  · simp [featureAbsent_none hdcore, hfirst, hacting, groupRes_nil]
  · obtain ⟨hused, halign, hbound⟩ := hchecks hacting
    simp [featureAbsent_none hdcore, hfirst, hacting, tileCheck_usable hused, halign, Nat.not_lt.mpr hbound]

theorem bodyMxstat_of_ok {i : Iss} {ws : Table (List Word)} (h : isLcore i.g.core = false) :
    bodyMxstat i ws = .ok (deliver i (i.acting.map (fun l => (l, [BitVec.ofNat 32 i.x.view.mxstat])))) := by
  simp [bodyMxstat, featureAbsent_none h]

theorem bodyMxstop_of_ok {i : Iss} {ws : Table (List Word)} (h : isLcore i.g.core = false) : bodyMxstop i ws = .ok (groupRes i .mxstop) := by
  simp [bodyMxstop, featureAbsent_none h]

theorem accCheck_none {i : Iss} {es : List (Nat × Nat)} (h : ∀ p ∈ es, p.2 < 16384) : accCheck i es = none := by
  have hbound : es.filter (fun p => decide (16384 ≤ p.2)) = [] := List.filter_eq_nil_iff.mpr fun p hp => by simpa using h p hp
  simp [accCheck, hbound]

theorem bodyAccrd_of_ok {i : Iss} {ws : Table (List Word)}
    (h : ∀ p ∈ actingWords i ws, (lastWord i p.2 0).toNat < 16384 ∧ i.tm.accHit (accOf i.o.sa) (4 * (lastWord i p.2 0).toNat) 4 = none) :
    bodyAccrd i ws = .ok (deliver i ((actingWords i ws).map (fun p => (p.1, [i.x.buf.foldl (fun w b => match b.eff with
        | .accwr l a e v => if l = i.viewer p.1 ∧ a = accOf i.o.sa ∧ e = (lastWord i p.2 0).toNat then v else w
        | _ => w) (sget ((tget i.x.view.acc (accOf i.o.sa)).getD []) (lastWord i p.2 0).toNat)])))) := by
  unfold bodyAccrd
  dsimp only
  rw [accCheck_none (List.forall_mem_map.mpr fun p hp => (h p hp).1), firstSome_none]
  · rw [List.map_map]; rfl
  · simp only [List.forall_mem_map]
    intro p hp
    rw [(h p hp).2]; rfl

theorem bodyAccwr_nil {i : Iss} {ws : Table (List Word)} (h : actingWords i ws = []) : bodyAccwr i ws = .ok {} := by
  simp [bodyAccwr, h]

theorem bodyAccwr_of_ok {i : Iss} {ws : Table (List Word)} (hne : actingWords i ws ≠ []) (ht : i.Usable 1)
    (h : ∀ p ∈ actingWords i ws, (lastWord i p.2 0).toNat < 16384 ∧ 4 * (lastWord i p.2 0).toNat + 4 ≤ (i.tile i.o.sa).2.bytes
      ∧ i.s.poisonAt (sliceKey i.g.core ((i.tile i.o.sa).2.start + 4 * (lastWord i p.2 0).toNat)) 4 = none) :
    bodyAccwr i ws = .ok { effs := (actingWords i ws).map (fun p => .accwr p.1 (accOf i.o.dst) (lastWord i p.2 0).toNat
      (BitVec.ofNat 32 (ofBytesLE (i.view p.1 ((i.tile i.o.sa).2.start + 4 * (lastWord i p.2 0).toNat) 4)))) } := by
  have hbound : ((actingWords i ws).map (fun p => (p.1, (lastWord i p.2 0).toNat))).filter
      (fun p => decide ((i.tile i.o.sa).2.bytes < 4 * p.2 + 4)) = [] := by
    rw [List.filter_eq_nil_iff, List.forall_mem_map]
    intro p hp
    simpa using (h p hp).2.1
  unfold bodyAccwr
  dsimp only
  rw [if_neg (by simpa using hne), accCheck_none (List.forall_mem_map.mpr fun p hp => (h p hp).1), tileCheck_usable ht, hbound, poisonCheck_none]
  · simp only [List.map_nil, laneCheck_nil, Option.or_none, List.map_map]
    rfl
  · simp only [List.map_map, List.forall_mem_map]
    exact fun p hp => (h p hp).2.2

theorem completes_accwr (f : Fields) :
    Completes (.accwr f) (fun i ws => actingWords i ws ≠ [] → i.Usable 1 ∧ ∀ p ∈ actingWords i ws, (lastWord i p.2 0).toNat < 16384
        ∧ 4 * (lastWord i p.2 0).toNat + 4 ≤ (i.tile i.o.sa).2.bytes
        ∧ i.s.poisonAt (sliceKey i.g.core ((i.tile i.o.sa).2.start + 4 * (lastWord i p.2 0).toNat)) 4 = none)
      (fun i ws => { effs := (actingWords i ws).map (fun p => .accwr p.1 (accOf i.o.dst) (lastWord i p.2 0).toNat
        (BitVec.ofNat 32 (ofBytesLE (i.view p.1 ((i.tile i.o.sa).2.start + 4 * (lastWord i p.2 0).toNat) 4)))) }) := by
  refine completes_of_body bodyAccwr rfl (fun i _ _ hok => ?_)
  by_cases hne : actingWords i (capture i).words = []
  · exact ⟨_, bodyAccwr_nil hne, rfl, rfl, by simp [hne]⟩
  · obtain ⟨ht, h⟩ := hok hne
    exact ⟨_, bodyAccwr_of_ok hne ht h, rfl, rfl, rfl⟩

/-- Settles O18: on a DCORE the checks pass; the sequencer's effects are buffered, its word and its accumulators are read (R223, R236 to
R239). -/
theorem matrixInstructionEffects : Obligations.MatrixInstructionEffects := by
  unfold Obligations.MatrixInstructionEffects
  exact ⟨fun _ => buffers_of_body bodyMxgo rfl fun _ _ _ _ => bodyMxgo_of_ok,
    fun _ => buffers_of_body bodyMxstop rfl fun _ _ _ _ => bodyMxstop_of_ok,
    fun _ => completes_of_delivers bodyMxstat rfl fun _ _ h => ⟨_, _, bodyMxstat_of_ok h⟩,
    fun _ => completes_of_delivers bodyAccrd rfl fun _ _ h => ⟨_, _, bodyAccrd_of_ok h⟩, completes_accwr⟩

/-! ### Task instructions -/

theorem firstCheck_none {α : Type} {rows : List (Nat × α)} {checks : List (Nat × (α → Bool) × (α → Nat) × (α → Nat))}
    (h : ∀ c ∈ checks, ∀ r ∈ rows, c.2.1 r.2 = false) : firstCheck rows checks = none := by
  induction checks with
  | nil => rfl
  | cons c checks ih =>
    have hnil : rows.filter (fun r => c.2.1 r.2) = [] := List.filter_eq_nil_iff.mpr fun r hr => by simp [h c (by simp) r hr]
    simp only [firstCheck, hnil]
    exact ih fun d hd => h d (by simp [hd])

theorem bodyTaskadd_of_ok {i : Iss} {ws : Table (List Word)}
    (h : ∀ p ∈ actingWords i ws, (nth p.2 1 0#32).toNat < 64 ∧ (nth p.2 2 0#32).toNat < 16
      ∧ ((nth p.2 1 0#32).toNat < i.tm.tileAllot ∨ (i.grp.hm = true ∧ (nth p.2 1 0#32).toNat = 63))
      ∧ (groupTile i.tm i.grp (nth p.2 1 0#32).toNat).state ≠ .undef ∧ (groupTile i.tm i.grp (nth p.2 1 0#32).toNat).atomic = false
      ∧ 1 ≤ maskCode i.x.mask (nth p.2 1 0#32).toNat ∧ (nth p.2 0 0#32).toNat % 64 = 0
      ∧ (nth p.2 0 0#32).toNat + 64 ≤ (groupTile i.tm i.grp (nth p.2 1 0#32).toNat).bytes
      ∧ (tget i.tm.queues (nth p.2 2 0#32).toNat).isSome = true) :
    bodyTaskadd i ws = .ok (groupRes i (.taskadd ((actingWords i ws).map (fun p =>
      (p.1, (nth p.2 1 0#32).toNat, (nth p.2 0 0#32).toNat, (nth p.2 2 0#32).toNat))))) := by
  unfold bodyTaskadd
  dsimp only
  rw [firstCheck_none]
  · rw [List.map_map]; rfl
  · intro c hc r hr
    obtain ⟨p, hp, rfl⟩ := List.mem_map.mp hr
    obtain ⟨htile, hqueue, hallot, hstate, hatomic, hmask, halign, hbound, hexists⟩ := h p hp
    simp only [List.mem_cons, List.not_mem_nil, or_false] at hc
    rcases hc with rfl | rfl | rfl | rfl | rfl | rfl | rfl | rfl | rfl
    · simpa using htile
    · simpa using hqueue
    · rcases hallot with ha | ⟨hm, he⟩
      · simp [Nat.not_le.mpr ha]
      · simp [hm, he]
    · simp [Nat.mod_eq_of_lt htile, hstate]
    · simpa [Nat.mod_eq_of_lt htile] using hatomic
    · simp [Nat.pos_iff_ne_zero.mp hmask]
    · simp [halign]
    · simpa [Nat.mod_eq_of_lt htile] using hbound
    · exact Option.isNone_eq_false_iff.mpr hexists

theorem bodyTaskdone_of_ok {i : Iss} {ws : Table (List Word)}
    (h : i.acting ≠ [] → i.grp.task.isSome = true ∧ (i.grp.taskAccepted || i.x.gotTask) = true ∧ i.x.groupEffs.contains .taskdone = false) :
    bodyTaskdone i ws = .ok (groupRes i .taskdone) := by
  refine if_neg ?_
  by_cases hacting : i.acting = []
  · simp [hacting]
  · obtain ⟨htask, haccepted, honce⟩ := h hacting
    simp only [htask, haccepted, honce]
    simp

theorem nameCheck_none {i : Iss} {ws : Table (List Word)} {wake : Bool}
    (h : ∀ p ∈ actingWords i ws, (pairOf (nth p.2 0 0#32) (nth p.2 1 0#32)).toNat < if wake then 2 ^ 40 else 2 ^ 39) :
    nameCheck i (laneNames i ws) wake = none := by
  refine firstCheck_none fun c hc r hr => ?_
  rw [List.mem_singleton.mp hc]
  obtain ⟨p, hp, rfl⟩ := List.mem_map.mp hr
  have hr := h p hp
  cases wake with
  | true =>
    rw [if_pos rfl] at hr
    simp [bits_high_eq_zero hr]
  | false =>
    rw [if_neg (by decide)] at hr
    simp [bits_high_eq_zero (Nat.lt_trans hr (by decide : 2 ^ 39 < 2 ^ 40)), bit_high_eq_false hr]

section
variable {i : Iss} {ws : Table (List Word)}

theorem bodyQtail_of_ok (h : ∀ p ∈ actingWords i ws, (pairOf (nth p.2 0 0#32) (nth p.2 1 0#32)).toNat < 2 ^ 39) :
    bodyQtail i ws = .ok (groupRes i (.qtail ((actingWords i ws).map (fun p =>
      (p.1, (pairOf (nth p.2 0 0#32) (nth p.2 1 0#32)).toNat, (nth p.2 2 0#32).toNat))))) := by
  rw [bodyQtail, nameCheck_none h]

theorem bodyQroom_of_ok (h : ∀ p ∈ actingWords i ws, (pairOf (nth p.2 0 0#32) (nth p.2 1 0#32)).toNat < 2 ^ 39) :
    bodyQroom i ws = .ok (groupRes i (.qroom ((actingWords i ws).map (fun p =>
      (p.1, (pairOf (nth p.2 0 0#32) (nth p.2 1 0#32)).toNat))) (dstReg i))) := by
  rw [bodyQroom, nameCheck_none h, laneNames]

theorem bodyWake_of_ok (h : ∀ p ∈ actingWords i ws, (pairOf (nth p.2 0 0#32) (nth p.2 1 0#32)).toNat < 2 ^ 40) :
    bodyWake i ws = .ok (groupRes i (.wake ((actingWords i ws).map (fun p => (p.1, (pairOf (nth p.2 0 0#32) (nth p.2 1 0#32)).toNat))))) := by
  rw [bodyWake, nameCheck_none h, laneNames]

end

/-- Settles O19: the checks pass in every acting lane, and one effect with their operands is buffered (R347 to R354). -/
theorem taskInstructionEffects : Obligations.TaskInstructionEffects := by
  unfold Obligations.TaskInstructionEffects
  exact ⟨
    fun _ => buffers_of_body bodyTaskadd rfl fun _ _ _ _ => bodyTaskadd_of_ok, fun _ _ _ => buffers_of_body bodyTaskadd rfl fun _ _ _ _ => bodyTaskadd_of_ok,
    fun _ => buffers_of_body bodyTaskdone rfl fun _ _ _ _ => bodyTaskdone_of_ok, fun _ => buffers_of_body bodyTaskdone rfl fun _ _ _ _ => bodyTaskdone_of_ok,
    fun _ => buffers_of_body bodyQtail rfl fun _ _ _ _ => bodyQtail_of_ok, fun _ _ _ => buffers_of_body bodyQtail rfl fun _ _ _ _ => bodyQtail_of_ok,
    fun _ => buffers_of_body bodyQroom rfl fun _ _ _ _ => bodyQroom_of_ok, fun _ _ _ => buffers_of_body bodyQroom rfl fun _ _ _ _ => bodyQroom_of_ok,
    fun _ => buffers_of_body bodyWake rfl fun _ _ _ _ => bodyWake_of_ok, fun _ _ => buffers_of_body bodyWake rfl fun _ _ _ _ => bodyWake_of_ok⟩

end Sys2Proof.Machine
end

section
/-!
Control registers, the system instructions, the terminators and TRAP (R265, R266, R311, R322, R366 to R377, R411 to R415).
-/
namespace Sys2Proof.Machine

/-! ### Control registers -/

theorem csrwBody_of_allowed {i : Iss} {ws : Table (List Word)}
    (h : i.acting ≠ [] → csrDenied i (immField i.f % 256) (bit (immField i.f) 8) (nth (leadWords i ws) 0 0#32).toNat = false) :
    csrwBody i ws = .ok (groupRes i (.csrw (immField i.f % 256) (bit (immField i.f) 8) (nth (leadWords i ws) 0 0#32).toNat)) := by
  refine if_neg ?_
  by_cases hacting : i.acting = []
  · simp [hacting]
  · simp [h hacting]

/-- A register other than the read-only ones, GANGWAIT and TRAPBASE may always be written. -/
theorem csrDenied_plain {i : Iss} {num : Nat} (hro : [1, 3, 4, 5, 6, 7, 8, 0x0B, 0x0E].contains num = false) (hgang : num ≠ 0x0F)
    (htrap : num ≠ 0x0A) (hi : Bool) (v : Nat) : csrDenied i num hi v = false := by
  have hgang' : (num == 0x0F) = false := by simpa using hgang
  have htrap' : (num == 0x0A) = false := by simpa using htrap
  simp only [csrDenied, hro, hgang', htrap', Bool.false_and, Bool.or_false]

theorem csrDenied_trapbase {i : Iss} {hi : Bool} {v : Nat} (h : hi = false → v < 2 ^ 17) : csrDenied i 0x0A hi v = false := by
  cases hi with
  | true => rfl
  | false =>
    rw [csrDenied, Nat.div_eq_of_lt (h rfl)]
    rfl

theorem csrDenied_gangwait {i : Iss} (h : i.grp.priv = true) (hi : Bool) (v : Nat) : csrDenied i 0x0F hi v = false := by
  rw [csrDenied, h]
  rfl

/-- Settles O20: CSRR delivers the register's word, and a write that is not denied is buffered (R370 to R375). -/
theorem controlRegisterEffects : Obligations.ControlRegisterEffects := by
  unfold Obligations.ControlRegisterEffects
  dsimp only
  refine ⟨fun _ => completes_of_delivers bodyCsrr rfl fun _ _ _ => ⟨_, _, rfl⟩,
    fun _ => buffers_of_body bodyCsrwTstat rfl fun i _ _ _ hn => csrwBody_of_allowed fun _ => ?_,
    fun _ => buffers_of_body bodyCsrwSrseed rfl fun i _ _ _ hn => csrwBody_of_allowed fun _ => ?_,
    fun _ => buffers_of_body bodyCsrwMode rfl fun i _ _ _ hn => csrwBody_of_allowed fun _ => ?_,
    fun _ => buffers_of_body bodyCsrwKeyperm rfl fun i _ _ _ hn => csrwBody_of_allowed fun _ => ?_,
    fun _ => buffers_of_body bodyCsrwTrapbase rfl fun i ws _ _ h => csrwBody_of_allowed fun hacting => ?_,
    fun _ => buffers_of_body bodyCsrwMigpol rfl fun i _ _ _ hn => csrwBody_of_allowed fun _ => ?_,
    fun _ => buffers_of_body bodyCsrwGangwait rfl fun i _ _ _ h => csrwBody_of_allowed fun hacting => ?_,
    fun _ => buffers_of_body bodyCsrwBrk rfl fun i _ _ _ h => csrwBody_of_allowed fun _ => ?_⟩
  case refine_5 =>
    obtain ⟨hn, hv⟩ := h
    rw [hn]
    exact csrDenied_trapbase (hv hacting)
  case refine_7 =>
    obtain ⟨hn, hpriv⟩ := h
    rw [hn]
    exact csrDenied_gangwait (hpriv hacting) _ _
  case refine_8 =>
    obtain ⟨hlo, hhi⟩ := h
    have hnum : immField i.f % 256 = 0x10 ∨ immField i.f % 256 = 0x11 ∨ immField i.f % 256 = 0x12 ∨ immField i.f % 256 = 0x13 := by omega
    rcases hnum with hn | hn | hn | hn <;> rw [hn] <;> exact csrDenied_plain (by decide) (by decide) (by decide) _ _
  all_goals
    rw [hn]
    exact csrDenied_plain (by decide) (by decide) (by decide) _ _

/-! ### System instructions -/

section
variable {i : Iss} {ws : Table (List Word)}

theorem rettBody_of_ok {abort : Bool} (h : i.acting ≠ [] → i.grp.hm = true) :
    rettBody abort i ws = .ok (groupRes i (.rett abort (if immForm i.r i.f then some { i.x.tr with idx := immField i.f % 2 ^ 17 } else none))) := by
  refine if_neg ?_
  by_cases hacting : i.acting = []
  · simp [hacting]
  · simp [h hacting]

theorem bodyContainOpen_of_ok (h : i.acting ≠ [] → i.regionOpen = false) :
    bodyContainOpen i ws = .ok (groupRes i (.containOpen (immField i.f % 2 ^ 17))) := by
  refine if_neg ?_
  by_cases hacting : i.acting = []
  · simp [hacting]
  · simp [h hacting]

theorem bodyContainClose_of_ok (h : i.acting ≠ [] → i.regionOpen = true) : bodyContainClose i ws = .ok (groupRes i .containClose) := by
  refine if_neg ?_
  by_cases hacting : i.acting = []
  · simp [hacting]
  · simp [h hacting]

theorem chainBody_of_ok {e : GroupEff} (h : i.acting ≠ [] → i.tm.stages ≠ []) : chainBody e i ws = .ok (groupRes i e) := by
  refine if_neg ?_
  by_cases hacting : i.acting = []
  · simp [hacting]
  · simp [h hacting]

end

/-- Settles O21: each system instruction's check passes and its one effect is buffered, or its word is delivered (R311, R322, R366 to R377,
R411 to R415). -/
theorem systemInstructionEffects : Obligations.SystemInstructionEffects := by
  unfold Obligations.SystemInstructionEffects
  exact ⟨
    fun _ => buffers_of_body bodyRett rfl fun _ _ _ _ => rettBody_of_ok, fun _ => buffers_of_body bodyRett rfl fun _ _ _ _ => rettBody_of_ok,
    fun _ => buffers_of_body bodyRettAbort rfl fun _ _ _ _ => rettBody_of_ok, fun _ => buffers_of_body bodyRettAbort rfl fun _ _ _ _ => rettBody_of_ok,
    fun _ => buffers_of_body bodyContainOpen rfl fun _ _ _ _ => bodyContainOpen_of_ok,
    fun _ => buffers_of_body bodyContainClose rfl fun _ _ _ _ => bodyContainClose_of_ok,
    fun _ => buffers_of_body bodyContainClose rfl fun _ _ _ _ => bodyContainClose_of_ok,
    fun _ => buffers_of_body bodyHalt rfl fun _ _ _ _ _ => rfl, fun _ => buffers_of_body bodyHalt rfl fun _ _ _ _ _ => rfl,
    fun _ => completes_of_delivers bodyEpq rfl fun _ _ _ => ⟨_, _, rfl⟩, fun _ _ => completes_of_delivers bodyEpq rfl fun _ _ _ => ⟨_, _, rfl⟩,
    fun _ => buffers_of_body bodyChainFold rfl fun _ _ _ _ => chainBody_of_ok, fun _ => buffers_of_body bodyChainFold rfl fun _ _ _ _ => chainBody_of_ok,
    fun _ => buffers_of_body bodyChainSpread rfl fun _ _ _ _ => chainBody_of_ok, fun _ => buffers_of_body bodyChainSpread rfl fun _ _ _ _ => chainBody_of_ok,
    fun _ => completes_of_body bodyNop rfl fun _ _ _ _ => ⟨_, rfl, rfl, rfl, rfl⟩, fun _ => completes_of_body bodyNop rfl fun _ _ _ _ => ⟨_, rfl, rfl, rfl, rfl⟩⟩

/-! ### Terminators -/

/-- A terminator of the word `op`, `f` ends its execution with the successors that its meaning names. -/
theorem ends_of_body {ins : Instr} {op : BitVec 8} {f : Fields} {ok : Iss → Table (List Word) → Prop} {succ : Iss → Table (List Word) → Nat → Succ}
    {mig : Iss → Option (TRef × TRef × Bool)} (body : TermBody) (hw : wordOf ins = some (op, f))
    (hb : ∀ i ws, ok i ws → body i ws = .ok (succ i ws, mig i))
    (he : ∀ s, exec ins s = terminate op.toNat f body s := by exact fun _ => rfl) : Ends ins ok succ mig := by
  refine ends_of body (fun op' f' s hw' => ?_) (fun op' f' i _ _ _ hok => hb i _ hok)
  obtain ⟨rfl, rfl⟩ : op = op' ∧ f = f' := by simpa [hw] using hw'
  exact he s

theorem bodyEndInd_of_ok {i : Iss} {ws : Table (List Word)}
    (h : ∀ l ∈ i.acting, bit (pairOf (nth ((tget ws l).getD []) 0 0#32) (nth ((tget ws l).getD []) 1 0#32)).toNat 63 = true
      → bits (pairOf (nth ((tget ws l).getD []) 0 0#32) (nth ((tget ws l).getD []) 1 0#32)).toNat 62 32 = 0) :
    bodyEndInd i ws = .ok (fun l =>
      let v := (pairOf (nth ((tget ws l).getD []) 0 0#32) (nth ((tget ws l).getD []) 1 0#32)).toNat
      if bit v 63 = true then .bindTable (bits v 31 0)
      else if bits v 62 32 = 0 ∨ bits v 62 32 = i.x.tr.handle then .trace { i.x.tr with idx := bits v 31 0 }
      else .trace ⟨bits v 62 32, 0, bits v 31 0⟩, none) := by
  have hbad : i.acting.filter (fun l =>
      bit (pairOf (nth ((tget ws l).getD []) 0 0#32) (nth ((tget ws l).getD []) 1 0#32)).toNat 63
        && bits (pairOf (nth ((tget ws l).getD []) 0 0#32) (nth ((tget ws l).getD []) 1 0#32)).toNat 62 32 != 0) = [] := by
    refine List.filter_eq_nil_iff.mpr fun l hl hbit => ?_
    obtain ⟨htable, hbits⟩ := Bool.and_eq_true_iff.mp hbit
    rw [h l hl htable] at hbits
    cases hbits
  unfold bodyEndInd
  dsimp only
  rw [hbad]
  rfl

theorem bodyMigrate_of_ep {i : Iss} {ws : Table (List Word)}
    (h : ∃ e, i.s.trace? i.tm.ctx { i.x.tr with idx := immField i.f % 2 ^ 17 } = some e ∧ e.ep = true) :
    bodyMigrate i ws = .ok (fun _ => .trace { i.x.tr with idx := immField i.f % 2 ^ 17 },
      some ({ i.x.tr with idx := immField i.f % 2 ^ 17 }, { i.x.tr with idx := secondRef i.f }, i.f.fn.toNat % 8 == 1)) := by
  obtain ⟨e, he, hep⟩ := h
  simp only [bodyMigrate, traceRef, he, hep, if_true]

/-- Settles O23: each terminator's meaning names the successors, and issuing it is the commit (R258, R265, R266, R291). -/
theorem terminatorsCommit : Obligations.TerminatorsCommit := by
  unfold Obligations.TerminatorsCommit
  exact ⟨fun _ => ends_of_body bodyEnd rfl fun _ _ _ => rfl, fun _ => ends_of_body bodyEndSel rfl fun _ _ _ => rfl,
    fun _ => ends_of_body bodyEndInd rfl fun _ _ => bodyEndInd_of_ok, fun _ _ => ends_of_body bodyEndInd rfl fun _ _ => bodyEndInd_of_ok,
    fun _ => ends_of_body bodyRetire rfl fun _ _ _ => rfl, fun _ => ends_of_body bodyRetire rfl fun _ _ _ => rfl,
    fun _ => ends_of_body bodyMigrate rfl fun _ _ => bodyMigrate_of_ep⟩

/-! ### TRAP -/

/-- An instruction of the word `op`, `f` takes the trap that its meaning gives, of a cause that is no consumption of an error. -/
theorem takesTrap_of_body {ins : Instr} {op : BitVec 8} {f : Fields} {ok : Iss → Table (List Word) → Prop} {trap : Iss → Trap} (body : Body)
    (hw : wordOf ins = some (op, f)) (hb : ∀ i ws, ok i ws → body i ws = .error (trap i)) (hc : ∀ i, (trap i).cause < 256)
    (he : ∀ s, exec ins s = issueOn op.toNat f body s := by exact fun _ => rfl) : TakesTrap ins ok trap := by
  refine takesTrap_of body (fun op' f' s hw' => ?_) (fun op' f' i _ _ _ hok => hb i _ hok) hc
  obtain ⟨rfl, rfl⟩ : op = op' ∧ f = f' := by simpa [hw] using hw'
  exact he s

/-- Settles O24: the meaning of TRAP is the trap of its number where a lane acts, and nothing where none does (R366). -/
theorem trapTakesItsException : Obligations.TrapTakesItsException := by
  unfold Obligations.TrapTakesItsException
  refine ⟨fun _ => takesTrap_of_body bodyTrap rfl (fun i _ hacting => ?_) (fun i => ?_),
    fun _ => completes_of_body bodyTrap rfl fun i _ _ hnone => ⟨{}, ?_, rfl, rfl, rfl⟩⟩
  · exact if_neg (by simpa using hacting)
  · show 64 + immField i.f % 16 < 256
    omega
  · exact if_pos (by simpa using hnone)

end Sys2Proof.Machine
end

section
/-!
Every step keeps memory in canonical form (R28, R83). In the order of the model's files: what each function that gives a state leaves of memory,
and that it keeps the canonical form where it writes some. First the state's own operations, tiles, containment and folds.
-/
namespace Sys2Proof.Machine

theorem State.mem_ite (c : Prop) [Decidable c] (a b : State) : (if c then a else b).mem = if c then a.mem else b.mem := apply_ite _ _ _ _

theorem Memory.wf_ite {c : Prop} [Decidable c] {a b : Memory} (ha : a.wf = true) (hb : b.wf = true) : (if c then a else b).wf = true := by
  split
  · exact ha
  · exact hb

theorem State.mem_foldl {α : Type} {f : State → α → State} (hf : ∀ s a, (f s a).mem = s.mem) (l : List α) (s : State) : (l.foldl f s).mem = s.mem := by
  induction l generalizing s with
  | nil => rfl
  | cons a l ih => rw [List.foldl_cons, ih, hf]

theorem State.wf_foldl {α : Type} {f : State → α → State} (hf : ∀ s a, s.mem.wf = true → (f s a).mem.wf = true) (l : List α) {s : State}
    (h : s.mem.wf = true) : (l.foldl f s).mem.wf = true :=
  Inv.foldl f hf l h

@[simp] theorem Memory.wf_writeLE' (m : Memory) (a n v : Nat) (h : m.wf = true) : (m.writeLE a n v).wf = true := Memory.wf_writeLE _ _ _ _ h
@[simp] theorem Memory.wf_writeBytes' (m : Memory) (a : Nat) (b : List Byte) (h : m.wf = true) : (m.writeBytes a b).wf = true := Memory.wf_writeBytes _ _ _ h
@[simp] theorem Memory.wf_clear' (m : Memory) (a n : Nat) (h : m.wf = true) : (m.clear a n).wf = true := Memory.wf_clear _ _ _ h

@[simp] theorem State.charge_mem (s : State) (ctx key n : Nat) :
    (s.charge ctx key n).mem = s.mem := by
  unfold State.charge
  split <;> simp

@[simp] theorem State.pick_mem (s : State) (n : Nat) :
    (s.pick n).2.mem = s.mem := by
  unfold State.pick
  split <;> simp

@[simp] theorem State.recordError_mem (s : State) (b kind addr : Nat) (uc scrub : Bool) :
    (s.recordError b kind addr uc scrub).mem = s.mem := by simp [State.recordError]

@[simp] theorem State.consumedBy_mem (s : State) (b ctx : Nat) :
    (s.consumedBy b ctx).mem = s.mem := by simp [State.consumedBy]

@[simp] theorem State.postEvent_wf (s : State) (typ ctx : Nat) (details : List Byte) (h : s.mem.wf = true) :
    (s.postEvent typ ctx details).mem.wf = true := by
  unfold State.postEvent
  dsimp only
  split <;> simp [h]

@[simp] theorem State.writeTrapTile_wf (s : State) (g : GRef) (at_ : Nat) (bs : List Byte) (h : s.mem.wf = true) :
    (s.writeTrapTile g at_ bs).mem.wf = true := by
  unfold State.writeTrapTile
  split <;> simp [h]

@[simp] theorem State.stopContext_wf (s : State) (ctx : Nat) (g : GRef) (tr : Trap) (t : TRef) (off : Nat) (h : s.mem.wf = true) :
    (s.stopContext ctx g tr t off).mem.wf = true := by simp [State.stopContext, h]

@[simp] theorem State.keepValues_mem (s : State) (core : Nat) (keep : LoadValue → Bool) :
    (s.keepValues core keep).mem = s.mem := by
  unfold State.keepValues
  split <;> simp

@[simp] theorem State.modTrs_mem (s : State) (g : GRef) (f : RegPoison → Option RegPoison) :
    (s.modTrs g f).mem = s.mem := by
  unfold State.modTrs
  split <;> simp

@[simp] theorem State.dropTrs_mem (s : State) (g : GRef) :
    (s.dropTrs g).mem = s.mem := by simp [State.dropTrs]

@[simp] theorem State.freezeTrs_mem (s : State) (g : GRef) (fr : Option Exec) :
    (s.freezeTrs g fr).mem = s.mem := by simp [State.freezeTrs]

@[simp] theorem State.endExec_mem (s : State) (g : GRef) :
    (s.endExec g).mem = s.mem := by
  unfold State.endExec
  dsimp only
  repeat' split
  all_goals simp

@[simp] theorem State.dropExec_mem (s : State) (g : GRef) :
    (s.dropExec g).mem = s.mem := by
  unfold State.dropExec
  repeat' split
  all_goals simp

@[simp] theorem State.dropTrapped_mem (s : State) (g : GRef) :
    (s.dropTrapped g).mem = s.mem := by
  unfold State.dropTrapped
  dsimp only
  repeat' split
  all_goals simp

@[simp] theorem State.routeTrap_wf (s : State) (g : GRef) (tr : Trap) (t : TRef) (off : Nat) (lanes : List Nat) (fr : Option Exec) (h : s.mem.wf = true) :
    (s.routeTrap g tr t off lanes fr).mem.wf = true := by
  unfold State.routeTrap
  dsimp only
  repeat' split
  all_goals simp [h]

@[simp] theorem State.clockTo_mem (s : State) (core now : Nat) :
    (s.clockTo core now).mem = s.mem := by simp [State.clockTo]

@[simp] theorem State.takeTrap_wf (s : State) (g : GRef) (tr : Trap) (off : Nat) (skip restart : Bool) (h : s.mem.wf = true) :
    (s.takeTrap g tr off skip restart).mem.wf = true := by
  unfold State.takeTrap
  dsimp only
  repeat' split
  all_goals simp [h]

@[simp] theorem State.takeHeadTrap_wf (s : State) (g : GRef) (tr : Trap) (t : TRef) (lanes : List Nat) (h : s.mem.wf = true) :
    (s.takeHeadTrap g tr t lanes).mem.wf = true := by
  unfold State.takeHeadTrap
  split <;> simp [h]

@[simp] theorem State.untag_mem (s : State) (a n : Nat) :
    (s.untag a n).mem = s.mem := by simp [State.untag]

@[simp] theorem State.store_wf (s : State) (a : Nat) (bs : List Byte) (h : s.mem.wf = true) :
    (s.store a bs).mem.wf = true := by simp [State.store, h]

@[simp] theorem State.storeLE_wf (s : State) (a n v : Nat) (h : s.mem.wf = true) :
    (s.storeLE a n v).mem.wf = true := by simp [State.storeLE, h]

@[simp] theorem State.setPoison_mem (s : State) (key size bank : Nat) :
    (s.setPoison key size bank).mem = s.mem := by simp [State.setPoison]

@[simp] theorem State.leaveWaits_mem (s : State) (which : AtsWait → Bool) (who : Nat × Nat) :
    (s.leaveWaits which who).mem = s.mem := by simp [State.leaveWaits]

@[simp] theorem State.tellHost_mem (s : State) (dest : Nat) (bytes : List Byte) :
    (s.tellHost dest bytes).mem = s.mem := by simp [State.tellHost]

@[simp] theorem State.sendAts_mem (s : State) (w : AtsWait) :
    (s.sendAts w).mem = s.mem := by simp [State.sendAts]

@[simp] theorem State.askHost_mem (s : State) (a : Access) (page : Nat) :
    (s.askHost a page).2.mem = s.mem := by
  unfold State.askHost
  dsimp only
  repeat' split
  all_goals simp

@[simp] theorem State.beyondWalk_mem (s : State) (a : Access) (leaf : DWord) (addr : Nat) :
    (s.beyondWalk a leaf addr).2.mem = s.mem := by
  unfold State.beyondWalk
  dsimp only
  repeat' split
  all_goals simp

@[simp] theorem State.setAD_wf (s : State) (a : Access) (at_ : Nat) (h : s.mem.wf = true) :
    (s.setAD a at_).mem.wf = true := by
  unfold State.setAD
  dsimp only
  repeat' split
  all_goals simp [h]

@[simp] theorem State.useWalk_wf (s : State) (a : Access) (r : WalkResult) (h : s.mem.wf = true) :
    (s.useWalk a r).2.mem.wf = true := by
  unfold State.useWalk
  dsimp only
  repeat' split
  all_goals simp [h]

@[simp] theorem State.useCached_wf (s : State) (a : Access) (e : TlbEntry) (h : s.mem.wf = true) :
    (s.useCached a e).2.mem.wf = true := by
  unfold State.useCached
  dsimp only
  repeat' split
  all_goals simp [h]

@[simp] theorem State.dieWalk_mem (s : State) (d ctx va : Nat) :
    (s.dieWalk d ctx va).2.mem = s.mem := by
  unfold State.dieWalk
  repeat' split
  all_goals simp

@[simp] theorem State.translateMiss_wf (s : State) (a : Access) (h : s.mem.wf = true) :
    (s.translateMiss a).2.mem.wf = true := by
  unfold State.translateMiss
  dsimp only
  repeat' split
  all_goals simp [h]

@[simp] theorem State.translate_wf (s : State) (a : Access) (h : s.mem.wf = true) :
    (s.translate a).2.mem.wf = true := by
  unfold State.translate
  repeat' split
  all_goals simp [h]

@[simp] theorem State.postRecord_mem (s : State) (d : Nat) (r : FaultRecord) :
    (s.postRecord d r).mem = s.mem := by
  unfold State.postRecord
  split <;> simp

@[simp] theorem State.releaseCard_mem (s : State) (core slot : Nat) (grp : Option Nat) (card : List Byte) (keyperm : BitVec 64) (region shadowed : Bool) :
    (s.releaseCard core slot grp card keyperm region shadowed).2.mem = s.mem := by
  unfold State.releaseCard
  split <;> simp

@[simp] theorem State.acceptJob_mem (s : State) (d n : Nat) :
    (s.acceptJob d n).mem = s.mem := by simp [State.acceptJob]

@[simp] theorem State.modJob_mem (s : State) (d n : Nat) (f : Job → Job) :
    (s.modJob d n f).mem = s.mem := by simp [State.modJob]

@[simp] theorem State.modTileAt_mem (s : State) (p : Nat × Nat) (f : Tile → Tile) :
    (s.modTileAt p f).mem = s.mem := by simp [State.modTileAt]

@[simp] theorem State.endTiles_mem (s : State) (j : Job) :
    (s.endTiles j).mem = s.mem := by
  simp [State.endTiles, State.mem_foldl]

@[simp] theorem State.resolve_mem (s : State) (d n : Nat) :
    (s.resolve d n).mem = s.mem := by simp [State.resolve]

@[simp] theorem State.endJob_mem (s : State) (d n : Nat) (j : Job) (st : JobState) :
    (s.endJob d n j st).mem = s.mem := by
  unfold State.endJob
  split <;> simp

@[simp] theorem State.endOp_mem (s : State) (d n : Nat) :
    (s.endOp d n).mem = s.mem := by simp [State.endOp]

@[simp] theorem State.cancelJob_mem (s : State) (d n : Nat) (j : Job) :
    (s.cancelJob d n j).mem = s.mem := by
  unfold State.cancelJob
  simp only [State.mem_ite]
  simp

@[simp] theorem State.clearSlice_wf (s : State) (core base len : Nat) (h : s.mem.wf = true) :
    (s.clearSlice core base len).mem.wf = true := by simp [State.clearSlice, h]

@[simp] theorem State.removeTeam_wf (s : State) (core slot : Nat) (h : s.mem.wf = true) : (s.removeTeam core slot).mem.wf = true := by
  unfold State.removeTeam
  split
  · exact h
  · simp only [State.modDie_mem, State.modCore_mem, State.keepValues_mem]
    exact State.clearSlice_wf _ _ _ _ (State.clearSlice_wf _ _ _ _ (State.clearSlice_wf _ _ _ _ h))

@[simp] theorem State.cancelJobs_mem (s : State) (d : Nat) (which : Job → Bool) : (s.cancelJobs d which).mem = s.mem := by
  refine State.mem_foldl (fun s p => ?_) _ s
  split <;> simp [State.mem_ite]

@[simp] theorem State.tag_mem (s : State) (key : Nat) (t : ScopeTag) :
    (s.tag key t).mem = s.mem := by simp [State.tag]

@[simp] theorem State.atomicWrite_wf (s : State) (key n v : Nat) (h : s.mem.wf = true) :
    (s.atomicWrite key n v).mem.wf = true := by simp [State.atomicWrite, h]

@[simp] theorem State.settleAtomic_wf (s : State) (p : SentAtomic) (h : s.mem.wf = true) :
    (s.settleAtomic p).mem.wf = true := by
  unfold State.settleAtomic
  dsimp only
  repeat' split
  all_goals simp [h]

/-- The state of a pair is what the pair names as its second part. -/
theorem State.wf_of_snd {α : Type} {p : α × State} {r : α} {t : State} (e : p = (r, t)) (h : p.2.mem.wf = true) : t.mem.wf = true := by
  rw [e] at h
  exact h

@[simp] theorem State.abandon_wf (s : State) (c : Comm) (h : s.mem.wf = true) : (s.abandon c).mem.wf = true := by
  unfold State.abandon
  split
  · exact h
  · split
    · exact h
    · split
      · exact h
      · simp only [State.endJob_mem, State.postRecord_mem]
        split
        · simp [State.mem_ite, Memory.wf_ite, h]
        · split
          case h_1 e => exact State.storeLE_wf _ _ _ _ (State.wf_of_snd e (State.translate_wf _ _ h))
          case h_2 e => exact State.wf_of_snd e (State.translate_wf _ _ h)

@[simp] theorem State.dropReservations_mem (s : State) (gone : Nat → Bool) :
    (s.dropReservations gone).mem = s.mem := by simp [State.dropReservations]

/-- The destruction of a context keeps the canonical form: its atomics are performed, its operations end, its teams are cleared. -/
@[simp] theorem State.destroyContext_wf (s : State) (ctx : Nat) (h : s.mem.wf = true) : (s.destroyContext ctx).mem.wf = true := by
  unfold State.destroyContext
  refine State.wf_foldl (fun s p hs => State.removeTeam_wf s _ _ hs) _ ?_
  refine State.wf_foldl (fun s p hs => State.settleAtomic_wf s _ hs) _ ?_
  refine State.wf_foldl (fun s p hs => State.abandon_wf s _ hs) _ ?_
  rw [State.mem_foldl (fun s p => State.modCore_mem s _ _), State.mem_foldl (fun s d => State.cancelJobs_mem s d _)]
  exact h

@[simp] theorem State.consume_wf (s : State) (g : GRef) (cause : Nat) (inRegion : Bool) (h : s.mem.wf = true) :
    (s.consume g cause inRegion).mem.wf = true := by
  unfold State.consume
  dsimp only
  repeat' split
  all_goals simp [h]

@[simp] theorem State.stopAt_wf (s : State) (g : GRef) (tr : Trap) (off : Nat) (skip restart : Bool) (h : s.mem.wf = true) :
    (s.stopAt g tr off skip restart).mem.wf = true := by
  unfold State.stopAt
  split <;> simp [h]

@[simp] theorem State.stopAtHead_wf (s : State) (g : GRef) (tr : Trap) (t : TRef) (lanes : List Nat) (h : s.mem.wf = true) :
    (s.stopAtHead g tr t lanes).mem.wf = true := by
  unfold State.stopAtHead
  split <;> simp [h]

@[simp] theorem State.modChain_mem (s : State) (core slot : Nat) (f : Team → Team) : (s.modChain core slot f).mem = s.mem := by
  unfold State.modChain
  split <;> simp [State.mem_foldl]

@[simp] theorem State.switchStage_mem (s : State) (core slot st : Nat) :
    (s.switchStage core slot st).mem = s.mem := by
  unfold State.switchStage
  dsimp only
  repeat' split
  all_goals simp

@[simp] theorem State.discard_mem (s : State) (g : GRef) (lanes : List Nat) (held : Option Held) :
    (s.discard g lanes held).mem = s.mem := by
  unfold State.discard
  split <;> simp

@[simp] theorem State.handBack_mem (s : State) (g : GRef) (lanes : List Nat) (tm : Team) (q : Nat) (producer : Bool) :
    (s.handBack g lanes tm q producer).mem = s.mem := by simp [State.handBack]

end Sys2Proof.Machine
end

section
/-!
Memory under the issue of an instruction, commits, returns and trace heads.
-/
namespace Sys2Proof.Machine

@[simp] theorem State.leave_mem (s : State) (g : GRef) (now : Nat) (ls : List (Nat × TRef × Option Held)) :
    (s.leave g now ls).mem = s.mem := by simp [State.leave]

@[simp] theorem State.haltAfter_mem (s : State) (g : GRef) (asked : Bool) :
    (s.haltAfter g asked).mem = s.mem := by simp [State.haltAfter]

@[simp] theorem State.closeIfEmpty_mem (s : State) (g : GRef) :
    (s.closeIfEmpty g).mem = s.mem := by
  unfold State.closeIfEmpty
  repeat' split
  all_goals simp

@[simp] theorem applyIssue_mem (i : Iss) (c : Captured) (word : DWord) (res : Res) : (applyIssue i c word res).mem = i.s.mem := by
  simp [applyIssue]

@[simp] theorem State.trapIn_wf (s : State) (g : GRef) (grp : Group) (now : Nat) (t : Trap) (off : Nat) (skip : Bool) (hwf : s.mem.wf = true) :
    (s.trapIn g grp now t off skip).mem.wf = true := by
  unfold State.trapIn
  split <;> simp [hwf]

@[simp] theorem issueBody_wf (body : Body) (word : DWord) (i : Iss) (c : Captured) (h : i.s.mem.wf = true) :
    (issueBody body word i c).mem.wf = true := by
  unfold issueBody
  split
  · simp [h]
  · split
    · split <;> simp [h]
    · split
      · exact h
      · rw [applyIssue_mem]
        exact h

@[simp] theorem State.putItems_wf (s : State) (c : Chan) (pos : Nat) (l : List Nat) (h : s.mem.wf = true) : (s.putItems c pos l).mem.wf = true := by
  induction l generalizing s pos with
  | nil => exact h
  | cons v l ih => exact ih _ _ (State.storeLE_wf _ _ _ _ h)

@[simp] theorem State.appendItem_wf (s : State) (core slot q v : Nat) (hwf : s.mem.wf = true) :
    (s.appendItem core slot q v).mem.wf = true := by
  unfold State.appendItem
  dsimp only
  repeat' split
  all_goals simp [hwf]

@[simp] theorem State.performPut_wf (s : State) (core slot : Nat) (p : PendingPut) (h : s.mem.wf = true) :
    (s.performPut core slot p).mem.wf = true := by
  unfold State.performPut
  split
  · exact h
  · split
    · simp [h]
    · exact State.wf_foldl (fun s i hs => State.appendItem_wf s _ _ _ _ hs) _ h

@[simp] theorem State.removeItems_wf (s : State) (core slot q : Nat) (gone : List Nat) (hwf : s.mem.wf = true) :
    (s.removeItems core slot q gone).mem.wf = true := by
  unfold State.removeItems
  split <;> simp [hwf]

@[simp] theorem State.setTq_wf (s : State) (core slot q off v : Nat) (hwf : s.mem.wf = true) :
    (s.setTq core slot q off v).mem.wf = true := by
  unfold State.setTq
  repeat' split
  all_goals simp [hwf]

@[simp] theorem State.tqAppend_wf (s : State) (core slot q : Nat) (rec64 : List Byte) (hwf : s.mem.wf = true) :
    (s.tqAppend core slot q rec64).mem.wf = true := by
  unfold State.tqAppend
  dsimp only
  repeat' split
  all_goals simp [hwf]

@[simp] theorem State.qdrop_mem (s : State) (core slot : Nat) :
    (s.qdrop core slot).mem = s.mem := by simp [State.qdrop]

@[simp] theorem State.setReturn_mem (s : State) (g : GRef) (id : Nat) (v : DWord) :
    (s.setReturn g id v).mem = s.mem := by simp [State.setReturn]

@[simp] theorem State.queueOp_wf (s : State) (g : GRef) (core slot name op value id : Nat) (hwf : s.mem.wf = true) :
    (s.queueOp g core slot name op value id).mem.wf = true := by
  unfold State.queueOp
  dsimp only
  repeat' split
  all_goals simp [hwf]

@[simp] theorem State.namedOp_wf (s : State) (h : HeldOp) (fromTask : Bool) (hwf : s.mem.wf = true) :
    (s.namedOp h fromTask).mem.wf = true := by
  unfold State.namedOp
  split <;> simp [hwf]

/-- A task instruction writes memory by the records it appends, the counts it raises and the queue operations it names. -/
@[simp] theorem State.performTask_wf (s : State) (core slot : Nat) (p : PendingTask) (h : s.mem.wf = true) :
    (s.performTask core slot p).mem.wf = true := by
  unfold State.performTask
  split
  · exact h
  · dsimp only
    split
    case h_1 => exact State.wf_foldl (fun s r hs => State.tqAppend_wf s _ _ _ _ hs) _ h
    case h_2 =>
      refine State.wf_foldl (fun s r hs => ?_) _ h
      repeat' split
      all_goals simp [hs]
    case h_3 => exact State.wf_foldl (fun s o hs => State.namedOp_wf s _ _ hs) _ h
    case h_4 => exact State.wf_foldl (fun s o hs => State.namedOp_wf s _ _ hs) _ h
    case h_5 => exact State.wf_foldl (fun s o hs => State.namedOp_wf s _ _ hs) _ h
    case h_6 => exact h

@[simp] theorem State.drainTasks_wf (s : State) (core slot fuel : Nat) (h : s.mem.wf = true) : (s.drainTasks core slot fuel).mem.wf = true := by
  induction fuel generalizing s with
  | zero => exact h
  | succ fuel ih =>
    unfold State.drainTasks
    split
    · exact h
    · dsimp only
      split
      · exact h
      · exact ih _ (State.performTask_wf _ _ _ _ (by simpa using h))

@[simp] theorem State.runTasks_wf (s : State) (core slot : Nat) (hwf : s.mem.wf = true) :
    (s.runTasks core slot).mem.wf = true := by simp [State.runTasks, hwf]

@[simp] theorem State.tryBoundary_mem (s : State) (g : GRef) :
    (s.tryBoundary g).mem = s.mem := by
  unfold State.tryBoundary
  dsimp only
  repeat' split
  all_goals simp

@[simp] theorem State.beginBoundary_mem (s : State) (g : GRef) (scope : Nat) (rel : Bool) :
    (s.beginBoundary g scope rel).mem = s.mem := by simp [State.beginBoundary]

@[simp] theorem State.noteOneEnded_mem (s : State) (core slot : Nat) :
    (s.noteOneEnded core slot).mem = s.mem := by
  unfold State.noteOneEnded
  dsimp only
  repeat' split
  all_goals simp

@[simp] theorem State.noteEnded_mem (s : State) (core slot : Nat) :
    (s.noteEnded core slot).mem = s.mem := by
  unfold State.noteEnded
  dsimp only
  repeat' split
  all_goals simp [State.mem_foldl]

@[simp] theorem State.returnTrap_mem (s : State) (g : GRef) (abort : Bool) (ref : Option TRef) :
    (s.returnTrap g abort ref).mem = s.mem := by
  unfold State.returnTrap
  dsimp only
  repeat' split
  all_goals simp

@[simp] theorem State.prepAtomic_wf (s : State) (core who : Nat) (tm : Team) (keyperm : BitVec 64) (shadowed : Bool) (a : Atomic)
    (h : s.mem.wf = true) : (s.prepAtomic core who tm keyperm shadowed a).2.mem.wf = true := by
  unfold State.prepAtomic
  split
  · dsimp only
    repeat' split
    all_goals exact h
  · split
    all_goals
      next e => exact State.wf_of_snd e (State.translate_wf _ _ h)

theorem prepAtomics_wf (s : State) (g : GRef) (tm : Team) (keyperm : BitVec 64) (shadowed : Bool) (x : Exec) (lanes : List Nat)
    (h : s.mem.wf = true) : (prepAtomics s g tm keyperm shadowed x lanes).s.mem.wf = true := by
  refine List.foldlRecOn (motive := fun p : Prep => p.s.mem.wf = true) _ _ h (fun p hp l _ => ?_)
  refine List.foldlRecOn (motive := fun p : Prep => p.s.mem.wf = true) _ _ hp (fun p hp oa _ => ?_)
  split
  · exact hp
  · split
    all_goals
      next e => exact State.wf_of_snd e (State.prepAtomic_wf _ _ _ _ _ _ _ hp)

theorem prepareFrom_wf (s : State) (g : GRef) (tm : Team) (keyperm : BitVec 64) (shadowed : Bool) (x : Exec) (lanes : List Nat) (fuel : Nat)
    (acting : List Nat) (h : s.mem.wf = true) : (prepareFrom s g tm keyperm shadowed x lanes fuel acting).s.mem.wf = true := by
  induction fuel generalizing acting with
  | zero => exact prepAtomics_wf _ _ _ _ _ _ _ h
  | succ fuel ih =>
    unfold prepareFrom
    dsimp only
    split
    · exact prepAtomics_wf _ _ _ _ _ _ _ h
    · exact ih _

@[simp] theorem State.postMisses_mem (s : State) (g : GRef) (tm : Team) (x : Exec) (rq : List (Nat × Held)) :
    (s.postMisses g tm x rq).mem = s.mem := by
  simp [State.postMisses, State.mem_foldl]

@[simp] theorem State.csrWrite_mem (s : State) (g : GRef) (num : Nat) (hi : Bool) (v : Nat) :
    (s.csrWrite g num hi v).mem = s.mem := by
  unfold State.csrWrite
  dsimp only
  repeat' split
  all_goals simp

@[simp] theorem State.commitPoison_mem (s : State) (g : GRef) (x : Exec) (takes : Place → Bool) :
    (s.commitPoison g x takes).mem = s.mem := by
  unfold State.commitPoison
  split <;> simp

@[simp] theorem State.commitRegisters_mem (s : State) (g : GRef) (x : Exec) (passing : List Nat) :
    (s.commitRegisters g x passing).mem = s.mem := by
  unfold State.commitRegisters
  dsimp only
  rw [State.mem_foldl]
  · split <;> simp
  · intro s e
    repeat' split
    all_goals simp

@[simp] theorem State.commitStore_wf (s : State) (g : GRef) (lane : Nat) (e : Effect) (h : s.mem.wf = true) :
    (s.commitStore g lane e).mem.wf = true := by
  unfold State.commitStore
  split
  · split <;> simp [h]
  · split <;> simp [h]
  · exact h

@[simp] theorem State.commitStores_wf (s : State) (g : GRef) (x : Exec) (passing : List Nat) (h : s.mem.wf = true) :
    (s.commitStores g x passing).mem.wf = true :=
  State.wf_foldl (fun s _ hs => State.wf_foldl (fun s _ hs => State.commitStore_wf s _ _ _ hs) _ hs) _ h

@[simp] theorem State.sendAtomic_mem (s : State) (g : GRef) (ctx lane off : Nat) (a : Atomic) (home : Nat) (before : List Nat) (behind : Bool) :
    (s.sendAtomic g ctx lane off a home before behind).mem = s.mem := by simp [State.sendAtomic]

@[simp] theorem State.commitAtomics_mem (s : State) (g : GRef) (ctx : Nat) (x : Exec) (passing : List Nat) (homes : List (Nat × Nat)) :
    (s.commitAtomics g ctx x passing homes).mem = s.mem := by
  unfold State.commitAtomics
  dsimp only
  refine List.foldlRecOn (motive := fun r : State × Bool => r.1.mem = s.mem) _ _ rfl (fun r hr p _ => ?_)
  rw [State.sendAtomic_mem]
  exact hr

@[simp] theorem State.commitChannels_wf (s : State) (g : GRef) (x : Exec) (passing : List Nat) (h : s.mem.wf = true) :
    (s.commitChannels g x passing).mem.wf = true := by
  refine State.wf_foldl (fun s p hs => ?_) _ (State.wf_foldl (fun s q hs => ?_) _ h)
  all_goals
    dsimp only
    repeat' split
    all_goals simp [hs]

@[simp] theorem State.cleanRegs_mem (s : State) (g : GRef) (ps : List Place) :
    (s.cleanRegs g ps).mem = s.mem := by
  unfold State.cleanRegs
  split <;> simp

@[simp] theorem State.latchChain_mem (s : State) (core slot : Nat) (spread : Bool) :
    (s.latchChain core slot spread).mem = s.mem := by
  unfold State.latchChain
  split <;> simp

@[simp] theorem State.commitEffect_mem (s : State) (g : GRef) (passing : List Nat) (off : Nat) (acting : List Nat) (e : GroupEff) :
    (s.commitEffect g passing off acting e).mem = s.mem := by
  unfold State.commitEffect
  dsimp only
  repeat' split
  all_goals simp

@[simp] theorem State.commitEffects_wf (s : State) (g : GRef) (x : Exec) (passing : List Nat) (h : s.mem.wf = true) :
    (s.commitEffects g x passing).mem.wf = true := by
  refine State.runTasks_wf _ _ _ (State.wf_foldl (fun s e hs => ?_) _ (by simpa using h))
  split <;> simp [hs]

@[simp] theorem State.commitBarriers_mem (s : State) (g : GRef) (effs : List (Nat × List Nat × GroupEff)) (sent : List Nat) :
    (s.commitBarriers g effs sent).mem = s.mem := by
  refine Eq.trans (State.mem_foldl (fun s e => ?_) _ _) (State.mem_foldl (fun s e => ?_) _ _)
  all_goals
    dsimp only
    repeat' split
    all_goals simp

@[simp] theorem State.commitPhase_mem (s : State) (g : GRef) (x : Exec) (passing : List Nat) (before : List Nat) :
    (s.commitPhase g x passing before).mem = s.mem := by
  unfold State.commitPhase
  dsimp only
  repeat' split
  all_goals simp

@[simp] theorem State.orderReturns_mem (s : State) (g : GRef) (n : Nat) :
    (s.orderReturns g n).mem = s.mem := by simp [State.orderReturns]

@[simp] theorem State.successors_mem (s : State) (g : GRef) (now : Nat) (succ : List (Nat × Succ)) :
    (s.successors g now succ).mem = s.mem := by simp [State.successors]

/-- A commit's steps write memory by its stores, its puts and its task instructions alone; a return may replay. -/
@[simp] theorem State.performCommit_wf (s : State) (g : GRef) (x : Exec) (now : Nat) (passing : List Nat) (homes : List (Nat × Nat))
    (succ : List (Nat × Succ)) (mig : Option (TRef × TRef × Bool)) (h : s.mem.wf = true) :
    (s.performCommit g x now passing homes succ mig).mem.wf = true := by
  unfold State.performCommit
  split
  · exact h
  · lift_lets
    intro effs before due stored sent channelled phased rett gone switched returned
    have hstored : stored.mem.wf = true := by simp [stored, h]
    have hchannelled : channelled.mem.wf = true := by
      simp only [channelled, State.orderReturns_mem]
      exact State.commitEffects_wf _ _ _ _ (State.commitChannels_wf _ _ _ _ hstored)
    have hphased : phased.mem.wf = true := by simpa [phased] using hchannelled
    clear_value rett phased
    have hgone : gone.mem.wf = true := by
      simp only [gone]
      repeat' split
      all_goals simp [hphased]
    clear_value gone
    have hswitched : switched.mem.wf = true := by
      simp only [switched]
      split <;> simpa using hgone
    clear_value switched
    have hreturned : returned.mem.wf = true := by
      simp only [returned]
      split <;> simp [hswitched]
    simpa using hreturned

@[simp] theorem State.rollBack_mem (s : State) (g : GRef) (x : Exec) (now : Nat) (rq : List (Nat × Option Held)) :
    (s.rollBack g x now rq).mem = s.mem := by simp [State.rollBack]

@[simp] theorem State.commit_wf (s : State) (g : GRef) (now : Nat) (succ : Nat → Succ) (mig : Option (TRef × TRef × Bool))
    (h : s.mem.wf = true) : (s.commit g now succ mig).mem.wf = true := by
  unfold State.commit
  split
  · split
    · exact h
    · lift_lets
      intro pass0 p
      have hp : p.s.mem.wf = true := prepareFrom_wf _ _ _ _ _ _ _ _ _ h
      clear_value p
      dsimp only
      repeat' split
      all_goals simp [hp]
  · exact h

@[simp] theorem terminateBody_wf (body : TermBody) (word : DWord) (i : Iss) (c : Captured) (h : i.s.mem.wf = true) :
    (terminateBody body word i c).mem.wf = true := by
  unfold terminateBody
  split
  · simp [h]
  · split
    · split <;> simp [h]
    · split
      · exact h
      · exact State.commit_wf _ _ _ _ _ (by simpa [Iss.served] using h)

@[simp] theorem State.putLine_mem (s : State) (core : Nat) (c : CodeLine) :
    (s.putLine core c).mem = s.mem := by simp [State.putLine]

@[simp] theorem State.putLines_mem (s : State) (core : Nat) (c : CodeLine) :
    (s.putLines core c).mem = s.mem := by simp [State.putLines]

theorem State.obtainLine_mem {s t : State} {core ctx va key : Nat} {bs : List Byte} (h : s.obtainLine core ctx va key = .ok (bs, t)) :
    t.mem = s.mem := by
  unfold State.obtainLine at h
  split at h
  · cases h; simp
  · cases h; simp
  · dsimp only at h
    split at h
    · cases h
    · cases h; simp

@[simp] theorem State.fetchLines_wf (s : State) (e : Enc) (core who ctx va fuel : Nat) (got : List Byte) (frame : Option (Nat × Nat))
    (h : s.mem.wf = true) : (s.fetchLines e core who ctx va fuel got frame).2.mem.wf = true := by
  induction fuel generalizing s got frame with
  | zero => exact h
  | succ fuel ih =>
    unfold State.fetchLines
    split
    · exact h
    · lift_lets
      intro at_ known r
      clear_value known
      have hr : r.2.mem.wf = true := by
        simp only [r]
        split <;> simp [h]
      clear_value r
      split
      · exact hr
      · exact hr
      · split
        · exact hr
        · next e => exact ih _ _ _ (by rw [State.obtainLine_mem e]; exact hr)

@[simp] theorem State.holdLanes_mem (s : State) (g : GRef) (ls : List Nat) (h : Held) :
    (s.holdLanes g ls h).mem = s.mem := by simp [State.holdLanes]

@[simp] theorem State.fetchTrace_wf (s : State) (g : GRef) (tm : Team) (grp : Group) (t : TRef) (h : s.mem.wf = true) :
    (s.fetchTrace g tm grp t).mem.wf = true := by
  unfold State.fetchTrace
  dsimp only
  split
  all_goals
    next e =>
      have ht := State.wf_of_snd e (State.fetchLines_wf _ _ _ _ _ _ _ _ _ h)
      repeat' split
      all_goals simp [ht]

@[simp] theorem State.fetchBanked_wf (s : State) (g : GRef) (t : TRef) (l : List Nat) (h : s.mem.wf = true) :
    (s.fetchBanked g t l).mem.wf = true := by
  induction l with
  | nil => exact h
  | cons st rest ih =>
    unfold State.fetchBanked
    dsimp only
    repeat' split
    all_goals simp [ih, h]

@[simp] theorem State.bindStep_wf (s : State) (core who ctx : Nat) (from_ : TRef) (e : Nat) (h : s.mem.wf = true) :
    (s.bindStep core who ctx from_ e).2.mem.wf = true := by
  unfold State.bindStep
  split
  · exact h
  · split
    · exact h
    · dsimp only
      split
      all_goals
        next heq => exact State.wf_of_snd heq (State.translate_wf _ _ h)

@[simp] theorem State.resolveBinds_wf (s : State) (g : GRef) (tm : Team) (grp : Group) (h : s.mem.wf = true) :
    (s.resolveBinds g tm grp).mem.wf = true := by
  unfold State.resolveBinds
  split
  next calls t e =>
    have ht : t.mem.wf = true := by
      refine State.wf_of_snd e ?_
      refine List.foldlRecOn (motive := fun p : List (Nat × Nat × BindStep) × State => p.2.mem.wf = true) _ _ h (fun p hp l _ => ?_)
      split
      · exact hp
      · exact State.bindStep_wf _ _ _ _ _ _ hp
    split
    · simp [ht]
    · refine State.wf_foldl (fun s c hs => ?_) _ ht
      repeat' split
      all_goals simp [hs]

@[simp] theorem State.mapLanes_mem (s : State) (g : GRef) (f : Nat → Lane → Lane) :
    (s.mapLanes g f).mem = s.mem := by simp [State.mapLanes]

@[simp] theorem State.releaseCleared_mem (s : State) (g : GRef) :
    (s.releaseCleared g).mem = s.mem := by
  unfold State.releaseCleared
  dsimp only
  repeat' split
  all_goals simp

@[simp] theorem State.releaseStage_mem (s : State) (g : GRef) (st lane : Nat) :
    (s.releaseStage g st lane).mem = s.mem := by
  unfold State.releaseStage
  split <;> simp

end Sys2Proof.Machine
end

section
/-!
Memory under dispatch, atomic events, jobs and walks.
-/
namespace Sys2Proof.Machine

@[simp] theorem State.takeTask_wf (s : State) (g : GRef) (grp : Group) (q : Nat) (hwf : s.mem.wf = true) :
    (s.takeTask g grp q).2.mem.wf = true := by
  unfold State.takeTask
  dsimp only
  repeat' split
  all_goals simp [hwf]

@[simp] theorem State.startTrace_wf (s : State) (g : GRef) (b : Fetched) (hwf : s.mem.wf = true) :
    (s.startTrace g b).mem.wf = true := by
  unfold State.startTrace
  dsimp only
  repeat' split
  all_goals simp [hwf]

@[simp] theorem State.parkGroup_mem (s : State) (g : GRef) (t : TRef) (lcore : Bool) :
    (s.parkGroup g t lcore).mem = s.mem := by simp [State.parkGroup]

@[simp] theorem State.carryOut_wf (s : State) (g : GRef) (c : Choice) (h : s.mem.wf = true) : (s.carryOut g c).mem.wf = true := by
  cases c with
  | start b n => exact State.startTrace_wf _ _ _ (by simp [State.mem_ite, h])
  | _ => simp [State.carryOut, h]

@[simp] theorem State.tryStages_wf (s : State) (g : GRef) (last fuel : Nat) (l : List Nat) (h : s.mem.wf = true) :
    (s.tryStages g last fuel l).mem.wf = true := by
  induction fuel generalizing l last with
  | zero => simp [State.tryStages, h]
  | succ fuel ih =>
    cases l with
    | nil => simp [State.tryStages, h]
    | cons st rest =>
      unfold State.tryStages
      dsimp only
      repeat' split
      all_goals simp [ih, h]

@[simp] theorem State.askGrant_mem (s : State) (g : GRef) (grp : Group) :
    (s.askGrant g grp).mem = s.mem := by
  unfold State.askGrant
  split <;> simp

@[simp] theorem State.takeStageTrap_wf (s : State) (g : GRef) (tm : Team) (hwf : s.mem.wf = true) :
    (s.takeStageTrap g tm).mem.wf = true := by
  unfold State.takeStageTrap
  dsimp only
  repeat' split
  all_goals simp [hwf]

@[simp] theorem State.dispatch_wf (s : State) (g : GRef) (hwf : s.mem.wf = true) :
    (s.dispatch g).mem.wf = true := by
  unfold State.dispatch
  dsimp only
  repeat' split
  all_goals simp [hwf]

@[simp] theorem State.groupSlots_mem (s : State) (core used : Nat) : (s.groupSlots core used).2.mem = s.mem := by
  unfold State.groupSlots
  have hp := State.pick_mem s 2
  generalize s.pick 2 = p at hp ⊢
  split
  · split <;> exact hp
  · rfl

@[simp] theorem State.arbitrate_mem (s : State) :
    (s.arbitrate).mem = s.mem := by
  unfold State.arbitrate
  dsimp only
  repeat' split
  all_goals simp

@[simp] theorem State.notifyBinds_mem (s : State) (key : Nat) : (s.notifyBinds key).mem = s.mem := by
  refine State.mem_foldl (fun s c => State.mem_foldl (fun s o => ?_) _ _) _ _
  split <;> simp

@[simp] theorem State.owe_mem (s : State) (g : GRef) (tr : Trap) :
    (s.owe g tr).mem = s.mem := by
  unfold State.owe
  dsimp only
  repeat' split
  all_goals simp

@[simp] theorem State.noteCross_mem (s : State) (resident : Bool) (p : SentAtomic) :
    (s.noteCross resident p).mem = s.mem := by
  unfold State.noteCross
  split <;> simp

@[simp] theorem State.atomicDone_wf (s : State) (id : Nat) (p : SentAtomic) (hwf : s.mem.wf = true) :
    (s.atomicDone id p).mem.wf = true := by simp [State.atomicDone, hwf]

@[simp] theorem State.performAtomic_wf (s : State) (id : Nat) (p : SentAtomic) (h : s.mem.wf = true) :
    (s.performAtomic id p).mem.wf = true := by
  unfold State.performAtomic
  dsimp only
  split
  · exact State.atomicDone_wf _ _ _ (by simp [State.mem_ite, h])
  · have hwritten := State.atomicWrite_wf (s.charge p.ctx p.home p.a.bytes) p.home p.a.bytes
      (p.a.result (s.mem.readLE p.home p.a.bytes)) (by simpa using h)
    exact State.atomicDone_wf _ _ _ (by simpa [State.mem_ite] using hwritten)

@[simp] theorem State.applyReturn_mem (s : State) (g : GRef) (lane : Nat) :
    (s.applyReturn g lane).mem = s.mem := by
  unfold State.applyReturn
  dsimp only
  repeat' split
  all_goals simp

@[simp] theorem State.discardPair_mem (s : State) (g : GRef) (x : Exec) :
    (s.discardPair g x).mem = s.mem := by simp [State.discardPair]

@[simp] theorem State.mismatch_wf (s : State) (g : GRef) (grp : Group) (x : Exec) (hwf : s.mem.wf = true) :
    (s.mismatch g grp x).mem.wf = true := by
  unfold State.mismatch
  split <;> simp [hwf]

@[simp] theorem State.leadFirst_mem (s : State) (g : GRef) :
    (s.leadFirst g).2.mem = s.mem := by
  unfold State.leadFirst
  split <;> simp

@[simp] theorem State.translateRange_wf (s : State) (a : Access) (n fuel done : Nat) (acc : List Seg) (h : s.mem.wf = true) :
    (s.translateRange a n fuel done acc).2.mem.wf = true := by
  induction fuel generalizing s done acc with
  | zero => exact h
  | succ fuel ih =>
    unfold State.translateRange
    split
    · exact h
    · dsimp only
      split
      all_goals
        next e =>
          have ht := State.wf_of_snd e (State.translate_wf _ _ h)
          simp [ih, ht]

@[simp] theorem State.sideOf_wf (s : State) (j : Job) (tm : Team) (e v off n acc : Nat) (h : s.mem.wf = true) :
    (s.sideOf j tm e v off n acc).2.mem.wf = true := by
  unfold State.sideOf
  split <;> simp [h]

@[simp] theorem State.translateBytes_wf (s : State) (a : Access) (n : Nat) (h : s.mem.wf = true) :
    (s.translateBytes a n).2.mem.wf = true := by
  unfold State.translateBytes
  have ht := State.translate_wf s a h
  generalize s.translate a = p at ht ⊢
  split
  · dsimp only
    split <;> exact ht
  · exact ht

@[simp] theorem State.poisonRange_mem (s : State) (key n bank : Nat) :
    (s.poisonRange key n bank).mem = s.mem := by
  simp [State.poisonRange, State.mem_foldl]

@[simp] theorem State.scatterBytes_wf (s : State) (l : List Seg) (bs : List Byte) (h : s.mem.wf = true) :
    (s.scatterBytes l bs).mem.wf = true := by
  induction l generalizing s bs with
  | nil => exact h
  | cons g l ih => exact ih _ _ (State.store_wf _ _ _ h)

@[simp] theorem State.scatterPoison_mem (s : State) (l : List Seg) (at_ : Nat) (ps : List (Nat × Nat × Nat)) :
    (s.scatterPoison l at_ ps).mem = s.mem := by
  induction l generalizing s at_ with
  | nil => rfl
  | cons g l ih =>
    refine (ih _ _).trans (State.mem_foldl (fun s p => ?_) _ _)
    dsimp only
    split <;> simp

@[simp] theorem State.writeSegs_wf (s : State) (l : List Seg) (read : List (Nat × Nat)) (bs : List Byte) (h : s.mem.wf = true) :
    (s.writeSegs l read bs).mem.wf = true := by
  unfold State.writeSegs
  split <;> simp [h]

@[simp] theorem State.clearSpares_wf (s : State) (g : Seg) (h : s.mem.wf = true) : (s.clearSpares g).mem.wf = true := by
  unfold State.clearSpares
  split
  · refine State.wf_foldl (fun s x hs => ?_) _ h
    dsimp only
    split <;> simp [hs]
  · exact h

@[simp] theorem State.copySegs_wf (s : State) (src dst : List Seg) (read : List (Nat × Nat)) (h : s.mem.wf = true) :
    (s.copySegs src dst read).mem.wf = true := by
  unfold State.copySegs
  dsimp only
  rw [State.scatterPoison_mem]
  exact State.wf_foldl (fun s g hs => State.clearSpares_wf s g hs) _ (State.writeSegs_wf _ _ _ _ h)

@[simp] theorem State.elementDone_mem (s : State) (d n e : Nat) (pages : List (Nat × Nat)) (fmt : Option (Nat × Nat)) :
    (s.elementDone d n e pages fmt).mem = s.mem := by simp [State.elementDone]

@[simp] theorem State.elementFails_mem (s : State) (d n : Nat) (j : Job) (e srck cause tier acc va : Nat) (seen : List (Nat × Nat)) :
    (s.elementFails d n j e srck cause tier acc va seen).mem = s.mem := by simp [State.elementFails]

@[simp] theorem State.moveElement_wf (s : State) (d n : Nat) (j : Job) (tm : Team) (c : Card) (e src dst soff doff len : Nat) (first : Bool)
    (h : s.mem.wf = true) : (s.moveElement d n j tm c e src dst soff doff len first).mem.wf = true := by
  unfold State.moveElement
  dsimp only
  split
  · simp [h]
  · split
    · simp [h]
    · have hsrc := State.sideOf_wf s j tm e src soff len 0 h
      generalize s.sideOf j tm e src soff len 0 = source at hsrc ⊢
      split
      · simpa using hsrc
      · exact hsrc
      · next t =>
        have hdst := State.sideOf_wf t j tm e dst doff len 1 hsrc
        generalize t.sideOf j tm e dst doff len 1 = dest at hdst ⊢
        split
        · simpa using hdst
        · exact hdst
        · repeat' split
          all_goals simp [State.mem_foldl, hdst]

@[simp] theorem State.linearElement_wf (s : State) (d n : Nat) (j : Job) (tm : Team) (c : Card) (e : Nat) (hwf : s.mem.wf = true) :
    (s.linearElement d n j tm c e).mem.wf = true := by simp [State.linearElement, hwf]

@[simp] theorem State.gatherElement_wf (s : State) (d n : Nat) (j : Job) (tm : Team) (c : Card) (e : Nat) (hwf : s.mem.wf = true) :
    (s.gatherElement d n j tm c e).mem.wf = true := by
  unfold State.gatherElement
  dsimp only
  split <;> simp [hwf]

@[simp] theorem State.scatterElement_wf (s : State) (d n : Nat) (j : Job) (tm : Team) (c : Card) (e : Nat) (hwf : s.mem.wf = true) :
    (s.scatterElement d n j tm c e).mem.wf = true := by
  unfold State.scatterElement
  dsimp only
  split <;> simp [hwf]

@[simp] theorem State.startJob_mem (s : State) (d n : Nat) (j : Job) :
    (s.startJob d n j).mem = s.mem := by
  simp [State.startJob, State.mem_ite, State.mem_foldl]

/-- Running an element keeps the canonical form where every element of its kind does. -/
theorem State.runElement_wf {kind : Nat} {f : State → Nat → Nat → Job → Team → Card → Nat → State}
    (hf : ∀ s d n j tm c e, s.mem.wf = true → (f s d n j tm c e).mem.wf = true) {s : State} (h : s.mem.wf = true) :
    (s.runElement kind f).mem.wf = true := by
  unfold State.runElement
  split
  · dsimp only
    split
    · split
      · exact hf _ _ _ _ _ _ _ h
      · exact h
    · exact h
  · exact h

@[simp] theorem State.nmvWrite_wf (s : State) (j : Job) (tm : Team) (c : Card) (l : List Seg) (e fmt geom : Nat) (h : s.mem.wf = true) :
    (s.nmvWrite j tm c l e fmt geom).mem.wf = true := by
  unfold State.nmvWrite
  exact State.wf_foldl (fun s row hs => State.wf_foldl (fun s x hs => State.storeLE_wf _ _ _ _ hs) _ hs) _ h

@[simp] theorem State.nmvB_wf (s : State) (j : Job) (c : Card) (e : Nat) (h : s.mem.wf = true) : (s.nmvB j c e).2.mem.wf = true := by
  unfold State.nmvB
  dsimp only
  have ht := State.translateRange_wf s (j.access e (bits (nth c.fps 0 0) 40 0 * 256) 0) 1 2 0 [] h
  generalize s.translateRange (j.access e (bits (nth c.fps 0 0) 40 0 * 256) 0) 1 2 0 [] = p at ht ⊢
  split
  · split
    · exact ht
    · exact State.translateRange_wf _ _ _ _ _ _ ht
  · exact ht

@[simp] theorem State.nmvElement_wf (s : State) (d n : Nat) (j : Job) (tm : Team) (c : Card) (e : Nat) (h : s.mem.wf = true) :
    (s.nmvElement d n j tm c e).mem.wf = true := by
  unfold State.nmvElement
  dsimp only
  split
  all_goals
    next heq =>
      have ht := State.wf_of_snd heq (State.nmvB_wf _ _ _ _ h)
      repeat' split
      all_goals simp [ht]

@[simp] theorem State.closeJob_mem (s : State) (d n : Nat) (j : Job) :
    (s.closeJob d n j).mem = s.mem := by simp [State.closeJob]

@[simp] theorem State.counterFails_mem (s : State) (d n : Nat) (j : Job) (cause tier va : Nat) :
    (s.counterFails d n j cause tier va).mem = s.mem := by simp [State.counterFails]

@[simp] theorem State.counterAdd_wf (s : State) (key scope core slot : Nat) (grp : Option Nat) (engine : Nat) (region : Bool) (hwf : s.mem.wf = true) :
    (s.counterAdd key scope core slot grp engine region).mem.wf = true := by
  unfold State.counterAdd
  repeat' split
  all_goals simp [hwf]

@[simp] theorem State.completionAction_wf (s : State) (d n : Nat) (j : Job) (h : s.mem.wf = true) :
    (s.completionAction d n j).mem.wf = true := by
  unfold State.completionAction
  dsimp only
  split
  · split
    · split <;> simp [h]
    · split
      all_goals
        next e =>
          have ht := State.wf_of_snd e (State.translate_wf _ _ h)
          simp [ht]
  · split
    · simp [h]
    · split <;> simp [h]
  · simp [h]

@[simp] theorem State.completeJob_wf (s : State) (d n : Nat) (j : Job) (hwf : s.mem.wf = true) :
    (s.completeJob d n j).mem.wf = true := by
  unfold State.completeJob
  dsimp only
  repeat' split
  all_goals simp [hwf]

@[simp] theorem State.replay_wf (s : State) (d n : Nat) (j : Job) (hwf : s.mem.wf = true) :
    (s.replay d n j).mem.wf = true := by
  unfold State.replay
  dsimp only
  repeat' split
  all_goals simp [hwf]

@[simp] theorem State.faultJob_mem (s : State) (d n : Nat) (j : Job) :
    (s.faultJob d n j).mem = s.mem := by
  unfold State.faultJob
  dsimp only
  repeat' split
  all_goals simp [State.mem_foldl]

@[simp] theorem State.invalidate_mem (s : State) (ctx va n : Nat) :
    (s.invalidate ctx va n).mem = s.mem := by simp [State.invalidate]

@[simp] theorem State.atsDropped_mem (s : State) (i : AtsInvalidation) :
    (s.atsDropped i).mem = s.mem := by
  unfold State.atsDropped
  split <;> simp

@[simp] theorem State.retryPage_mem (s : State) (d ctx page : Nat) :
    (s.retryPage d ctx page).mem = s.mem := by
  simp [State.retryPage, State.mem_ite, State.mem_foldl]

end Sys2Proof.Machine
end

section
/-!
Memory under the matrix sequencer, placement, migration, chains, queues and admission.
-/
namespace Sys2Proof.Machine

@[simp] theorem State.modSeq_mem (s : State) (core : Nat) (f : Sequencer → Sequencer) : (s.modSeq core f).mem = s.mem := by
  simp [State.modSeq]

@[simp] theorem Mx.setAcc_mem (m : Mx) (s : State) (a : Nat) (v : SMap 32) :
    (Mx.setAcc m s a v).mem = s.mem := by simp [Mx.setAcc]

@[simp] theorem State.mxFault_mem (s : State) (core slot cause : Nat) :
    (s.mxFault core slot cause).mem = s.mem := by
  unfold State.mxFault
  dsimp only
  split <;> simp

/-- The memory of the effect that an entry of the matrix sequencer has is in canonical form; a fault and a wait have none. -/
def MxStep.wf : MxStep → Prop
  | .done s _ => s.mem.wf = true
  | _ => True

@[simp] theorem MxStep.wf_done (s : State) (n : Nat) : (MxStep.done s n).wf ↔ s.mem.wf = true := Iff.rfl
@[simp] theorem MxStep.wf_fault (c : Nat) : (MxStep.fault c).wf := trivial
@[simp] theorem MxStep.wf_wait (n : Nat) : (MxStep.wait n).wf := trivial
@[simp] theorem MxStep.wf_poisoned (b : Nat) : (MxStep.poisoned b).wf := trivial

theorem MxStep.wf_of_map_poisoned (o : Option Nat) : ∀ x ∈ o.map MxStep.poisoned, x.wf := by
  cases o <;> simp

theorem MxStep.wf_getD {o : Option MxStep} {m : MxStep} (ho : ∀ x ∈ o, x.wf) (hm : m.wf) : (o.getD m).wf := by
  cases o with
  | none => exact hm
  | some x => exact ho x rfl

theorem Mx.mulStop_wf (m : Mx) : ∀ x ∈ m.mulStop, x.wf := by
  unfold Mx.mulStop
  dsimp only
  repeat' split
  all_goals simp

theorem mxMul_wf (m : Mx) (h : m.s.mem.wf = true) : (mxMul m).wf :=
  MxStep.wf_getD m.mulStop_wf (by simpa using h)

theorem mxLoop_wf (m : Mx) (h : m.s.mem.wf = true) : (mxLoop m).wf := by
  unfold mxLoop
  split <;> simp [h]

theorem Mx.condStop_wf (m : Mx) : ∀ x ∈ m.condStop, x.wf := by
  unfold Mx.condStop
  dsimp only
  repeat' split
  all_goals simp

theorem mxCond_wf (m : Mx) (h : m.s.mem.wf = true) : (mxCond m).wf :=
  MxStep.wf_getD m.condStop_wf h

theorem mxZero_wf (m : Mx) (h : m.s.mem.wf = true) : (mxZero m).wf := by
  unfold mxZero
  split <;> simp [State.mem_foldl, h]

theorem Mx.scaleaStop_wf (m : Mx) : ∀ x ∈ m.scaleaStop, x.wf := by
  unfold Mx.scaleaStop
  dsimp only
  repeat' split
  all_goals simp

theorem mxScalea_wf (m : Mx) (h : m.s.mem.wf = true) : (mxScalea m).wf :=
  MxStep.wf_getD m.scaleaStop_wf (by simpa using h)

theorem Mx.drainStop_wf (m : Mx) : ∀ x ∈ m.drainStop, x.wf := by
  unfold Mx.drainStop
  dsimp only
  repeat' split
  all_goals simp

@[simp] theorem Mx.drainWrite_wf (m : Mx) (f : Format) (h : m.s.mem.wf = true) : (m.drainWrite f).mem.wf = true := by
  have hstored := Inv.foldl (fun s (r : List Nat × Nat) => (r.1.zipIdx).foldl (fun s c =>
      s.storeLE (sliceKey m.core (m.drainTile.start + (m.fld 41 18 + r.2 * m.fld 53 42 + c.2) * (f.width / 8))) (f.width / 8) c.1) s)
    (fun s r hs => Inv.foldl _ (fun s c hs => State.storeLE_inv _ _ _ _ hs) _ hs) ((m.drained f).1.zipIdx) h
  unfold Mx.drainWrite
  dsimp only
  split
  · rw [Mx.setAcc_mem]
    exact hstored
  · exact hstored

theorem mxDrain_wf (m : Mx) (h : m.s.mem.wf = true) : (mxDrain m).wf :=
  MxStep.wf_getD m.drainStop_wf (by simp [h])

theorem Mx.bypassStop_wf (m : Mx) : ∀ x ∈ m.bypassStop, x.wf := by
  unfold Mx.bypassStop
  split <;> simp

theorem mxBypass_wf (m : Mx) (h : m.s.mem.wf = true) : (mxBypass m).wf :=
  MxStep.wf_getD m.bypassStop_wf (by simp [State.mem_ite, h])

theorem State.releaseRing_wf {s t : State} {core slot r : Nat} (h : s.mem.wf = true) (ht : s.releaseRing core slot r = some t) :
    t.mem.wf = true := by
  unfold State.releaseRing at ht
  dsimp only at ht
  repeat' split at ht
  · cases ht
    exact h
  · cases ht
    exact h
  · cases ht
  · cases ht
    simp [h]

theorem State.releaseRings_wf {s t : State} {core slot : Nat} (h : s.mem.wf = true) (ht : s.releaseRings core slot = some t) :
    t.mem.wf = true := by
  have hall : ∀ x ∈ s.releaseRings core slot, x.mem.wf = true :=
    List.foldlRecOn (motive := fun o : Option State => ∀ x ∈ o, x.mem.wf = true) _ _ (by simpa using h) (fun o ho r _ x hx => by
      cases o with
      | none => cases hx
      | some y => exact State.releaseRing_wf (ho y rfl) hx)
  exact hall t ht

theorem mxRingwait_wf (m : Mx) (h : m.s.mem.wf = true) : (mxRingwait m).wf := by
  unfold mxRingwait
  split
  · simp
  · split
    · simp
    · next s hs =>
      have hready : s.mem.wf = true := State.releaseRing_wf (by simpa using h) hs
      dsimp only
      repeat' split
      all_goals simp [hready]

theorem mxSignal_wf (m : Mx) (h : m.s.mem.wf = true) : (mxSignal m).wf := by
  unfold mxSignal
  repeat' split
  all_goals simp [h]

theorem mxEnd_wf (m : Mx) (h : m.s.mem.wf = true) : (mxEnd m).wf := by
  unfold mxEnd
  repeat' split
  · simp
  · simp
  · next s hs => simp [State.releaseRings_wf h hs]

theorem State.mxEntry_s {s : State} {core : Nat} {m : Mx} (hm : s.mxEntry core = some m) : m.s = s := by
  unfold State.mxEntry at hm
  dsimp only at hm
  repeat' split at hm
  · cases hm
  · cases hm
  · cases hm
  · cases hm
    rfl

theorem State.runEntry_wf (s : State) (kind : Nat) (f : Mx → MxStep) (hf : ∀ m, m.s.mem.wf = true → (f m).wf) (h : s.mem.wf = true) :
    (s.runEntry kind f).mem.wf = true := by
  unfold State.runEntry
  split
  · exact h
  · next m hm =>
    have hstep := hf m ((State.mxEntry_s hm).symm ▸ h)
    generalize f m = step at hstep ⊢
    dsimp only
    repeat' split
    all_goals simp_all

@[simp] theorem State.stopSequencer_wf (s : State) (core : Nat) (hwf : s.mem.wf = true) : (s.stopSequencer core).mem.wf = true := by
  unfold State.stopSequencer
  dsimp only
  repeat' split
  · exact hwf
  · exact hwf
  · exact hwf
  · next t ht => simp [State.releaseRings_wf hwf ht]

theorem State.placeRanges_wf (s : State) (units : Nat) (taken : List (Nat × Nat)) (ns : List Nat) (h : s.mem.wf = true) :
    ∀ r ∈ s.placeRanges units taken ns, r.2.mem.wf = true := by
  induction ns generalizing s taken with
  | nil => simpa [State.placeRanges] using h
  | cons n ns ih =>
    intro r hr
    unfold State.placeRanges at hr
    split at hr
    · obtain ⟨q, hq, rfl⟩ := Option.mem_map.mp hr
      exact ih s taken h q hq
    · split at hr
      · cases hr
      · obtain ⟨q, hq, rfl⟩ := Option.mem_map.mp hr
        exact ih (s.pick _).2 _ (by simpa using h) q hq

theorem State.placeTeamRanges_wf {s : State} {core wlen traps storage : Nat} {r : (Nat × Nat × Nat) × State} (h : s.mem.wf = true)
    (hr : s.placeTeamRanges core wlen traps storage = some r) : r.2.mem.wf = true := by
  have hplaced := State.placeRanges_wf s (sliceBytes core / 256) (s.taken core) [wlen + traps, storage] h
  unfold State.placeTeamRanges at hr
  split at hr
  · next w st t ht =>
    cases hr
    exact hplaced _ ht
  · cases hr

/-- The bytes of the tiles that move with a group are copied into its new window. -/
theorem State.copyTiles_wf (source target : Nat) (l : List (Nat × Tile × Tile)) {t : State} (ht : t.mem.wf = true) :
    (l.foldl (fun s x => if x.2.1.state = .empty then s
      else s.copySegs [tileSeg source x.2.1 0 x.2.1.bytes] [tileSeg target x.2.2 0 x.2.2.bytes] []) t).mem.wf = true :=
  State.wf_foldl (fun u x hu => by
    split
    · exact hu
    · exact State.copySegs_wf _ _ _ _ hu) l ht

@[simp] theorem State.moveGroup_wf (s : State) (g : GRef) (tm : Team) (grp : Group) (p : Park) (target : Nat) (h : s.mem.wf = true) :
    (s.moveGroup g tm grp p target).mem.wf = true := by
  unfold State.moveGroup
  dsimp only
  split
  · next slot window trapt storage t hslot hplaced =>
    have ht : t.mem.wf = true := State.placeTeamRanges_wf h hplaced
    simp only [State.noteEnded_mem, State.modTeam_mem]
    refine State.wf_foldl (fun u x hu => ?_) _ ?_
    · split
      · exact State.putItems_wf _ _ _ _ hu
      · exact hu
    · split
      · exact State.writeTrapTile_wf _ _ _ _ (State.copyTiles_wf _ _ _ ht)
      · exact State.copyTiles_wf _ _ _ ht
  · exact h

@[simp] theorem State.reSend_mem (s : State) (to_ : Nat → GRef → GRef) :
    (s.reSend to_).mem = s.mem := by simp [State.reSend]

@[simp] theorem State.foldInto_mem (s : State) (g : GRef) (tm : Team) (thread : GRef × Group) (act : List (GRef × Group)) :
    (s.foldInto g tm thread act).mem = s.mem := by
  simp [State.foldInto, State.mem_foldl]

@[simp] theorem State.foldChain_mem (s : State) (g : GRef) (tm : Team) :
    (s.foldChain g tm).mem = s.mem := by
  unfold State.foldChain
  dsimp only
  split <;> simp

@[simp] theorem State.spreadOut_wf (s : State) (g : GRef) (tm : Team) (fo : Fold) (th : Group) (h : s.mem.wf = true) :
    (s.spreadOut g tm fo th).mem.wf = true := by
  unfold State.spreadOut
  dsimp only
  refine State.wf_foldl (fun u p hu => by simpa using hu) _ (State.wf_foldl (fun u p hu => ?_) _ (by simpa using h))
  split
  · exact hu
  · refine State.wf_foldl (fun v q hv => ?_) _ (by simpa using hu)
    split
    · exact State.putItems_wf _ _ _ _ hv
    · exact hv

@[simp] theorem State.spreadChain_wf (s : State) (g : GRef) (tm : Team) (fo : Fold) (hwf : s.mem.wf = true) :
    (s.spreadChain g tm fo).mem.wf = true := by
  unfold State.spreadChain
  dsimp only
  repeat' split
  all_goals simp [hwf]

@[simp] theorem State.modQueue_mem (s : State) (q : Nat) (f : HwQueue → HwQueue) :
    (s.modQueue q f).mem = s.mem := by
  unfold State.modQueue
  split <;> simp

@[simp] theorem State.modPacket_mem (s : State) (q i : Nat) (f : Packet → Packet) :
    (s.modPacket q i f).mem = s.mem := by simp [State.modPacket]

@[simp] theorem State.stopQueue_wf (s : State) (q cause : Nat) (hwf : s.mem.wf = true) :
    (s.stopQueue q cause).mem.wf = true := by
  unfold State.stopQueue
  split <;> simp [hwf]

@[simp] theorem State.reach_wf (s : State) (q i core ctx va n acc elem : Nat) (h : s.mem.wf = true) :
    (s.reach q i core ctx va n acc elem).2.mem.wf = true := by
  unfold State.reach
  split
  all_goals
    next e =>
      have ht := State.wf_of_snd e (State.translateBytes_wf _ _ _ h)
      repeat' split
      all_goals simp [ht]

@[simp] theorem State.claim_wf (s : State) (q core : Nat) (h : s.mem.wf = true) : (s.claim q core).mem.wf = true := by
  unfold State.claim
  dsimp only
  split
  · exact h
  · split
    · split
      · exact h
      · split
        all_goals
          next e => simp [State.wf_of_snd e (State.reach_wf _ _ _ _ _ _ _ _ _ h)]
    · split
      · exact h
      · split
        all_goals
          next e => simp [State.wf_of_snd e (State.reach_wf _ _ _ _ _ _ _ _ _ (by simpa using h))]

@[simp] theorem State.packetEnds_mem (s : State) (q i : Nat) :
    (s.packetEnds q i).mem = s.mem := by simp [State.packetEnds]

@[simp] theorem State.signalKey_wf (s : State) (q i core ctx : Nat) (v : Nat) (hwf : s.mem.wf = true) :
    (s.signalKey q i core ctx v).2.mem.wf = true := by
  unfold State.signalKey
  repeat' split
  all_goals simp [hwf]

@[simp] theorem State.initQueue_wf (s : State) (core arg : Nat) (q : TqDecl) (tiles : List (Nat × Tile)) (h : s.mem.wf = true) :
    (s.initQueue core arg q tiles).mem.wf = true := by
  unfold State.initQueue
  dsimp only
  split
  · exact h
  · refine State.wf_foldl (fun u p hu => ?_) _ (State.storeLE_wf _ _ _ _ h)
    split
    · exact hu
    · exact State.storeLE_wf _ _ _ _ (State.storeLE_wf _ _ _ _ hu)

theorem State.placeSpec_wf {s : State} {p : Spec} {core : Nat} {r : (Nat × Nat × Nat) × State} (h : s.mem.wf = true)
    (hr : s.placeSpec p core = some r) : r.2.mem.wf = true :=
  State.placeTeamRanges_wf h hr

@[simp] theorem State.flushHeld_wf (s : State) (h : s.mem.wf = true) : s.flushHeld.mem.wf = true :=
  State.wf_foldl (fun u op hu => State.namedOp_wf u op false hu) _ h

@[simp] theorem State.createTeam_wf (s : State) (p : Spec) (core slot window trapt storage : Nat) (h : s.mem.wf = true) :
    (s.createTeam p core slot window trapt storage).mem.wf = true := by
  unfold State.createTeam
  dsimp only
  rw [State.mem_ite]
  refine Memory.wf_ite ?_ ?_
  · exact State.wf_foldl (fun u q hu => State.initQueue_wf u _ _ _ _ hu) _ h
  · simp only [State.modTeam_mem, State.releaseCard_mem]
    exact State.wf_foldl (fun u q hu => State.initQueue_wf u _ _ _ _ hu) _ h

@[simp] theorem State.admitTeam_wf (s : State) (p : Spec) (core : Nat) (h : s.mem.wf = true) : (s.admitTeam p core).mem.wf = true := by
  unfold State.admitTeam
  split
  · next hplaced => exact State.flushHeld_wf _ (by simp [State.createTeam_wf _ _ _ _ _ _ _ (State.placeSpec_wf h hplaced)])
  · exact h

@[simp] theorem State.endTeam_wf (s : State) (core slot : Nat) (t : Team) (hwf : s.mem.wf = true) :
    (s.endTeam core slot t).mem.wf = true := by
  unfold State.endTeam
  split <;> simp [hwf]

end Sys2Proof.Machine
end

section
/-!
Memory under task queues, save areas, pre-emption, page tables and the loader.
-/
namespace Sys2Proof.Machine

@[simp] theorem State.pullFails_mem (s : State) (g : GRef) (tm : Team) (q p cause tier va : Nat) :
    (s.pullFails g tm q p cause tier va).mem = s.mem := by simp [State.pullFails]

@[simp] theorem State.pulled_wf (s : State) (g : GRef) (tm : Team) (tq : TaskQueue) (q p : Nat) (segs : List Seg) (h : s.mem.wf = true) :
    (s.pulled g tm tq q p segs).mem.wf = true := by
  unfold State.pulled
  exact State.setTq_wf _ _ _ _ _ _ (State.setTq_wf _ _ _ _ _ _ (State.copySegs_wf _ _ _ _ h))

@[simp] theorem State.pull_wf (s : State) (g : GRef) (tm : Team) (tq : TaskQueue) (q p : Nat) (h : s.mem.wf = true) :
    (s.pull g tm tq q p).mem.wf = true := by
  have hmoved := State.translateRange_wf s (s.pullAccess g tm tq q p) 64 3 0 [] h
  unfold State.pull
  dsimp only
  split
  · next e => exact State.wf_of_snd e hmoved
  · next e => simpa using State.wf_of_snd e hmoved
  · next e =>
    split
    · simpa using State.wf_of_snd e hmoved
    · exact State.pulled_wf _ _ _ _ _ _ _ (State.wf_of_snd e hmoved)

@[simp] theorem State.modSucc_mem (s : State) (core i : Nat) (f : Successor → Successor) :
    (s.modSucc core i f).mem = s.mem := by simp [State.modSucc]

@[simp] theorem State.succDone_wf (s : State) (core i : Nat) (w : Successor) (hwf : s.mem.wf = true) :
    (s.succDone core i w).mem.wf = true := by
  unfold State.succDone
  dsimp only
  repeat' split
  all_goals simp [hwf]

@[simp] theorem State.succDropped_wf (s : State) (core i : Nat) (w : Successor) (elem cause tier va : Nat) (hwf : s.mem.wf = true) :
    (s.succDropped core i w elem cause tier va).mem.wf = true := by
  unfold State.succDropped
  split <;> simp [hwf]

@[simp] theorem State.succFails_wf (s : State) (core i : Nat) (w : Successor) (elem cause tier va : Nat) (hwf : s.mem.wf = true) :
    (s.succFails core i w elem cause tier va).mem.wf = true := by
  unfold State.succFails
  split <;> simp [hwf]

@[simp] theorem State.takeOne_wf (s : State) (core i : Nat) (w : Successor) (key : Nat) (h : s.mem.wf = true) :
    (s.takeOne core i w key).mem.wf = true := by
  rw [State.takeOne]
  generalize (s.mem.readLE key 4 + 2 ^ 32 - 1) % 2 ^ 32 = v
  generalize s.poisonAt key 4 = hit
  cases hit with
  | some b => exact State.succDropped_wf _ _ _ _ _ _ _ _ (by simpa using h)
  | none =>
    have hwritten := State.atomicWrite_wf s key 4 v h
    dsimp only
    split
    · simpa using hwritten
    · exact State.succDone_wf _ _ _ _ (by simpa using hwritten)

@[simp] theorem State.succPublish_wf (s : State) (core i : Nat) (w : Successor) (q : Nat) (bs : List Byte) (h : s.mem.wf = true) :
    (s.succPublish core i w q bs).mem.wf = true := by
  unfold State.succPublish
  split
  · exact State.succDropped_wf _ _ _ _ _ _ _ _ h
  · split
    · exact h
    · split
      · next e =>
        have ht := State.wf_of_snd e (State.translateBytes_wf _ _ _ h)
        exact State.succDone_wf _ _ _ _ (by simpa using State.store_wf _ _ _ ht)
      · next e => exact State.succFails_wf _ _ _ _ _ _ _ _ (State.wf_of_snd e (State.translateBytes_wf _ _ _ h))
      · next e => exact State.wf_of_snd e (State.translateBytes_wf _ _ _ h)

@[simp] theorem State.succAppend_wf (s : State) (core i : Nat) (w : Successor) (bs : List Byte) (hwf : s.mem.wf = true) :
    (s.succAppend core i w bs).mem.wf = true := by
  unfold State.succAppend
  repeat' split
  all_goals simp [hwf]

@[simp] theorem State.takeFrames_wf (s : State) (n align : Nat) (hwf : s.mem.wf = true) :
    (s.takeFrames n align).2.mem.wf = true := by simp [State.takeFrames, hwf]

@[simp] theorem State.fileSaveArea_wf (s : State) (ctx : Nat) (hwf : s.mem.wf = true) :
    (s.fileSaveArea ctx).mem.wf = true := by
  unfold State.fileSaveArea
  dsimp only
  repeat' split
  all_goals simp [hwf]

@[simp] theorem State.preempt_mem (s : State) (ctx : Nat) :
    (s.preempt ctx).mem = s.mem := by
  simp [State.preempt, State.mem_ite, State.mem_foldl]

@[simp] theorem State.saveTeam_wf (s : State) (core slot : Nat) (hwf : s.mem.wf = true) :
    (s.saveTeam core slot).mem.wf = true := by
  unfold State.saveTeam
  dsimp only
  repeat' split
  all_goals simp [hwf]

@[simp] theorem State.placeTeam_wf (s : State) (v : SavedTeam) (core slot window trapt storage : Nat) (h : s.mem.wf = true) :
    (s.placeTeam v core slot window trapt storage).mem.wf = true :=
  State.placeTeam_inv _ _ _ _ _ _ _ h

@[simp] theorem State.renameTeam_mem (s : State) (ctx : Nat) (from_ to_ : Nat × Nat) :
    (s.renameTeam ctx from_ to_).mem = s.mem := by simp [State.renameTeam]

@[simp] theorem State.repointTeam_mem (s : State) (ctx : Nat) (t : Team) (from_ to_ : Nat × Nat) :
    (s.repointTeam ctx t from_ to_).mem = s.mem := by simp [State.repointTeam]

@[simp] theorem State.forceFault_mem (s : State) (d n : Nat) (j : Job) (cause : Nat) :
    (s.forceFault d n j cause).mem = s.mem := by simp [State.forceFault]

@[simp] theorem State.endRestore_wf (s : State) (ctx : Nat) (left : List Nat) (h : s.mem.wf = true) : (s.endRestore ctx left).mem.wf = true := by
  unfold State.endRestore
  dsimp only
  refine State.flushHeld_wf _ ?_
  rw [State.modCtx_mem, State.mem_foldl (fun u p => by simp)]
  refine State.wf_foldl (fun u d hu => State.wf_foldl (fun v p hv => ?_) _ hu) _ h
  repeat' split
  · simp [hv]
  · exact hv
  · exact hv

@[simp] theorem State.clearCore_mem (s : State) (ctx core : Nat) : (s.clearCore ctx core).mem = s.mem :=
  State.mem_foldl (fun u c => by simp) _ _

theorem State.endRestoreIf_wf (c : Bool) (s : State) (ctx : Nat) (left : List Nat) (h : s.mem.wf = true) :
    (if c then s.endRestore ctx left else s).mem.wf = true := by
  split
  · exact State.endRestore_wf _ _ _ h
  · exact h

@[simp] theorem State.restoreNext_wf (s : State) (ctx : Nat) (c : Ctx) (core : Nat) (h : s.mem.wf = true) :
    (s.restoreNext ctx c core).mem.wf = true := by
  unfold State.restoreNext
  split
  · exact State.endRestore_wf _ _ _ h
  · next v rest hsaved =>
    dsimp only
    rw [State.mem_ite]
    refine Memory.wf_ite h ?_
    rw [State.mem_ite]
    refine Memory.wf_ite (by simp [State.mem_ite, h]) (State.endRestoreIf_wf _ _ _ _ ?_)
    rw [State.mem_ite]
    refine Memory.wf_ite (State.placeTeam_wf _ _ _ _ _ _ _ (by simpa using h)) ?_
    split
    · next slot window trapt storage t hslot hplaced =>
      have ht : t.mem.wf = true := State.placeTeamRanges_wf (by simpa using h) hplaced
      split <;> simp [ht]
    · simpa using h

@[simp] theorem State.setEntry_wf (s : State) (at_ v : Nat) (hwf : s.mem.wf = true) :
    (s.setEntry at_ v).mem.wf = true := by simp [State.setEntry, hwf]

@[simp] theorem State.tableBelow_wf (s : State) (at_ : Nat) (level : Nat) (gran : Bool) (hwf : s.mem.wf = true) :
    (s.tableBelow at_ level gran).2.mem.wf = true := by
  unfold State.tableBelow
  dsimp only
  split <;> simp [hwf]

@[simp] theorem State.entryFor_wf (s : State) (root va psize : Nat) (h : s.mem.wf = true) : (s.entryFor root va psize).2.mem.wf = true := by
  have h2 (a : Nat) := State.tableBelow_wf s a 3 false h
  have h1 (a b : Nat) := State.tableBelow_wf _ b 2 false (h2 a)
  have h0 (a b c : Nat) := State.tableBelow_wf _ c 1 (psize == 1) (h1 a b)
  unfold State.entryFor
  dsimp only
  repeat' split
  · simp [h2]
  · simp [h1]
  · simp [h0]

@[simp] theorem State.putLeaf_wf (s : State) (ctx va psize leaf : Nat) (hwf : s.mem.wf = true) :
    (s.putLeaf ctx va psize leaf).mem.wf = true := by
  unfold State.putLeaf
  split <;> simp [hwf]

@[simp] theorem State.dropLeaf_wf (s : State) (ctx va psize : Nat) (hwf : s.mem.wf = true) :
    (s.dropLeaf ctx va psize).mem.wf = true := by
  unfold State.dropLeaf
  dsimp only
  split <;> simp [hwf]

@[simp] theorem State.mapPages_wf (s : State) (ctx va n psize leaf : Nat) (h : s.mem.wf = true) : (s.mapPages ctx va n psize leaf).mem.wf = true := by
  rw [State.mapPages, State.invalidate_mem]
  exact State.wf_foldl (fun u i hu => State.putLeaf_wf _ _ _ _ _ hu) _ h

@[simp] theorem State.unmapPages_wf (s : State) (ctx va n psize : Nat) (h : s.mem.wf = true) : (s.unmapPages ctx va n psize).mem.wf = true := by
  rw [State.unmapPages, State.invalidate_mem]
  exact State.wf_foldl (fun u i hu => State.dropLeaf_wf _ _ _ _ hu) _ h

theorem State.placeBytes_wf {s : State} {ctx perm : Nat} {bs : List Byte} {r : Nat × State} (h : s.mem.wf = true)
    (hr : s.placeBytes ctx perm bs = some r) : r.2.mem.wf = true := by
  unfold State.placeBytes at hr
  dsimp only at hr
  split at hr
  · cases hr
    exact h
  · split at hr
    · cases hr
    · cases hr
      exact State.mapPages_wf _ _ _ _ _ _ (State.store_wf _ _ _ (State.takeFrames_wf _ _ _ (by simpa using h)))

theorem State.placeObject_wf {s : State} {ctx : Nat} {im : Image} {o : CodeObject} {r : CodeObject × State} (h : s.mem.wf = true)
    (hr : s.placeObject ctx im o = some r) : r.2.mem.wf = true := by
  obtain ⟨⟨dv, s1⟩, h1, hr⟩ := Option.bind_eq_some_iff.mp hr
  obtain ⟨⟨lv, s2⟩, h2, hr⟩ := Option.bind_eq_some_iff.mp hr
  obtain ⟨⟨rv, s3⟩, h3, hr⟩ := Option.bind_eq_some_iff.mp hr
  obtain ⟨⟨bv, s4⟩, h4, rfl⟩ := Option.map_eq_some_iff.mp hr
  exact State.placeBytes_wf (State.placeBytes_wf (State.placeBytes_wf (State.placeBytes_wf h h1) h2) h3) h4

@[simp] theorem State.loadObject_wf (s : State) (ctx obj len : Nat) (force : Bool) (h : s.mem.wf = true) :
    (s.loadObject ctx obj len force).2.2.mem.wf = true := by
  unfold State.loadObject
  dsimp only
  split
  · exact h
  · split
    · exact h
    · split
      · exact h
      · split
        · simpa using h
        · split
          · simpa using h
          · next o t ho => simpa using State.placeObject_wf (by simpa using h) ho

@[simp] theorem State.unloadObject_wf (s : State) (ctx hd : Nat) (o : CodeObject) (h : s.mem.wf = true) : (s.unloadObject ctx hd o).mem.wf = true := by
  rw [State.unloadObject, State.modCtx_mem]
  exact State.wf_foldl (fun u r hu => State.unmapPages_wf _ _ _ _ _ hu) _ h

end Sys2Proof.Machine
end

section
/-!
Memory under management requests, fault answers, reliability, the fabric and collectives.
-/
namespace Sys2Proof.Machine

@[simp] theorem State.complete_wf (s : State) (i status result : Nat) (hwf : s.mem.wf = true) :
    (s.complete i status result).mem.wf = true := by simp [State.complete, hwf]

theorem State.perform_wf (s : State) (op flags : Nat) (onCtx : Bool) (used : List (Nat × Nat)) (body : Nat → List Byte → Answer)
    (h : s.mem.wf = true) (hbody : ∀ ctx b, (body ctx b).2.mem.wf = true) : (s.perform op flags onCtx used body).mem.wf = true :=
  State.perform_inv s op flags onCtx used body hbody h

@[simp] theorem State.createContext_wf (s : State) (b : List Byte) (h : s.mem.wf = true) : (s.createContext b).2.mem.wf = true := by
  unfold State.createContext
  dsimp only
  split
  · exact h
  · split
    · exact h
    · split
      · exact h
      · exact State.takeFrames_wf _ _ _ h

@[simp] theorem State.unreadable_wf (s : State) (tier lo n : Nat) (hwf : s.mem.wf = true) :
    (s.unreadable tier lo n).mem.wf = true := by
  simp [State.unreadable, State.mem_ite, Memory.wf_ite, State.mem_foldl, hwf]

@[simp] theorem State.rekey_wf (s : State) (ctx gen tier base len : Nat) (h : s.mem.wf = true) : (s.rekey ctx gen tier base len).mem.wf = true := by
  unfold State.rekey
  split
  · exact h
  · exact State.wf_foldl (fun u k hu => State.unreadable_wf _ _ _ _ hu) _ h

@[simp] theorem State.map_wf (s : State) (ctx : Nat) (b : List Byte) (h : s.mem.wf = true) : (s.map ctx b).2.mem.wf = true := by
  unfold State.map
  dsimp only
  repeat' split
  case isFalse.isFalse.isFalse.isFalse.isFalse => exact State.mapPages_wf _ _ _ _ _ _ (State.rekey_wf _ _ _ _ _ _ h)
  all_goals exact h

@[simp] theorem State.unmap_wf (s : State) (ctx : Nat) (b : List Byte) (h : s.mem.wf = true) : (s.unmap ctx b).2.mem.wf = true := by
  unfold State.unmap
  dsimp only
  repeat' split
  · exact h
  · exact h
  · exact State.unmapPages_wf _ _ _ _ _ h
  · exact h

@[simp] theorem State.createQueue_wf (s : State) (ctx : Nat) (b : List Byte) (h : s.mem.wf = true) : (s.createQueue ctx b).2.mem.wf = true := by
  unfold State.createQueue
  dsimp only
  repeat' split
  all_goals simp [h]

@[simp] theorem State.destroyQueue_wf (s : State) (ctx : Nat) (b : List Byte) (h : s.mem.wf = true) : (s.destroyQueue ctx b).2.mem.wf = true := by
  unfold State.destroyQueue
  dsimp only
  repeat' split
  all_goals simp [h]

theorem State.debug_wf (s : State) (dops : Nat → Bool) (body : Nat → List Byte → Answer) (h : s.mem.wf = true)
    (hbody : ∀ ctx b, (body ctx b).2.mem.wf = true) : (s.debug dops body).mem.wf = true := by
  unfold State.debug
  split
  · exact h
  · split
    · exact h
    · refine State.perform_wf _ _ _ _ _ _ h (fun ctx b => ?_)
      repeat' split
      · exact h
      · exact h
      · exact h
      · exact hbody ctx b

theorem State.onGroup_wf (s : State) (ctx : Nat) (b : List Byte) (f : GRef → Answer) (h : s.mem.wf = true) (hf : ∀ g, (f g).2.mem.wf = true) :
    (s.onGroup ctx b f).2.mem.wf = true := by
  unfold State.onGroup
  split
  · exact h
  · exact hf _

@[simp] theorem State.resume_mem (s : State) (g : GRef) :
    (s.resume g).mem = s.mem := by
  unfold State.resume
  dsimp only
  repeat' split
  all_goals simp

theorem State.mapFor_wf {s t : State} {ctx va leaf psize : Nat} (h : s.mem.wf = true) (ht : s.mapFor ctx va leaf psize = some t) :
    t.mem.wf = true := by
  unfold State.mapFor at ht
  split at ht
  · cases ht
    exact h
  · dsimp only at ht
    split at ht
    · next e =>
      cases ht
      exact State.wf_of_snd e (State.map_wf _ _ _ h)
    · cases ht

@[simp] theorem State.cured_wf (s : State) (d : Nat) (r : FaultRecord) (hwf : s.mem.wf = true) :
    (s.cured d r).mem.wf = true := by
  unfold State.cured
  dsimp only
  repeat' split
  all_goals simp [hwf]

@[simp] theorem State.headCause_wf (s : State) (r : FaultRecord) (g : GRef) (l : List Nat) (h : s.mem.wf = true) :
    (s.headCause r g l).mem.wf = true := by
  induction l with
  | nil => exact h
  | cons st rest ih =>
    unfold State.headCause
    dsimp only
    repeat' split
    · exact h
    · exact ih
    · simp [h]

@[simp] theorem State.portDropped_mem (s : State) (r : FaultRecord) :
    (s.portDropped r).mem = s.mem := by
  simp [State.portDropped, State.mem_ite, State.mem_foldl]

@[simp] theorem State.succUncured_wf (s : State) (r : FaultRecord) (hwf : s.mem.wf = true) :
    (s.succUncured r).mem.wf = true := by
  unfold State.succUncured
  split <;> simp [hwf]

@[simp] theorem State.packetUncured_wf (s : State) (d : Nat) (r : FaultRecord) (h : s.mem.wf = true) : (s.packetUncured d r).mem.wf = true :=
  State.wf_foldl (fun u q hu => by
    dsimp only
    repeat' split
    all_goals simp [hu]) _ h

@[simp] theorem State.uncured_wf (s : State) (d : Nat) (r : FaultRecord) (hwf : s.mem.wf = true) :
    (s.uncured d r).mem.wf = true := by
  unfold State.uncured
  dsimp only
  repeat' split
  all_goals simp [hwf]

@[simp] theorem State.askPage_mem (s : State) (d : Nat) (r : FaultRecord) :
    (s.askPage d r).mem = s.mem := by
  unfold State.askPage
  dsimp only
  repeat' split
  all_goals simp

@[simp] theorem State.scanPartial_wf (s : State) (d : Nat) (h : s.mem.wf = true) : (s.scanPartial d).mem.wf = true :=
  State.wf_foldl (fun u p hu => by
    repeat' split
    all_goals simp [hu]) _ (by simpa using h)

theorem State.reloadPlien_wf (s : State) (d : Nat) (ok : Bool) (restart : State → State) (h : s.mem.wf = true)
    (hrestart : ∀ t : State, t.mem.wf = true → (restart t).mem.wf = true) : (s.reloadPlien d ok restart).mem.wf = true := by
  unfold State.reloadPlien
  dsimp only
  repeat' split
  · simpa using h
  · simpa using h
  · exact hrestart _ (by simpa using h)

@[simp] theorem State.poisonGranule_mem (s : State) (e : StorageError) :
    (s.poisonGranule e).mem = s.mem := by
  unfold State.poisonGranule
  split <;> simp

@[simp] theorem State.dropCached_mem (s : State) (core sub va : Nat) :
    (s.dropCached core sub va).mem = s.mem := by
  unfold State.dropCached
  split <;> simp

@[simp] theorem State.storageError_mem (s : State) (e : StorageError) :
    (s.storageError e).mem = s.mem := by
  unfold State.storageError
  dsimp only
  repeat' split
  all_goals simp

@[simp] theorem State.restart_wf (s : State) (h : s.mem.wf = true) : s.restart.mem.wf = true :=
  State.restart_inv s h

@[simp] theorem State.outcome_mem (s : State) (step : Nat) (f : StartEntry → StartEntry) :
    (s.outcome step f).mem = s.mem := by simp [State.outcome]

@[simp] theorem State.trainTier2_mem (s : State) :
    (s.trainTier2).mem = s.mem := by
  unfold State.trainTier2
  dsimp only
  repeat' split
  all_goals simp

@[simp] theorem State.extendMr_mem (s : State) (n : Nat) (v : List Byte) :
    (s.extendMr n v).mem = s.mem := by simp [State.extendMr]

@[simp] theorem State.testCores_mem (s : State) (lcores : Bool) :
    (s.testCores lcores).mem = s.mem := by
  simp [State.testCores, State.mem_ite, State.mem_foldl]

@[simp] theorem State.linkReport_wf (s : State) (n : Nat) (up : Bool) (packid : Nat) (hwf : s.mem.wf = true) :
    (s.linkReport n up packid).mem.wf = true := by simp [State.linkReport, hwf]

@[simp] theorem State.raiseLinks_wf (s : State) (lo hi : Nat) (h : s.mem.wf = true) : (s.raiseLinks lo hi).mem.wf = true := by
  refine State.wf_foldl (fun u k hu => ?_) _ h
  exact State.linkReport_wf _ _ _ _ hu

@[simp] theorem State.measurePlien_mem (s : State) (slotB : Bool) :
    (s.measurePlien slotB).mem = s.mem := by simp [State.measurePlien]

@[simp] theorem State.imageVerifies_mem (s : State) (step : Nat) :
    (s.imageVerifies step).2.mem = s.mem := by
  unfold State.imageVerifies
  split <;> simp

@[simp] theorem State.stepEffect_wf (s : State) (step : Nat) (hwf : s.mem.wf = true) :
    (s.stepEffect step).mem.wf = true := by
  unfold State.stepEffect
  dsimp only
  repeat' split
  all_goals simp [hwf]

@[simp] theorem State.stepFails_wf (s : State) (step reason : Nat) (hwf : s.mem.wf = true) :
    (s.stepFails step reason).mem.wf = true := by
  unfold State.stepFails
  dsimp only
  split <;> simp [hwf]

@[simp] theorem State.runStep_wf (s : State) (fails : Bool) (reason : Nat) (hwf : s.mem.wf = true) :
    (s.runStep fails reason).mem.wf = true := by
  unfold State.runStep
  dsimp only
  repeat' split
  all_goals simp [hwf]

@[simp] theorem State.modLink_mem (s : State) (n : Nat) (f : Link → Link) :
    (s.modLink n f).mem = s.mem := by simp [State.modLink]

@[simp] theorem State.linkUp_wf (s : State) (n packid : Nat) (reach peers : List Nat) (hwf : s.mem.wf = true) :
    (s.linkUp n packid reach peers).mem.wf = true := by simp [State.linkUp, hwf]

@[simp] theorem State.linkDown_wf (s : State) (n : Nat) (hwf : s.mem.wf = true) :
    (s.linkDown n).mem.wf = true := by simp [State.linkDown, hwf]

@[simp] theorem State.linkPacket_wf (s : State) (n besides : Nat) (good : Bool) (l : Link) (hwf : s.mem.wf = true) :
    (s.linkPacket n besides good l).mem.wf = true := by
  unfold State.linkPacket
  dsimp only
  repeat' split
  all_goals simp [hwf]

@[simp] theorem State.learnWindow_mem (s : State) (pack ctx n : Nat) (causes : List (Nat × Nat)) :
    (s.learnWindow pack ctx n causes).mem = s.mem := by simp [State.learnWindow]

@[simp] theorem State.translatePeer_wf (s : State) (a : Access) (hwf : s.mem.wf = true) :
    (s.translatePeer a).2.mem.wf = true := by
  unfold State.translatePeer
  dsimp only
  repeat' split
  all_goals simp [hwf]

@[simp] theorem State.performPeer_wf (s : State) (pack key acc n : Nat) (bytes : List Byte) (a : Atomic) (h : s.mem.wf = true) :
    (s.performPeer pack key acc n bytes a).mem.wf = true := by
  unfold State.performPeer
  split
  · simpa [State.answerPeer] using h
  · simpa [State.answerPeer] using State.store_wf _ _ _ h
  · split
    · simpa [State.answerPeer] using h
    · simpa [State.answerPeer, State.mem_ite] using State.atomicWrite_wf _ _ _ _ h

@[simp] theorem State.peerAccess_wf (s : State) (pack ictx off acc n : Nat) (bytes : List Byte) (a : Atomic) (h : s.mem.wf = true) :
    (s.peerAccess pack ictx off acc n bytes a).mem.wf = true := by
  unfold State.peerAccess
  generalize (if acc = 0 then n else if acc = 1 then bytes.length else a.bytes) = len
  dsimp only
  split
  · simpa [State.answerPeer] using h
  · split
    · simpa [State.answerPeer] using h
    · split
      · next e => exact State.performPeer_wf _ _ _ _ _ _ _ (State.wf_of_snd e (State.translatePeer_wf _ _ h))
      · next e => exact State.wf_of_snd e (State.translatePeer_wf _ _ h)
      · next e => simpa [State.answerPeer] using State.wf_of_snd e (State.translatePeer_wf _ _ h)
      · next e => simpa [State.answerPeer] using State.wf_of_snd e (State.translatePeer_wf _ _ h)

@[simp] theorem State.modComm_mem (s : State) (n : Nat) (f : Comm → Comm) :
    (s.modComm n f).mem = s.mem := by simp [State.modComm]

@[simp] theorem State.modOp_mem (s : State) (n : Nat) (f : CollOp → CollOp) :
    (s.modOp n f).mem = s.mem := by simp [State.modOp]

@[simp] theorem State.collFails_mem (s : State) (d n : Nat) (j : Job) (cause tier acc va : Nat) (seen : List Seg) :
    (s.collFails d n j cause tier acc va seen).mem = s.mem := by
  unfold State.collFails
  split <;> simp

@[simp] theorem State.collReach_wf (s : State) (d n : Nat) (j : Job) (tm : Team) (v off len acc : Nat) (h : s.mem.wf = true) :
    (s.collReach d n j tm v off len acc).2.mem.wf = true := by
  unfold State.collReach
  split
  · simpa using h
  · have hside := State.sideOf_wf s j tm 0 v off len acc h
    split
    · next e => simpa using State.wf_of_snd e hside
    · next e => exact State.wf_of_snd e hside
    · next e =>
      split
      · simpa using State.wf_of_snd e hside
      · exact State.wf_of_snd e hside

theorem State.chargeAll_mem (s : State) (ctx : Nat) (l : List Seg) : (l.foldl (fun s g => s.charge ctx g.key g.n) s).mem = s.mem :=
  State.mem_foldl (fun u g => State.charge_mem u ctx g.key g.n) l s

@[simp] theorem State.collWrite_wf (s : State) (d n : Nat) (j : Job) (tm : Team) (v off : Nat) (b : List Byte) (read : List (Nat × Nat))
    (h : s.mem.wf = true) : (s.collWrite d n j tm v off b read).2.mem.wf = true := by
  unfold State.collWrite
  split
  · next e => exact State.wf_of_snd e (State.collReach_wf _ _ _ _ _ _ _ _ _ h)
  · next e =>
    rw [State.chargeAll_mem]
    exact State.writeSegs_wf _ _ _ _ (State.wf_of_snd e (State.collReach_wf _ _ _ _ _ _ _ _ _ h))

@[simp] theorem State.collStatus_wf (s : State) (d n : Nat) (j : Job) (tm : Team) (status : Nat) (h : s.mem.wf = true) :
    (s.collStatus d n j tm status).mem.wf = true := by
  unfold State.collStatus
  split
  · next e => exact State.wf_of_snd e (State.collWrite_wf _ _ _ _ _ _ _ _ _ h)
  · next e =>
    have ht := State.wf_of_snd e (State.collWrite_wf _ _ _ _ _ _ _ _ _ h)
    dsimp only
    split
    · exact State.completeJob_wf _ _ _ _ (by simpa using ht)
    · simpa using ht

@[simp] theorem State.collAbort_wf (s : State) (d n : Nat) (j : Job) (tm : Team) (num : Nat) (hwf : s.mem.wf = true) :
    (s.collAbort d n j tm num).mem.wf = true := by
  unfold State.collAbort
  dsimp only
  split <;> simp [hwf]

@[simp] theorem State.collStart_wf (s : State) (d n : Nat) (j : Job) (tm : Team) (c : Comm) (desc : List Byte) (h : s.mem.wf = true) :
    (s.collStart d n j tm c desc).mem.wf = true := by
  unfold State.collStart
  dsimp only
  split
  · simpa using h
  · split
    · next e => exact State.wf_of_snd e (State.collReach_wf _ _ _ _ _ _ _ _ _ h)
    · next e =>
      have ht := State.wf_of_snd e (State.collReach_wf _ _ _ _ _ _ _ _ _ h)
      split
      · simpa using ht
      · simpa [State.chargeAll_mem] using ht

theorem State.collClaim_wf {s t : State} {d n : Nat} {j : Job} {tm : Team} {c : Comm} {desc : List Byte} (h : s.mem.wf = true)
    (ht : s.collClaim d n j tm c desc = some t) : t.mem.wf = true := by
  unfold State.collClaim at ht
  dsimp only at ht
  split at ht
  · cases ht
  · cases ht
    simpa [State.mem_foldl] using h

@[simp] theorem State.sendChunk_wf (s : State) (c : Comm) (r : Nat) (payload trailer : List Byte) (h : s.mem.wf = true) :
    (s.sendChunk c r payload trailer).mem.wf = true := by
  unfold State.sendChunk
  dsimp only
  repeat' split
  · exact h
  · exact h
  · exact h
  · exact h
  · exact State.storeLE_wf _ _ _ _ (State.store_wf _ _ _ (State.store_wf _ _ _ h))

@[simp] theorem State.tellMember_wf (s : State) (c : Comm) (r : Nat) (b : List Byte) (hwf : s.mem.wf = true) :
    (s.tellMember c r b).mem.wf = true := by simp [State.tellMember, hwf]

@[simp] theorem State.collResults_wf (s : State) (d n : Nat) (j : Job) (tm : Team) (dst fmt : Nat) (read : List (Nat × Nat))
    (l : List (Nat × List Byte)) (h : s.mem.wf = true) : (s.collResults d n j tm dst fmt read l).2.mem.wf = true := by
  induction l generalizing s with
  | nil => exact h
  | cons r rest ih =>
    obtain ⟨off, b⟩ := r
    unfold State.collResults
    split
    · next e => exact State.wf_of_snd e (State.collReach_wf _ _ _ _ _ _ _ _ _ h)
    · next e =>
      have ht := State.wf_of_snd e (State.collReach_wf _ _ _ _ _ _ _ _ _ h)
      split
      · simpa using ht
      · refine ih _ ?_
        rw [State.chargeAll_mem]
        exact State.writeSegs_wf _ _ _ _ ht

@[simp] theorem State.carryOwn_wf (s : State) (j : Job) (tm : Team) (c : Comm) (o : CollOp) (h : s.mem.wf = true) :
    (s.carryOwn j tm c o).mem.wf = true := by
  unfold State.carryOwn
  split
  · exact h
  · split
    · next e =>
      have ht := State.wf_of_snd e (State.sideOf_wf _ _ _ _ _ _ _ _ h)
      split
      · next e => simpa using State.wf_of_snd e (State.sideOf_wf _ _ _ _ _ _ _ _ ht)
      · next e => exact State.wf_of_snd e (State.sideOf_wf _ _ _ _ _ _ _ _ ht)
    · next e => exact State.wf_of_snd e (State.sideOf_wf _ _ _ _ _ _ _ _ h)

@[simp] theorem State.collFinish_wf (s : State) (d n : Nat) (j : Job) (tm : Team) (c : Comm) (o : CollOp) (res : List (Nat × List Byte))
    (h : s.mem.wf = true) : (s.collFinish d n j tm c o res).mem.wf = true := by
  unfold State.collFinish
  dsimp only
  split
  · next e => exact State.wf_of_snd e (State.collResults_wf _ _ _ _ _ _ _ _ _ h)
  · next e =>
    have hresult := State.wf_of_snd e (State.collResults_wf _ _ _ _ _ _ _ _ _ h)
    have hcarried := Memory.wf_ite (c := o.own.isEmpty = true) hresult (State.carryOwn_wf _ j tm c o hresult)
    rw [← State.mem_ite] at hcarried
    split
    · next e => exact State.wf_of_snd e (State.collWrite_wf _ _ _ _ _ _ _ _ _ hcarried)
    · next e =>
      have hmask := State.wf_of_snd e (State.collWrite_wf _ _ _ _ _ _ _ _ _ hcarried)
      split
      · next e => exact State.wf_of_snd e (State.collWrite_wf _ _ _ _ _ _ _ _ _ hmask)
      · next e =>
        have hstatus := State.wf_of_snd e (State.collWrite_wf _ _ _ _ _ _ _ _ _ hmask)
        split
        · exact State.completeJob_wf _ _ _ _ (by simpa using hstatus)
        · simpa using hstatus

@[simp] theorem State.spareFails_mem (s : State) (c : Comm) (cause tier va : Nat) :
    (s.spareFails c cause tier va).mem = s.mem := by simp [State.spareFails]

@[simp] theorem State.sparePut_wf (s : State) (c : Comm) (fmt dst off : Nat) (b : List Byte) (h : s.mem.wf = true) :
    (s.sparePut c fmt dst off b).2.mem.wf = true := by
  unfold State.sparePut
  dsimp only
  split
  · repeat' split
    · simpa using h
    · simpa using h
    · exact h
    · simpa [State.mem_foldl] using State.store_wf _ _ _ h
  · split
    · next e => simpa using State.wf_of_snd e (State.translateRange_wf _ _ _ _ _ _ h)
    · next e => exact State.wf_of_snd e (State.translateRange_wf _ _ _ _ _ _ h)
    · next e =>
      have ht := State.wf_of_snd e (State.translateRange_wf _ _ _ _ _ _ h)
      split
      · simpa using ht
      · rw [State.chargeAll_mem]
        exact State.scatterBytes_wf _ _ _ ht

@[simp] theorem State.sparePuts_wf (s : State) (c : Comm) (fmt dst : Nat) (l : List (Nat × List Byte)) (h : s.mem.wf = true) :
    (s.sparePuts c fmt dst l).2.mem.wf = true := by
  induction l generalizing s with
  | nil => exact h
  | cons r rest ih =>
    unfold State.sparePuts
    split
    · next e => exact ih _ (State.wf_of_snd e (State.sparePut_wf _ _ _ _ _ _ h))
    · next e => exact State.wf_of_snd e (State.sparePut_wf _ _ _ _ _ _ h)

@[simp] theorem State.replayFinish_wf (s : State) (c : Comm) (o : CollOp) (res : List (Nat × List Byte)) (h : s.mem.wf = true) :
    (s.replayFinish c o res).mem.wf = true := by
  unfold State.replayFinish
  split
  · exact h
  · split
    · next e => simpa using State.wf_of_snd e (State.sparePuts_wf _ _ _ _ _ h)
    · next e => exact State.wf_of_snd e (State.sparePuts_wf _ _ _ _ _ h)

@[simp] theorem State.createComm_wf (s : State) (ctx : Nat) (b : List Byte) (h : s.mem.wf = true) : (s.createComm ctx b).2.mem.wf = true := by
  unfold State.createComm
  dsimp only
  split <;> exact h

@[simp] theorem State.excludedSelf_wf (s : State) (c : Comm) (hwf : s.mem.wf = true) :
    (s.excludedSelf c).mem.wf = true := by
  unfold State.excludedSelf
  repeat' split
  all_goals simp [hwf]

@[simp] theorem State.applyMask_wf (s : State) (c : Comm) (epoch effseq root : Nat) (live : List Nat) (hwf : s.mem.wf = true) :
    (s.applyMask c epoch effseq root live).mem.wf = true := by
  unfold State.applyMask
  dsimp only
  split <;> simp [hwf]

@[simp] theorem State.respond_mem (s : State) (code : Nat) (body : List Byte) :
    (s.respond code body).mem = s.mem := by simp [State.respond]

@[simp] theorem State.spdmRequest_mem (s : State) (code : Nat) (ready : Spdm → Bool) (signed : Bool) (after : Spdm → Spdm) :
    (s.spdmRequest code ready signed after).mem = s.mem := by
  unfold State.spdmRequest
  dsimp only
  repeat' split
  all_goals simp

end Sys2Proof.Machine
end

section
/-!
Every event, every instruction and so every step keeps the invariant.
-/
namespace Sys2Proof.Machine

/-- What an outcome leaves meets the invariant: a fault and a refusal leave nothing. -/
def Outcome.Keeps : Host.Outcome State Fault Refusal → Prop
  | .next t => Inv t
  | _ => True

@[simp] theorem Outcome.keeps_next (t : State) : Outcome.Keeps (.next t) ↔ t.mem.wf = true := Iff.rfl

theorem execTraceFetch_keeps (s : State) (h : s.mem.wf = true) : Outcome.Keeps (execTraceFetch s) := by
  unfold execTraceFetch
  dsimp only
  repeat' split
  all_goals simp [h]

theorem execRequeueRelease_keeps (s : State) (h : s.mem.wf = true) : Outcome.Keeps (execRequeueRelease s) := by
  simp [execRequeueRelease, h]

theorem execRequeueTimer_keeps (s : State) (h : s.mem.wf = true) : Outcome.Keeps (execRequeueTimer s) := by
  unfold execRequeueTimer
  dsimp only
  repeat' split
  all_goals simp [h]

theorem execBindNotify_keeps (s : State) (h : s.mem.wf = true) : Outcome.Keeps (execBindNotify s) := by
  simp [execBindNotify, State.mem_foldl, h]

theorem execBindRetryTimer_keeps (s : State) (h : s.mem.wf = true) : Outcome.Keeps (execBindRetryTimer s) := by
  unfold execBindRetryTimer
  dsimp only
  repeat' split
  all_goals simp [h]

theorem execPriorityAging_keeps (s : State) (h : s.mem.wf = true) : Outcome.Keeps (execPriorityAging s) := by
  unfold execPriorityAging
  dsimp only
  repeat' split
  all_goals simp [h]

theorem execTraceDispatch_keeps (s : State) (h : s.mem.wf = true) : Outcome.Keeps (execTraceDispatch s) := by
  simp [execTraceDispatch, h]

theorem execSchedMigrate_keeps (s : State) (h : s.mem.wf = true) : Outcome.Keeps (execSchedMigrate s) := by
  unfold execSchedMigrate
  dsimp only
  repeat' split
  all_goals simp [h]

theorem execAtomicPerform_keeps (s : State) (h : s.mem.wf = true) : Outcome.Keeps (execAtomicPerform s) := by
  unfold execAtomicPerform
  repeat' split
  all_goals simp [h]

theorem execAtomicReturn_keeps (s : State) (h : s.mem.wf = true) : Outcome.Keeps (execAtomicReturn s) := by
  simp [execAtomicReturn, h]

theorem execAcquireComplete_keeps (s : State) (h : s.mem.wf = true) : Outcome.Keeps (execAcquireComplete s) := by
  simp [execAcquireComplete, h]

theorem execPhaseBoundaryComplete_keeps (s : State) (h : s.mem.wf = true) : Outcome.Keeps (execPhaseBoundaryComplete s) := by
  simp [execPhaseBoundaryComplete, h]

theorem execBarrierTurn_keeps (s : State) (h : s.mem.wf = true) : Outcome.Keeps (execBarrierTurn s) := by
  unfold execBarrierTurn
  dsimp only
  repeat' split
  all_goals simp [h]

theorem execChannelPutPerform_keeps (s : State) (h : s.mem.wf = true) : Outcome.Keeps (execChannelPutPerform s) := by
  unfold execChannelPutPerform
  dsimp only
  repeat' split
  all_goals simp [h]

theorem execCreditReturn_keeps (s : State) (h : s.mem.wf = true) : Outcome.Keeps (execCreditReturn s) := by
  unfold execCreditReturn
  dsimp only
  repeat' split
  all_goals simp [h]

theorem execShadowCompare_keeps (s : State) (h : s.mem.wf = true) : Outcome.Keeps (execShadowCompare s) := by
  unfold execShadowCompare
  dsimp only
  repeat' split
  all_goals simp [h]

theorem execTrussAccept_keeps (s : State) (h : s.mem.wf = true) : Outcome.Keeps (execTrussAccept s) := by
  unfold execTrussAccept
  repeat' split
  all_goals simp [h]

theorem execJobStart_keeps (s : State) (h : s.mem.wf = true) : Outcome.Keeps (execJobStart s) := by
  unfold execJobStart
  repeat' split
  all_goals simp [h]

theorem execFillElem_keeps (s : State) (h : s.mem.wf = true) : Outcome.Keeps (execFillElem s) :=
  State.runElement_wf State.linearElement_wf h

theorem execStoreElem_keeps (s : State) (h : s.mem.wf = true) : Outcome.Keeps (execStoreElem s) :=
  State.runElement_wf State.linearElement_wf h

theorem execCopyElem_keeps (s : State) (h : s.mem.wf = true) : Outcome.Keeps (execCopyElem s) :=
  State.runElement_wf State.linearElement_wf h

theorem execMoveElem_keeps (s : State) (h : s.mem.wf = true) : Outcome.Keeps (execMoveElem s) :=
  State.runElement_wf State.linearElement_wf h

theorem execGatherElem_keeps (s : State) (h : s.mem.wf = true) : Outcome.Keeps (execGatherElem s) :=
  State.runElement_wf State.gatherElement_wf h

theorem execScatterElem_keeps (s : State) (h : s.mem.wf = true) : Outcome.Keeps (execScatterElem s) :=
  State.runElement_wf State.scatterElement_wf h

theorem execNmv_keeps (s : State) (h : s.mem.wf = true) : Outcome.Keeps (execNmv s) :=
  State.runElement_wf State.nmvElement_wf h

theorem execJobComplete_keeps (s : State) (h : s.mem.wf = true) : Outcome.Keeps (execJobComplete s) := by
  unfold execJobComplete
  repeat' split
  all_goals simp [h]

theorem execCompletionPutWait_keeps (s : State) (h : s.mem.wf = true) : Outcome.Keeps (execCompletionPutWait s) := by
  unfold execCompletionPutWait
  repeat' split
  all_goals simp [h]

theorem execReplayCommand_keeps (s : State) (h : s.mem.wf = true) : Outcome.Keeps (execReplayCommand s) := by
  unfold execReplayCommand
  repeat' split
  all_goals simp [h]

theorem execJobFaultComplete_keeps (s : State) (h : s.mem.wf = true) : Outcome.Keeps (execJobFaultComplete s) := by
  unfold execJobFaultComplete
  repeat' split
  all_goals simp [h]

theorem execTileDeferredEmpty_keeps (s : State) (h : s.mem.wf = true) : Outcome.Keeps (execTileDeferredEmpty s) := by
  simp [execTileDeferredEmpty, h]

theorem execTranslationWalk_keeps (s : State) (h : s.mem.wf = true) : Outcome.Keeps (execTranslationWalk s) := by
  unfold execTranslationWalk
  dsimp only
  repeat' split
  all_goals simp [h]

theorem execWalkComplete_keeps (s : State) (h : s.mem.wf = true) : Outcome.Keeps (execWalkComplete s) := by
  unfold execWalkComplete
  dsimp only
  repeat' split
  all_goals simp [h]

theorem execTranslationInvalidate_keeps (s : State) (h : s.mem.wf = true) : Outcome.Keeps (execTranslationInvalidate s) := by
  unfold execTranslationInvalidate
  repeat' split
  all_goals simp [h]

theorem execAtsInvalidation_keeps (s : State) (h : s.mem.wf = true) : Outcome.Keeps (execAtsInvalidation s) := by
  unfold execAtsInvalidation
  dsimp only
  repeat' split
  all_goals simp [h]

theorem execAtsTranslationCompletion_keeps (s : State) (h : s.mem.wf = true) : Outcome.Keeps (execAtsTranslationCompletion s) := by
  unfold execAtsTranslationCompletion
  dsimp only
  repeat' split
  all_goals simp [h]

theorem execAtsTimeout_keeps (s : State) (h : s.mem.wf = true) : Outcome.Keeps (execAtsTimeout s) := by
  simp [execAtsTimeout, h]

theorem execPageRetry_keeps (s : State) (h : s.mem.wf = true) : Outcome.Keeps (execPageRetry s) := by
  simp [execPageRetry, h]

theorem execMul_keeps (s : State) (h : s.mem.wf = true) : Outcome.Keeps (execMul s) :=
  State.runEntry_wf s 1 _ mxMul_wf h

theorem execLoop_keeps (s : State) (h : s.mem.wf = true) : Outcome.Keeps (execLoop s) :=
  State.runEntry_wf s 2 _ mxLoop_wf h

theorem execCond_keeps (s : State) (h : s.mem.wf = true) : Outcome.Keeps (execCond s) :=
  State.runEntry_wf s 3 _ mxCond_wf h

theorem execRingwait_keeps (s : State) (h : s.mem.wf = true) : Outcome.Keeps (execRingwait s) :=
  State.runEntry_wf s 4 _ mxRingwait_wf h

theorem execZero_keeps (s : State) (h : s.mem.wf = true) : Outcome.Keeps (execZero s) :=
  State.runEntry_wf s 5 _ mxZero_wf h

theorem execScalea_keeps (s : State) (h : s.mem.wf = true) : Outcome.Keeps (execScalea s) :=
  State.runEntry_wf s 6 _ mxScalea_wf h

theorem execDrain_keeps (s : State) (h : s.mem.wf = true) : Outcome.Keeps (execDrain s) :=
  State.runEntry_wf s 7 _ mxDrain_wf h

theorem execBypass_keeps (s : State) (h : s.mem.wf = true) : Outcome.Keeps (execBypass s) :=
  State.runEntry_wf s 8 _ mxBypass_wf h

theorem execSignal_keeps (s : State) (h : s.mem.wf = true) : Outcome.Keeps (execSignal s) :=
  State.runEntry_wf s 9 _ mxSignal_wf h

theorem execEndEntry_keeps (s : State) (h : s.mem.wf = true) : Outcome.Keeps (execEndEntry s) :=
  State.runEntry_wf s 10 _ mxEnd_wf h

theorem execMxStopPoint_keeps (s : State) (h : s.mem.wf = true) : Outcome.Keeps (execMxStopPoint s) := by
  simp [execMxStopPoint, h]

theorem execMigrationMove_keeps (s : State) (h : s.mem.wf = true) : Outcome.Keeps (execMigrationMove s) := by
  unfold execMigrationMove
  dsimp only
  repeat' split
  all_goals simp [h]

theorem execParkLimit_keeps (s : State) (h : s.mem.wf = true) : Outcome.Keeps (execParkLimit s) := by
  unfold execParkLimit
  dsimp only
  repeat' split
  all_goals simp [h]

theorem execStagePark_keeps (s : State) (h : s.mem.wf = true) : Outcome.Keeps (execStagePark s) := by
  unfold execStagePark
  dsimp only
  repeat' split
  all_goals simp [h]

theorem execChainFoldPerform_keeps (s : State) (h : s.mem.wf = true) : Outcome.Keeps (execChainFoldPerform s) := by
  unfold execChainFoldPerform
  dsimp only
  repeat' split
  all_goals simp [h]

theorem execChainSpreadPerform_keeps (s : State) (h : s.mem.wf = true) : Outcome.Keeps (execChainSpreadPerform s) := by
  unfold execChainSpreadPerform
  dsimp only
  repeat' split
  all_goals simp [h]

theorem execSchedulerChainLatch_keeps (s : State) (h : s.mem.wf = true) : Outcome.Keeps (execSchedulerChainLatch s) := by
  unfold execSchedulerChainLatch
  dsimp only
  repeat' split
  all_goals simp [h]

theorem execDoorbell_keeps (s : State) (h : s.mem.wf = true) : Outcome.Keeps (execDoorbell s) := by
  unfold execDoorbell
  dsimp only
  repeat' split
  all_goals simp [h]

theorem execPacketClaim_keeps (s : State) (h : s.mem.wf = true) : Outcome.Keeps (execPacketClaim s) := by
  unfold execPacketClaim
  dsimp only
  repeat' split
  all_goals simp [h]

theorem execLaunch_keeps (s : State) (h : s.mem.wf = true) : Outcome.Keeps (execLaunch s) := by
  unfold execLaunch
  dsimp only
  repeat' split
  all_goals simp [h]

theorem execNopPacket_keeps (s : State) (h : s.mem.wf = true) : Outcome.Keeps (execNopPacket s) := by
  unfold execNopPacket
  dsimp only
  repeat' split
  all_goals simp [h]

theorem execFeed_keeps (s : State) (h : s.mem.wf = true) : Outcome.Keeps (execFeed s) := by
  unfold execFeed
  dsimp only
  repeat' split
  all_goals simp [h]

theorem execFeedAppend_keeps (s : State) (h : s.mem.wf = true) : Outcome.Keeps (execFeedAppend s) := by
  unfold execFeedAppend
  dsimp only
  split
  · exact h
  · split
    · exact h
    · split
      · exact h
      · simp [h]
      · split
        · exact h
        · split
          all_goals
            next e => simp [State.wf_of_snd e (State.reach_wf _ _ _ _ _ _ _ _ _ h)]

theorem State.signalIf_wf (s : State) (c : Prop) [Decidable c] (q i core ctx v : Nat) (h : s.mem.wf = true) :
    (if c then (Reach.ok 0, s) else s.signalKey q i core ctx v).2.mem.wf = true := by
  split
  · exact h
  · exact State.signalKey_wf _ _ _ _ _ _ h

theorem execPacketComplete_keeps (s : State) (h : s.mem.wf = true) : Outcome.Keeps (execPacketComplete s) := by
  unfold execPacketComplete
  dsimp only
  split
  · exact h
  · next x p hpacket =>
    have hsignal := State.signalIf_wf s (leAt p.bytes 56 8 = 0 ∨ p.unsignalled = true) s.subject.a s.subject.b s.subject.g.core x.ctx
      (leAt p.bytes 56 8) h
    generalize (if leAt p.bytes 56 8 = 0 ∨ p.unsignalled = true then (Reach.ok 0, s)
      else s.signalKey s.subject.a s.subject.b s.subject.g.core x.ctx (leAt p.bytes 56 8)) = signal at hsignal ⊢
    split
    · exact h
    · split
      · exact h
      · split
        · simp [h]
        · split
          · exact hsignal
          · split
            · next e => exact State.wf_of_snd e (State.reach_wf _ _ _ _ _ _ _ _ _ hsignal)
            · next e => simp [State.wf_of_snd e (State.reach_wf _ _ _ _ _ _ _ _ _ hsignal)]
            · next e =>
              have ht (a v : Nat) := State.storeLE_wf _ a 8 v (State.wf_of_snd e (State.reach_wf _ _ _ _ _ _ _ _ _ hsignal))
              rw [Outcome.keeps_next, State.packetEnds_mem]
              repeat' split
              all_goals simp [ht]

theorem execTeamAdmit_keeps (s : State) (h : s.mem.wf = true) : Outcome.Keeps (execTeamAdmit s) := by
  unfold execTeamAdmit
  dsimp only
  repeat' split
  all_goals simp [h]

theorem execTaskRecordCreate_keeps (s : State) (h : s.mem.wf = true) : Outcome.Keeps (execTaskRecordCreate s) := by
  unfold execTaskRecordCreate
  dsimp only
  repeat' split
  all_goals simp [h]

theorem execGangAdmit_keeps (s : State) (h : s.mem.wf = true) : Outcome.Keeps (execGangAdmit s) := by
  unfold execGangAdmit
  dsimp only
  repeat' split
  · exact h
  · exact h
  · exact h
  · rw [Outcome.keeps_next, State.modPacket_mem]
    exact State.wf_foldl (fun u y hu => State.admitTeam_wf u y.1 y.2 hu) _ h

theorem execGangReserve_keeps (s : State) (h : s.mem.wf = true) : Outcome.Keeps (execGangReserve s) := by
  unfold execGangReserve
  dsimp only
  repeat' split
  all_goals simp [h]

theorem execGangStarved_keeps (s : State) (h : s.mem.wf = true) : Outcome.Keeps (execGangStarved s) := by
  unfold execGangStarved
  dsimp only
  repeat' split
  all_goals simp [h]

theorem execAcquireGrant_keeps (s : State) (h : s.mem.wf = true) : Outcome.Keeps (execAcquireGrant s) := by
  unfold execAcquireGrant
  dsimp only
  repeat' split
  all_goals simp [h]

theorem execTeamEnd_keeps (s : State) (h : s.mem.wf = true) : Outcome.Keeps (execTeamEnd s) := by
  unfold execTeamEnd
  dsimp only
  repeat' split
  all_goals simp [h]

theorem execPortPull_keeps (s : State) (h : s.mem.wf = true) : Outcome.Keeps (execPortPull s) := by
  unfold execPortPull
  dsimp only
  repeat' split
  all_goals simp [h]

theorem execSuccessorDecrement_keeps (s : State) (h : s.mem.wf = true) : Outcome.Keeps (execSuccessorDecrement s) := by
  unfold execSuccessorDecrement
  dsimp only
  split
  · exact h
  · split
    · exact h
    · split
      · repeat' split
        all_goals simp [h]
      · split
        · simp [h]
        · split
          · simp [h]
          · split
            all_goals
              next e => simp [State.wf_of_snd e (State.translate_wf _ _ h)]

theorem execSuccessorAppend_keeps (s : State) (h : s.mem.wf = true) : Outcome.Keeps (execSuccessorAppend s) := by
  unfold execSuccessorAppend
  dsimp only
  split
  · exact h
  · split
    · exact h
    · split
      · simp [h]
      · split
        · simp [h]
        · split
          all_goals
            next e => simp [State.wf_of_snd e (State.translateBytes_wf _ _ _ h)]

theorem execPreempt_keeps (s : State) (h : s.mem.wf = true) : Outcome.Keeps (execPreempt s) := by
  unfold execPreempt
  dsimp only
  repeat' split
  all_goals simp [h]

theorem execNmvPreemptStop_keeps (s : State) (h : s.mem.wf = true) : Outcome.Keeps (execNmvPreemptStop s) := by
  simp [execNmvPreemptStop, h]

theorem execHandlerTimeout_keeps (s : State) (h : s.mem.wf = true) : Outcome.Keeps (execHandlerTimeout s) := by
  unfold execHandlerTimeout
  dsimp only
  repeat' split
  all_goals simp [h]

theorem execPreemptComplete_keeps (s : State) (h : s.mem.wf = true) : Outcome.Keeps (execPreemptComplete s) := by
  unfold execPreemptComplete
  dsimp only
  repeat' split
  · exact h
  · exact State.fileSaveArea_wf _ _ (by simpa using State.wf_foldl (fun u p hu => State.saveTeam_wf u p.1 p.2 hu) _ h)
  · exact h

theorem execContextRestore_keeps (s : State) (h : s.mem.wf = true) : Outcome.Keeps (execContextRestore s) := by
  unfold execContextRestore
  dsimp only
  repeat' split
  all_goals simp [h]

theorem execQuantumExpiry_keeps (s : State) (h : s.mem.wf = true) : Outcome.Keeps (execQuantumExpiry s) := by
  unfold execQuantumExpiry
  dsimp only
  repeat' split
  all_goals simp [h]

theorem execBucketRefill_keeps (s : State) (h : s.mem.wf = true) : Outcome.Keeps (execBucketRefill s) := by
  simp [execBucketRefill, h]

theorem execBucketCharge_keeps (s : State) (h : s.mem.wf = true) : Outcome.Keeps (execBucketCharge s) := by
  unfold execBucketCharge
  dsimp only
  repeat' split
  all_goals simp [h]

theorem execHbIncrement_keeps (s : State) (h : s.mem.wf = true) : Outcome.Keeps (execHbIncrement s) := by
  unfold execHbIncrement
  dsimp only
  repeat' split
  all_goals simp [h]

theorem execFallbackBegin_keeps (s : State) (h : s.mem.wf = true) : Outcome.Keeps (execFallbackBegin s) := by
  unfold execFallbackBegin
  dsimp only
  repeat' split
  all_goals simp [h]

theorem execFallbackEnd_keeps (s : State) (h : s.mem.wf = true) : Outcome.Keeps (execFallbackEnd s) := by
  unfold execFallbackEnd
  dsimp only
  repeat' split
  all_goals simp [h]

theorem execBadreq_keeps (s : State) (h : s.mem.wf = true) : Outcome.Keeps (execBadreq s) := by
  unfold execBadreq
  repeat' split
  all_goals simp [h]

theorem execCtxCreate_keeps (s : State) (h : s.mem.wf = true) : Outcome.Keeps (execCtxCreate s) :=
  State.perform_wf _ _ _ _ _ _ h (fun ctx b => by
    repeat' split
    all_goals simp [h])

theorem execCtxDestroy_keeps (s : State) (h : s.mem.wf = true) : Outcome.Keeps (execCtxDestroy s) :=
  State.perform_wf _ _ _ _ _ _ h (fun _ _ => State.wf_foldl (fun _ _ hu => State.complete_wf _ _ _ _ hu) _ (State.destroyContext_wf _ _ h))

theorem execCtxResume_keeps (s : State) (h : s.mem.wf = true) : Outcome.Keeps (execCtxResume s) :=
  State.perform_wf _ _ _ _ _ _ h (fun _ _ => by simpa using h)

theorem execMap_keeps (s : State) (h : s.mem.wf = true) : Outcome.Keeps (execMap s) :=
  State.perform_wf _ _ _ _ _ _ h (fun ctx b => State.map_wf s ctx b h)

theorem execUnmap_keeps (s : State) (h : s.mem.wf = true) : Outcome.Keeps (execUnmap s) :=
  State.perform_wf _ _ _ _ _ _ h (fun ctx b => State.unmap_wf s ctx b h)

theorem execQCreate_keeps (s : State) (h : s.mem.wf = true) : Outcome.Keeps (execQCreate s) :=
  State.perform_wf _ _ _ _ _ _ h (fun ctx b => State.createQueue_wf s ctx b h)

theorem execQDestroy_keeps (s : State) (h : s.mem.wf = true) : Outcome.Keeps (execQDestroy s) :=
  State.perform_wf _ _ _ _ _ _ h (fun ctx b => State.destroyQueue_wf s ctx b h)

theorem execLoad_keeps (s : State) (h : s.mem.wf = true) : Outcome.Keeps (execLoad s) :=
  State.perform_wf _ _ _ _ _ _ h (fun ctx b => by simpa using State.loadObject_wf s ctx _ _ _ h)

theorem execUnload_keeps (s : State) (h : s.mem.wf = true) : Outcome.Keeps (execUnload s) :=
  State.perform_wf _ _ _ _ _ _ h (fun ctx b => by
    dsimp only
    repeat' split
    all_goals simp [h])

theorem execExportWindow_keeps (s : State) (h : s.mem.wf = true) : Outcome.Keeps (execExportWindow s) :=
  State.perform_wf _ _ _ _ _ _ h (fun ctx b => by
    dsimp only
    repeat' split
    all_goals simp [h])

theorem execCoreInfo_keeps (s : State) (h : s.mem.wf = true) : Outcome.Keeps (execCoreInfo s) :=
  State.perform_wf _ _ _ _ _ _ h (fun ctx b => by
    dsimp only
    repeat' split
    all_goals simp [h])

theorem execBucket_keeps (s : State) (h : s.mem.wf = true) : Outcome.Keeps (execBucket s) :=
  State.perform_wf _ _ _ _ _ _ h (fun ctx b => by
    repeat' split
    all_goals simp [h])

theorem execDebugHalt_keeps (s : State) (h : s.mem.wf = true) : Outcome.Keeps (execDebugHalt s) :=
  State.debug_wf _ _ _ h (fun ctx b => State.onGroup_wf _ _ _ _ h (fun g => by simpa using h))

theorem execDebugResume_keeps (s : State) (h : s.mem.wf = true) : Outcome.Keeps (execDebugResume s) :=
  State.debug_wf _ _ _ h (fun ctx b => State.onGroup_wf _ _ _ _ h (fun g => by
    dsimp only
    repeat' split
    all_goals simp [h]))

theorem execDebugStep_keeps (s : State) (h : s.mem.wf = true) : Outcome.Keeps (execDebugStep s) :=
  State.debug_wf _ _ _ h (fun ctx b => State.onGroup_wf _ _ _ _ h (fun g => by
    dsimp only
    repeat' split
    all_goals simp [h]))

theorem execDebugReadFrame_keeps (s : State) (h : s.mem.wf = true) : Outcome.Keeps (execDebugReadFrame s) :=
  State.debug_wf _ _ _ h (fun ctx b => State.onGroup_wf _ _ _ _ h (fun _ => h))

theorem execDebugWriteFrame_keeps (s : State) (h : s.mem.wf = true) : Outcome.Keeps (execDebugWriteFrame s) :=
  State.debug_wf _ _ _ h (fun ctx b => State.onGroup_wf _ _ _ _ h (fun g => by
    repeat' split
    all_goals simp [h]))

theorem execDebugReadBrk_keeps (s : State) (h : s.mem.wf = true) : Outcome.Keeps (execDebugReadBrk s) :=
  State.debug_wf _ _ _ h (fun _ _ => h)

theorem execDebugWriteBrk_keeps (s : State) (h : s.mem.wf = true) : Outcome.Keeps (execDebugWriteBrk s) :=
  State.debug_wf _ _ _ h (fun ctx b => by
    dsimp only
    split <;> simp [h])

theorem execDebugReadMode_keeps (s : State) (h : s.mem.wf = true) : Outcome.Keeps (execDebugReadMode s) :=
  State.debug_wf _ _ _ h (fun ctx b => State.onGroup_wf _ _ _ _ h (fun _ => h))

theorem execDebugWriteMode_keeps (s : State) (h : s.mem.wf = true) : Outcome.Keeps (execDebugWriteMode s) :=
  State.debug_wf _ _ _ h (fun ctx b => State.onGroup_wf _ _ _ _ h (fun g => by simpa using h))

theorem execRegisterWrite_keeps (s : State) (h : s.mem.wf = true) : Outcome.Keeps (execRegisterWrite s) := by
  simp [execRegisterWrite, h]

theorem execErrstatClear_keeps (s : State) (h : s.mem.wf = true) : Outcome.Keeps (execErrstatClear s) := by
  simp [execErrstatClear, h]

theorem execEvlostClear_keeps (s : State) (h : s.mem.wf = true) : Outcome.Keeps (execEvlostClear s) := by
  simp [execEvlostClear, h]

theorem execPriResponse_keeps (s : State) (h : s.mem.wf = true) : Outcome.Keeps (execPriResponse s) := by
  unfold execPriResponse
  dsimp only
  split
  · exact h
  · refine State.wf_foldl (fun u p hu => ?_) _ ?_
    · split
      · exact State.cured_wf _ _ _ hu
      · exact State.uncured_wf _ _ _ hu
    · rw [State.mem_foldl (fun u x => by simp)]
      exact h

theorem execFaultRecordAnswer_keeps (s : State) (h : s.mem.wf = true) : Outcome.Keeps (execFaultRecordAnswer s) := by
  unfold execFaultRecordAnswer
  dsimp only
  split
  · simp [State.mem_ite, Memory.wf_ite, h]
  · split
    · simp [h]
    · split
      · split
        · next t ht =>
          have hmapped := State.mapFor_wf h ht
          split <;> simp [h, hmapped]
        · exact h
      · split
        · simp [h]
        · split <;> simp [h]

theorem execEccError_keeps (s : State) (h : s.mem.wf = true) : Outcome.Keeps (execEccError s) := by
  unfold execEccError
  dsimp only
  repeat' split
  all_goals simp [h]

theorem execScrubAccess_keeps (s : State) (h : s.mem.wf = true) : Outcome.Keeps (execScrubAccess s) := by
  unfold execScrubAccess
  dsimp only
  repeat' split
  all_goals simp [h]

theorem execUeConsume_keeps (s : State) (h : s.mem.wf = true) : Outcome.Keeps (execUeConsume s) := by
  unfold execUeConsume
  dsimp only
  repeat' split
  all_goals simp [h]

theorem execPackageStart_keeps (s : State) (h : s.mem.wf = true) : Outcome.Keeps (execPackageStart s) := by
  unfold execPackageStart
  split <;> simp [h]

theorem execPowerLoss_keeps (s : State) (h : s.mem.wf = true) : Outcome.Keeps (execPowerLoss s) := by
  simp [execPowerLoss, h]

theorem execPlienReload_keeps (s : State) (h : s.mem.wf = true) : Outcome.Keeps (execPlienReload s) := by
  unfold execPlienReload
  dsimp only
  split
  · exact h
  · exact State.reloadPlien_wf _ _ _ _ h (fun t ht => State.restart_wf _ (by simpa using ht))

theorem execStartClear_keeps (s : State) (h : s.mem.wf = true) : Outcome.Keeps (execStartClear s) :=
  State.perform_wf _ _ _ _ _ _ h (fun ctx b => by
    repeat' split
    all_goals simp [h])

theorem execLinkChange_keeps (s : State) (h : s.mem.wf = true) : Outcome.Keeps (execLinkChange s) := by
  unfold execLinkChange
  dsimp only
  repeat' split
  all_goals simp [h]

theorem execLinkPacketReceive_keeps (s : State) (h : s.mem.wf = true) : Outcome.Keeps (execLinkPacketReceive s) := by
  unfold execLinkPacketReceive
  dsimp only
  repeat' split
  all_goals simp [h]

theorem execLinkKeyUpdate_keeps (s : State) (h : s.mem.wf = true) : Outcome.Keeps (execLinkKeyUpdate s) := by
  unfold execLinkKeyUpdate
  dsimp only
  repeat' split
  all_goals simp [h]

theorem execPeerAccess_keeps (s : State) (h : s.mem.wf = true) : Outcome.Keeps (execPeerAccess s) := by
  unfold execPeerAccess
  dsimp only
  repeat' split
  all_goals simp [h]

theorem execColl_keeps (s : State) (h : s.mem.wf = true) : Outcome.Keeps (execColl s) := by
  unfold execColl
  dsimp only
  split
  · exact h
  · split
    · simp [h]
    · split
      · next e => exact State.wf_of_snd e (State.collReach_wf _ _ _ _ _ _ _ _ _ h)
      · next e =>
        have ht := State.wf_of_snd e (State.collReach_wf _ _ _ _ _ _ _ _ _ h)
        split
        · simp [ht]
        · split
          · simp [ht]
          · split
            · simp [ht]
            · split
              · simp [ht]
              · split
                · exact ht
                · split
                  · exact ht
                  · next e => exact State.collStart_wf _ _ _ _ _ _ _ (State.collClaim_wf ht e)

theorem execCollChunkSend_keeps (s : State) (h : s.mem.wf = true) : Outcome.Keeps (execCollChunkSend s) := by
  unfold execCollChunkSend
  dsimp only
  repeat' split
  all_goals simp [h]

theorem execCollChunkReceive_keeps (s : State) (h : s.mem.wf = true) : Outcome.Keeps (execCollChunkReceive s) := by
  unfold execCollChunkReceive
  dsimp only
  repeat' split
  all_goals simp [h]

theorem execRecvqPoll_keeps (s : State) (h : s.mem.wf = true) : Outcome.Keeps (execRecvqPoll s) := by
  unfold execRecvqPoll
  dsimp only
  repeat' split
  all_goals simp [h]

theorem execCollComplete_keeps (s : State) (h : s.mem.wf = true) : Outcome.Keeps (execCollComplete s) := by
  unfold execCollComplete
  repeat' split
  all_goals simp [h]

theorem execKeepaliveSend_keeps (s : State) (h : s.mem.wf = true) : Outcome.Keeps (execKeepaliveSend s) := by
  unfold execKeepaliveSend
  split
  · exact h
  · exact State.wf_foldl (fun u r hu => State.tellMember_wf _ _ _ _ hu) _ h

theorem execMemberSuspect_keeps (s : State) (h : s.mem.wf = true) : Outcome.Keeps (execMemberSuspect s) := by
  unfold execMemberSuspect
  dsimp only
  repeat' split
  all_goals simp [h]

theorem execMembershipBroadcast_keeps (s : State) (h : s.mem.wf = true) : Outcome.Keeps (execMembershipBroadcast s) := by
  unfold execMembershipBroadcast
  dsimp only
  repeat' split
  · exact h
  · exact h
  · exact State.applyMask_wf _ _ _ _ _ _ (State.wf_foldl (fun u r hu => State.tellMember_wf _ _ _ _ hu) _ h)
  · exact h
  · exact State.applyMask_wf _ _ _ _ _ _ h

theorem execSpareJoin_keeps (s : State) (h : s.mem.wf = true) : Outcome.Keeps (execSpareJoin s) := by
  unfold execSpareJoin
  dsimp only
  repeat' split
  all_goals simp [h]

theorem execCommCreate_keeps (s : State) (h : s.mem.wf = true) : Outcome.Keeps (execCommCreate s) :=
  State.perform_wf _ _ _ _ _ _ h (fun ctx b => State.createComm_wf s ctx b h)

theorem execCommDestroy_keeps (s : State) (h : s.mem.wf = true) : Outcome.Keeps (execCommDestroy s) :=
  State.perform_wf _ _ _ _ _ _ h (fun ctx b => by
    repeat' split
    all_goals simp [h])

theorem execGetVersion_keeps (s : State) (h : s.mem.wf = true) : Outcome.Keeps (execGetVersion s) := by
  simp [execGetVersion, h]

theorem execGetCapabilities_keeps (s : State) (h : s.mem.wf = true) : Outcome.Keeps (execGetCapabilities s) := by
  simp [execGetCapabilities, h]

theorem execNegotiateAlgorithms_keeps (s : State) (h : s.mem.wf = true) : Outcome.Keeps (execNegotiateAlgorithms s) := by
  simp [execNegotiateAlgorithms, h]

theorem execGetDigests_keeps (s : State) (h : s.mem.wf = true) : Outcome.Keeps (execGetDigests s) := by
  simp [execGetDigests, h]

theorem execGetCertificate_keeps (s : State) (h : s.mem.wf = true) : Outcome.Keeps (execGetCertificate s) := by
  simp [execGetCertificate, h]

theorem execChallenge_keeps (s : State) (h : s.mem.wf = true) : Outcome.Keeps (execChallenge s) := by
  simp [execChallenge, h]

theorem execGetMeasurements_keeps (s : State) (h : s.mem.wf = true) : Outcome.Keeps (execGetMeasurements s) := by
  simp [execGetMeasurements, h]

theorem execKeyExchange_keeps (s : State) (h : s.mem.wf = true) : Outcome.Keeps (execKeyExchange s) := by
  simp [execKeyExchange, h]

theorem execFinish_keeps (s : State) (h : s.mem.wf = true) : Outcome.Keeps (execFinish s) := by
  simp [execFinish, h]

theorem execHeartbeat_keeps (s : State) (h : s.mem.wf = true) : Outcome.Keeps (execHeartbeat s) := by
  simp [execHeartbeat, h]

theorem execKeyUpdate_keeps (s : State) (h : s.mem.wf = true) : Outcome.Keeps (execKeyUpdate s) := by
  simp [execKeyUpdate, h]

theorem execEndSession_keeps (s : State) (h : s.mem.wf = true) : Outcome.Keeps (execEndSession s) := by
  simp [execEndSession, h]

theorem issueChecks_mem {s : State} {g : GRef} {tm : Team} {grp : Group} {x : Exec} {op : Nat} {f : Fields} {i : Iss}
    (h : issueChecks s g tm grp x op f = .ok i) : i.s.mem = s.mem := by
  obtain ⟨-, hissue, -, -⟩ := issueChecks_ok h
  obtain ⟨-, -, -, -, -, -, -, picks, hs⟩ := checkIssue_ok hissue
  rw [hs]

theorem issueOn_keeps (op : Nat) (f : Fields) (body : Body) (s : State) (h : s.mem.wf = true) : Outcome.Keeps (issueOn op f body s) := by
  unfold issueOn
  split
  · trivial
  · split
    · simp [h]
    · next i hi => exact issueBody_wf _ _ _ _ (issueChecks_mem hi ▸ h)

theorem terminate_keeps (op : Nat) (f : Fields) (body : TermBody) (s : State) (h : s.mem.wf = true) : Outcome.Keeps (terminate op f body s) := by
  unfold terminate
  split
  · trivial
  · split
    · simp [h]
    · next i hi => exact terminateBody_wf _ _ _ _ (issueChecks_mem hi ▸ h)

/-- Every instruction word issues on the standing execution with some body, or terminates it; a terminator is one in the opcode map. -/
theorem exec_of_word {i : Instr} {op : BitVec 8} {f : Fields} (hw : wordOf i = some (op, f)) :
    (∃ body, ∀ s, exec i s = issueOn op.toNat f body s) ∨
    (∃ body, ∀ s, exec i s = terminate op.toNat f body s) ∧ ∃ r, opInfo op.toNat f.fn.toNat = some r ∧ r.term = true := by
  cases i
  case endTrace f => cases hw; exact .inr ⟨⟨_, fun _ => rfl⟩, _, rfl, rfl⟩
  case endSel f => cases hw; exact .inr ⟨⟨_, fun _ => rfl⟩, _, rfl, rfl⟩
  case endInd f => cases hw; exact .inr ⟨⟨_, fun _ => rfl⟩, _, rfl, rfl⟩
  case endIndL9 a r => cases hw; exact .inr ⟨⟨_, fun _ => rfl⟩, _, rfl, rfl⟩
  case retire f => cases hw; exact .inr ⟨⟨_, fun _ => rfl⟩, _, rfl, rfl⟩
  case retireL9 r => cases hw; exact .inr ⟨⟨_, fun _ => rfl⟩, _, rfl, rfl⟩
  case migrate f => cases hw; exact .inr ⟨⟨_, fun _ => rfl⟩, _, rfl, rfl⟩
  case icmp n32 f => cases n32 <;> (cases hw; exact .inl ⟨_, fun _ => rfl⟩)
  case icmpL9 z c d a b r => cases hw; exact .inl ⟨bodyIcmp, fun s => by rw [icmpL9_opcode]; rfl⟩
  all_goals cases hw
  all_goals exact .inl ⟨_, fun _ => rfl⟩

theorem exec_event_keeps {i : Instr} (hi : wordOf i = none) (s : State) (h : s.mem.wf = true) : Outcome.Keeps (exec i s) := by
  cases i
  case traceFetch => exact execTraceFetch_keeps s h
  case traceDispatch => exact execTraceDispatch_keeps s h
  case bindNotify => exact execBindNotify_keeps s h
  case bindRetryTimer => exact execBindRetryTimer_keeps s h
  case requeueRelease => exact execRequeueRelease_keeps s h
  case requeueTimer => exact execRequeueTimer_keeps s h
  case priorityAging => exact execPriorityAging_keeps s h
  case atomicPerform => exact execAtomicPerform_keeps s h
  case atomicReturn => exact execAtomicReturn_keeps s h
  case acquireComplete => exact execAcquireComplete_keeps s h
  case phaseBoundaryComplete => exact execPhaseBoundaryComplete_keeps s h
  case barrierTurn => exact execBarrierTurn_keeps s h
  case channelPutPerform => exact execChannelPutPerform_keeps s h
  case creditReturn => exact execCreditReturn_keeps s h
  case trussAccept => exact execTrussAccept_keeps s h
  case jobStart => exact execJobStart_keeps s h
  case fillElem => exact execFillElem_keeps s h
  case storeElem => exact execStoreElem_keeps s h
  case copyElem => exact execCopyElem_keeps s h
  case moveElem => exact execMoveElem_keeps s h
  case gatherElem => exact execGatherElem_keeps s h
  case scatterElem => exact execScatterElem_keeps s h
  case nmv => exact execNmv_keeps s h
  case nmvPreemptStop => exact execNmvPreemptStop_keeps s h
  case jobComplete => exact execJobComplete_keeps s h
  case completionPutWait => exact execCompletionPutWait_keeps s h
  case replayCommand => exact execReplayCommand_keeps s h
  case jobFaultComplete => exact execJobFaultComplete_keeps s h
  case faultRecordAnswer => exact execFaultRecordAnswer_keeps s h
  case pageRetry => exact execPageRetry_keeps s h
  case translationWalk => exact execTranslationWalk_keeps s h
  case walkComplete => exact execWalkComplete_keeps s h
  case translationInvalidate => exact execTranslationInvalidate_keeps s h
  case atsInvalidation => exact execAtsInvalidation_keeps s h
  case priResponse => exact execPriResponse_keeps s h
  case atsTimeout => exact execAtsTimeout_keeps s h
  case tileDeferredEmpty => exact execTileDeferredEmpty_keeps s h
  case mul => exact execMul_keeps s h
  case loop => exact execLoop_keeps s h
  case cond => exact execCond_keeps s h
  case ringwait => exact execRingwait_keeps s h
  case zero => exact execZero_keeps s h
  case scalea => exact execScalea_keeps s h
  case drain => exact execDrain_keeps s h
  case bypass => exact execBypass_keeps s h
  case signal => exact execSignal_keeps s h
  case endEntry => exact execEndEntry_keeps s h
  case mxStopPoint => exact execMxStopPoint_keeps s h
  case coll => exact execColl_keeps s h
  case collChunkSend => exact execCollChunkSend_keeps s h
  case collChunkReceive => exact execCollChunkReceive_keeps s h
  case collComplete => exact execCollComplete_keeps s h
  case recvqPoll => exact execRecvqPoll_keeps s h
  case keepaliveSend => exact execKeepaliveSend_keeps s h
  case memberSuspect => exact execMemberSuspect_keeps s h
  case membershipBroadcast => exact execMembershipBroadcast_keeps s h
  case spareJoin => exact execSpareJoin_keeps s h
  case migrationMove => exact execMigrationMove_keeps s h
  case parkLimit => exact execParkLimit_keeps s h
  case schedMigrate => exact execSchedMigrate_keeps s h
  case stagePark => exact execStagePark_keeps s h
  case chainFoldPerform => exact execChainFoldPerform_keeps s h
  case chainSpreadPerform => exact execChainSpreadPerform_keeps s h
  case doorbell => exact execDoorbell_keeps s h
  case packetClaim => exact execPacketClaim_keeps s h
  case launch => exact execLaunch_keeps s h
  case feed => exact execFeed_keeps s h
  case feedAppend => exact execFeedAppend_keeps s h
  case nopPacket => exact execNopPacket_keeps s h
  case packetComplete => exact execPacketComplete_keeps s h
  case teamAdmit => exact execTeamAdmit_keeps s h
  case gangAdmit => exact execGangAdmit_keeps s h
  case gangReserve => exact execGangReserve_keeps s h
  case gangStarved => exact execGangStarved_keeps s h
  case acquireGrant => exact execAcquireGrant_keeps s h
  case teamEnd => exact execTeamEnd_keeps s h
  case taskRecordCreate => exact execTaskRecordCreate_keeps s h
  case portPull => exact execPortPull_keeps s h
  case successorDecrement => exact execSuccessorDecrement_keeps s h
  case successorAppend => exact execSuccessorAppend_keeps s h
  case quantumExpiry => exact execQuantumExpiry_keeps s h
  case bucketRefill => exact execBucketRefill_keeps s h
  case bucketCharge => exact execBucketCharge_keeps s h
  case hbIncrement => exact execHbIncrement_keeps s h
  case fallbackBegin => exact execFallbackBegin_keeps s h
  case fallbackEnd => exact execFallbackEnd_keeps s h
  case plienReload => exact execPlienReload_keeps s h
  case preempt => exact execPreempt_keeps s h
  case preemptComplete => exact execPreemptComplete_keeps s h
  case handlerTimeout => exact execHandlerTimeout_keeps s h
  case contextRestore => exact execContextRestore_keeps s h
  case shadowCompare => exact execShadowCompare_keeps s h
  case ueConsume => exact execUeConsume_keeps s h
  case eccError => exact execEccError_keeps s h
  case scrubAccess => exact execScrubAccess_keeps s h
  case packageStart => exact execPackageStart_keeps s h
  case linkChange => exact execLinkChange_keeps s h
  case linkPacketReceive => exact execLinkPacketReceive_keeps s h
  case peerAccess => exact execPeerAccess_keeps s h
  case ctxCreate => exact execCtxCreate_keeps s h
  case ctxDestroy => exact execCtxDestroy_keeps s h
  case ctxResume => exact execCtxResume_keeps s h
  case map => exact execMap_keeps s h
  case unmap => exact execUnmap_keeps s h
  case qCreate => exact execQCreate_keeps s h
  case qDestroy => exact execQDestroy_keeps s h
  case load => exact execLoad_keeps s h
  case unload => exact execUnload_keeps s h
  case exportWindow => exact execExportWindow_keeps s h
  case debugHalt => exact execDebugHalt_keeps s h
  case debugResume => exact execDebugResume_keeps s h
  case debugStep => exact execDebugStep_keeps s h
  case debugReadFrame => exact execDebugReadFrame_keeps s h
  case debugWriteFrame => exact execDebugWriteFrame_keeps s h
  case debugReadBrk => exact execDebugReadBrk_keeps s h
  case debugWriteBrk => exact execDebugWriteBrk_keeps s h
  case debugReadMode => exact execDebugReadMode_keeps s h
  case debugWriteMode => exact execDebugWriteMode_keeps s h
  case coreInfo => exact execCoreInfo_keeps s h
  case startClear => exact execStartClear_keeps s h
  case bucket => exact execBucket_keeps s h
  case commCreate => exact execCommCreate_keeps s h
  case commDestroy => exact execCommDestroy_keeps s h
  case errstatClear => exact execErrstatClear_keeps s h
  case evlostClear => exact execEvlostClear_keeps s h
  case registerWrite => exact execRegisterWrite_keeps s h
  case getVersion => exact execGetVersion_keeps s h
  case getCapabilities => exact execGetCapabilities_keeps s h
  case negotiateAlgorithms => exact execNegotiateAlgorithms_keeps s h
  case getDigests => exact execGetDigests_keeps s h
  case getCertificate => exact execGetCertificate_keeps s h
  case challenge => exact execChallenge_keeps s h
  case getMeasurements => exact execGetMeasurements_keeps s h
  case keyExchange => exact execKeyExchange_keeps s h
  case finish => exact execFinish_keeps s h
  case heartbeat => exact execHeartbeat_keeps s h
  case keyUpdate => exact execKeyUpdate_keeps s h
  case endSession => exact execEndSession_keeps s h
  case powerLoss => exact execPowerLoss_keeps s h
  case atsTranslationCompletion => exact execAtsTranslationCompletion_keeps s h
  case badreq => exact execBadreq_keeps s h
  case linkKeyUpdate => exact execLinkKeyUpdate_keeps s h
  case schedulerChainLatch => exact execSchedulerChainLatch_keeps s h
  all_goals cases hi

theorem exec_keeps (i : Instr) (s : State) (h : s.mem.wf = true) : Outcome.Keeps (exec i s) := by
  cases hw : wordOf i with
  | none => exact exec_event_keeps hw s h
  | some p =>
    obtain ⟨body, hbody⟩ | ⟨⟨body, hbody⟩, -⟩ := exec_of_word hw
    · rw [hbody]
      exact issueOn_keeps _ _ _ _ h
    · rw [hbody]
      exact terminate_keeps _ _ _ _ h

theorem groupStep_keeps (s : State) (h : s.mem.wf = true) : Outcome.Keeps (groupStep s) := by
  have hled (g : GRef) : (s.arbitrate.leadFirst g).2.mem.wf = true := by simpa using h
  unfold groupStep
  split
  · split
    · next e => exact exec_keeps _ _ (State.wf_of_snd e (hled _))
    · next t e =>
      have ht : t.mem.wf = true := State.wf_of_snd e (hled _)
      exact exec_keeps _ _ ht
  · split
    · exact exec_keeps _ _ h
    · exact h

theorem step_keeps (s : State) (h : s.mem.wf = true) : Outcome.Keeps (step s) := by
  unfold step
  split
  · split
    · exact exec_keeps _ _ h
    · exact h
  · exact groupStep_keeps _ h
  · split
    · exact exec_keeps _ _ h
    · exact groupStep_keeps _ h

/-- Settles O48: every event and every instruction, and so every step, leaves memory in its canonical form. -/
theorem everyStepKeepsTheInvariant : Obligations.EveryStepKeepsTheInvariant := by
  unfold Obligations.EveryStepKeepsTheInvariant
  intro s t hs ht
  have hkept := step_keeps s hs
  rw [ht] at hkept
  exact hkept

end Sys2Proof.Machine
end

section

/-! Settled here: the machine that reset leaves (O46, O47), barriers (O59), control registers (O60), committed stores (O58), and the
states of stochastic rounding (O53). -/

namespace Sys2Proof.Machine

/-! ### Reset -/

/-- Settles O46: every clause is read off the state that `State.reset` writes down. -/
theorem resetLeaves : Obligations.ResetLeaves := by
  have hbanks : ∀ b ∈ State.reset.banks, b.stat = 0#64 ∧ b.addr = 0#64 := by decide
  exact ⟨fun _ => rfl, rfl, rfl, rfl, rfl, rfl, rfl, rfl, rfl, rfl, rfl, rfl, rfl, rfl, rfl, rfl, rfl, rfl, hbanks⟩

/-- Settles O47: the memory that reset leaves lists no byte. -/
theorem resetMeetsTheInvariant : Obligations.ResetMeetsTheInvariant :=
  reset_mem_wf

/-! ### Barriers -/

/-- The count that an arrival compares with: its own on an empty barrier, where it has one, else EXP (R284). -/
def Barrier.expected (b : Barrier) (c : Nat) : Nat :=
  if b.cnt = 0 ∧ c ≠ 0 then c else b.exp

theorem Barrier.arrive_last (b : Barrier) (c : Nat) (l : List Nat) (h : b.cnt + 1 = b.expected c) :
    b.arrive c l = { b with exp := b.expected c, cnt := 0, tp := true, turnWaits := b.arrived ++ l, arrived := [] } := by
  have h' : b.cnt + 1 = if b.cnt = 0 ∧ c ≠ 0 then c else b.exp := h
  simp only [Barrier.arrive, ← h', if_true, ← h]

theorem Barrier.arrive_earlier (b : Barrier) (c : Nat) (l : List Nat) (h : b.cnt + 1 ≠ b.expected c) :
    b.arrive c l = { b with exp := b.expected c, cnt := b.cnt + 1, arrived := b.arrived ++ l } := by
  have h' : ¬ b.cnt + 1 = if b.cnt = 0 ∧ c ≠ 0 then c else b.exp := h
  simp only [Barrier.arrive, if_neg h', Barrier.expected]

/-- Settles O59: an arrival is the last of its phase or an earlier one, and the turn is its definition. -/
theorem barriersCountArrivalsAndTurn : Obligations.BarriersCountArrivalsAndTurn := by
  refine ⟨fun b c l => ?_, fun b => ⟨rfl, rfl, rfl, rfl⟩⟩
  change (b.arrive c l).exp = b.expected c ∧ (b.arrive c l).ph = b.ph
    ∧ (b.cnt + 1 = b.expected c → _) ∧ (b.cnt + 1 ≠ b.expected c → _)
  by_cases h : b.cnt + 1 = b.expected c
  · rw [Barrier.arrive_last b c l h]
    exact ⟨rfl, rfl, fun _ => ⟨rfl, rfl⟩, fun hn => absurd h hn⟩
  · rw [Barrier.arrive_earlier b c l h]
    exact ⟨rfl, rfl, fun he => absurd he h, fun _ => ⟨rfl, rfl⟩⟩

/-! ### Control registers -/

/-- A register whose one word is written, before its reserved bits are dropped: bit by bit. -/
theorem testBit_putWord (old v k : Nat) (hi : Bool) (hv : v < 2 ^ 32) :
    (if hi then old % 2 ^ 32 + v * 2 ^ 32 else old / 2 ^ 32 * 2 ^ 32 + v).testBit k
      = if hi then (if k < 32 then old.testBit k else v.testBit (k - 32)) else (if k < 32 then v.testBit k else old.testBit k) := by
  cases hi with
  | true =>
    have hold : old % 2 ^ 32 < 2 ^ 32 := Nat.mod_lt _ (by decide)
    rw [if_pos rfl, if_pos rfl, Nat.add_comm, Nat.mul_comm, Nat.testBit_two_pow_mul_add v hold, Nat.testBit_mod_two_pow]
    split <;> simp_all
  | false =>
    rw [if_neg (by decide), if_neg (by decide), Nat.mul_comm, Nat.testBit_two_pow_mul_add _ hv, Nat.testBit_div_two_pow]
    split
    next => rfl
    next h => rw [Nat.sub_add_cancel (Nat.le_of_not_lt h)]

/-- The bits that each register with reserved bits keeps, as the mask that the model writes (R6, R297, R371, R372). -/
theorem testBit_mode_mask : ∀ k, k < 64 → (3 : Nat).testBit k = decide (k < 2) := by decide

theorem testBit_migpol_mask : ∀ k, k < 64 → (0x07FFFFF7 : Nat).testBit k = decide (k < 27 ∧ k ≠ 3) := by decide

theorem testBit_trapbase_mask : ∀ k, k < 64 → (0xFFFFFFFF0001FFFF : Nat).testBit k = decide (k < 17 ∨ (32 ≤ k ∧ k < 64)) := by decide

theorem testBit_brk_mask : ∀ k, k < 64 → (0x7FFFFFFF07FFFFFF : Nat).testBit k = decide (k < 27 ∨ (32 ≤ k ∧ k < 63)) := by decide

theorem csrKeep_brk (n v : Nat) (hlo : 0x10 ≤ n) (hhi : n ≤ 0x13) : csrKeep n v = v &&& 0x7FFFFFFF07FFFFFF := by
  have hn : n = 0x10 ∨ n = 0x11 ∨ n = 0x12 ∨ n = 0x13 := by omega
  rcases hn with rfl | rfl | rfl | rfl <;> rfl

theorem csrAfter_of_ne (n old v : Nat) (hi : Bool) (hn : n ≠ 0) :
    csrAfter n old hi v = csrKeep n (if hi then old % 2 ^ 32 + v * 2 ^ 32 else old / 2 ^ 32 * 2 ^ 32 + v) :=
  if_neg hn

/-- A write to TSTAT keeps the bits that the value written has clear (R374). -/
theorem testBit_csrAfter_tstat (old v k : Nat) (hi : Bool) (hold : old < 2 ^ 32) :
    (csrAfter 0 old hi v).testBit k = (old.testBit k && !v.testBit k) := by
  have hk : 32 ≤ k → old.testBit k = false := fun h =>
    Nat.testBit_lt_two_pow (lt_of_lt_of_le hold (Nat.pow_le_pow_right (by decide) h))
  change (clearSticky (BitVec.ofNat 32 old) (BitVec.ofNat 32 v)).toNat.testBit k = _
  rw [clearSticky, BitVec.testBit_toNat, BitVec.getLsbD_and, BitVec.getLsbD_not, BitVec.getLsbD_ofNat, BitVec.getLsbD_ofNat]
  by_cases h : k < 32
  · simp [h]
  · simp [h, hk (by omega)]

/-- Settles O60: bit k of the value kept is bit k of the register with its word written, where the register's mask has bit k. -/
theorem reservedBitsOfControlRegistersReadZero : Obligations.ReservedBitsOfControlRegistersReadZero := by
  refine ⟨fun n old hi v k hn hv hk => ?_, fun old v k hi hold _ => testBit_csrAfter_tstat old v k hi hold⟩
  dsimp only
  rw [csrAfter_of_ne n old v hi (by omega), ← testBit_putWord old v k hi hv]
  generalize (if hi then old % 2 ^ 32 + v * 2 ^ 32 else old / 2 ^ 32 * 2 ^ 32 + v) = w
  rcases hn with rfl | rfl | rfl | ⟨hlo, hhi⟩
  · change (w &&& 3).testBit k = _
    rw [Nat.testBit_and, testBit_mode_mask k hk, Bool.and_comm]; rfl
  · change (w &&& 0xFFFFFFFF0001FFFF).testBit k = _
    rw [Nat.testBit_and, testBit_trapbase_mask k hk, Bool.and_comm]; rfl
  · change (w &&& 0x07FFFFF7).testBit k = _
    rw [Nat.testBit_and, testBit_migpol_mask k hk, Bool.and_comm]; rfl
  · rw [csrKeep_brk n w hlo hhi, Nat.testBit_and, testBit_brk_mask k hk, Bool.and_comm, if_neg (by omega), if_neg (by omega),
      if_neg (by omega)]

/-! ### Committed stores -/

theorem length_mergeBytes (os ds ms : List Byte) (h : os.length = ds.length) (h' : ds.length = ms.length) :
    (mergeBytes os ds ms).length = ds.length := by
  induction os generalizing ds ms with
  | nil => obtain rfl := List.eq_nil_of_length_eq_zero h.symm; rfl
  | cons o os ih =>
    cases ds with
    | nil => simp at h
    | cons d ds =>
      cases ms with
      | nil => simp at h'
      | cons m ms =>
        simp only [List.length_cons, Nat.add_right_cancel_iff] at h h'
        simp [mergeBytes, ih ds ms h h']

theorem getElem?_mergeBytes (os ds ms : List Byte) (h : os.length = ds.length) (h' : ds.length = ms.length) (k : Nat)
    (hk : k < ds.length) :
    (mergeBytes os ds ms)[k]? = some ((nth os k 0#8 &&& ~~~(nth ms k 0#8)) ||| (nth ds k 0#8 &&& nth ms k 0#8)) := by
  induction os generalizing ds ms k with
  | nil => simp only [List.length_nil] at h; omega
  | cons o os ih =>
    cases ds with
    | nil => simp at h
    | cons d ds =>
      cases ms with
      | nil => simp at h'
      | cons m ms =>
        simp only [List.length_cons, Nat.add_right_cancel_iff] at h h'
        cases k with
        | zero => rfl
        | succ k => exact ih ds ms h h' k (by simpa using hk)

theorem Memory.nth_readBytes (m : Memory) (a n k : Nat) (hk : k < n) : nth (m.readBytes a n) k 0#8 = m.read (a + k) := by
  induction n generalizing a k with
  | zero => omega
  | succ n ih =>
    cases k with
    | zero => rfl
    | succ k =>
      have h := ih (a + 1) k (by omega)
      rw [Nat.add_right_comm] at h
      exact h

theorem commitStore_own_mem (s : State) (g : GRef) (l n at_ : Nat) (d m : List Byte) :
    (s.commitStore g l (.store l n at_ d m)).mem
      = s.mem.writeBytes (sliceKey g.core at_) (mergeBytes (s.mem.readBytes (sliceKey g.core at_) d.length) d m) := by
  simp only [State.commitStore, if_true]
  rfl

/-- Settles O58: the bytes written are the old ones merged under the mask, and a write leaves every byte outside it. -/
theorem committedStoresWriteTheirBytesAlone : Obligations.CommittedStoresWriteTheirBytesAlone := by
  refine ⟨fun s g l n at_ d m hs hdm => ?_, fun s g l k n at_ d m hk => if_neg hk⟩
  dsimp only
  have hlen := length_mergeBytes (s.mem.readBytes (sliceKey g.core at_) d.length) d m (by simp) hdm
  rw [commitStore_own_mem]
  constructor
  · intro a ha
    exact Memory.read_writeBytes_outside _ _ _ _ (by rw [hlen]; exact ha) hs
  · intro k hk
    have hget := getElem?_mergeBytes (s.mem.readBytes (sliceKey g.core at_) d.length) d m (by simp) hdm k hk
    rw [Memory.nth_readBytes _ _ _ _ hk] at hget
    rw [Memory.read_writeBytes_inside _ _ _ _ (by rw [hlen]; exact hk) hs]
    exact (List.getElem_eq_iff _).2 hget

/-! ### Stochastic rounding -/

/-- A word equal to itself shifted left is 0: from the lowest bit up, each is a bit shifted in or one below. -/
theorem eq_zero_of_xor_shiftLeft {w : Nat} (x : BitVec w) (n : Nat) (hn : 0 < n) (h : x ^^^ (x <<< n) = 0#w) : x = 0#w := by
  have hbit : ∀ i, x.getLsbD i = false := by
    intro i
    induction i using Nat.strong_induction_on with
    | _ i ih =>
      have hi := congrArg (fun y : BitVec w => y.getLsbD i) h
      simp only [BitVec.getLsbD_xor, BitVec.getLsbD_shiftLeft, BitVec.getLsbD_zero] at hi
      by_cases hin : i < n
      · simpa [hin] using hi
      · simpa [ih (i - n) (by omega)] using hi
  exact BitVec.eq_of_getLsbD_eq (fun i _ => by simp [hbit i])

/-- A word equal to itself shifted right is 0: from the highest bit down, each is a bit shifted in or one above. -/
theorem eq_zero_of_xor_shiftRight {w : Nat} (x : BitVec w) (n : Nat) (hn : 0 < n) (h : x ^^^ (x >>> n) = 0#w) : x = 0#w := by
  have hbit : ∀ d i, w ≤ i + d → x.getLsbD i = false := by
    intro d
    induction d with
    | zero => exact fun i hi => BitVec.getLsbD_of_ge x i (by omega)
    | succ d ih =>
      intro i hi
      have hx := congrArg (fun y : BitVec w => y.getLsbD i) h
      simpa [BitVec.getLsbD_xor, BitVec.getLsbD_ushiftRight, ih (n + i) (by omega)] using hx
  exact BitVec.eq_of_getLsbD_eq (fun i _ => by simp [hbit w i (by omega)])

theorem srStep_ne_zero (x : Word) (hx : x ≠ 0#32) : srStep x ≠ 0#32 := fun h =>
  hx (eq_zero_of_xor_shiftLeft x 13 (by decide)
    (eq_zero_of_xor_shiftRight _ 17 (by decide) (eq_zero_of_xor_shiftLeft _ 5 (by decide) h)))

theorem srBits_eq (x : Word) : srBits x = (x >>> 16).toNat := by
  rw [BitVec.toNat_ushiftRight, Nat.shiftRight_eq_div_pow]; rfl

theorem srSeed_ne_zero (seed : Word) (l : Nat) : srSeed seed l ≠ 0#32 := by
  unfold srSeed
  dsimp only
  split
  · decide
  · assumption

theorem srSeed_eq (seed : Word) (l : Nat) :
    srSeed seed l = (let v := seed ^^^ BitVec.ofNat 32 ((l + 1) * 0x9E3779B9 % 2 ^ 32); if v = 0#32 then 1#32 else v) := by
  have hmul : BitVec.ofNat 32 ((l + 1) * 0x9E3779B9 % 2 ^ 32) = BitVec.ofNat 32 (l + 1) * 0x9E3779B9#32 := by
    rw [← BitVec.ofNat_mul]
    exact BitVec.eq_of_toNat_eq (by simp)
  rw [hmul]; rfl

theorem sget_sput_ne {n : Nat} (t : SMap n) (k a : Nat) (v : BitVec n) (hv : v ≠ 0#n) (ha : a ≠ k) : sget (sput t k v) a = sget t a := by
  induction t with
  | nil =>
    simp only [sput, hv, if_false, sget, ha.symm]
    split <;> rfl
  | cons p t ih =>
    obtain ⟨q, x⟩ := p
    simp only [sput, hv, if_false]
    split
    next hkq =>
      simp only [sget, ha.symm, if_false]
      split
      · rw [if_neg (by omega), if_pos (by omega)]
      · rfl
    next hkq =>
      split
      next hq =>
        subst hq
        simp only [sget, ha.symm, if_false]
      next hq => simp only [sget, ih]

/-- Putting a nonzero value at each key of a list: the keys of the list have theirs. -/
theorem sget_foldl_sput {n : Nat} (f : Nat → BitVec n) (hf : ∀ l, f l ≠ 0#n) (ls : List Nat) (m : SMap n) (k : Nat)
    (h : k ∈ ls ∨ sget m k = f k) : sget (ls.foldl (fun m l => sput m l (f l)) m) k = f k := by
  induction ls generalizing m with
  | nil => simpa using h
  | cons l ls ih =>
    refine ih _ ?_
    by_cases hl : k = l
    · subst hl
      exact .inr (sget_sput_same m k (f k) (hf k))
    · rw [sget_sput_ne m l k (f l) (hf l) hl]
      simpa [hl] using h

/-- A group that is there has its team. -/
theorem exists_team_of_group (s : State) (g : GRef) (grp : Group) (h : s.group? g = some grp) :
    ∃ tm, s.team? g.core g.slot = some tm := by
  unfold State.group? at h
  split at h
  · cases h
  · exact ⟨_, ‹_›⟩

theorem Group.sr_seed (g : Group) (v : Word) (l : Nat) (hl : l < g.width) : sget (g.seed v).sr l = srSeed v l :=
  sget_foldl_sput (srSeed v) (srSeed_ne_zero v) (upto g.width) g.sr l (.inl (List.mem_range.2 hl))

/-- Settles O53: a seed and a step are their formulas and never 0, and seeding writes the seed of every lane. -/
theorem stochasticStatesAreSeeded : Obligations.StochasticStatesAreSeeded := by
  refine ⟨fun seed l => ⟨srSeed_eq seed l, srSeed_ne_zero seed l⟩, fun _ => rfl, fun x hx => ⟨srStep_ne_zero x hx, srBits_eq x⟩,
    fun p now n role l hl => ⟨rfl, Group.sr_seed _ 0#32 l hl⟩, fun s g grp hi v hg => ?_⟩
  obtain ⟨tm, htm⟩ := exists_team_of_group s g grp hg
  refine ⟨grp.seed (BitVec.ofNat 32 v), ?_, rfl, fun l hl => Group.sr_seed grp _ l hl, rfl⟩
  have hw : s.csrWrite g 0x0C hi v = s.modGroup g (fun x => x.seed (BitVec.ofNat 32 v)) := by
    rw [State.csrWrite, htm]; rfl
  rw [hw, State.modGroup_group_same s g _ _ hg]

end Sys2Proof.Machine
end

section

/-! Lanes that leave an execution before its end: GUARD and ABORT (O22). -/

namespace Sys2Proof.Machine

/-! ### Changing several lanes of a group -/

theorem Group.modLanes_nil (g : Group) (f : Lane → Lane) : g.modLanes [] f = g := by
  have h : g.lanes.mapIdx (fun i l => if ([] : List Nat).contains i then f l else l) = g.lanes :=
    List.ext_getElem (by simp) (by simp)
  rw [Group.modLanes, h]

theorem Group.modLanes_modLanes (g : Group) (ls ks : List Nat) (f : Lane → Lane) (hf : ∀ l, f (f l) = f l) :
    (g.modLanes ls f).modLanes ks f = g.modLanes (ls ++ ks) f := by
  simp only [Group.modLanes, List.mapIdx_mapIdx, Function.comp_def]
  congr 2
  funext i l
  by_cases h : ls.contains i <;> by_cases h' : ks.contains i <;> simp_all

/-- Changing one lane after another, in a way that changes nothing a second time, is changing them all. -/
theorem Group.foldl_modLanes (g : Group) (ls : List Nat) (f : Lane → Lane) (hf : ∀ l, f (f l) = f l) :
    ls.foldl (fun g l => g.modLanes [l] f) g = g.modLanes ls f := by
  induction ls generalizing g with
  | nil => exact (Group.modLanes_nil g f).symm
  | cons l ls ih => exact (ih _).trans (Group.modLanes_modLanes g [l] ls f hf)

theorem Group.lane_modLanes (g : Group) (ls : List Nat) (f : Lane → Lane) (l : Nat) (hl : l < g.lanes.length) :
    (g.modLanes ls f).lane l = if ls.contains l then f (g.lane l) else g.lane l := by
  simp [Group.modLanes, Group.lane, nth, hl]

/-! ### Leaving -/

/-- A lane as it leaves for a trace, held by nothing. -/
def Lane.leftFor (tr : TRef) (now : Nat) (l : Lane) : Lane := { l with tr := tr, since := now, held := none, bindCall := none }

/-- A group some of whose lanes have left for a trace, held by nothing. -/
def Group.leftFor (grp : Group) (who : List Nat) (tr : TRef) (now : Nat) : Group :=
  { grp.modLanes who (Lane.leftFor tr now) with
    exec := grp.exec.map (fun x => { x with here := x.here.filter (fun l => !who.contains l), left := x.left ++ who }) }

theorem State.leave_group (s : State) (g : GRef) (now : Nat) (who : List Nat) (tr : TRef) (grp : Group) (h : s.group? g = some grp) :
    (s.leave g now (who.map (fun l => (l, tr, none)))).group? g = some (grp.leftFor who tr now) := by
  refine (State.modGroup_group_same s g _ grp h).trans (congrArg some ?_)
  have hfold : (who.map (fun l => (l, tr, (none : Option Held)))).foldl
      (fun grp p => grp.modLanes [p.1] (fun l => { l with tr := p.2.1, since := now, held := p.2.2, bindCall := none })) grp
      = grp.modLanes who (Lane.leftFor tr now) := by
    rw [List.foldl_map]
    exact Group.foldl_modLanes grp who (Lane.leftFor tr now) (fun _ => rfl)
  have hwho : (who.map (fun l => (l, tr, (none : Option Held)))).map (·.1) = who := by simp [Function.comp_def]
  simp only [hfold, hwho]
  rfl

/-- What a group keeps where an execution without lanes is closed: all but the execution, and a halt that meets it. -/
structure Group.Keeps (y z : Group) : Prop where
  lanes : y.lanes = z.lanes
  regs : y.regs = z.regs
  preds : y.preds = z.preds
  uregs : y.uregs = z.uregs

/-- A halt leaves a group's lanes, registers and execution. -/
theorem State.haltAfter_group (s : State) (g : GRef) (asked : Bool) (grp : Group) (h : s.group? g = some grp) :
    ∃ y, (s.haltAfter g asked).group? g = some y ∧ y.Keeps grp ∧ y.exec = grp.exec := by
  refine ⟨_, State.modGroup_group_same s g _ grp h, ?_⟩
  split
  · exact ⟨⟨rfl, rfl, rfl, rfl⟩, rfl⟩
  · split
    · exact ⟨⟨rfl, rfl, rfl, rfl⟩, rfl⟩
    · split <;> exact ⟨⟨rfl, rfl, rfl, rfl⟩, rfl⟩

theorem State.closeIfEmpty_group (s : State) (g : GRef) (grp : Group) (x : Exec) (h : s.group? g = some grp) (hx : grp.exec = some x) :
    ∃ y, (s.closeIfEmpty g).group? g = some y ∧ y.Keeps grp ∧ y.exec = if x.here.isEmpty then none else some x := by
  unfold State.closeIfEmpty
  simp only [h, Option.bind_some, hx]
  split
  next he =>
    have hd := State.modGroup_group_same _ g (fun y : Group => { y with passed := none }) _ (State.dropExec_group s g grp h x hx)
    obtain ⟨y, hy, hk, hn⟩ := State.haltAfter_group _ g false _ hd
    exact ⟨y, hy, ⟨hk.lanes, hk.regs, hk.preds, hk.uregs⟩, hn⟩
  next he => exact ⟨grp, h, ⟨rfl, rfl, rfl, rfl⟩, hx⟩

/-! ### The instructions -/

/-- An instruction with which lanes leave for the trace of the immediate leaves all else of the group as it is. -/
theorem leaves_of_body {ins : Instr} {who : Iss → List Nat} (body : Body)
    (he : ∀ op f s, wordOf ins = some (op, f) → exec ins s = issueOn op.toNat f body s)
    (hb : ∀ i ws, body i ws = .ok (leaveRes i (who i))) : Leaves ins who := by
  intro op f s i hw hr hg
  obtain ⟨hs, -, hgo, hempty, hhere, -, -, -, p, hp⟩ := readyAt_some hr
  obtain ⟨-, -, hgrp, hx⟩ := standing_some hs
  have hgrp' : i.s.group? i.g = some i.grp := by rw [hp]; exact hgrp
  let x := afterIssue i (capture i) i.x.word (leaveRes i (who i))
  let tr : TRef := { i.x.tr with idx := immField i.f % 2 ^ 17 }
  let y : Group := { i.grp with exec := some x, waited := if i.x.run = 0 then 0 else i.grp.waited }
  have hmod := State.modGroup_group_same i.s i.g
    (fun grp => { grp with exec := some x, waited := if i.x.run = 0 then 0 else grp.waited }) i.grp hgrp'
  have hcore := (State.group_modCore _ i.g i.g.core (fun k => { k with
    cycles := i.now, ldq := if i.grp.shadow && loadsValue i.op then k.ldq ++ [⟨i.g, (leaveRes i (who i)).writes, (leaveRes i (who i)).effs⟩] else k.ldq })
    (fun _ => rfl)).trans hmod
  have hleft := State.leave_group _ i.g i.now (who i) tr y hcore
  obtain ⟨z, hz, hk, hze⟩ := State.closeIfEmpty_group _ i.g _ _ hleft rfl
  have hls : emptyLeave i (capture i) ++ (leaveRes i (who i)).leave = (who i).map (fun l => (l, tr, none)) := by
    rw [emptyLeave, hempty]; rfl
  have hz' : (applyIssue i (capture i) i.x.word (leaveRes i (who i))).group? i.g = some z := by
    unfold applyIssue
    dsimp only
    rw [hls]
    exact hz
  have hxh : x.here = i.here := hhere.symm
  have hze' : z.exec = if i.here.filter (fun l => !(who i).contains l) = [] then none
      else some { x with here := i.here.filter (fun l => !(who i).contains l), left := x.left ++ who i } := by
    simpa only [List.isEmpty_iff, hxh] using hze
  refine ⟨applyIssue i (capture i) i.x.word (leaveRes i (who i)), z, ?_, hz', ?_, ?_, ?_, hk.regs, hk.preds, hk.uregs, ?_⟩
  · rw [he op f s hw]
    exact issueOn_ready body hr (hb i _) (stalls_goes hgo _ (.inl hg))
  · rw [applyIssue_mem, hp]
  · intro u hu
    rw [hze'] at hu
    split at hu
    · cases hu
    · cases hu
      exact ⟨rfl, rfl, rfl⟩
  · rw [hze']
    simp [List.filter_eq_nil_iff]
  · intro l hl
    rw [show z.lane l = (y.leftFor (who i) tr i.now).lane l from by rw [Group.lane, hk.lanes, Group.lane]]
    exact Group.lane_modLanes y (who i) (Lane.leftFor tr i.now) l hl

/-- Settles O22: GUARD and ABORT are leaving, of the lanes that do not act and of those that do. -/
theorem guardAndAbortLeave : Obligations.GuardAndAbortLeave :=
  ⟨fun _ => leaves_of_body bodyGuard (fun _ _ _ hw => by cases hw; rfl) (fun _ _ => rfl),
   fun _ => leaves_of_body bodyAbort (fun _ _ _ hw => by cases hw; rfl) (fun _ _ => rfl)⟩

end Sys2Proof.Machine
end

section

/-! Taking a trap: the frame it writes, and where it is routed (O54, O55). -/

namespace Sys2Proof.Machine

/-! ### What ends and stops leave of the contexts and of the place of the trap tile -/

theorem State.modTrs_eq (s : State) (g : GRef) (f : RegPoison → Option RegPoison) :
    s.modTrs g f = { s with regPoison := (s.modTrs g f).regPoison } := by
  unfold State.modTrs
  split <;> rfl

@[simp] theorem State.modTrs_ctxs (s : State) (g : GRef) (f : RegPoison → Option RegPoison) : (s.modTrs g f).ctxs = s.ctxs := by
  rw [State.modTrs_eq]

@[simp] theorem State.keepValues_ctxs (s : State) (c : Nat) (keep : LoadValue → Bool) : (s.keepValues c keep).ctxs = s.ctxs := by
  unfold State.keepValues
  split <;> rfl

@[simp] theorem State.endExec_ctxs (s : State) (g : GRef) : (s.endExec g).ctxs = s.ctxs := by
  unfold State.endExec
  split
  · rfl
  · split
    · rfl
    · simp [State.dropTrs]

@[simp] theorem State.dropExec_ctxs (s : State) (g : GRef) : (s.dropExec g).ctxs = s.ctxs := by
  unfold State.dropExec
  split
  · rfl
  · rw [State.endExec_ctxs]
    split <;> simp

@[simp] theorem State.postEvent_ctxs (s : State) (typ ctx : Nat) (b : List Byte) : (s.postEvent typ ctx b).ctxs = s.ctxs := by
  unfold State.postEvent
  dsimp only
  split <;> rfl

/-- A stopped context is kept with the cause that stopped it. -/
theorem State.stopContext_ctx (s : State) (ctx : Nat) (g : GRef) (tr : Trap) (t : TRef) (off : Nat) (c : Ctx) (h : s.ctx? ctx = some c) :
    (s.stopContext ctx g tr t off).ctx? ctx = some { c with stopped := some tr.cause } := by
  rw [State.ctx?, State.stopContext, State.postEvent_ctxs, State.raiseTurn_ctxs]
  exact State.modCtx_ctx_same s ctx _ c h

theorem State.stopContext_group (s : State) (ctx : Nat) (g h : GRef) (tr : Trap) (t : TRef) (off : Nat) :
    (s.stopContext ctx g tr t off).group? h = s.group? h :=
  State.group_of_cores (State.stopContext_cores s ctx g tr t off) h

/-- Where the trap tiles of a group's team begin. -/
def State.traptAt (s : State) (g : GRef) : Option Nat := (s.team? g.core g.slot).map (fun t => t.trapt)

theorem State.traptAt_of_team {s t : State} (g : GRef) (h : t.team? g.core g.slot = s.team? g.core g.slot) : t.traptAt g = s.traptAt g := by
  rw [State.traptAt, h, State.traptAt]

theorem State.modTeam_traptAt (s : State) (g : GRef) (f : Team → Team) (hf : ∀ t, (f t).trapt = t.trapt) :
    (s.modTeam g.core g.slot f).traptAt g = s.traptAt g := by
  cases h : s.team? g.core g.slot with
  | none => rw [State.modTeam_team_none s _ _ f h]
  | some t => rw [State.traptAt, State.modTeam_team_same s _ _ f t h, State.traptAt, h, Option.map_some, Option.map_some, hf]

theorem State.modGroup_traptAt (s : State) (g : GRef) (f : Group → Group) : (s.modGroup g f).traptAt g = s.traptAt g :=
  State.modTeam_traptAt s g _ (fun _ => rfl)

theorem Team.release_trapt (t : Team) (hm : Bool) (keep mask : Nat) : (t.release hm keep mask).trapt = t.trapt := by
  have h : ∀ (ls : List Nat) (t : Team), (ls.foldl (fun t n =>
      if takesHold hm keep mask n then t.modTile n (fun x => { x with held := x.held - 1 }) else t) t).trapt = t.trapt := by
    intro ls
    induction ls with
    | nil => exact fun _ => rfl
    | cons n ls ih =>
      intro t
      rw [List.foldl_cons, ih]
      split <;> rfl
  exact h _ _

theorem State.modTrs_team (s : State) (g : GRef) (f : RegPoison → Option RegPoison) (c n : Nat) : (s.modTrs g f).team? c n = s.team? c n := by
  rw [State.modTrs_eq]; rfl

theorem State.keepValues_team (s : State) (core : Nat) (keep : LoadValue → Bool) (c n : Nat) :
    (s.keepValues core keep).team? c n = s.team? c n := by
  unfold State.keepValues
  split
  · rfl
  · exact State.team_modCore s c n core _ (fun _ => rfl)

theorem State.endExec_traptAt (s : State) (g : GRef) : (s.endExec g).traptAt g = s.traptAt g := by
  unfold State.endExec
  split
  · rfl
  · split
    · rfl
    · refine Eq.trans (State.modTeam_traptAt _ g _ (fun t => Team.release_trapt t _ _ _)) (Eq.trans (State.modGroup_traptAt _ g _) ?_)
      exact State.traptAt_of_team g ((State.keepValues_team _ _ _ _ _).trans (State.modTrs_team s g _ _ _))

theorem State.dropExec_traptAt (s : State) (g : GRef) : (s.dropExec g).traptAt g = s.traptAt g := by
  unfold State.dropExec
  split
  · rfl
  · rw [State.endExec_traptAt]
    split
    · exact State.modTeam_traptAt s g _ (fun _ => rfl)
    · rfl

/-! ### The frame -/

/-- The results in flight that a trap puts into the replay queue (R360, R364). -/
def Exec.replayed (x : Exec) (now : Nat) (restart : Bool) : List Issued :=
  if restart then [] else (x.issued.filter (fun i => i.inFlight now)).reverse.take 8

/-- The execution that a trap freezes at an offset: what is in flight has written nothing (R360). -/
def Exec.frozenAt (x : Exec) (now off : Nat) : Exec := { x with issued := x.issued.filter (fun i => !i.inFlight now), off := off }

/-- The bytes of the frame that a trap of an execution writes (R362). -/
def trapHeader (s : State) (g : GRef) (tm : Team) (x : Exec) (tr : Trap) (off : Nat) (skip restart : Bool) : List Byte :=
  let now := (s.core g.core).cycles
  frameHeader tr off restart skip (s.encOf g == .l9) false (x.replayed now restart).length x.tr (s.tracePcs tm.ctx x.tr)
    (frameCounts (s.encOf g) (x.frozenAt now off)) x.here

/-- The frame with its replay entries (R362, R364). -/
def trapFrame (s : State) (g : GRef) (tm : Team) (grp : Group) (x : Exec) (tr : Trap) (off : Nat) (skip restart : Bool) : List Byte :=
  trapHeader s g tm x tr off skip restart ++ (x.replayed (s.core g.core).cycles restart).flatMap (replayBytes grp.width)

/-- A trap of a group that executes writes its frame and is routed. -/
theorem State.takeTrap_eq (s : State) (g : GRef) (tm : Team) (grp : Group) (x : Exec) (tr : Trap) (off : Nat) (skip restart : Bool)
    (ht : s.team? g.core g.slot = some tm) (hg : s.group? g = some grp) (hx : grp.exec = some x) :
    s.takeTrap g tr off skip restart
      = (s.writeTrapTile g 0 (trapFrame s g tm grp x tr off skip restart)).routeTrap g tr x.tr off x.here
          (if restart then none else some (x.frozenAt (s.core g.core).cycles off)) := by
  unfold State.takeTrap
  rw [ht, hg]
  dsimp only
  rw [hx]
  rfl

theorem length_frameHeader (tr : Trap) (off : Nat) (restart skip l9 aborted : Bool) (nrep : Nat) (t : TRef) (pcs : Nat × Nat)
    (counts : Nat) (lanes : List Nat) : (frameHeader tr off restart skip l9 aborted nrep t pcs counts lanes).length = 256 := by
  simp only [frameHeader, List.length_append, length_toBytesLE, List.length_replicate]

theorem length_trapHeader (s : State) (g : GRef) (tm : Team) (x : Exec) (tr : Trap) (off : Nat) (skip restart : Bool) :
    (trapHeader s g tm x tr off skip restart).length = 256 :=
  length_frameHeader ..

theorem length_flatMap_const {α β : Type} (l : List α) (f : α → List β) (n : Nat) (h : ∀ a ∈ l, (f a).length = n) :
    (l.flatMap f).length = l.length * n := by
  rw [List.length_flatMap, List.map_congr_left h, List.map_const', List.sum_replicate, smul_eq_mul]

theorem length_replayBytes (w : Nat) (i : Issued) : (replayBytes w i).length = 32 + 16 * w := by
  have hlane : ∀ l ∈ upto w, ((upto 4).flatMap (fun j => toBytesLE 4 (nth ((tget i.srcs l).getD []) j 0#32).toNat)).length = 16 :=
    fun l _ => length_flatMap_const _ _ 4 (fun j _ => length_toBytesLE 4 _)
  have hlanes := length_flatMap_const _ _ 16 hlane
  have hw : (upto w).length = w := List.length_range
  rw [replayBytes, List.length_append, hlanes, hw]
  simp only [List.length_append, length_toBytesLE, List.length_replicate]
  omega

theorem length_replayed_le (x : Exec) (now : Nat) (restart : Bool) : (x.replayed now restart).length ≤ 8 := by
  unfold Exec.replayed
  split
  · simp
  · exact List.length_take_le ..

/-- The frame and its entries fit the trap tile (R361). -/
theorem length_trapFrame_le (s : State) (g : GRef) (tm : Team) (grp : Group) (x : Exec) (tr : Trap) (off : Nat) (skip restart : Bool) :
    (trapFrame s g tm grp x tr off skip restart).length ≤ trapBytes grp.width := by
  have hreplay := length_replayed_le x (s.core g.core).cycles restart
  rw [trapFrame, List.length_append, length_trapHeader, length_flatMap_const _ _ _ (fun i _ => length_replayBytes grp.width i), trapBytes]
  exact Nat.add_le_add_left (Nat.mul_le_mul_right _ hreplay) 256

theorem take_trapFrame (s : State) (g : GRef) (tm : Team) (grp : Group) (x : Exec) (tr : Trap) (off : Nat) (skip restart : Bool) :
    (trapFrame s g tm grp x tr off skip restart).take 256 = trapHeader s g tm x tr off skip restart := by
  rw [trapFrame]
  exact List.take_left' (length_trapHeader ..)

theorem leAt_append_right (a b : List Byte) (i n : Nat) (h : a.length ≤ i) : leAt (a ++ b) i n = leAt b (i - a.length) n := by
  rw [leAt, List.drop_append, List.drop_eq_nil_of_le h]; rfl

theorem leAt_toBytesLE_append (n v : Nat) (b : List Byte) : leAt (toBytesLE n v ++ b) 0 n = v % 256 ^ n := by
  rw [leAt, List.drop_zero, List.take_left' (length_toBytesLE n v), ofBytesLE_toBytesLE]

/-- The fields of the frame that a handler reads (R362). -/
theorem leAt_frameHeader (tr : Trap) (off : Nat) (restart skip l9 aborted : Bool) (nrep : Nat) (t : TRef) (pcs : Nat × Nat)
    (counts : Nat) (lanes : List Nat) :
    let b := frameHeader tr off restart skip l9 aborted nrep t pcs counts lanes
    leAt b 0 2 = tr.cause % 2 ^ 16 ∧ leAt b 2 1 = off % 256 ∧ leAt b 0x20 16 = laneMask lanes % 2 ^ 128
      ∧ leAt b 0x30 16 = laneMask tr.flanes % 2 ^ 128 ∧ leAt b 0x40 8 = tr.info0 % 2 ^ 64 ∧ leAt b 0x48 8 = tr.info1 % 2 ^ 64 := by
  simp [frameHeader, leAt_append_right, leAt_toBytesLE_append]

theorem State.writeTrapTile_mem (s : State) (g : GRef) (tm : Team) (grp : Group) (bs : List Byte)
    (ht : s.team? g.core g.slot = some tm) (hg : s.group? g = some grp) :
    (s.writeTrapTile g 0 bs).mem = s.mem.writeBytes (sliceKey g.core (trapOffset tm g.grp grp.width)) bs := by
  have hgrp : tm.groups[g.grp]? = some grp := by simpa [State.group?, ht] using hg
  simp [State.writeTrapTile, ht, hgrp]

theorem State.readTrapTile_eq (s : State) (g : GRef) (n : Nat) (trapt : Nat) (grp : Group)
    (ht : s.traptAt g = some trapt) (hg : s.group? g = some grp) :
    s.readTrapTile g 0 n = s.mem.readBytes (sliceKey g.core (trapt * 256 + g.grp * trapBytes grp.width)) n := by
  obtain ⟨tm, htm⟩ := exists_team_of_group s g grp hg
  have hgrp : tm.groups[g.grp]? = some grp := by simpa [State.group?, htm] using hg
  obtain rfl : tm.trapt = trapt := by simpa [State.traptAt, htm] using ht
  simp [State.readTrapTile, htm, hgrp, trapOffset]

/-! ### Entering the handler -/

/-- A group that has entered its handler: the lanes that trapped are pending at its first trace, and the execution is frozen (R360, R365). -/
def Group.inHandler (grp : Group) (tm : Team) (c : Ctx) (now : Nat) (lanes : List Nat) (fr : Option Exec) : Group :=
  { grp.pendAt lanes (handlerTrace tm.handle tm.kernel c.trapbase) now with
    exec := none, trail := none, trapped := fr, frame := true, hm := true, doubled := false,
    handler := (handlerTrace tm.handle tm.kernel c.trapbase).handle, handlerLanes := lanes }

/-- A trap outside handler mode with a handler present changes the group alone, but for what an execution that is not frozen held. -/
theorem State.routeTrap_handler {s : State} {g : GRef} {tm : Team} {grp : Group} {c : Ctx} {x : Exec} (ht : s.team? g.core g.slot = some tm)
    (hg : s.group? g = some grp) (hx : grp.exec = some x) (hc : s.ctx? tm.ctx = some c) (hm : grp.hm = false)
    (hen : c.trapbase.getLsbD 63 = true) (tr : Trap) (t : TRef) (off : Nat) (lanes : List Nat) (fr : Option Exec) :
    (s.routeTrap g tr t off lanes fr).group? g = some (grp.inHandler tm c (s.core g.core).cycles lanes fr)
      ∧ (s.routeTrap g tr t off lanes fr).mem = s.mem ∧ (s.routeTrap g tr t off lanes fr).traptAt g = s.traptAt g := by
  have hroute : s.routeTrap g tr t off lanes fr = (if fr.isNone then s.dropExec g else s.freezeTrs g fr).modGroup g
      (fun y => y.inHandler tm c (s.core g.core).cycles lanes fr) := by
    unfold State.routeTrap
    rw [ht, hg]
    dsimp only
    rw [hc, Option.getD_some, hm, hen, if_neg (by decide), if_neg (by simp), if_neg (by simp)]
    rfl
  rw [hroute, State.modGroup_mem, State.modGroup_traptAt]
  cases fr with
  | none =>
    rw [if_pos (by rfl)]
    exact ⟨(State.modGroup_group_same _ g _ _ (State.dropExec_group s g grp hg x hx)).trans rfl, State.dropExec_mem s g, State.dropExec_traptAt s g⟩
  | some y =>
    rw [if_neg (by simp)]
    exact ⟨State.modGroup_group_same _ g _ grp ((State.freezeTrs_group s g g _).trans hg), State.freezeTrs_mem s g _,
      State.traptAt_of_team g (State.modTrs_team s g _ _ _)⟩

/-- Settles O54: the frame is in the trap tile, which routing leaves, and the group is the one that has entered its handler. -/
theorem trapsEnterTheHandler : Obligations.TrapsEnterTheHandler := by
  intro s g tm grp x c tr off skip restart ht hg hx hc hm hen _ _ hinv t
  have ht0 := (State.writeTrapTile_team s g g 0 (trapFrame s g tm grp x tr off skip restart)).trans ht
  have hg0 := (State.writeTrapTile_group s g g 0 (trapFrame s g tm grp x tr off skip restart)).trans hg
  have hc0 := (State.writeTrapTile_ctx s g tm.ctx 0 (trapFrame s g tm grp x tr off skip restart)).trans hc
  obtain ⟨hgrp, hmem, htrapt⟩ := State.routeTrap_handler ht0 hg0 hx hc0 hm hen tr x.tr off x.here
    (if restart then none else some (x.frozenAt (s.core g.core).cycles off))
  rw [← State.takeTrap_eq s g tm grp x tr off skip restart ht hg hx] at hgrp hmem htrapt
  rw [State.writeTrapTile_mem s g tm grp _ ht hg] at hmem
  rw [State.traptAt_of_team g (State.writeTrapTile_team s g g 0 _), show s.traptAt g = some tm.trapt by rw [State.traptAt, ht]; rfl] at htrapt
  have hframe : t.readTrapTile g 0 256 = trapHeader s g tm x tr off skip restart := by
    rw [State.readTrapTile_eq t g 256 tm.trapt _ htrapt hgrp, hmem, ← take_trapFrame s g tm grp]
    exact Memory.readBytes_writeBytes _ _ _ _
      (by rw [trapFrame, List.length_append, length_trapHeader]; exact Nat.le_add_right 256 _) hinv
  obtain ⟨hcause, hoff, hlanes, hflanes, hinfo0, hinfo1⟩ := leAt_frameHeader tr off restart skip (s.encOf g == .l9) false
    (x.replayed (s.core g.core).cycles restart).length x.tr (s.tracePcs tm.ctx x.tr)
    (frameCounts (s.encOf g) (x.frozenAt (s.core g.core).cycles off)) x.here
  refine ⟨_, hgrp, rfl, rfl, rfl, rfl, fun hr => ?_, fun hr => ?_, rfl, rfl, rfl, rfl, fun l hl => ?_, ?_⟩
  · exact ⟨x.frozenAt (s.core g.core).cycles off, by simp [Group.inHandler, hr], rfl, rfl, rfl⟩
  · simp [Group.inHandler, hr]
  · have hlane := Group.lane_modLanes grp x.here (Lane.leftFor (handlerTrace tm.handle tm.kernel c.trapbase)
      ((s.writeTrapTile g 0 (trapFrame s g tm grp x tr off skip restart)).core g.core).cycles) l hl
    split
    next h => rw [if_pos h] at hlane; exact ⟨congrArg Lane.tr hlane, congrArg Lane.held hlane⟩
    next h => rw [if_neg h] at hlane; exact hlane
  · rw [hframe]
    refine ⟨hcause, hoff, hlanes, hflanes, hinfo0, hinfo1, fun a ha => ?_⟩
    have hlen := length_trapFrame_le s g tm grp x tr off skip restart
    rw [hmem]
    exact Memory.read_writeBytes_outside _ _ _ _ (by omega) hinv

/-! ### Traps that stop the context -/

/-- A trap in handler mode drops the execution and stops the context with the die's DOUBLE_TRAP (R360). -/
theorem State.routeTrap_double {s : State} {g : GRef} {tm : Team} {grp : Group} (ht : s.team? g.core g.slot = some tm)
    (hg : s.group? g = some grp) (hm : grp.hm = true) (tr : Trap) (t : TRef) (off : Nat) (lanes : List Nat) (fr : Option Exec) :
    s.routeTrap g tr t off lanes fr
      = (((s.dropExec g).modGroup g (fun y => { y with frame := true, doubled := true })).raisePlien (dieOf g.core) 1).stopContext tm.ctx g
          { tr with cause := 320 + 16 * dieOf g.core + 1 } t off := by
  unfold State.routeTrap
  rw [ht, hg]
  exact if_pos hm

/-- A trap with no handler present, other than a breakpoint, drops the execution and stops the context with its cause (R360). -/
theorem State.routeTrap_stop {s : State} {g : GRef} {tm : Team} {grp : Group} {c : Ctx} (ht : s.team? g.core g.slot = some tm)
    (hg : s.group? g = some grp) (hc : s.ctx? tm.ctx = some c) (hm : grp.hm = false) (hen : c.trapbase.getLsbD 63 = false) (tr : Trap)
    (hcause : tr.cause < 108 ∨ 112 ≤ tr.cause) (t : TRef) (off : Nat) (lanes : List Nat) (fr : Option Exec) :
    s.routeTrap g tr t off lanes fr
      = ((s.dropExec g).modGroup g (fun y => { y.pendAt lanes t (s.core g.core).cycles with frame := true })).stopContext tm.ctx g tr t off := by
  unfold State.routeTrap
  rw [ht, hg]
  dsimp only
  rw [hc, Option.getD_some, hm, hen, if_neg (by decide), if_neg (by simp; omega), if_pos (by simp)]

/-- A breakpoint with no handler present freezes the execution and halts the group (R379). -/
theorem State.routeTrap_break {s : State} {g : GRef} {tm : Team} {grp : Group} {c : Ctx} (ht : s.team? g.core g.slot = some tm)
    (hg : s.group? g = some grp) (hc : s.ctx? tm.ctx = some c) (hm : grp.hm = false) (hen : c.trapbase.getLsbD 63 = false) (tr : Trap)
    (hlo : 108 ≤ tr.cause) (hhi : tr.cause < 112) (t : TRef) (off : Nat) (lanes : List Nat) (fr : Option Exec) :
    s.routeTrap g tr t off lanes fr = (s.freezeTrs g fr).modGroup g (fun y =>
      { y with exec := none, trail := none, trapped := fr, frame := true, hm := true, handler := tm.handle, handlerLanes := lanes, halt := .breakpoint }) := by
  unfold State.routeTrap
  rw [ht, hg]
  dsimp only
  rw [hc, Option.getD_some, hm, hen, if_neg (by decide), if_pos (by simp; omega)]

/-- Settles O55: each case is a branch of the routing, seen in the group and the context. -/
theorem trapsWithoutAHandlerStopTheContext : Obligations.TrapsWithoutAHandlerStopTheContext := by
  refine ⟨fun s g tm grp x c tr off skip ht hg hx hc hm => ?_, fun s g tm grp x c tr off skip ht hg hx hc hm hen hcause => ?_,
    fun s g tm grp x c tr off skip ht hg hx hc hm hen hlo hhi => ?_⟩
  all_goals
    have ht0 := (State.writeTrapTile_team s g g 0 (trapFrame s g tm grp x tr off skip false)).trans ht
    have hg0 := (State.writeTrapTile_group s g g 0 (trapFrame s g tm grp x tr off skip false)).trans hg
    have hc0 := (State.writeTrapTile_ctx s g tm.ctx 0 (trapFrame s g tm grp x tr off skip false)).trans hc
    have hdrop := State.dropExec_group _ g grp hg0 x hx
    rw [State.takeTrap_eq s g tm grp x tr off skip false ht hg hx]
    generalize s.writeTrapTile g 0 (trapFrame s g tm grp x tr off skip false) = u at *
  · rw [State.routeTrap_double ht0 hg0 hm]
    refine ⟨{ grp with exec := none, trail := none, frame := true, doubled := true }, _, ?_, rfl, rfl, rfl,
      State.stopContext_ctx _ tm.ctx g _ x.tr off c ?_, rfl⟩
    · rw [State.stopContext_group, State.group_of_cores (State.raisePlien_cores _ _ _)]
      exact State.modGroup_group_same _ g _ _ hdrop
    · rw [State.ctx?, State.raisePlien_ctxs, State.modGroup_ctxs, State.dropExec_ctxs]
      exact hc0
  · rw [State.routeTrap_stop ht0 hg0 hc0 hm hen tr hcause]
    refine ⟨{ ({ grp with exec := none, trail := none } : Group).pendAt x.here x.tr (u.core g.core).cycles with frame := true }, _, ?_, rfl, rfl, hm,
      rfl, State.stopContext_ctx _ tm.ctx g _ x.tr off c ?_, rfl, fun l hl hlen => ?_⟩
    · rw [State.stopContext_group]
      exact State.modGroup_group_same _ g _ _ hdrop
    · rw [State.ctx?, State.modGroup_ctxs, State.dropExec_ctxs]
      exact hc0
    · have hlane := Group.lane_modLanes grp x.here (Lane.leftFor x.tr (u.core g.core).cycles) l hlen
      rw [if_pos (by simpa using hl)] at hlane
      exact congrArg Lane.tr hlane
  · rw [State.routeTrap_break ht0 hg0 hc0 hm hen tr hlo hhi]
    exact ⟨_, State.modGroup_group_same _ g _ grp ((State.freezeTrs_group u g g _).trans hg0), rfl, rfl, rfl, rfl⟩

end Sys2Proof.Machine
end

section

/-! The commit of an execution with nothing buffered (O57). -/

namespace Sys2Proof.Machine

/-- A group that stands at its terminator on core 1 and is asked to step, and that is parked for a migration to trace 7. -/
def parkedStep : State := (State.reset.withFetchWord 64 0).modGroup ⟨1, 0, 0⟩ (fun y =>
  { y with stepping := true, park := some { ep := ⟨1, 0, 7⟩, alt := ⟨1, 0, 7⟩, lcore := true, since := 0 } })

/-- The halt of a step that meets a parked group sends its lanes to ep, whatever the terminator named (R295). -/
theorem parkedStep_commit : ((parkedStep.commit ⟨1, 0, 0⟩ 0 (fun _ => .trace ⟨1, 0, 0⟩) none).group? ⟨1, 0, 0⟩).map (fun y => (y.lane 0).tr)
    = some ⟨1, 0, 7⟩ := by
  decide +kernel

/-- Refutes O57: nothing in the statement keeps the group from being parked while it executes. Where it is, and a step, MODE.STEP or a
debugger's request halts it at the commit, the halt cancels the park, and its lanes are pending at the park's trace and not at their
successor. -/
theorem not_commitOfAPlainExecution : ¬ Obligations.CommitOfAPlainExecution := by
  intro h
  obtain ⟨y, hy, -, -, -, -, -, hlanes, -⟩ := h parkedStep ⟨1, 0, 0⟩ _ _ _ 0 ⟨1, 0, 0⟩ rfl rfl rfl rfl rfl rfl rfl rfl (by decide) rfl rfl
    rfl rfl rfl rfl rfl (by decide)
  have hlane := parkedStep_commit
  rw [hy, Option.map_some, (hlanes 0 (by decide) (by decide)).1] at hlane
  exact absurd hlane (by decide)

end Sys2Proof.Machine
end

section

/-! What happens to the executions of the groups where an error is consumed: they end in an open region, and with their context outside one. -/

namespace Sys2Proof.Machine

/-! ### Tables -/

theorem tget_map {α β : Type} (φ : α → β) (t : Table α) (n : Nat) :
    tget (t.map (fun p => (p.1, φ p.2))) n = (tget t n).map φ := by
  induction t with
  | nil => rfl
  | cons p t ih =>
    simp only [List.map_cons, tget, ih]
    split
    · rfl
    · split <;> rfl

theorem map_tput_same {α β : Type} (φ : α → β) (t : Table α) (k : Nat) (x y : α) (h : tget t k = some x) (hφ : φ y = φ x) :
    (tput t k y).map (fun p => (p.1, φ p.2)) = t.map (fun p => (p.1, φ p.2)) := by
  induction t with
  | nil => cases h
  | cons p t ih =>
    obtain ⟨q, z⟩ := p
    simp only [tget] at h
    by_cases hq : q = k
    · subst hq
      rw [if_pos rfl] at h
      obtain rfl := Option.some.inj h
      simp [tput, hφ]
    · rw [if_neg hq] at h
      split at h
      · cases h
      next hk => simp [tput, hk, Ne.symm hq, ih h]

theorem tdel_map {α β : Type} (φ : α → β) (t : Table α) (n : Nat) :
    (tdel t n).map (fun p => (p.1, φ p.2)) = tdel (t.map (fun p => (p.1, φ p.2))) n := by
  induction t with
  | nil => rfl
  | cons p t ih =>
    simp only [List.map_cons, tdel]
    split
    · rfl
    · split
      · rfl
      · rw [List.map_cons, ih]

theorem tdel_of_none {α : Type} (t : Table α) (n : Nat) (h : tget t n = none) : tdel t n = t := by
  induction t with
  | nil => rfl
  | cons p t ih =>
    simp only [tget] at h
    split at h
    · cases h
    next hq =>
      simp only [tdel, Ne.symm hq, if_false]
      split at h
      next hk => rw [if_pos hk]
      next hk => rw [if_neg hk, ih h]

theorem tdel_cons_ne {α : Type} (k n : Nat) (x : α) (t : Table α) (h : n ≠ k) :
    tdel ((k, x) :: t) n = (k, x) :: if n < k then t else tdel t n := by
  simp only [tdel, h, if_false]
  split <;> rfl

theorem foldl_tdel_cons {α : Type} (k : Nat) (x : α) (ls : List Nat) (t : Table α) (h : ∀ n ∈ ls, n ≠ k) :
    ls.foldl tdel ((k, x) :: t) = (k, x) :: (ls.filter (fun n => decide (k < n))).foldl tdel t := by
  induction ls generalizing t with
  | nil => rfl
  | cons n ls ih =>
    have hn : n ≠ k := h n List.mem_cons_self
    rw [List.foldl_cons, tdel_cons_ne k n x t hn, ih _ (fun m hm => h m (List.mem_cons_of_mem n hm))]
    by_cases hk : n < k
    · rw [if_pos hk, List.filter_cons_of_neg (by simp; omega)]
    · rw [if_neg hk, List.filter_cons_of_pos (by simp; omega)]
      rfl

/-- Deleting, for each key that satisfies a test, as often as the table lists it: no such key is found any more, whatever the order in which
the table lists its keys. -/
theorem tget_foldl_tdel {α : Type} (p : Nat → Bool) (t : Table α) (n : Nat) (hn : p n = true) :
    tget (((t.map (·.1)).filter p).foldl tdel t) n = none := by
  induction t generalizing p with
  | nil => rfl
  | cons q t ih =>
    obtain ⟨k, x⟩ := q
    cases hk : p k with
    | true =>
      rw [List.map_cons, List.filter_cons_of_pos hk, List.foldl_cons]
      simpa [tdel] using ih p hn
    | false =>
      have hne : ∀ m ∈ (t.map (·.1)).filter p, m ≠ k := fun m hm e => by
        rw [← e, (List.mem_filter.1 hm).2] at hk
        cases hk
      have hnk : k ≠ n := fun e => by rw [e, hn] at hk; cases hk
      rw [List.map_cons, List.filter_cons_of_neg (by simp [hk]), foldl_tdel_cons k x _ t hne, List.filter_filter, tget, if_neg hnk]
      split
      · rfl
      next hlt => exact ih (fun m => decide (k < m) && p m) (by simp [hn]; omega)

/-- Deleting keys that are not found deletes nothing. -/
theorem foldl_tdel_of_none {α : Type} (ls : List Nat) (t : Table α) (h : ∀ n ∈ ls, tget t n = none) : ls.foldl tdel t = t := by
  induction ls with
  | nil => rfl
  | cons n ls ih => rw [List.foldl_cons, tdel_of_none t n (h n List.mem_cons_self), ih (fun m hm => h m (List.mem_cons_of_mem n hm))]

/-! ### The executions of a core -/

/-- The executions of the groups of a core, by slot. -/
def Core.execs (k : Core) : Table (List (Option Exec)) := k.teams.map (fun p => (p.1, p.2.groups.map (·.exec)))

/-- The executions of the groups of every core. -/
def State.execs (s : State) (c : Nat) : Table (List (Option Exec)) := (s.core c).execs

theorem State.execAt_eq (s : State) (g : GRef) :
    s.execAt g = (tget (s.execs g.core) g.slot).bind (fun l => (l[g.grp]?).join) := by
  rw [State.execs, Core.execs, tget_map (fun t : Team => t.groups.map (·.exec)), State.execAt, State.group?, State.team?]
  cases tget (s.core g.core).teams g.slot with
  | none => rfl
  | some t =>
    simp only [Option.map_some, Option.bind_some, List.getElem?_map]
    cases t.groups[g.grp]? <;> rfl

theorem State.execAt_of_execs {s t : State} (h : t.execs = s.execs) (g : GRef) : t.execAt g = s.execAt g := by
  rw [State.execAt_eq, h, State.execAt_eq]

theorem State.execs_of_cores {s t : State} (h : t.cores = s.cores) : t.execs = s.execs := by
  funext c
  rw [State.execs, State.core, h, State.execs, State.core]

@[simp] theorem State.execs_modCore (s : State) (c : Nat) (f : Core → Core) (hf : ∀ k, (f k).execs = k.execs) :
    (s.modCore c f).execs = s.execs := by
  funext d
  by_cases hd : d = c
  · subst hd
    rw [State.execs, State.modCore_core_same, hf, State.execs]
  · rw [State.execs, State.modCore_core_ne s c d f hd, State.execs]

theorem State.execs_modTeam (s : State) (c n : Nat) (f : Team → Team) (hf : ∀ t, (f t).groups.map (·.exec) = t.groups.map (·.exec)) :
    (s.modTeam c n f).execs = s.execs := by
  cases h : s.team? c n with
  | none => rw [State.modTeam_team_none s c n f h]
  | some t =>
    funext d
    have hmod : s.modTeam c n f = s.modCore c (fun k => { k with teams := tput k.teams n (f t) }) := by
      rw [State.modTeam, h]; rfl
    rw [hmod]
    by_cases hd : d = c
    · subst hd
      rw [State.execs, State.modCore_core_same, State.execs]
      exact map_tput_same (fun t : Team => t.groups.map (·.exec)) _ n t (f t) h (hf t)
    · rw [State.execs, State.modCore_core_ne s c d _ hd, State.execs]

theorem State.execs_modGroup (s : State) (g : GRef) (f : Group → Group) (hf : ∀ y, (f y).exec = y.exec) :
    (s.modGroup g f).execs = s.execs := by
  refine State.execs_modTeam s g.core g.slot _ (fun t => ?_)
  refine List.ext_getElem? (fun i => ?_)
  simp only [List.getElem?_map, List.getElem?_modify]
  cases t.groups[i]? with
  | none => rfl
  | some y => by_cases h : g.grp = i <;> simp [h, hf]

theorem State.execs_foldl {α : Type} {f : State → α → State} (hf : ∀ s a, (f s a).execs = s.execs) (l : List α) (s : State) :
    (l.foldl f s).execs = s.execs := by
  induction l generalizing s with
  | nil => rfl
  | cons a l ih => exact (ih _).trans (hf s a)

/-! ### The operations that the end of a context performs keep them -/

@[simp] theorem State.execs_modDie (s : State) (d : Nat) (f : Die → Die) : (s.modDie d f).execs = s.execs := rfl

@[simp] theorem State.execs_modJob (s : State) (d n : Nat) (f : Job → Job) : (s.modJob d n f).execs = s.execs := rfl

theorem State.execs_modTileAt (s : State) (p : Nat × Nat) (f : Tile → Tile) : (s.modTileAt p f).execs = s.execs :=
  State.execs_modTeam s p.1 (p.2 / 64) (fun t => t.modTile (p.2 % 64) f) (fun _ => rfl)

theorem State.execs_endTiles (s : State) (j : Job) : (s.endTiles j).execs = s.execs :=
  (State.execs_foldl (fun s p => State.execs_modTileAt s p Tile.readCompleted) j.counted _).trans
    (State.execs_foldl (fun s p => State.execs_modTileAt s p (Tile.fillCompleted (j.form p))) j.claimed s)

theorem State.execs_endJob (s : State) (d n : Nat) (j : Job) (st : JobState) : (s.endJob d n j st).execs = s.execs := by
  have htiles : (if j.moved then s else s.endTiles j).execs = s.execs := by
    split
    · rfl
    · exact State.execs_endTiles s j
  exact Eq.trans (State.execs_modTeam _ j.core j.slot (fun t => { t with jobs := t.jobs.filter (fun h => h != handleOf d n j.gen) })
    (fun _ => rfl)) htiles

theorem State.execs_cancelJob (s : State) (d n : Nat) (j : Job) : (s.cancelJob d n j).execs = s.execs := by
  unfold State.cancelJob
  split
  · rfl
  · split
    · rfl
    · exact State.execs_endJob _ d n j _

theorem State.execs_cancelJobs (s : State) (d : Nat) (which : Job → Bool) : (s.cancelJobs d which).execs = s.execs := by
  refine State.execs_foldl (fun s p => ?_) _ s
  split
  · split
    · exact State.execs_cancelJob s d _ _
    · rfl
  · rfl

@[simp] theorem State.execs_setAD (s : State) (a : Access) (at_ : Nat) : (s.setAD a at_).execs = s.execs := by
  unfold State.setAD
  exact (apply_ite State.execs _ _ _).trans (ite_self _)

@[simp] theorem State.execs_askHost (s : State) (a : Access) (page : Nat) : (s.askHost a page).2.execs = s.execs := by
  unfold State.askHost
  dsimp only
  split
  · rfl
  · split <;> rfl

@[simp] theorem State.execs_beyondWalk (s : State) (a : Access) (leaf : DWord) (addr : Nat) :
    (s.beyondWalk a leaf addr).2.execs = s.execs := by
  unfold State.beyondWalk
  dsimp only
  repeat' split
  all_goals solve | rfl | simp

@[simp] theorem State.execs_useWalk (s : State) (a : Access) (r : WalkResult) : (s.useWalk a r).2.execs = s.execs := by
  unfold State.useWalk
  dsimp only
  split
  · rfl
  · split
    · rfl
    · rw [State.execs_beyondWalk, State.execs_modDie]
      exact Eq.trans (State.execs_modCore _ _ _ (fun _ => rfl)) (State.execs_setAD s a _)

@[simp] theorem State.execs_useCached (s : State) (a : Access) (e : TlbEntry) : (s.useCached a e).2.execs = s.execs := by
  unfold State.useCached
  split
  · exact State.execs_useWalk s a _
  · dsimp only
    rw [State.execs_beyondWalk]
    split
    · rfl
    · exact State.execs_modCore s _ _ (fun _ => rfl)

@[simp] theorem State.execs_dieWalk (s : State) (d ctx va : Nat) : (s.dieWalk d ctx va).2.execs = s.execs := by
  unfold State.dieWalk
  split
  · rfl
  · split <;> rfl

@[simp] theorem State.execs_translateMiss (s : State) (a : Access) : (s.translateMiss a).2.execs = s.execs := by
  unfold State.translateMiss
  dsimp only
  split
  · exact State.execs_useWalk _ a _
  · split
    · rfl
    · split
      · rfl
      · split
        · rfl
        · rw [State.execs_useWalk, State.execs_dieWalk]

@[simp] theorem State.execs_translate (s : State) (a : Access) : (s.translate a).2.execs = s.execs := by
  unfold State.translate
  split
  · rfl
  · split
    · split
      · exact State.execs_useCached s a _
      · exact State.execs_translateMiss s a
    · exact State.execs_translateMiss s a

@[simp] theorem State.execs_postRecord (s : State) (d : Nat) (r : FaultRecord) : (s.postRecord d r).execs = s.execs := by
  unfold State.postRecord
  split <;> rfl

theorem State.execs_abandon (s : State) (c : Comm) : (s.abandon c).execs = s.execs := by
  unfold State.abandon
  split
  · rfl
  · split
    · rfl
    · split
      · rfl
      · dsimp only
        rw [State.execs_endJob, State.execs_postRecord]
        split
        · split <;> rfl
        · split
          all_goals next e => exact (congrArg (fun r => State.execs r.2) e).symm.trans (State.execs_translate s _)

theorem State.execs_settleAtomic (s : State) (p : SentAtomic) : (s.settleAtomic p).execs = s.execs := by
  unfold State.settleAtomic
  split
  · rfl
  · dsimp only
    split <;> rfl

theorem State.keepValues_execs (s : State) (c : Nat) (keep : LoadValue → Bool) : (s.keepValues c keep).execs = s.execs := by
  unfold State.keepValues
  split
  · rfl
  · exact State.execs_modCore s c _ (fun _ => rfl)

/-- Freeing a team that is there deletes its slot, of cores that have kept their executions. -/
theorem State.removeTeam_cores (s : State) (c n : Nat) (t : Team) (h : s.team? c n = some t) :
    ∃ u : State, u.execs = s.execs ∧ (s.removeTeam c n).cores = (u.modCore c (fun k => { k with teams := tdel k.teams n })).cores := by
  refine ⟨(((s.clearSlice c t.window t.wlen).clearSlice c t.trapt t.trapUnits).clearSlice c t.storage t.slen).keepValues c
    (fun v => !(v.g.core == c && v.g.slot == n)), State.keepValues_execs _ c _, ?_⟩
  rw [State.removeTeam, h]
  rfl

/-- Freeing a team deletes its slot and no other. -/
theorem State.execs_removeTeam (s : State) (c n d : Nat) :
    (s.removeTeam c n).execs d = if d = c then tdel (s.execs d) n else s.execs d := by
  cases h : s.team? c n with
  | none =>
    have hnone : tget (s.execs c) n = none := by
      rw [State.execs, Core.execs, tget_map (fun t : Team => t.groups.map (·.exec))]
      exact congrArg _ h
    rw [State.removeTeam, h]
    dsimp only
    split
    next hd => rw [hd, tdel_of_none _ _ hnone]
    next => rfl
  | some t =>
    obtain ⟨u, hu, hcores⟩ := State.removeTeam_cores s c n t h
    rw [State.execs_of_cores hcores, ← hu]
    split
    next hd =>
      rw [hd, State.execs, State.modCore_core_same, State.execs]
      exact tdel_map (fun t : Team => t.groups.map (·.exec)) _ n
    next hd => rw [State.execs, State.modCore_core_ne u c d _ hd, State.execs]

theorem State.execs_foldl_removeTeam (ps : List (Nat × Nat)) (s : State) (d : Nat) :
    (ps.foldl (fun s p => s.removeTeam p.1 p.2) s).execs d = ((ps.filter (fun p => p.1 == d)).map (·.2)).foldl tdel (s.execs d) := by
  induction ps generalizing s with
  | nil => rfl
  | cons p ps ih =>
    rw [List.foldl_cons, ih, State.execs_removeTeam]
    by_cases hp : p.1 = d
    · rw [if_pos hp.symm, List.filter_cons_of_pos (by simpa using hp)]; rfl
    · rw [if_neg (Ne.symm hp), List.filter_cons_of_neg (by simpa using hp)]

/-! ### The end of a context -/

theorem map_core_execs (l : Table Core) (φ : Nat × Core → Core) (hφ : ∀ p, (φ p).execs = p.2.execs) (c : Nat) :
    ((tget (l.map (fun p => (p.1, φ p))) c).getD {}).execs = ((tget l c).getD {}).execs := by
  induction l with
  | nil => rfl
  | cons p l ih =>
    simp only [List.map_cons, tget]
    split
    · exact hφ p
    · split
      · rfl
      · exact ih

/-- Whether a slot of a core holds a team of a context. -/
def State.ofCtx (s : State) (ctx c n : Nat) : Bool :=
  match s.team? c n with
  | some t => t.ctx == ctx
  | none => false

theorem filter_core_of_filter (q : Nat → Nat → Bool) (c : Nat) (l : List (Nat × Nat)) :
    ((l.filter (fun p => q p.1 p.2)).filter (fun p => p.1 == c)).map (·.2) = ((l.filter (fun p => p.1 == c)).map (·.2)).filter (q c) := by
  rw [List.filter_filter, List.filter_map, List.filter_filter]
  refine congrArg _ (List.filter_congr (fun p _ => ?_))
  by_cases hc : p.1 = c
  · subst hc
    simp [Bool.and_comm]
  · rw [beq_false_of_ne hc, Bool.false_and, Bool.and_false]

theorem filter_core_residents (l : Table Core) (c : Nat) (k : Core) (h : tget l c = some k) :
    ∃ rest : List Nat, ((l.flatMap (fun c => c.2.teams.map (fun t => (c.1, t.1)))).filter (fun p => p.1 == c)).map (·.2)
      = k.teams.map (·.1) ++ rest := by
  induction l with
  | nil => cases h
  | cons p l ih =>
    obtain ⟨q, k'⟩ := p
    simp only [tget] at h
    by_cases hq : q = c
    · subst hq
      rw [if_pos rfl] at h
      obtain rfl := Option.some.inj h
      refine ⟨((l.flatMap (fun c => c.2.teams.map (fun t => (c.1, t.1)))).filter (fun p => p.1 == q)).map (·.2), ?_⟩
      have hown : (k'.teams.map (fun t => (q, t.1))).filter (fun p => p.1 == q) = k'.teams.map (fun t => (q, t.1)) := by
        refine List.filter_eq_self.2 (fun p hp => ?_)
        obtain ⟨t, -, rfl⟩ := List.mem_map.1 hp
        exact beq_self_eq_true q
      rw [List.flatMap_cons, List.filter_append, List.map_append, hown, List.map_map]
      rfl
    · rw [if_neg hq] at h
      split at h
      · cases h
      obtain ⟨rest, hrest⟩ := ih h
      have hother : (k'.teams.map (fun t => (q, t.1))).filter (fun p => p.1 == c) = [] := by
        refine List.filter_eq_nil_iff.2 (fun p hp => ?_)
        obtain ⟨t, -, rfl⟩ := List.mem_map.1 hp
        simpa using hq
      exact ⟨rest, by rw [List.flatMap_cons, List.filter_append, hother, List.nil_append, hrest]⟩

/-- The slots of a context's teams on a core are those of the core's entry, with those of a second entry of it, which cannot be read. -/
theorem State.teamsOf_core (s : State) (ctx c n : Nat) (t : Team) (ht : s.team? c n = some t) :
    ∃ rest : List Nat, ((s.teamsOf ctx).filter (fun p => p.1 == c)).map (·.2) = (((s.execs c).map (·.1)) ++ rest).filter (s.ofCtx ctx c) := by
  obtain ⟨rest, hrest⟩ := filter_core_residents s.cores c (s.core c) (State.core_listed s c n t ht)
  refine ⟨rest, ?_⟩
  have hkeys : (s.execs c).map (·.1) = (s.core c).teams.map (·.1) := by
    rw [State.execs, Core.execs, List.map_map]; rfl
  rw [hkeys, ← hrest, ← filter_core_of_filter (s.ofCtx ctx) c]
  rfl

/-- A core that forgets what it has cached and owes for a context (R446). -/
def Core.forget (k : Core) (ctx : Nat) : Core :=
  { k with tlb := k.tlb.filter (fun e => e.ctx != ctx), code := k.code.filter (fun e => e.ctx != ctx), succs := k.succs.filter (fun w => w.ctx != ctx) }

/-- The machine at the end of a context, its queues gone and its teams still there. -/
def State.unqueued (s : State) (ctx : Nat) : State :=
  let s := s.dropReservations (fun q => ((tget s.queues q).map (·.ctx)) == some ctx)
  { s with queues := s.queues.filter (fun q => q.2.ctx != ctx), held := s.held.filter (fun h => h.ctx != ctx) }

/-- The machine at the end of a context, its jobs, chains and operations over and its atomics performed (R446). -/
def State.settled (s : State) (ctx : Nat) : State :=
  let s := s.unqueued ctx
  let teams := s.teamsOf ctx
  let s := (upto 4).foldl (fun s d => s.cancelJobs d (fun j => j.ctx == ctx)) s
  let s := teams.foldl (fun s p => s.modCore p.1 (fun k => if k.seqr.owner = some p.2 then { k with seqr := {} } else k)) s
  let s := (s.comms.filter (fun c => c.ctx == ctx)).foldl (fun s c => s.abandon c) s
  (s.sent.filter (fun a => a.2.ctx == ctx)).foldl (fun s a => s.settleAtomic a.2) s

/-- The machine at the end of a context, its communicators, windows and atomics gone too. -/
def State.unshared (s : State) (ctx : Nat) : State :=
  let s := s.settled ctx
  { s with comms := s.comms.filter (fun c => c.ctx != ctx), exports := s.exports.filter (fun e => e.ctx != ctx),
           sent := s.sent.filter (fun a => a.2.ctx != ctx) }

theorem State.destroyContext_cores (s : State) (ctx : Nat) :
    (s.destroyContext ctx).cores
      = (((s.unqueued ctx).teamsOf ctx).foldl (fun s p => s.removeTeam p.1 p.2) (s.unshared ctx)).cores.map (fun p => (p.1, p.2.forget ctx)) :=
  rfl

theorem State.execs_dropChain (s : State) (c n : Nat) :
    (s.modCore c (fun k => if k.seqr.owner = some n then { k with seqr := {} } else k)).execs = s.execs := by
  refine State.execs_modCore s c (fun k => if k.seqr.owner = some n then { k with seqr := {} } else k) (fun k => ?_)
  split <;> rfl

theorem State.execs_settled (s : State) (ctx : Nat) : (s.settled ctx).execs = s.execs := by
  have hsettle : ∀ (l : Table SentAtomic) (u : State), (l.foldl (fun s a => s.settleAtomic a.2) u).execs = u.execs :=
    State.execs_foldl (fun s a => State.execs_settleAtomic s a.2)
  have habandon : ∀ (l : List Comm) (u : State), (l.foldl (fun s c => s.abandon c) u).execs = u.execs :=
    State.execs_foldl State.execs_abandon
  have hchain : ∀ (l : List (Nat × Nat)) (u : State), (l.foldl (fun s p =>
      s.modCore p.1 (fun k => if k.seqr.owner = some p.2 then { k with seqr := {} } else k)) u).execs = u.execs :=
    State.execs_foldl (fun s p => State.execs_dropChain s p.1 p.2)
  have hcancel : ∀ (l : List Nat) (u : State), (l.foldl (fun s d => s.cancelJobs d (fun j => j.ctx == ctx)) u).execs = u.execs :=
    State.execs_foldl (fun s d => State.execs_cancelJobs s d _)
  rw [State.settled]
  exact (hsettle _ _).trans ((habandon _ _).trans ((hchain _ _).trans (hcancel _ _)))

theorem State.execs_unshared (s : State) (ctx : Nat) : (s.unshared ctx).execs = s.execs :=
  (State.execs_of_cores rfl).trans (State.execs_settled s ctx)

/-- With its context, every team is gone, and its executions with it. -/
theorem State.destroyContext_execAt (s : State) (g : GRef) (t : Team) (ht : s.team? g.core g.slot = some t) :
    (s.destroyContext t.ctx).execAt g = none := by
  obtain ⟨rest, hslots⟩ := State.teamsOf_core (s.unqueued t.ctx) t.ctx g.core g.slot t ht
  have hafter : (s.destroyContext t.ctx).execs g.core
      = (((s.unqueued t.ctx).teamsOf t.ctx).foldl (fun s p => s.removeTeam p.1 p.2) (s.unshared t.ctx)).execs g.core := by
    rw [State.execs, State.core, State.destroyContext_cores]
    exact map_core_execs _ (fun p => p.2.forget t.ctx) (fun _ => rfl) g.core
  have hof : (s.unqueued t.ctx).ofCtx t.ctx g.core g.slot = true := by
    rw [State.ofCtx, show (s.unqueued t.ctx).team? g.core g.slot = some t from ht]
    exact beq_self_eq_true _
  have hgone := fun n hn => tget_foldl_tdel ((s.unqueued t.ctx).ofCtx t.ctx g.core) (s.execs g.core) n hn
  rw [show (s.unqueued t.ctx).execs = s.execs from rfl] at hslots
  rw [State.execAt_eq, hafter, State.execs_foldl_removeTeam, hslots, State.execs_unshared, List.filter_append, List.foldl_append,
    foldl_tdel_of_none _ _ (fun n hn => hgone n (List.mem_filter.1 hn).2), hgone g.slot hof]
  rfl

end Sys2Proof.Machine
end

section

/-! What an instruction that issues leaves until the commit (O49). -/

namespace Sys2Proof.Machine

/-! ### A stopped execution is gone -/

theorem State.execAt_modGroup_none (s : State) (g : GRef) (f : Group → Group) (hf : ∀ y, (f y).exec = none) :
    (s.modGroup g f).execAt g = none := by
  cases ht : s.team? g.core g.slot with
  | none => rw [State.modGroup, State.modTeam_team_none s _ _ _ ht, State.execAt, State.group?, ht]; rfl
  | some t =>
    rw [State.modGroup, State.execAt, State.group?, State.modTeam_team_same s _ _ _ t ht]
    simp only [List.getElem?_modify]
    cases t.groups[g.grp]? with
    | none => rfl
    | some y => simp [hf]

/-- A group that consumes an error is left without its execution: within an open region it unwinds, outside one its context is destroyed
(R413, R414). -/
theorem State.consume_execAt {s : State} {g : GRef} {tm : Team} {grp : Group} (ht : s.team? g.core g.slot = some tm)
    (hg : s.group? g = some grp) (cause : Nat) (inRegion : Bool) : (s.consume g cause inRegion).execAt g = none := by
  unfold State.consume
  rw [ht, hg]
  dsimp only
  split
  · have hended := State.execAt_modGroup_none (((s.consumedBy (bankOf cause) tm.ctx).dropExec g).dropTrapped g) g
      (fun x => { x with exec := none, trapped := none, hm := false, frame := false, handlerLanes := [] }) (fun _ => rfl)
    refine (State.execAt_of_execs ?_ g).trans hended
    refine Eq.trans (State.execs_modGroup _ g _ (fun _ => rfl)) ?_
    refine Eq.trans (State.execs_modCore _ g.core _ (fun k => ?_)) (State.execs_cancelJobs _ _ _)
    split <;> rfl
  · refine State.destroyContext_execAt _ g tm ?_
    rw [State.team?, State.core, State.postEvent_cores]
    exact ht

/-- Whatever stops an execution at an instruction, the group is left without it (R358, R360). -/
theorem State.stopAt_execAt {s : State} {g : GRef} {tm : Team} {grp : Group} {x : Exec} (ht : s.team? g.core g.slot = some tm)
    (hg : s.group? g = some grp) (hx : grp.exec = some x) (tr : Trap) (off : Nat) (skip restart : Bool) :
    (s.stopAt g tr off skip restart).execAt g = none := by
  unfold State.stopAt
  split
  · exact State.consume_execAt ht hg tr.cause true
  · exact State.takeTrap_execAt ht hg hx tr off skip restart

/-- Where a ready instruction's meaning stops its execution, that execution does not go on. -/
theorem issueOn_error_stays {op : Nat} {f : Fields} {s : State} {i : Iss} (body : Body) {tr : Trap} (h : readyAt op f s = some i)
    (hb : body i (capture i).words = .error tr) : ∃ t, issueOn op f body s = .next t ∧ ∀ x, t.execAt i.g = some x → x = i.x := by
  obtain ⟨hs, hk, -, he, -, -, -, -, p, hp⟩ := readyAt_some h
  obtain ⟨-, ht, hg, hx⟩ := standing_some hs
  have ht' : i.s.team? i.g.core i.g.slot = some i.tm := by rw [hp]; exact ht
  have hg' : i.s.group? i.g = some i.grp := by rw [hp]; exact hg
  cases hbehind : i.grp.shadowBehind i.x.off with
  | true =>
    refine ⟨i.s, by simp [issueOn, hs, hk, issueBody, handBackFor, firstSome, he, served_self, hb, hbehind], fun x hx' => ?_⟩
    rw [State.execAt_of_group hg', hx] at hx'
    exact (Option.some.inj hx').symm
  | false =>
    refine ⟨_, issueOn_trap body h hbehind hb, fun x hx' => ?_⟩
    rw [State.leave_nil _ _ _ _ hg',
      State.stopAt_execAt ((State.clockTo_team _ _ _ _ _).trans ht') ((State.clockTo_group _ _ _ _).trans hg') hx] at hx'
    cases hx'

/-! ### What applying a result leaves -/

theorem State.modCore_cores_ne (s : State) (c d : Nat) (f : Core → Core) (h : d ≠ c) : tget (s.modCore c f).cores d = tget s.cores d :=
  tget_tput_ne _ _ _ _ h

theorem State.modGroup_cores_ne (s : State) (g : GRef) (f : Group → Group) (d : Nat) (h : d ≠ g.core) :
    tget (s.modGroup g f).cores d = tget s.cores d := by
  cases ht : s.team? g.core g.slot with
  | none => rw [State.modGroup, State.modTeam_team_none s _ _ _ ht]
  | some t =>
    rw [State.modGroup_eq_setTeam s g f t ht]
    exact State.modCore_cores_ne s _ _ _ h

/-- The registers of a group. -/
structure Group.SameRegisters (y z : Group) : Prop where
  regs : y.regs = z.regs
  preds : y.preds = z.preds
  uregs : y.uregs = z.uregs
  sr : y.sr = z.sr
  srseed : y.srseed = z.srseed

/-- Lanes that leave change no register. -/
theorem State.leave_registers (s : State) (g : GRef) (now : Nat) (ls : List (Nat × TRef × Option Held)) (grp : Group)
    (h : s.group? g = some grp) : ∃ y, (s.leave g now ls).group? g = some y ∧ y.SameRegisters grp := by
  refine ⟨_, State.modGroup_group_same s g _ grp h, ?_⟩
  have hfold : Group.SameRegisters (ls.foldl (fun grp p => grp.modLanes [p.1] (fun l =>
      { l with tr := p.2.1, since := now, held := p.2.2, bindCall := none })) grp) grp :=
    List.foldlRecOn (motive := fun y : Group => y.SameRegisters grp) ls _ ⟨rfl, rfl, rfl, rfl, rfl⟩
      (fun y hy p _ => ⟨hy.regs, hy.preds, hy.uregs, hy.sr, hy.srseed⟩)
  exact ⟨hfold.regs, hfold.preds, hfold.uregs, hfold.sr, hfold.srseed⟩

/-- An execution that goes on after its lanes have left still holds one. -/
theorem State.closeIfEmpty_of_execAt (s : State) (g : GRef) (grp : Group) (x : Exec) (h : s.group? g = some grp)
    (hx : (s.closeIfEmpty g).execAt g = some x) : s.closeIfEmpty g = s := by
  cases he : grp.exec with
  | none => simp [State.closeIfEmpty, h, he]
  | some z =>
    obtain ⟨y, hy, -, hz⟩ := State.closeIfEmpty_group s g grp z h he
    rw [State.execAt_of_group hy, hz] at hx
    split at hx
    · cases hx
    next hne => simp [State.closeIfEmpty, h, he, hne]

/-- What issuing an instruction leaves as it is until the commit. -/
structure Uncommitted (s t : State) (g : GRef) (grp : Group) : Prop where
  mem : t.mem = s.mem
  ctxs : t.ctxs = s.ctxs
  cores : ∀ c, c ≠ g.core → tget t.cores c = tget s.cores c
  registers : ∃ y : Group, t.group? g = some y ∧ y.SameRegisters grp

/-- Applying a result that leaves an execution in the group changes nothing but that group and its core. -/
theorem applyIssue_uncommitted {i : Iss} (c : Captured) (word : DWord) (res : Res) {x : Exec} (hg : i.s.group? i.g = some i.grp)
    (hx : (applyIssue i c word res).execAt i.g = some x) : Uncommitted i.s (applyIssue i c word res) i.g i.grp := by
  rw [applyIssue_eq] at hx ⊢
  have hissued := State.modGroup_modCore_group (fun y => y.issued i (afterIssue i c word res)) (fun k => k.issued i res) hg (fun _ => rfl)
  obtain ⟨y, hy, hsame⟩ := State.leave_registers _ i.g i.now (emptyLeave i c ++ res.leave) _ hissued
  rw [State.closeIfEmpty_of_execAt _ i.g y x hy hx]
  refine ⟨?_, ?_, fun d hd => ?_, y, hy, hsame.regs, hsame.preds, hsame.uregs, hsame.sr, hsame.srseed⟩
  · rw [State.leave, State.modGroup_mem, State.modCore_mem, State.modGroup_mem]
  · rw [State.leave, State.modGroup_ctxs, State.modCore_ctxs, State.modGroup_ctxs]
  · rw [State.leave, State.modGroup_cores_ne _ _ _ d hd, State.modCore_cores_ne _ _ _ _ hd, State.modGroup_cores_ne _ _ _ d hd]

/-- Settles O49: a result that is applied leaves all but the group's execution and its core's clock and queue; where the meaning stops the
execution, or the instruction stalls, it has not gone on. -/
theorem instructionsLeaveMemoryUntilCommit : Obligations.InstructionsLeaveMemoryUntilCommit := by
  intro ins op f s i t x hw hterm hr hn hx hoff
  rcases exec_of_word hw with ⟨body, he⟩ | ⟨-, r, hinfo, hr'⟩
  swap
  · rw [hterm r hinfo] at hr'
    cases hr'
  rw [he] at hn
  obtain ⟨hs, hk, -, hempty, -, -, -, -, p, hp⟩ := readyAt_some hr
  obtain ⟨-, -, hg, hxx⟩ := standing_some hs
  have hg' : i.s.group? i.g = some i.grp := by rw [hp]; exact hg
  cases hres : body i (capture i).words with
  | error tr =>
    obtain ⟨u, hu, hstay⟩ := issueOn_error_stays body hr hres
    obtain rfl : u = t := by simpa [hu] using hn
    rw [hstay x hx] at hoff
    omega
  | ok res =>
    have hstep : issueOn op.toNat f body s
        = .next (if i.stalls (capture i) res then i.s else applyIssue i (capture i) i.x.word res) := by
      simp [issueOn, hs, hk, issueBody, handBackFor, firstSome, hempty, served_self, hres]
    obtain rfl := Host.Outcome.next.inj (hstep.symm.trans hn)
    split at hx
    · rw [State.execAt_of_group hg', hxx] at hx
      rw [← Option.some.inj hx] at hoff
      omega
    next hstalls =>
      rw [if_neg hstalls]
      obtain ⟨hmem, hctxs, hcores, y, hy, hsame⟩ := applyIssue_uncommitted (capture i) i.x.word res hg' hx
      have hs' : i.s.mem = s.mem ∧ i.s.ctxs = s.ctxs ∧ i.s.cores = s.cores := by rw [hp]; exact ⟨rfl, rfl, rfl⟩
      exact ⟨hmem.trans hs'.1, hctxs.trans hs'.2.1, fun c hc => by rw [hcores c hc, hs'.2.2], y, hy, hsame.regs, hsame.preds, hsame.uregs,
        hsame.sr, hsame.srseed⟩

end Sys2Proof.Machine
end

section

/-! The checks of an instruction at issue, seen where they fail: the first that does gives the trap (O56). -/

namespace Sys2Proof.Machine

/-! ### Traps of an instruction's meaning -/

/-- A cause of a trap that an instruction takes at itself and that is not skipped on return (R366). -/
abbrev TrapCause (c : Nat) : Prop := c < 64 ∨ 80 ≤ c ∧ c < 256

/-- An instruction takes a trap wherever it is ready and something holds of it. -/
def Traps (ins : Instr) (P : Iss → Table (List Word) → Prop) (t : Iss → Trap) : Prop :=
  ∀ op f s i, wordOf ins = some (op, f) → readyAt op.toNat f s = some i → i.grp.shadowBehind i.x.off = false → P i (capture i).words →
    exec ins s = .next (((i.s.leave i.g i.now []).clockTo i.g.core i.now).takeTrap i.g (t i) i.x.off false false)

theorem traps_of_body {ins : Instr} {op : BitVec 8} {f : Fields} {P : Iss → Table (List Word) → Prop} {t : Iss → Trap} (body : Body)
    (hw : wordOf ins = some (op, f)) (hc : ∀ i, P i (capture i).words → TrapCause (t i).cause)
    (hb : ∀ i, i.op = op.toNat → i.f = f → P i (capture i).words → body i (capture i).words = .error (t i))
    (he : ∀ s, exec ins s = issueOn op.toNat f body s := by exact fun _ => rfl) : Traps ins P t := by
  intro op' f' s i hw' hr hg hP
  obtain ⟨rfl, rfl⟩ : op = op' ∧ f = f' := by simpa [hw] using hw'
  obtain ⟨-, -, -, -, -, -, hop, hf, -⟩ := readyAt_some hr
  have hcause := hc i hP
  have hskip : (64 ≤ (t i).cause && (t i).cause < 80) = false := by simp; omega
  rw [he, issueOn_trap body hr hg (hb i hop hf hP), State.stopAt, if_neg (by omega), hskip]

/-! ### The checks of a tile use -/

theorem tileCheck_mask {i : Iss} {t : Nat × Tile} {need : Nat} (h : maskCode i.x.mask t.1 < need) :
    tileCheck i t need = some ⟨92, i.named i.acting, 0, 0⟩ := if_pos h

theorem tileCheck_undef {i : Iss} {t : Nat × Tile} {need : Nat} (hmask : need ≤ maskCode i.x.mask t.1) (h : t.2.state = .undef) :
    tileCheck i t need = some ⟨91, i.named i.acting, 0, 0⟩ := by
  rw [tileCheck, if_neg (Nat.not_lt.mpr hmask), if_pos h]; rfl

theorem tileCheck_atomic {i : Iss} {t : Nat × Tile} {need : Nat} (hmask : need ≤ maskCode i.x.mask t.1) (hstate : t.2.state ≠ .undef)
    (h : t.2.atomic = true) : tileCheck i t need = some ⟨90, i.named i.acting, 0, 0⟩ := by
  rw [tileCheck, if_neg (Nat.not_lt.mpr hmask), if_neg hstate, if_pos h]; rfl

/-- A tile may not be used, for the first reason that there is. -/
def Misuses (ins : Instr) (need : Nat) (P : Iss → Prop) : Prop :=
  Traps ins (fun i ws => actingWords i ws ≠ [] ∧ P i ∧ maskCode i.x.mask (i.tile i.o.sa).1 < need) (fun i => ⟨92, i.named i.acting, 0, 0⟩)
  ∧ Traps ins (fun i ws => actingWords i ws ≠ [] ∧ P i ∧ need ≤ maskCode i.x.mask (i.tile i.o.sa).1 ∧ (i.tile i.o.sa).2.state = .undef)
      (fun i => ⟨91, i.named i.acting, 0, 0⟩)
  ∧ Traps ins (fun i ws => actingWords i ws ≠ [] ∧ P i ∧ need ≤ maskCode i.x.mask (i.tile i.o.sa).1 ∧ (i.tile i.o.sa).2.state ≠ .undef
        ∧ (i.tile i.o.sa).2.atomic = true)
      (fun i => ⟨90, i.named i.acting, 0, 0⟩)

theorem misuses_of_body {ins : Instr} {op : BitVec 8} {f : Fields} {need : Nat} {P : Iss → Prop} (body : Body) (hw : wordOf ins = some (op, f))
    (hb : ∀ i tr, actingWords i (capture i).words ≠ [] → P i → tileCheck i (i.tile i.o.sa) need = some tr →
      body i (capture i).words = .error tr)
    (he : ∀ s, exec ins s = issueOn op.toNat f body s := by exact fun _ => rfl) : Misuses ins need P := by
  refine ⟨traps_of_body body hw (fun _ _ => (by decide : TrapCause 92)) (fun i _ _ ⟨hne, hP, hmask⟩ => hb i _ hne hP (tileCheck_mask hmask)) he,
    traps_of_body body hw (fun _ _ => (by decide : TrapCause 91))
      (fun i _ _ ⟨hne, hP, hmask, hstate⟩ => hb i _ hne hP (tileCheck_undef hmask hstate)) he,
    traps_of_body body hw (fun _ _ => (by decide : TrapCause 90))
      (fun i _ _ ⟨hne, hP, hmask, hstate, hatomic⟩ => hb i _ hne hP (tileCheck_atomic hmask hstate hatomic)) he⟩

/-! ### The checks of the lanes' offsets -/

/-- The acting lanes with their offsets, in units of `k` bytes. -/
def accessOffs (k : Nat) (i : Iss) (ws : Table (List Word)) : List (Nat × Nat) :=
  (actingWords i ws).map (fun p => (p.1, (lastWord i p.2 0).toNat * k))

theorem accessOffs_one (i : Iss) (ws : Table (List Word)) :
    accessOffs 1 i ws = (actingWords i ws).map (fun p => (p.1, (lastWord i p.2 0).toNat)) := by
  simp [accessOffs]

theorem actingWords_ne_nil_of_filter {k : Nat} {i : Iss} {ws : Table (List Word)} {q : Nat × Nat → Bool} {p : Nat × Nat} {rest : List (Nat × Nat)}
    (h : (accessOffs k i ws).filter q = p :: rest) : actingWords i ws ≠ [] := by
  intro hnil
  rw [accessOffs, hnil] at h
  cases h

/-- The trap of a check of the lanes' offsets: every failing lane, and the operand of the lowest (R152). -/
def offsetTrap (i : Iss) (cause l o : Nat) (rest : List (Nat × Nat)) : Trap :=
  ⟨cause, i.named (l :: rest.map (·.1)), o % 2 ^ 64, (i.tile i.o.sa).1⟩

/-- An instruction traps where some lane's offset fails a check. -/
def Fails (ins : Instr) (cause : Nat) (P : Iss → Table (List Word) → Prop) (k : Iss → Nat) (bad : Iss → Nat → Bool) : Prop :=
  ∀ l o rest, Traps ins (fun i ws => P i ws ∧ (accessOffs (k i) i ws).filter (fun p => bad i p.2) = (l, o) :: rest)
    (fun i => offsetTrap i cause l o rest)

theorem fails_of_body {ins : Instr} {op : BitVec 8} {f : Fields} {cause : Nat} {P : Iss → Table (List Word) → Prop} {k : Iss → Nat}
    {bad : Iss → Nat → Bool} (body : Body) (hw : wordOf ins = some (op, f)) (hc : TrapCause cause)
    (hb : ∀ i l o rest, i.op = op.toNat → P i (capture i).words →
      (accessOffs (k i) i (capture i).words).filter (fun p => bad i p.2) = (l, o) :: rest →
      body i (capture i).words = .error (offsetTrap i cause l o rest))
    (he : ∀ s, exec ins s = issueOn op.toNat f body s := by exact fun _ => rfl) : Fails ins cause P k bad :=
  fun l o rest => traps_of_body body hw (fun _ _ => hc) (fun i hop _ ⟨hP, hbad⟩ => hb i l o rest hop hP hbad) he

/-- No lane's offset fails a check. -/
def Sound (k : Iss → Nat) (bad : Iss → Nat → Bool) (i : Iss) (ws : Table (List Word)) : Prop := ∀ p ∈ accessOffs (k i) i ws, bad i p.2 = false

theorem filter_of_sound {k : Iss → Nat} {bad : Iss → Nat → Bool} {i : Iss} {ws : Table (List Word)} (h : Sound k bad i ws) :
    (accessOffs (k i) i ws).filter (fun p => bad i p.2) = [] :=
  List.filter_eq_nil_iff.mpr fun p hp => by simp [h p hp]

/-! ### Accesses to bytes -/

/-- Whether an access of the instruction's size goes beyond the tile. -/
def pastTile (i : Iss) (o : Nat) : Bool := decide ((i.tile i.o.sa).2.bytes < o + accessSize (i.f.fn.toNat % 8))

/-- The checks of an access to bytes, in their order (R152). -/
def byteFault (need k : Nat) (i : Iss) (ws : Table (List Word)) : Option Trap :=
  (tileCheck i (i.tile i.o.sa) need).or (boundsCheck i (i.tile i.o.sa) (accessSize (i.f.fn.toNat % 8)) (accessOffs k i ws))

/-- A meaning of an access to bytes makes the checks first, where a lane acts. -/
def Body.ChecksBytes (body : Body) (need : Nat) (k : Iss → Nat) : Prop :=
  ∀ i ws tr, actingWords i ws ≠ [] → byteFault need (k i) i ws = some tr → body i ws = .error tr

/-- The traps of an access to bytes. -/
def BytesTrap (ins : Instr) (need : Nat) (k : Iss → Nat) : Prop :=
  Misuses ins need (fun _ => True)
  ∧ Fails ins 88 (fun i _ => i.Usable need) k pastTile
  ∧ Fails ins 89 (fun i ws => i.Usable need ∧ Sound k pastTile i ws) k (fun i o => o % accessSize (i.f.fn.toNat % 8) != 0)

theorem bytesTrap_of_body {ins : Instr} {op : BitVec 8} {f : Fields} {need : Nat} {k : Iss → Nat} (body : Body) (hw : wordOf ins = some (op, f))
    (hb : body.ChecksBytes need k) (he : ∀ s, exec ins s = issueOn op.toNat f body s := by exact fun _ => rfl) : BytesTrap ins need k := by
  refine ⟨misuses_of_body body hw (fun i tr hne _ htile => hb i _ tr hne (by rw [byteFault, htile]; rfl)) he,
    fails_of_body body hw (by decide) (fun i l o rest _ husable hbad => ?_) he,
    fails_of_body body hw (by decide) (fun i l o rest _ ⟨husable, hsound⟩ hbad => ?_) he⟩
  · refine hb i _ _ (actingWords_ne_nil_of_filter hbad) ?_
    have hpast : (accessOffs (k i) i (capture i).words).filter
      (fun p => decide ((i.tile i.o.sa).2.bytes < p.2 + accessSize (i.f.fn.toNat % 8))) = (l, o) :: rest := hbad
    rw [byteFault, tileCheck_usable husable, boundsCheck, hpast]
    rfl
  · refine hb i _ _ (actingWords_ne_nil_of_filter hbad) ?_
    have hpast : (accessOffs (k i) i (capture i).words).filter
      (fun p => decide ((i.tile i.o.sa).2.bytes < p.2 + accessSize (i.f.fn.toNat % 8))) = [] := filter_of_sound hsound
    rw [byteFault, tileCheck_usable husable, boundsCheck, hpast, hbad]
    rfl

theorem loadBody_checksBytes (scaled : Bool) : (loadBody scaled).ChecksBytes 1 (fun i => if scaled then accessSize (i.f.fn.toNat % 8) else 1) := by
  intro i ws tr hne h
  unfold loadBody
  dsimp only
  rw [if_neg (by simpa using hne)]
  change (match byteFault 1 (if scaled then accessSize (i.f.fn.toNat % 8) else 1) i ws with | some tr => _ | none => _) = _
  rw [h]

theorem bodySt_checksBytes : bodySt.ChecksBytes 2 (fun _ => 1) := by
  intro i ws tr hne h
  unfold bodySt
  dsimp only
  rw [if_neg (by simpa using hne), List.map_map]
  have hoffs : (actingWords i ws).map ((fun p : Nat × Nat × List Word => (p.1, p.2.1)) ∘
      fun p => (p.1, (lastWord i p.2 0).toNat, p.2.drop (if immForm i.r i.f then 0 else 1))) = accessOffs 1 i ws := (accessOffs_one i ws).symm
  rw [hoffs, show (tileCheck i (i.tile i.o.sa) 2).or (boundsCheck i (i.tile i.o.sa) (accessSize (i.f.fn.toNat % 8)) (accessOffs 1 i ws)) = some tr
    from h]

/-! ### Accesses to elements -/

/-- Whether an access takes two elements: LDF to a packed word (R154). -/
def secondElement (i : Iss) : Nat := if i.op = 0xA3 ∧ i.f.fn.toNat % 8 = 1 then 1 else 0

/-- Whether an access of elements goes beyond the tile. -/
def beyondTile (i : Iss) (e : Nat) : Bool := decide ((i.tile i.o.sa).2.nelem ≤ e + secondElement i)

/-- The checks of an access to elements, in their order (R154, R156). -/
def elementFault (need : Nat) (i : Iss) (ws : Table (List Word)) : Option Trap :=
  ((tileCheck i (i.tile i.o.sa) need).or (formatCheck i (i.tile i.o.sa))).or
    ((laneCheck i 88 (i.tile i.o.sa).1 ((accessOffs 1 i ws).filter (fun p => beyondTile i p.2))).or
      (laneCheck i 89 (i.tile i.o.sa).1 ((accessOffs 1 i ws).filter (fun p => secondElement i == 1 && p.2 % 2 == 1))))

/-- A meaning of an opcode's access to elements makes the checks first, where a lane acts. -/
def Body.ChecksElements (body : Body) (op need : Nat) : Prop :=
  ∀ i ws tr, i.op = op → actingWords i ws ≠ [] → elementFault need i ws = some tr → body i ws = .error tr

/-- A tile may be used and its format is valid. -/
def Iss.Formed (i : Iss) (need : Nat) : Prop :=
  i.Usable need ∧ (i.tile i.o.sa).2.fmt ≠ 0#5 ∧ formatFault (i.tile i.o.sa).2.fmt.toNat (i.tile i.o.sa).2.geom.toNat = none

/-- The traps of an access to elements, but for that of an odd pair. -/
def ElementsTrap (ins : Instr) (need : Nat) : Prop :=
  Misuses ins need (fun _ => True)
  ∧ Traps ins (fun i ws => actingWords i ws ≠ [] ∧ i.Usable need ∧ (i.tile i.o.sa).2.fmt = 0#5) (fun i => ⟨94, i.named i.acting, 0, 0⟩)
  ∧ (∀ c, Traps ins (fun i ws => actingWords i ws ≠ [] ∧ i.Usable need ∧ (i.tile i.o.sa).2.fmt ≠ 0#5
        ∧ formatFault (i.tile i.o.sa).2.fmt.toNat (i.tile i.o.sa).2.geom.toNat = some c) (fun i => ⟨c, i.named i.acting, 0, 0⟩))
  ∧ Fails ins 88 (fun i _ => i.Formed need) (fun _ => 1) beyondTile

theorem trapCause_of_formatFault {fmt geom c : Nat} (h : formatFault fmt geom = some c) : TrapCause c := by
  unfold formatFault at h
  split at h
  · cases h; decide
  · split at h
    · cases h; decide
    · split at h
      · cases h; decide
      · cases h

theorem elementsTrap_of_body {ins : Instr} {op : BitVec 8} {f : Fields} {need : Nat} (body : Body) (hw : wordOf ins = some (op, f))
    (hb : body.ChecksElements op.toNat need) (he : ∀ s, exec ins s = issueOn op.toNat f body s := by exact fun _ => rfl) :
    ElementsTrap ins need := by
  have hmisuse : ∀ (i : Iss) tr, i.op = op.toNat → actingWords i (capture i).words ≠ [] → tileCheck i (i.tile i.o.sa) need = some tr →
      body i (capture i).words = .error tr := fun i tr hop hne htile => hb i _ tr hop hne (by rw [elementFault, htile]; rfl)
  refine ⟨⟨traps_of_body body hw (fun _ _ => (by decide : TrapCause 92)) (fun i hop _ ⟨hne, _, hmask⟩ => hmisuse i _ hop hne (tileCheck_mask hmask)) he,
    traps_of_body body hw (fun _ _ => (by decide : TrapCause 91))
      (fun i hop _ ⟨hne, _, hmask, hstate⟩ => hmisuse i _ hop hne (tileCheck_undef hmask hstate)) he,
    traps_of_body body hw (fun _ _ => (by decide : TrapCause 90))
      (fun i hop _ ⟨hne, _, hmask, hstate, hatomic⟩ => hmisuse i _ hop hne (tileCheck_atomic hmask hstate hatomic)) he⟩,
    traps_of_body body hw (fun _ _ => (by decide : TrapCause 94)) (fun i hop _ ⟨hne, husable, hfmt⟩ => ?_) he,
    fun c => traps_of_body body hw (fun i h => trapCause_of_formatFault h.2.2.2) (fun i hop _ ⟨hne, husable, hfmt, hform⟩ => ?_) he,
    fails_of_body body hw (by decide) (fun i l o rest hop ⟨husable, hfmt, hform⟩ hbad => ?_) he⟩
  · exact hb i _ _ hop hne (by rw [elementFault, tileCheck_usable husable, formatCheck, if_pos hfmt]; rfl)
  · exact hb i _ _ hop hne (by rw [elementFault, tileCheck_usable husable, formatCheck, if_neg hfmt, hform]; rfl)
  · exact hb i _ _ hop (actingWords_ne_nil_of_filter hbad)
      (by rw [elementFault, tileCheck_usable husable, formatCheck_ok hfmt hform, hbad]; rfl)

theorem bodyLdf_checksElements : bodyLdf.ChecksElements 0xA3 1 := by
  intro i ws tr hop hne h
  have hsecond : ∀ e, e + b2n (i.f.fn.toNat % 8 == 1) = e + secondElement i := by
    intro e
    by_cases hp : i.f.fn.toNat % 8 = 1 <;> simp [secondElement, hop, hp, b2n]
  have hpair : (i.f.fn.toNat % 8 == 1) = (secondElement i == 1) := by
    by_cases hp : i.f.fn.toNat % 8 = 1 <;> simp [secondElement, hop, hp]
  rw [elementFault, accessOffs_one] at h
  simp only [beyondTile, ← hsecond, ← hpair] at h
  unfold bodyLdf
  dsimp only
  rw [if_neg (by simpa using hne), h]

theorem bodyStf_checksElements : bodyStf.ChecksElements 0xA4 2 := by
  intro i ws tr hop hne h
  have hsecond : secondElement i = 0 := if_neg (by simp [hop])
  have hoffs : (((actingWords i ws).map (fun p => (p.1, (lastWord i p.2 0).toNat, nth p.2 (if immForm i.r i.f then 0 else 1) 0#32))).filter
        (fun p => decide ((i.tile i.o.sa).2.nelem ≤ p.2.1))).map (fun p => (p.1, p.2.1))
      = (accessOffs 1 i ws).filter (fun p => beyondTile i p.2) := by
    rw [accessOffs_one, List.filter_map, List.filter_map, List.map_map]
    simp only [beyondTile, hsecond]
    rfl
  rw [elementFault, hsecond] at h
  have hodd : (accessOffs 1 i ws).filter (fun p => (0 : Nat) == 1 && p.2 % 2 == 1) = [] := List.filter_eq_nil_iff.mpr (by simp)
  rw [hodd, laneCheck_nil, Option.or_none] at h
  unfold bodyStf
  dsimp only
  rw [if_neg (by simpa using hne), hoffs, h]

/-- An odd first element of LDF to a packed word traps (R154). -/
theorem ldf_fails_odd {ins : Instr} {f : Fields} (hw : wordOf ins = some (0xA3#8, f)) (he : ∀ s, exec ins s = issueOn 0xA3 f bodyLdf s) :
    Fails ins 89 (fun i ws => i.Formed 1 ∧ i.f.fn.toNat % 8 = 1 ∧ Sound (fun _ => 1) beyondTile i ws) (fun _ => 1) (fun _ o => o % 2 == 1) := by
  refine fails_of_body bodyLdf hw (by decide) (fun i l o rest hop ⟨⟨husable, hfmt, hform⟩, hfn, hsound⟩ hbad => ?_) he
  have hsecond : secondElement i = 1 := if_pos ⟨hop, hfn⟩
  refine bodyLdf_checksElements i _ _ hop (actingWords_ne_nil_of_filter hbad) ?_
  have hodd : (accessOffs 1 i (capture i).words).filter (fun p => secondElement i == 1 && p.2 % 2 == 1) = (l, o) :: rest := by
    rw [hsecond]; exact hbad
  rw [elementFault, tileCheck_usable husable, formatCheck_ok hfmt hform, filter_of_sound hsound, hodd]
  rfl

/-! ### Blocks of a tile: the card of JOB, the chain of MXGO -/

/-- The offset that the leading lane gives. -/
def leadOffset (i : Iss) (ws : Table (List Word)) : Nat := (nth (leadWords i ws) 0 0#32).toNat

/-- The traps of an access of the leading lane to `len` bytes at a multiple of `unit`. -/
def BlockTraps (ins : Instr) (unit len : Nat) (P : Iss → Prop) : Prop :=
  Traps ins (fun i ws => i.acting ≠ [] ∧ P i ∧ i.Usable 1 ∧ leadOffset i ws % unit ≠ 0)
    (fun i => ⟨89, i.acting, leadOffset i (capture i).words, (i.tile i.o.sa).1⟩)
  ∧ Traps ins (fun i ws => i.acting ≠ [] ∧ P i ∧ i.Usable 1 ∧ leadOffset i ws % unit = 0 ∧ (i.tile i.o.sa).2.bytes < leadOffset i ws + len)
    (fun i => ⟨88, i.acting, leadOffset i (capture i).words, (i.tile i.o.sa).1⟩)

/-- What the checks of a block give, in their order. -/
def blockFault (unit len : Nat) (i : Iss) (ws : Table (List Word)) : Option Trap :=
  (tileCheck i (i.tile i.o.sa) 1).or (if leadOffset i ws % unit ≠ 0 then some ⟨89, i.acting, leadOffset i ws, (i.tile i.o.sa).1⟩
    else if (i.tile i.o.sa).2.bytes < leadOffset i ws + len then some ⟨88, i.acting, leadOffset i ws, (i.tile i.o.sa).1⟩ else none)

/-- A meaning makes the checks of a block first, where a lane acts. -/
def Body.ChecksBlock (body : Body) (unit len : Nat) (P : Iss → Prop) : Prop :=
  ∀ i ws tr, i.acting ≠ [] → P i → blockFault unit len i ws = some tr → body i ws = .error tr

theorem acting_ne_nil_of_actingWords {i : Iss} {ws : Table (List Word)} (h : actingWords i ws ≠ []) : i.acting ≠ [] :=
  fun hnil => h (by rw [actingWords, hnil]; rfl)

theorem blockTraps_of_body {ins : Instr} {op : BitVec 8} {f : Fields} {unit len : Nat} {P : Iss → Prop} (body : Body)
    (hw : wordOf ins = some (op, f)) (hb : body.ChecksBlock unit len P)
    (he : ∀ s, exec ins s = issueOn op.toNat f body s := by exact fun _ => rfl) : Misuses ins 1 P ∧ BlockTraps ins unit len P := by
  refine ⟨misuses_of_body body hw
      (fun i tr hne hP htile => hb i _ tr (acting_ne_nil_of_actingWords hne) hP (by rw [blockFault, htile]; rfl)) he,
    traps_of_body body hw (fun _ _ => (by decide : TrapCause 89)) (fun i _ _ ⟨hne, hP, husable, halign⟩ => hb i _ _ hne hP ?_) he,
    traps_of_body body hw (fun _ _ => (by decide : TrapCause 88)) (fun i _ _ ⟨hne, hP, husable, halign, hbound⟩ => hb i _ _ hne hP ?_) he⟩
  · rw [blockFault, tileCheck_usable husable, if_pos halign]; rfl
  · rw [blockFault, tileCheck_usable husable, if_neg (not_not.mpr halign), if_pos hbound]; rfl

/-- Making the checks of a block, one after the other, gives the trap of the first that fails, whatever follows them. -/
theorem checks_of_blockFault {unit len : Nat} {i : Iss} {ws : Table (List Word)} {tr : Trap} (h : blockFault unit len i ws = some tr)
    (next : Except Trap Res) : (match tileCheck i (i.tile i.o.sa) 1 with
      | some tr => Except.error tr
      | none => if leadOffset i ws % unit ≠ 0 then Except.error ⟨89, i.acting, leadOffset i ws, (i.tile i.o.sa).1⟩
        else if (i.tile i.o.sa).2.bytes < leadOffset i ws + len then Except.error ⟨88, i.acting, leadOffset i ws, (i.tile i.o.sa).1⟩
        else next) = Except.error tr := by
  rw [blockFault] at h
  cases htile : tileCheck i (i.tile i.o.sa) 1 with
  | some t =>
    rw [htile] at h
    exact congrArg _ (Option.some.inj h)
  | none =>
    rw [htile, Option.none_or] at h
    split at h
    next halign => rw [← Option.some.inj h]; exact if_pos halign
    next halign =>
      split at h
      next hbound => rw [← Option.some.inj h]; exact (if_neg halign).trans (if_pos hbound)
      next => cases h

theorem bodyJob_checksBlock : bodyJob.ChecksBlock 64 64 (fun _ => True) := by
  intro i ws tr hne _ h
  unfold bodyJob
  dsimp only
  rw [if_neg (by simpa using hne)]
  exact checks_of_blockFault h _

/-- What MXGO checks before its tile: the core has a matrix engine, and the trace no earlier MXGO (R224). -/
def firstMxgo (i : Iss) : Prop := isLcore i.g.core = false ∧ i.x.cameBefore i.f.enc [0xD3] = false

theorem bodyMxgo_checksBlock : bodyMxgo.ChecksBlock 16 16 firstMxgo := by
  intro i ws tr hne ⟨hcore, hfirst⟩ h
  unfold bodyMxgo
  dsimp only
  rw [featureAbsent_none hcore]
  dsimp only
  rw [if_neg (by simp [hfirst]), if_neg (by simpa using hne)]
  exact checks_of_blockFault h _

end Sys2Proof.Machine
end

section

/-! The traps of the tile instructions, of the accumulators, of control registers, returns and barriers, and of opcodes that the map does not
assign (O56). -/

namespace Sys2Proof.Machine

/-! ### Tile instructions (R157 to R159) -/

/-- The definition that TDEF gives is the same in every acting lane, and valid for its tile as it stood at the trace head (R158). -/
def tdefSound (i : Iss) (ws : Table (List Word)) : Bool :=
  allSame i ws && tdefValid i.teamAtHead (dstTile i) (nth (leadWords i ws) 0 0#32).toNat (nth (leadWords i ws) 1 0#32).toNat

section
variable {i : Iss} {ws : Table (List Word)}

theorem bodyTdef_queue (hne : i.acting ≠ []) (hq : i.tm.isQueueTile (dstTile i) = true) : bodyTdef i ws = .error ⟨91, i.acting, 0, 0⟩ := by
  unfold bodyTdef
  dsimp only
  rw [if_neg (by simpa using hne), if_pos hq]
  rfl

theorem bodyTdef_unsound (hne : i.acting ≠ []) (hq : i.tm.isQueueTile (dstTile i) = false) (hv : tdefSound i ws = false) :
    bodyTdef i ws = .error ⟨93, i.acting, 0, 0⟩ := by
  unfold bodyTdef
  dsimp only
  rw [if_neg (by simpa using hne), if_neg (by simp [hq]), if_pos (by rw [← Bool.not_and]; exact (Bool.not_eq_true' _).mpr hv)]
  rfl

theorem bodyTdef_moving (hne : i.acting ≠ []) (hq : i.tm.isQueueTile (dstTile i) = false) (hv : tdefSound i ws = true)
    (hm : (i.teamSoFar.tile (dstTile i)).state = .filling ∨ (i.teamSoFar.tile (dstTile i)).state = .draining) :
    bodyTdef i ws = .error ⟨91, i.acting, 0, 0⟩ := by
  have hnot : ¬ (!allSame i ws || !tdefValid i.teamAtHead (dstTile i) (nth (leadWords i ws) 0 0#32).toNat (nth (leadWords i ws) 1 0#32).toNat) = true := by
    rw [← Bool.not_and, Bool.not_eq_true, Bool.not_eq_false']
    exact hv
  unfold bodyTdef
  dsimp only
  rw [if_neg (by simpa using hne), if_neg (by simp [hq]), if_neg hnot, if_pos hm]
  rfl

theorem bodyTrel_queue (hne : i.acting ≠ []) (hq : i.tm.isQueueTile (dstTile i) = true) : bodyTrel i ws = .error ⟨91, i.acting, 0, 0⟩ :=
  if_pos (by simp [hne, hq])

theorem bodyTpost_queue (hne : i.acting ≠ []) (hq : i.tm.isQueueTile (dstTile i) = true) : bodyTpost i ws = .error ⟨91, i.acting, 0, 0⟩ :=
  if_pos (by simp [hne, hq])

theorem bodyTpost_unready (hne : i.acting ≠ []) (hs : (groupTile i.tm i.grp (dstTile i)).state ≠ .ready) :
    bodyTpost i ws = .error ⟨91, i.acting, 0, 0⟩ :=
  if_pos (by simp [hne, hs])

/-! ### Accumulators (R237, R239) -/

theorem accCheck_beyond {l o : Nat} {rest : List (Nat × Nat)} {es : List (Nat × Nat)}
    (h : es.filter (fun p => decide (16384 ≤ p.2)) = (l, o) :: rest) :
    accCheck i es = some ⟨95, i.named (l :: rest.map (·.1)), 0, 0⟩ := by
  rw [accCheck, h]; rfl

theorem bodyAccrd_beyond {l o : Nat} {rest : List (Nat × Nat)} (h : (accessOffs 1 i ws).filter (fun p => decide (16384 ≤ p.2)) = (l, o) :: rest) :
    bodyAccrd i ws = .error ⟨95, i.named (l :: rest.map (·.1)), 0, 0⟩ := by
  rw [accessOffs_one] at h
  unfold bodyAccrd
  dsimp only
  rw [accCheck_beyond h, Option.some_or]

/-- The checks of ACCWR, in their order (R239). -/
def accwrFault (i : Iss) (ws : Table (List Word)) : Option Trap :=
  (accCheck i (accessOffs 1 i ws)).or ((tileCheck i (i.tile i.o.sa) 1).or
    (laneCheck i 88 (i.tile i.o.sa).1 ((accessOffs 4 i ws).filter (fun p => decide ((i.tile i.o.sa).2.bytes < p.2 + 4)))))

theorem bodyAccwr_of_fault {tr : Trap} (hne : actingWords i ws ≠ []) (h : accwrFault i ws = some tr) : bodyAccwr i ws = .error tr := by
  have hoffs : (((actingWords i ws).map (fun p => (p.1, (lastWord i p.2 0).toNat))).filter
        (fun p => decide ((i.tile i.o.sa).2.bytes < 4 * p.2 + 4))).map (fun p => (p.1, 4 * p.2))
      = (accessOffs 4 i ws).filter (fun p => decide ((i.tile i.o.sa).2.bytes < p.2 + 4)) := by
    simp only [accessOffs, List.filter_map, List.map_map, Function.comp_def, Nat.mul_comm 4]
  rw [accwrFault, accessOffs_one] at h
  unfold bodyAccwr
  dsimp only
  rw [if_neg (by simpa using hne), hoffs, h]

/-! ### Control registers, returns and barriers -/

theorem csrwBody_gangwait (hne : i.acting ≠ []) (hn : immField i.f % 256 = 0x0F) (hp : i.grp.priv = false) :
    csrwBody i ws = .error ⟨86, i.acting, 0, 0⟩ :=
  if_pos (by simp [hne, hn, hp, csrDenied])

theorem rettBody_outside (abort : Bool) (hne : i.acting ≠ []) (hm : i.grp.hm = false) : rettBody abort i ws = .error ⟨85, i.acting, 0, 0⟩ :=
  if_pos (by simp [hne, hm])

theorem arriveBody_second (e : Nat → Nat → GroupEff) (h : i.x.cameBefore i.f.enc [0xC0, 0xC1] = true) :
    arriveBody e i ws = .error ⟨encCause i.f.enc 3, i.here, 0, 0⟩ :=
  if_pos h

end

/-- An arrival after another of its trace traps (R286). -/
theorem traps_second_arrival {ins : Instr} {op : BitVec 8} {f : Fields} (e : Nat → Nat → GroupEff) (hw : wordOf ins = some (op, f))
    (he : ∀ s, exec ins s = issueOn op.toNat f (arriveBody e) s) :
    Traps ins (fun i _ => i.x.cameBefore i.f.enc [0xC0, 0xC1] = true) (fun i => ⟨encCause i.f.enc 3, i.here, 0, 0⟩) :=
  traps_of_body (arriveBody e) hw (fun i _ => .inl (encCause_lt_64 i.f.enc (by decide))) (fun _ _ _ h => arriveBody_second e h) he

/-- A return outside handler mode traps (R369). -/
theorem traps_rett {ins : Instr} {op : BitVec 8} {f : Fields} (abort : Bool) (hw : wordOf ins = some (op, f))
    (he : ∀ s, exec ins s = issueOn op.toNat f (rettBody abort) s) :
    Traps ins (fun i _ => i.acting ≠ [] ∧ i.grp.hm = false) (fun i => ⟨85, i.acting, 0, 0⟩) :=
  traps_of_body (rettBody abort) hw (fun _ _ => (by decide : TrapCause 85)) (fun _ _ _ ⟨hne, hm⟩ => rettBody_outside abort hne hm) he

/-- An instruction that traps for its tile where a lane acts takes TILE_STATE. -/
theorem traps_tileState {ins : Instr} {op : BitVec 8} {f : Fields} {P : Iss → Table (List Word) → Prop} (body : Body) (hw : wordOf ins = some (op, f))
    (hb : ∀ i, P i (capture i).words → body i (capture i).words = .error ⟨91, i.acting, 0, 0⟩)
    (he : ∀ s, exec ins s = issueOn op.toNat f body s := by exact fun _ => rfl) : Traps ins P (fun i => ⟨91, i.acting, 0, 0⟩) :=
  traps_of_body body hw (fun _ _ => (by decide : TrapCause 91)) (fun i _ _ h => hb i h) he

/-- TDEF of a bad or differing definition traps with TILE_DEF. -/
theorem traps_tdef_unsound {ins : Instr} {op : BitVec 8} {f : Fields} (hw : wordOf ins = some (op, f))
    (he : ∀ s, exec ins s = issueOn op.toNat f bodyTdef s := by exact fun _ => rfl) :
    Traps ins (fun i ws => i.acting ≠ [] ∧ i.tm.isQueueTile (dstTile i) = false ∧ tdefSound i ws = false) (fun i => ⟨93, i.acting, 0, 0⟩) :=
  traps_of_body bodyTdef hw (fun _ _ => (by decide : TrapCause 93)) (fun _ _ _ ⟨hne, hq, hv⟩ => bodyTdef_unsound hne hq hv) he

/-! ### Opcodes that the map does not assign -/

theorem csrwOf_assigned (op : BitVec 8) (f : Fields) : csrwOf f ≠ .illegalOpcode op f := by
  unfold csrwOf
  split <;> exact fun h => nomatch h

/-- An opcode that has a row in the map is that of some instruction. -/
theorem opInfo_of_illegal {op : BitVec 8} {f : Fields} (fn : Nat) (h : ofOp op f = .illegalOpcode op f) : opInfo op.toNat fn = none := by
  cases hinfo : opInfo op.toNat fn with
  | none => rfl
  | some r =>
    exfalso
    unfold opInfo at hinfo
    unfold ofOp at h
    split at hinfo
    case h_119 hop =>
      rw [hop] at h
      exact csrwOf_assigned op f h
    case h_123 => cases hinfo
    all_goals
      next hop =>
        rw [hop] at h
        injection h

theorem checkWord_illegal {op : BitVec 8} {f : Fields} (h : ofOp op f = .illegalOpcode op f) :
    checkWord op.toNat f = .error (if op = 1#8 then 13 else 0) := by
  have hrow : rowOf op.toNat f = none := by
    unfold rowOf
    split
    · rfl
    · exact opInfo_of_illegal _ h
  have hone : op.toNat = 1 ↔ op = 1#8 := ⟨fun h => BitVec.eq_of_toNat_eq h, fun h => by rw [h]; rfl⟩
  rw [checkWord, hrow]
  simp only [hone]

/-- A word of such an opcode traps at its issue, in the cycle in which it begins. -/
theorem exec_illegalOpcode {op : BitVec 8} {f : Fields} {s : State} {g : GRef} {tm : Team} {grp : Group} {x : Exec}
    (hop : ofOp op f = .illegalOpcode op f) (hs : s.standing = some (g, tm, grp, x)) (hb : breakHit s tm x (f.enc == .l9) = none)
    (hg : grp.shadowBehind x.off = false) :
    exec (.illegalOpcode op f) s = .next ((s.clockTo g.core (max x.ready (s.core g.core).cycles)).takeTrap g
      ⟨encCause f.enc (if op = 1#8 then 13 else 0), x.here, 0, 0⟩ x.off false false) := by
  have hword := checkWord_illegal hop
  have hcheck : checkIssue s g tm grp x op.toNat f = .error ⟨encCause f.enc (if op = 1#8 then 13 else 0), x.here, 0, 0⟩ := by
    rw [checkIssue, hword]; rfl
  have htime : issueTime s g tm grp x op.toNat f = max x.ready (s.core g.core).cycles := by
    rw [issueTime, hword]
  have hissue : issueChecks s g tm grp x op.toNat f = .error ⟨encCause f.enc (if op = 1#8 then 13 else 0), x.here, 0, 0⟩ := by
    rw [issueChecks, hb]
    dsimp only
    rw [hcheck]
  have hcause : encCause f.enc (if op = 1#8 then 13 else 0) < 64 := encCause_lt_64 f.enc (by split <;> decide)
  change issueOn op.toNat f _ s = _
  rw [issueOn, hs]
  dsimp only
  rw [hissue]
  dsimp only
  rw [State.trapIn, hg, htime, if_neg (by decide), State.stopAt, if_neg (fun h => by have := h.1; dsimp only at this; omega)]

end Sys2Proof.Machine
end

section

/-! Each failing check of an instruction and the trap that it takes (O56). -/

namespace Sys2Proof.Machine

/-- The lanes' accumulator elements lie beyond the accumulator, from lane `l` on. -/
def BeyondAcc (l o : Nat) (rest : List (Nat × Nat)) (i : Iss) (ws : Table (List Word)) : Prop :=
  (accessOffs 1 i ws).filter (fun p => decide (16384 ≤ p.2)) = (l, o) :: rest

/-- An access beyond the accumulator traps with ACC_BOUNDS. -/
theorem traps_beyondAcc {ins : Instr} {op : BitVec 8} {f : Fields} {l o : Nat} {rest : List (Nat × Nat)} (body : Body)
    (hw : wordOf ins = some (op, f))
    (hb : ∀ i ws, BeyondAcc l o rest i ws → body i ws = .error ⟨95, i.named (l :: rest.map (·.1)), 0, 0⟩)
    (he : ∀ s, exec ins s = issueOn op.toNat f body s := by exact fun _ => rfl) :
    Traps ins (BeyondAcc l o rest) (fun i => ⟨95, i.named (l :: rest.map (·.1)), 0, 0⟩) :=
  traps_of_body body hw (fun _ _ => (by decide : TrapCause 95)) (fun i _ _ h => hb i _ h) he

theorem bodyAccwr_beyond {l o : Nat} {rest : List (Nat × Nat)} {i : Iss} {ws : Table (List Word)} (h : BeyondAcc l o rest i ws) :
    bodyAccwr i ws = .error ⟨95, i.named (l :: rest.map (·.1)), 0, 0⟩ :=
  bodyAccwr_of_fault (actingWords_ne_nil_of_filter h) (by rw [accwrFault, accCheck_beyond h]; rfl)

theorem accCheck_within {i : Iss} {es : List (Nat × Nat)} (h : ∀ p ∈ es, p.2 < 16384) : accCheck i es = none := by
  have hnil : es.filter (fun p => decide (16384 ≤ p.2)) = [] :=
    List.filter_eq_nil_iff.mpr fun p hp => by simpa using h p hp
  rw [accCheck, hnil]

/-- The misuses of the tile that ACCWR reads, where every element is one of the accumulator. -/
theorem accwr_misuses (f : Fields) : Misuses (.accwr f) 1 (fun i => ∀ p ∈ accessOffs 1 i (capture i).words, p.2 < 16384) :=
  misuses_of_body bodyAccwr rfl fun i tr hne hwithin htile =>
    bodyAccwr_of_fault hne (by rw [accwrFault, accCheck_within hwithin, htile]; rfl)

/-- The bounds of the tile that ACCWR reads, where every element is one of the accumulator. -/
theorem accwr_fails (f : Fields) : Fails (.accwr f) 88 (fun i ws => i.Usable 1 ∧ ∀ p ∈ accessOffs 4 i ws, p.2 < 65536) (fun _ => 4)
    (fun i o => decide ((i.tile i.o.sa).2.bytes < o + 4)) := by
  refine fails_of_body bodyAccwr rfl (by decide) fun i l o rest _ ⟨husable, hwithin⟩ hbad => ?_
  have helems : ∀ p ∈ accessOffs 1 i (capture i).words, p.2 < 16384 := by
    rw [accessOffs_one]
    refine List.forall_mem_map.mpr fun p hp => ?_
    have hfour := hwithin _ (List.mem_map_of_mem hp)
    dsimp only at hfour ⊢
    omega
  exact bodyAccwr_of_fault (actingWords_ne_nil_of_filter hbad)
    (by rw [accwrFault, accCheck_within helems, tileCheck_usable husable, hbad]; rfl)

/-- CSRW to GANGWAIT outside the privileged slot traps with CSR_ACCESS. -/
theorem csrwGangwait_traps (f : Fields) : Traps (.csrwGangwait f)
    (fun i _ => i.acting ≠ [] ∧ immField i.f % 256 = 0x0F ∧ i.grp.priv = false) (fun i => ⟨86, i.acting, 0, 0⟩) :=
  traps_of_body csrwBody rfl (fun _ _ => (by decide : TrapCause 86)) fun _ _ _ ⟨hne, hn, hp⟩ => csrwBody_gangwait hne hn hp

/-- TDEF, TREL or TPOST of a queue's tile traps with TILE_STATE. -/
theorem traps_queueTile {ins : Instr} {op : BitVec 8} {f : Fields} (body : Body) (hw : wordOf ins = some (op, f))
    (hb : ∀ i ws, i.acting ≠ [] → i.tm.isQueueTile (dstTile i) = true → body i ws = .error ⟨91, i.acting, 0, 0⟩)
    (he : ∀ s, exec ins s = issueOn op.toNat f body s := by exact fun _ => rfl) :
    Traps ins (fun i _ => i.acting ≠ [] ∧ i.tm.isQueueTile (dstTile i) = true) (fun i => ⟨91, i.acting, 0, 0⟩) :=
  traps_tileState body hw (fun i ⟨hne, hq⟩ => hb i _ hne hq) he

/-- TDEF of a tile that fills or drains traps with TILE_STATE. -/
theorem traps_tdef_moving {ins : Instr} {op : BitVec 8} {f : Fields} (hw : wordOf ins = some (op, f))
    (he : ∀ s, exec ins s = issueOn op.toNat f bodyTdef s := by exact fun _ => rfl) :
    Traps ins (fun i ws => i.acting ≠ [] ∧ i.tm.isQueueTile (dstTile i) = false ∧ tdefSound i ws = true
      ∧ ((i.teamSoFar.tile (dstTile i)).state = .filling ∨ (i.teamSoFar.tile (dstTile i)).state = .draining)) (fun i => ⟨91, i.acting, 0, 0⟩) :=
  traps_tileState bodyTdef hw (fun _ ⟨hne, hq, hv, hm⟩ => bodyTdef_moving hne hq hv hm) he

/-- TPOST of a tile that is not READY traps with TILE_STATE. -/
theorem traps_tpost_unready {ins : Instr} {op : BitVec 8} {f : Fields} (hw : wordOf ins = some (op, f))
    (he : ∀ s, exec ins s = issueOn op.toNat f bodyTpost s := by exact fun _ => rfl) :
    Traps ins (fun i _ => i.acting ≠ [] ∧ (groupTile i.tm i.grp (dstTile i)).state ≠ .ready) (fun i => ⟨91, i.acting, 0, 0⟩) :=
  traps_tileState bodyTpost hw (fun _ ⟨hne, hs⟩ => bodyTpost_unready hne hs) he

/-- Settles O56: each family of instructions makes its checks before all else, in the order that the spec gives, and an opcode without a
row in the map fails the check of its word. -/
theorem checksTrapWithTheCauseOfTheFirstThatFails : Obligations.ChecksTrapWithTheCauseOfTheFirstThatFails :=
  ⟨fun _ _ _ _ _ _ _ _ hop hs hb hg => exec_illegalOpcode hop hs hb hg,
    fun _ => bytesTrap_of_body (loadBody false) rfl (loadBody_checksBytes false),
    fun _ _ _ _ _ => bytesTrap_of_body (loadBody false) rfl (loadBody_checksBytes false),
    fun _ => bytesTrap_of_body (loadBody true) rfl (loadBody_checksBytes true),
    fun _ _ _ _ _ => bytesTrap_of_body (loadBody true) rfl (loadBody_checksBytes true),
    fun _ => bytesTrap_of_body bodySt rfl bodySt_checksBytes,
    fun _ _ _ _ _ => bytesTrap_of_body bodySt rfl bodySt_checksBytes,
    fun _ => elementsTrap_of_body bodyLdf rfl bodyLdf_checksElements,
    fun _ _ _ _ _ => elementsTrap_of_body bodyLdf rfl bodyLdf_checksElements,
    fun _ => elementsTrap_of_body bodyStf rfl bodyStf_checksElements,
    fun _ _ _ _ _ => elementsTrap_of_body bodyStf rfl bodyStf_checksElements,
    fun _ => ldf_fails_odd rfl fun _ => rfl,
    fun _ _ _ _ _ => ldf_fails_odd rfl fun _ => rfl,
    fun _ => (blockTraps_of_body bodyJob rfl bodyJob_checksBlock).1,
    fun _ _ _ _ => (blockTraps_of_body bodyJob rfl bodyJob_checksBlock).1,
    fun _ => (blockTraps_of_body bodyJob rfl bodyJob_checksBlock).2,
    fun _ _ _ _ => (blockTraps_of_body bodyJob rfl bodyJob_checksBlock).2,
    fun _ => (blockTraps_of_body bodyMxgo rfl bodyMxgo_checksBlock).1,
    fun _ => (blockTraps_of_body bodyMxgo rfl bodyMxgo_checksBlock).2,
    fun _ => traps_queueTile bodyTdef rfl fun _ _ => bodyTdef_queue,
    fun _ _ _ _ => traps_queueTile bodyTdef rfl fun _ _ => bodyTdef_queue,
    fun _ => traps_queueTile bodyTrel rfl fun _ _ => bodyTrel_queue,
    fun _ _ => traps_queueTile bodyTrel rfl fun _ _ => bodyTrel_queue,
    fun _ => traps_queueTile bodyTpost rfl fun _ _ => bodyTpost_queue,
    fun _ _ => traps_queueTile bodyTpost rfl fun _ _ => bodyTpost_queue,
    fun _ => traps_tdef_unsound rfl,
    fun _ _ _ _ => traps_tdef_unsound rfl,
    fun _ => traps_tdef_moving rfl,
    fun _ _ _ _ => traps_tdef_moving rfl,
    fun _ => traps_tpost_unready rfl,
    fun _ _ => traps_tpost_unready rfl,
    fun _ _ _ _ => traps_beyondAcc bodyAccrd rfl fun _ _ => bodyAccrd_beyond,
    fun _ _ _ _ => traps_beyondAcc bodyAccwr rfl fun _ _ => bodyAccwr_beyond,
    accwr_misuses, accwr_fails, csrwGangwait_traps,
    fun _ => traps_rett false rfl fun _ => rfl,
    fun _ => traps_rett false rfl fun _ => rfl,
    fun _ => traps_rett true rfl fun _ => rfl,
    fun _ => traps_rett true rfl fun _ => rfl,
    fun _ => traps_second_arrival _ rfl fun _ => rfl,
    fun _ _ _ => traps_second_arrival _ rfl fun _ => rfl,
    fun _ => traps_second_arrival _ rfl fun _ => rfl,
    fun _ _ _ => traps_second_arrival _ rfl fun _ => rfl⟩

end Sys2Proof.Machine
end

section

/-! What one step runs: the instruction at which the focused group's execution stands, or the event that is due (O42, O43). -/

namespace Sys2Proof.Machine

/-- Bytes that decode to one instruction with nothing left over are its one word. -/
theorem decodeWord_of_decode {e : Enc} {bytes : List Byte} {i : Instr} (h : decode e bytes = .ok (i, [])) :
    decodeWord e (BitVec.ofNat 64 (ofBytesLE bytes)) = i := by
  unfold decode at h
  dsimp only at h
  split at h
  · cases h
  next hlen =>
    obtain ⟨hi, hrest⟩ := Prod.mk.inj (Except.ok.inj h)
    rwa [List.take_of_length_le (List.drop_eq_nil_iff.mp hrest)] at hi

/-- Where an execution stands, the group's step is that of its instruction, or its shadow's. -/
theorem groupStep_standing {s : State} {g : GRef} {tm : Team} {grp : Group} {x : Exec} (h : s.arbitrate.standing = some (g, tm, grp, x)) :
    groupStep s = if (s.arbitrate.leadFirst g).1 then exec (decodeWord (s.encOf g) x.word) (s.arbitrate.leadFirst g).2
      else exec .shadowCompare { (s.arbitrate.leadFirst g).2 with subject := { g := g, ok := true } } := by
  unfold groupStep
  rw [h]
  dsimp only
  split <;> next hlead => rw [hlead]; rfl

theorem groupStep_turn {s : State} {i : Instr} {u : Subject} (hs : s.arbitrate.standing = none) (ht : s.turn = some (i, u)) :
    groupStep s = exec i { s with subject := u } := by
  unfold groupStep
  rw [hs, ht]

theorem groupStep_idle {s : State} (hs : s.arbitrate.standing = none) (ht : s.turn = none) : groupStep s = .next s := by
  unfold groupStep
  rw [hs, ht]

theorem step_group {s : State} {g : GRef} {rest : List Turn} (h : s.agenda = .group g :: rest) :
    step s = groupStep { s with agenda := rest, focus := some g } := by
  unfold step
  rw [h]

theorem step_event {s : State} {i : Instr} {u : Subject} {rest : List Turn} (h : s.agenda = .event i u :: rest) (hi : wordOf i = none) :
    step s = exec i { s with agenda := rest, subject := u } := by
  unfold step
  rw [h]
  dsimp only
  rw [if_pos (by rw [hi]; rfl)]

theorem step_start {s : State} (h : s.agenda = []) (hb : s.starting = true) : step s = exec .packageStart s := by
  unfold step
  rw [h]
  exact if_pos hb

theorem step_idle {s : State} (h : s.agenda = []) (hb : s.starting = false) : step s = groupStep s := by
  unfold step
  rw [h]
  exact if_neg (by simp [hb])

theorem leadFirst_unshadowed {s : State} {g : GRef} {grp : Group} (hg : s.group? g = some grp) (h : grp.shadow = false) :
    s.leadFirst g = (true, s) := by
  have hdue : s.shadowDue g = false := by simp [State.shadowDue, hg, h]
  rw [State.leadFirst, hdue]
  rfl

/-- A group inside its run keeps the issue slot. -/
theorem arbitrate_inRun {s : State} {g : GRef} {tm : Team} {grp : Group} {x : Exec} (h : s.standing = some (g, tm, grp, x)) (hx : x.run ≠ 0) :
    s.arbitrate = s := by
  unfold State.arbitrate
  rw [h]
  exact if_pos (.inl hx)

/-- Settles O42: the step of a standing group is that of the word at its offset, which is the one that the bytes decode. -/
theorem stepRunsTheInstruction : Obligations.StepRunsTheInstruction := by
  refine ⟨fun s g tm grp x bytes i hag hst hs hd hw => ?_, fun s g grp => leadFirst_unshadowed,
    fun s g h rest tm grp x bytes i hag hs hd hw => ?_, fun s g tm grp x => arbitrate_inRun⟩
  · rw [step_idle hag hst, groupStep_standing hs, hw, decodeWord_of_decode hd]
  · obtain rfl := decodeWord_of_decode hd
    rw [step_group hag, groupStep_standing hs, hw]
    rfl

/-- Settles O43: the agenda comes first, then the start, then the focused group's turn. -/
theorem stepRunsTheEvent : Obligations.StepRunsTheEvent :=
  ⟨fun _ _ _ _ => step_event, fun _ => step_start, fun _ _ _ hag hst hs ht => (step_idle hag hst).trans (groupStep_turn hs ht),
    fun _ hag hst hs ht => (step_idle hag hst).trans (groupStep_idle hs ht)⟩

end Sys2Proof.Machine
end

section

/-! The requests of the host: management, debug and attestation (O39, O40, O41). -/

namespace Sys2Proof.Machine

/-! ### Changes of what is there -/

/-- A group is changed by its own value alone. -/
theorem modGroup_congr {s : State} {g : GRef} {x : Group} {f h : Group → Group} (hx : s.group? g = some x) (hf : f x = h x) :
    s.modGroup g f = s.modGroup g h := by
  unfold State.group? at hx
  cases ht : s.team? g.core g.slot with
  | none => rw [ht] at hx; cases hx
  | some t =>
    rw [ht] at hx
    have hgroups : t.groups.modify g.grp f = t.groups.modify g.grp h := by
      refine List.ext_getElem? fun n => ?_
      rw [List.getElem?_modify, List.getElem?_modify]
      split
      next hn =>
        subst hn
        have hat : t.groups[g.grp]? = some x := hx
        rw [hat]
        exact congrArg some hf
      · rfl
    unfold State.modGroup State.modTeam
    rw [ht]
    dsimp only
    rw [hgroups]

/-! ### Management requests (R441 to R446) -/

section
variable {s : State} {b : List Byte}

theorem ctxCreate_asked (h : Asked s 1 6 false [(16, 14)] b) (hctx : leAt b 2 2 = 0) :
    exec .ctxCreate s = .next (s.answered (s.createContext b)) := by
  change execCtxCreate s = _
  rw [execCtxCreate, perform_asked h, if_neg (not_not.mpr hctx)]

/-- A context with no later request waiting ends and nothing else is answered. -/
theorem ctxDestroy_asked (h : Asked s 2 0 true [] b) (hlater : s.waiting.filter (fun j => j != s.subject.a && s.requestCtx j == leAt b 2 2) = []) :
    exec .ctxDestroy s = .next (s.answered (some (1, 0), s.destroyContext (leAt b 2 2))) := by
  change execCtxDestroy s = _
  rw [execCtxDestroy, perform_asked h]
  dsimp only
  rw [hlater]
  rfl

theorem unload_asked (h : Asked s 9 0 true [(16, 4)] b) {c : Ctx} {o : CodeObject} (hc : s.ctx? (leAt b 2 2) = some c)
    (ho : tget c.objects (leAt b 16 4) = some o) (hw : s.unloadWaits (leAt b 2 2) (leAt b 16 4) c = false) :
    exec .unload s = .next (s.answered (some (1, 0), s.unloadObject (leAt b 2 2) (leAt b 16 4) o)) := by
  change execUnload s = _
  rw [execUnload, perform_asked h]
  dsimp only
  rw [hc]
  dsimp only
  rw [ho]
  dsimp only
  rw [hw]
  rfl

theorem exportWindow_asked (h : Asked s 10 0 true [(16, 20)] b) (hva : leAt b 16 8 % 4096 = 0) (hlen : leAt b 24 8 % 4096 = 0)
    (hmax : leAt b 24 8 ≤ 2 ^ 40) (hpack : leAt b 32 2 ≤ 143) (hctx : leAt b 34 2 < 4096) :
    exec .exportWindow s
      = .next (s.answered (some (1, 0), { s with exports := ⟨leAt b 2 2, leAt b 16 8, leAt b 24 8, leAt b 32 2, leAt b 34 2⟩ :: s.exports })) := by
  change execExportWindow s = _
  rw [execExportWindow, perform_asked h]
  dsimp only
  rw [if_neg (by omega)]

theorem bucket_asked (h : Asked s 14 0 true [(16, 1), (24, 24)] b) (hn : leAt b 16 1 ≤ 2) :
    exec .bucket s = .next (s.answered (some (1, 0), s.modCtx (leAt b 2 2) (fun c => { c with buckets := c.buckets.modify (leAt b 16 1) (fun k =>
      k.rewrite (leAt b 24 8) (leAt b 32 8) (signed64 (leAt b 40 8))) }))) := by
  change execBucket s = _
  rw [execBucket, perform_asked h, if_neg (Nat.not_lt.mpr hn)]

theorem coreInfo_asked (h : Asked s 12 0 false [(16, 1), (18, 2)] b) (hd : leAt b 16 1 ≤ 3) (hn : leAt b 18 2 ≤ 287) :
    exec .coreInfo s = .next (s.answered (some (1, s.coreCaps (512 * leAt b 16 1 + leAt b 18 2)), s)) := by
  change execCoreInfo s = _
  rw [execCoreInfo, perform_asked h]
  dsimp only
  rw [if_neg (by omega)]

theorem commDestroy_asked (h : Asked s 16 0 true [(16, 2)] b) {c : Comm} (hc : s.comm? (leAt b 16 2) = some c) (hctx : c.ctx = leAt b 2 2)
    (hop : c.op = none) :
    exec .commDestroy s = .next (s.answered (some (1, 0), { s with comms := s.comms.filter (fun x => x.num != c.num) })) := by
  change execCommDestroy s = _
  rw [execCommDestroy, perform_asked h, hc]
  dsimp only
  rw [if_neg (not_not.mpr hctx), if_neg (by simp [hop])]

theorem badreq_answered (h : s.request? s.subject.a = some b) (hop : leAt b 0 1 = 0 ∨ 16 < leAt b 0 1) :
    exec .badreq s = .next (s.complete s.subject.a 3 0) := by
  change execBadreq s = _
  rw [execBadreq, h]
  dsimp only
  rw [if_pos hop]

end

/-- Settles O39: a request that may be performed is answered by the body of its operation. -/
theorem managementRequestEvents : Obligations.ManagementRequestEvents :=
  ⟨fun _ _ => ctxCreate_asked, fun _ _ => ctxDestroy_asked,
    fun _ _ h => congrArg Host.Outcome.next (perform_asked h _),
    fun _ _ h => congrArg Host.Outcome.next (perform_asked h _),
    fun _ _ h => congrArg Host.Outcome.next (perform_asked h _),
    fun _ _ h => congrArg Host.Outcome.next (perform_asked h _),
    fun _ _ h => congrArg Host.Outcome.next (perform_asked h _),
    fun _ _ h => congrArg Host.Outcome.next (perform_asked h _),
    fun _ _ h _ _ => unload_asked h, fun _ _ => exportWindow_asked, fun _ _ => bucket_asked, fun _ _ => coreInfo_asked,
    fun _ _ h => congrArg Host.Outcome.next (perform_asked h _),
    fun _ _ h _ => commDestroy_asked h, fun _ _ => badreq_answered⟩

/-! ### Debug requests (R378, R379, R444) -/

section
variable {s : State} {b : List Byte} {g : GRef}

/-- A debug operation on a group is answered by what it does to the group that the request names. -/
theorem debug_onGroup {dop : Nat} (h : AskedDebug s dop b g) (hd : dop ≤ 8) (h5 : dop ≠ 5) (h6 : dop ≠ 6) (dops : Nat → Bool)
    (hx : dops dop = true) (f : Nat → List Byte → GRef → Answer) :
    s.debug dops (fun ctx b => s.onGroup ctx b (f ctx b)) = s.answered (f (leAt b 2 2) b g) := by
  rw [debug_asked h hd dops hx, onGroup_asked h h5 h6]

theorem debugHalt_asked {x : Group} (h : AskedDebug s 0 b g) (hg : s.group? g = some x) (hx : x.halt = .none) :
    exec .debugHalt s = .next ((s.modGroup g (fun y => if y.exec.isSome then { y with haltAsked := true }
      else (y.haltFor .request).unpark (s.core g.core).cycles)).complete s.subject.a 1 0) := by
  change execDebugHalt s = _
  rw [execDebugHalt, debug_onGroup h (by decide) (by decide) (by decide) _ rfl]
  refine congrArg (fun t : State => Host.Outcome.next (t.complete s.subject.a 1 0)) (modGroup_congr hg ?_)
  rw [hx]
  rfl

theorem debugResume_asked {x : Group} (h : AskedDebug s 1 b g) (hg : s.group? g = some x) (hx : x.halt ≠ .none) :
    exec .debugResume s = .next ((s.resume g).complete s.subject.a 1 0) := by
  change execDebugResume s = _
  rw [execDebugResume, debug_onGroup h (by decide) (by decide) (by decide) _ rfl, hg]
  dsimp only
  rw [if_neg hx]
  rfl

theorem debugStep_asked {x : Group} (h : AskedDebug s 2 b g) (hg : s.group? g = some x) (hx : x.halt = .none) :
    exec .debugStep s = .next ((s.modGroup g (fun y => { y with stepping := true })).complete s.subject.a 1 0) := by
  change execDebugStep s = _
  rw [execDebugStep, debug_onGroup h (by decide) (by decide) (by decide) _ rfl, hg]
  dsimp only
  rw [if_pos hx]
  rfl

theorem debugReadFrame_asked (h : AskedDebug s 3 b g) (hf : s.frameOffset g b = true) :
    exec .debugReadFrame s = .next (s.complete s.subject.a 1 (ofBytesLE (s.readTrapTile g (leAt b 24 4) 8))) := by
  change execDebugReadFrame s = _
  rw [execDebugReadFrame, debug_onGroup h (by decide) (by decide) (by decide) _ rfl, if_pos hf]
  rfl

theorem debugWriteFrame_asked (h : AskedDebug s 4 b g) (hf : s.frameOffset g b = true) :
    exec .debugWriteFrame s = .next ((s.writeTrapTile g (leAt b 24 4) (toBytesLE 8 (leAt b 32 8))).complete s.subject.a 1 0) := by
  change execDebugWriteFrame s = _
  rw [execDebugWriteFrame, debug_onGroup h (by decide) (by decide) (by decide) _ rfl, if_pos hf]
  rfl

theorem debugReadBrk_asked {c : Ctx} (h : AskedDebug s 5 b g) (hc : s.ctx? (leAt b 2 2) = some c) (hn : leAt b 22 1 ≤ 3) :
    exec .debugReadBrk s = .next (s.complete s.subject.a 1 (nth c.brk (leAt b 22 1) 0#64).toNat) := by
  change execDebugReadBrk s = _
  rw [execDebugReadBrk, debug_asked h (by decide) _ rfl, hc, if_neg (Nat.not_lt.mpr hn)]
  rfl

theorem debugWriteBrk_asked (h : AskedDebug s 6 b g) (hn : leAt b 22 1 ≤ 3) :
    exec .debugWriteBrk s = .next ((s.modCtx (leAt b 2 2) (fun c =>
      { c with brk := c.brk.set (leAt b 22 1) (BitVec.ofNat 64 (csrAfter 0x10 (csrAfter 0x10 0 false (leAt b 32 8 % 2 ^ 32)) true (leAt b 32 8 / 2 ^ 32))) })).complete
        s.subject.a 1 0) := by
  change execDebugWriteBrk s = _
  rw [execDebugWriteBrk, debug_asked h (by decide) _ rfl, if_neg (Nat.not_lt.mpr hn)]
  rfl

theorem debugReadMode_asked {x : Group} (h : AskedDebug s 7 b g) (hg : s.group? g = some x) :
    exec .debugReadMode s = .next (s.complete s.subject.a 1 x.mode.toNat) := by
  change execDebugReadMode s = _
  rw [execDebugReadMode, debug_onGroup h (by decide) (by decide) (by decide) _ rfl, hg]
  rfl

theorem debugWriteMode_asked (h : AskedDebug s 8 b g) :
    exec .debugWriteMode s = .next ((s.modGroup g (fun x =>
      { x with mode := BitVec.ofNat 32 (csrAfter 2 x.mode.toNat false (leAt b 32 8 % 2 ^ 32)) })).complete s.subject.a 1 0) := by
  change execDebugWriteMode s = _
  rw [execDebugWriteMode, debug_onGroup h (by decide) (by decide) (by decide) _ rfl]
  rfl

end

/-- Settles O40: a debug request that its context allows is answered by its operation on what it names. -/
theorem debugRequestEvents : Obligations.DebugRequestEvents :=
  ⟨fun _ _ _ _ => debugHalt_asked, fun _ _ _ _ => debugResume_asked, fun _ _ _ _ => debugStep_asked, fun _ _ _ => debugReadFrame_asked,
    fun _ _ _ => debugWriteFrame_asked, fun _ _ _ _ => debugReadBrk_asked, fun _ _ _ => debugWriteBrk_asked, fun _ _ _ _ => debugReadMode_asked,
    fun _ _ _ => debugWriteMode_asked⟩

/-! ### Attestation (R430) -/

/-- A request that the connection's state admits is answered where its bytes make it, and gets an ERROR otherwise. -/
theorem spdmRequest_admitted {s : State} {code : Nat} {ready : Spdm → Bool} (signed : Bool) (after : Spdm → Spdm) (h0 : s.spdm.stage ≠ 0)
    (hr : ready s.spdm = true) : s.spdmRequest code ready signed after = if Config.spdmAccepts code s.subject.bytes = true
      then ({ s with spdm := after s.spdm }).respond (code - 0x80)
        (if signed then signedBody code s.subject.bytes (s.evidence code true) else Config.spdmBody code s.subject.bytes (s.evidence code false))
      else s.respond 0x7F [1#8] := by
  unfold State.spdmRequest
  dsimp only
  rw [if_neg h0, if_neg (by simp [hr])]
  by_cases ha : Config.spdmAccepts code s.subject.bytes = true
  · rw [if_neg (by simp [ha]), if_pos ha]
  · rw [if_pos (by simpa using ha), if_neg ha]

theorem Spdm.negotiated_of_stage {p : Spdm} (h : p.stage = 4) : p.negotiated = true := by
  rw [Spdm.negotiated, h]; rfl

/-- The answer to a request that the connection's state admits. -/
theorem spdm_admitted {s : State} (code : Nat) (ready : Spdm → Bool) (signed : Bool) (after : Spdm → Spdm) {ins : Instr} (h0 : s.spdm.stage ≠ 0)
    (hr : ready s.spdm = true) (he : exec ins s = .next (s.spdmRequest code ready signed after) := by exact rfl) :
    exec ins s = .next (if Config.spdmAccepts code s.subject.bytes = true
      then ({ s with spdm := after s.spdm }).respond (code - 0x80)
        (if signed then signedBody code s.subject.bytes (s.evidence code true) else Config.spdmBody code s.subject.bytes (s.evidence code false))
      else s.respond 0x7F [1#8]) := by
  rw [he, spdmRequest_admitted signed after h0 hr]

/-- Settles O41: each message is a request whose state the hypothesis admits. -/
theorem attestationEvents : Obligations.AttestationEvents := by
  have hstage : ∀ {p : Spdm} {n : Nat}, p.stage = n → n ≠ 0 → p.stage ≠ 0 := fun h hn => h ▸ hn
  exact
  ⟨fun _ h0 => spdm_admitted 0x84 (fun _ => true) false (fun p => { stage := 2, keyGen := p.keyGen }) h0 rfl,
    fun _ h => spdm_admitted 0xE1 (fun p => p.stage == 2) false (fun p => { p with stage := 3 }) (hstage h (by decide)) (beq_iff_eq.mpr h),
    fun _ h => spdm_admitted 0xE3 (fun p => p.stage == 3) false (fun p => { p with stage := 4 }) (hstage h (by decide)) (beq_iff_eq.mpr h),
    fun _ h => spdm_admitted 0x81 Spdm.negotiated false id (hstage h (by decide)) (Spdm.negotiated_of_stage h),
    fun _ h => spdm_admitted 0x82 Spdm.negotiated false id (hstage h (by decide)) (Spdm.negotiated_of_stage h),
    fun _ h => spdm_admitted 0x83 Spdm.negotiated true id (hstage h (by decide)) (Spdm.negotiated_of_stage h),
    fun _ h => spdm_admitted 0xE0 Spdm.negotiated true id (hstage h (by decide)) (Spdm.negotiated_of_stage h),
    fun _ ⟨h, hs, hh⟩ => spdm_admitted 0xE4 (fun p => p.negotiated && !p.session && !p.handshaking) true (fun p => { p with handshaking := true })
      (hstage h (by decide)) (by simp [Spdm.negotiated_of_stage h, hs, hh]),
    fun _ ⟨h0, hh⟩ => spdm_admitted 0xE5 (fun p => p.handshaking) false
      (fun p => { p with handshaking := false, session := true, keyGen := p.keyGen + 1 }) h0 hh,
    fun _ ⟨h0, hs⟩ => spdm_admitted 0xE8 (fun p => p.session) false id h0 hs,
    fun _ ⟨h0, hs⟩ => spdm_admitted 0xE9 (fun p => p.session) false (fun p => { p with keyGen := p.keyGen + 1 }) h0 hs,
    fun _ ⟨h0, hs⟩ => spdm_admitted 0xEC (fun p => p.session) false (fun p => { p with session := false }) h0 hs⟩

end Sys2Proof.Machine
end

section

/-! Firmware, errors and the fabric: heartbeats and starts, error banks and the scrubber, links and peers (O36, O37, O38). -/

namespace Sys2Proof.Machine

/-! ### Firmware (R433 to R435, R452) -/

/-- A heartbeat of a start that reports nothing advances, and nothing else does. -/
theorem hbIncrement_eq {s : State} (hr : s.boot.reloaded = none) (hd : s.boot.degraded = false) :
    exec .hbIncrement s = .next { s with bar0 := { s.bar0 with hb := s.bar0.hb.set s.subject.a (s.heart s.subject.a + 1#64) } } := by
  change execHbIncrement s = _
  unfold execHbIncrement
  dsimp only
  rw [hr]
  dsimp only
  rw [hd]
  rfl

theorem nth_set_same {α : Type} {l : List α} {n : Nat} {v d : α} (h : n < l.length) : nth (l.set n v) n d = v := by
  simp [nth, h]

theorem fallbackBegin_eq {s : State} (h : (s.die s.subject.a).fallback = false) :
    exec .fallbackBegin s = .next (((s.modDie s.subject.a (fun x => { x with
      fallback := true
      hbSeen := (s.heart s.subject.a).toNat
      fbLast := 65536
      fbQueues := (s.queues.filter (fun q => q.2.mapped)).map (·.1) })).postEvent 5 0
        (toBytesLE 1 s.subject.a ++ [1#8])).raisePlien s.subject.a 3) := by
  change execFallbackBegin s = _
  unfold execFallbackBegin
  dsimp only
  rw [if_neg (by simp [h])]

theorem fallbackEnd_eq {s : State} (h : (s.die s.subject.a).fallback = true) (hb : (s.die s.subject.a).hbSeen ≠ (s.heart s.subject.a).toNat) :
    exec .fallbackEnd s
      = .next ((s.modDie s.subject.a (fun x => { x with fallback := false })).postEvent 5 0 (toBytesLE 1 s.subject.a ++ [0#8])) :=
  if_pos ⟨h, hb⟩

theorem plienReload_eq {s : State} (h : 24 < s.boot.step) : exec .plienReload s
    = .next (s.reloadPlien s.subject.a s.subject.ok (fun s => (s.outcome 22 (fun e => { e with outcome := 2 })).restart)) :=
  if_neg (Nat.not_le.mpr h)

theorem packageStart_eq {s : State} (h : s.starting = true) :
    exec .packageStart s = .next (((s.pick 2).2.pick 256).2.runStep ((s.pick 2).1 == 1) ((s.pick 2).2.pick 256).1) :=
  if_neg (by simp [h])

theorem powerLoss_eq {s : State} (h : s.subject.ok = false) : exec .powerLoss s = .next s.restart := by
  change execPowerLoss s = _
  unfold execPowerLoss
  dsimp only
  rw [h]
  rfl

/-- Settles O36: each event of the firmware makes the one change that its condition lets it make. -/
theorem firmwareEvents : Obligations.FirmwareEvents :=
  ⟨fun _ hr hd ha => ⟨_, hbIncrement_eq hr hd, nth_set_same ha, rfl, rfl⟩, fun _ => fallbackBegin_eq, fun _ => fallbackEnd_eq,
    fun _ => plienReload_eq, fun _ => packageStart_eq, fun _ => powerLoss_eq, fun _ _ h => congrArg Host.Outcome.next (perform_asked h _)⟩

/-! ### Errors and registers (R404, R417 to R419, R437) -/

theorem ueConsume_eq {s : State} {grp : Group} {tr : Trap} (hg : s.group? s.subject.g = some grp) (hx : grp.exec = none)
    (ho : grp.owed.find? (fun t => decide (256 ≤ t.cause ∧ t.cause < 320)) = some tr) :
    exec .ueConsume s = .next ((s.modGroup s.subject.g (fun y => { y with owed := y.owed.erase tr })).consume s.subject.g tr.cause (tr.info1 == 0)) := by
  change execUeConsume s = _
  unfold execUeConsume
  dsimp only
  rw [hg]
  dsimp only
  rw [ho]
  dsimp only
  rw [if_neg (by simp [hx])]

/-- Whether the scrubber of a pass of `pass` granules is behind once it has done one granule more, `d` nanoseconds later. -/
def State.behindAfter (s : State) (pass cfg d : Nat) : Bool :=
  !decide (pass ≤ s.scrub + 1) && scrubBehind (pass - (if decide (pass ≤ s.scrub + 1) then 0 else s.scrub + 1)) pass (cfg % 65536 * 60 * 10 ^ 9)
    (if decide (pass ≤ s.scrub + 1) then 0 else s.scrubTime + d)

/-- The scrubber with the granule of its place behind it. -/
def State.granulePassed (s : State) (pass cfg d : Nat) : State :=
  { s with scrub := if decide (pass ≤ s.scrub + 1) then 0 else s.scrub + 1
           scrubTime := if decide (pass ≤ s.scrub + 1) then 0 else s.scrubTime + d
           bar0 := { s.bar0 with scrubcfg := BitVec.ofNat 32 (bits cfg 16 0 + 131072 * b2n (s.behindAfter pass cfg d)) } }

/-- The scrubber goes on by a granule, and says so where it is behind. -/
def State.scrubbed (s : State) (pass cfg d : Nat) : State :=
  if s.behindAfter pass cfg d ∧ !bit cfg 17 then (s.granulePassed pass cfg d).raisePlien 0 12 else s.granulePassed pass cfg d

/-- What the scrubber makes of the error of a granule. -/
def State.scrubError (s : State) : State :=
  s.storageError { kind := (s.scrubGranule s.scrub).1, at_ := (s.scrubGranule s.scrub).2, g := ⟨(s.scrubGranule s.scrub).2 / 2 ^ 21, 0, 0⟩,
                   lane := 0, uc := decide (1 < s.subject.c), scrub := true }

/-- What the scrubber has read before it goes on. -/
def State.scrubRead (s : State) : State := if s.subject.c = 0 then s else s.scrubError

theorem scrubPass_of_place (s : State) (n t : Nat) : ({ s with scrub := n, scrubTime := t } : State).scrubPass = s.scrubPass := by
  simp only [State.scrubPass, State.lpddrGranules]

theorem scrubAccess_eq {s : State} (hon : bit s.bar0.scrubcfg.toNat 16 = true) : exec .scrubAccess s
    = .next (s.scrubRead.scrubbed s.scrubRead.scrubPass s.bar0.scrubcfg.toNat s.subject.d) := by
  change execScrubAccess s = _
  unfold execScrubAccess
  dsimp only
  rw [if_neg (by simp [hon])]
  simp only [scrubPass_of_place]
  unfold State.scrubRead State.scrubError State.scrubbed State.granulePassed State.behindAfter
  generalize State.scrubPass _ = pass
  rfl

section
variable (s : State) (pass cfg d : Nat)

theorem scrubbed_cases : s.scrubbed pass cfg d = s.granulePassed pass cfg d ∨ s.scrubbed pass cfg d = (s.granulePassed pass cfg d).raisePlien 0 12 :=
  (ite_eq_or_eq _ _ _).symm

/-- What the scrubber leaves: all but its place and time, SCRUBCFG, and what it raises. -/
theorem scrubbed_frame : { s.scrubbed pass cfg d with bar0 := s.bar0, scrub := s.scrub, scrubTime := s.scrubTime, dies := s.dies } = s := by
  rcases scrubbed_cases s pass cfg d with h | h <;> rw [h] <;> rfl

theorem scrubbed_banks : (s.scrubbed pass cfg d).banks = s.banks := by
  rcases scrubbed_cases s pass cfg d with h | h <;> rw [h] <;> rfl

theorem scrubbed_poison : (s.scrubbed pass cfg d).poison = s.poison := by
  rcases scrubbed_cases s pass cfg d with h | h <;> rw [h] <;> rfl

theorem scrubbed_scrubcfg :
    (s.scrubbed pass cfg d).bar0.scrubcfg = BitVec.ofNat 32 (bits cfg 16 0 + 131072 * b2n (s.behindAfter pass cfg d)) := by
  rcases scrubbed_cases s pass cfg d with h | h <;> rw [h] <;> rfl

theorem scrubbed_scrub : (s.scrubbed pass cfg d).scrub = if s.scrub + 1 < pass then s.scrub + 1 else 0 := by
  have hplace : (s.scrubbed pass cfg d).scrub = if decide (pass ≤ s.scrub + 1) then 0 else s.scrub + 1 := by
    rcases scrubbed_cases s pass cfg d with h | h <;> rw [h] <;> rfl
  rw [hplace]
  by_cases h : pass ≤ s.scrub + 1
  · rw [decide_eq_true h, if_neg (Nat.not_lt.mpr h)]; rfl
  · rw [decide_eq_false h, if_pos (Nat.lt_of_not_le h)]; rfl

theorem behindAfter_eq : s.behindAfter pass cfg d = (decide (s.scrub + 1 < pass)
    && decide ((bits cfg 15 0 * 60000000000 - (s.scrubTime + d)) * pass < (pass - (s.scrub + 1)) * (bits cfg 15 0 * 60000000000))) := by
  have hbits : cfg % 65536 * 60 * 10 ^ 9 = bits cfg 15 0 * 60000000000 := by
    simp [bits, Nat.mul_assoc]
  rw [State.behindAfter, hbits]
  by_cases h : pass ≤ s.scrub + 1
  · rw [decide_eq_true h, decide_eq_false (Nat.not_lt.mpr h), Bool.not_true, Bool.false_and, Bool.false_and]
  · rw [decide_eq_false h, decide_eq_true (Nat.lt_of_not_le h), Bool.not_false, Bool.true_and, Bool.true_and, if_neg Bool.false_ne_true,
      if_neg Bool.false_ne_true, scrubBehind]

end

/-! What an error leaves of the scrubber: its place and the size of its pass. -/

@[simp] theorem State.poisonGranule_scrub (s : State) (e : StorageError) : (s.poisonGranule e).scrub = s.scrub := by
  unfold State.poisonGranule
  split <;> simp [State.setPoison]

@[simp] theorem State.poisonGranule_part (s : State) (e : StorageError) : (s.poisonGranule e).part = s.part := by
  unfold State.poisonGranule
  split <;> simp [State.setPoison]

@[simp] theorem State.poisonGranule_tier2Bytes (s : State) (e : StorageError) : (s.poisonGranule e).tier2Bytes = s.tier2Bytes := by
  unfold State.poisonGranule
  split <;> simp [State.setPoison]

/-- The scrubber meets no cache: its errors are of memory and slices. -/
theorem scrubError_eq {s : State} {e : StorageError} (h : e.kind ≠ 4) : s.storageError e
    = if e.uc then (s.recordError e.bank e.kind e.addr e.uc e.scrub).poisonGranule e else s.recordError e.bank e.kind e.addr e.uc e.scrub :=
  if_neg h

theorem scrubGranule_kind (s : State) (n : Nat) : (s.scrubGranule n).1 ≠ 4 := by
  unfold State.scrubGranule
  split
  · exact (by decide : 0 ≠ 4)
  · split
    · exact (by decide : 5 ≠ 4)
    · exact (by decide : 1 ≠ 4)

theorem State.scrubError_scrub (s : State) : s.scrubError.scrub = s.scrub := by
  rw [State.scrubError, scrubError_eq (scrubGranule_kind s _)]
  split <;> simp [State.recordError]

theorem State.scrubError_scrubPass (s : State) : s.scrubError.scrubPass = s.scrubPass := by
  have hpart : s.scrubError.part = s.part := by
    rw [State.scrubError, scrubError_eq (scrubGranule_kind s _)]
    split <;> simp [State.recordError]
  have htier : s.scrubError.tier2Bytes = s.tier2Bytes := by
    rw [State.scrubError, scrubError_eq (scrubGranule_kind s _)]
    split <;> simp [State.recordError]
  simp only [State.scrubPass, State.lpddrGranules, hpart, htier]

theorem State.scrubRead_clean {s : State} (h : s.subject.c = 0) : s.scrubRead = s := if_pos h

theorem State.scrubRead_error {s : State} (h : s.subject.c ≠ 0) : s.scrubRead = s.scrubError := if_neg h

theorem getElem?_modify_same {α : Type} {l : List α} {n : Nat} {f : α → α} {x : α} (h : l[n]? = some x) : (l.modify n f)[n]? = some (f x) := by
  rw [List.getElem?_modify, h]
  simp

/-- Settles O37: errors go to their banks, the scrubber goes on by one granule, and registers take what is written to them. -/
theorem errorAndRegisterEvents : Obligations.ErrorAndRegisterEvents := by
  refine ⟨fun s grp tr => ueConsume_eq, fun s h => if_neg (Nat.not_lt.mpr h), fun s hon hc => ?_, fun s hon hc => ?_,
    fun s b hb => ⟨_, rfl, getElem?_modify_same hb, rfl⟩, fun s => ⟨_, rfl, rfl, rfl⟩, fun s => ⟨_, rfl, rfl, rfl⟩⟩
  · refine ⟨_, scrubAccess_eq hon, ?_, ?_, ?_⟩ <;> rw [State.scrubRead_clean hc]
    · exact scrubbed_scrub s _ _ _
    · rw [scrubbed_scrubcfg, behindAfter_eq]
    · exact scrubbed_frame s _ _ _
  · refine ⟨_, scrubAccess_eq hon, ?_, ?_, ?_⟩ <;> rw [State.scrubRead_error hc]
    · exact scrubbed_banks _ _ _ _
    · exact scrubbed_poison _ _ _ _
    · rw [scrubbed_scrub, State.scrubError_scrub, State.scrubError_scrubPass]

end Sys2Proof.Machine
end

section

/-! The fabric: links that change, packets that arrive and accesses of peers (O38). -/

namespace Sys2Proof.Machine

/-! ### Links (R431, R449) -/

section
variable {s : State} {l : Link}

/-- A link is changed by its own value alone. -/
theorem modLink_congr {n : Nat} {f h : Link → Link} (hl : s.links[n]? = some l) (hf : f l = h l) : s.modLink n f = s.modLink n h := by
  have hlinks : s.links.modify n f = s.links.modify n h := by
    refine List.ext_getElem? fun k => ?_
    rw [List.getElem?_modify, List.getElem?_modify]
    split
    next hk => rw [← hk, hl]; exact congrArg some hf
    · rfl
  rw [State.modLink, State.modLink, hlinks]

theorem linkChange_turned (hl : s.links[s.subject.a]? = some l) (hh : s.hasLink s.subject.a = true) (hu : l.up ≠ s.subject.ok) :
    exec .linkChange s = .next (if s.subject.ok then s.linkUp s.subject.a s.subject.b (s.subject.bytes.map (·.toNat))
      ((s.subject.bytes.map (·.toNat)).drop s.subject.c) else s.linkDown s.subject.a) := by
  change execLinkChange s = _
  unfold execLinkChange
  dsimp only
  rw [hl]
  dsimp only
  rw [if_neg (by simp [hh]), if_neg hu]

theorem linkChange_sessions (hl : s.links[s.subject.a]? = some l) (hh : s.hasLink s.subject.a = true) (hu : l.up = true)
    (hok : s.subject.ok = true) : exec .linkChange s = .next (s.modLink s.subject.a (fun l => { l with
      reach := s.subject.bytes.map (·.toNat)
      peers := (s.subject.bytes.map (·.toNat)).drop s.subject.c
      keyGen := l.keyGen + 1 })) := by
  change execLinkChange s = _
  unfold execLinkChange
  dsimp only
  rw [hl]
  dsimp only
  rw [if_neg (by simp [hh]), if_pos (hu.trans hok.symm), if_pos hok]

/-- A packet on a link that is up is counted, and one that tells of a window is learnt from. -/
theorem linkPacketReceive_eq (hl : s.links[s.subject.a]? = some l) (hu : l.up = true) : exec .linkPacketReceive s
    = .next (if s.subject.ok ∧ s.subject.c ≠ 0 ∧ l.peers.contains s.subject.t.handle then
        (s.linkPacket s.subject.a s.subject.b s.subject.ok l).learnWindow s.subject.t.handle s.subject.t.kern s.subject.d
          (windowCauses (s.subject.bytes.length / 10) s.subject.bytes)
      else s.linkPacket s.subject.a s.subject.b s.subject.ok l) := by
  change execLinkPacketReceive s = _
  unfold execLinkPacketReceive
  dsimp only
  rw [hl]
  dsimp only
  rw [if_neg (by simp [hu])]

theorem linkPacket_good {n besides : Nat} :
    s.linkPacket n besides true l = s.modLink n (fun l => { l with packets := l.packets + besides + 1, failures := 0 }) := rfl

/-- The state in which a link has counted a packet with a bad tag. -/
def State.packetFailed (s : State) (n besides : Nat) (l : Link) : State :=
  (s.modLink n (fun l => { l with packets := l.packets + besides + 1, failures := l.failures + 1 })).recordError 15 8 n (decide (7 ≤ l.failures)) false

theorem linkPacket_resent {n besides : Nat} (hf : l.failures < 7) :
    s.linkPacket n besides false l = { s.packetFailed n besides l with out := s.out ++ [⟨1, n, [0#8]⟩] } :=
  if_neg (Nat.not_le.mpr hf)

theorem linkPacket_down {n besides : Nat} (hf : 7 ≤ l.failures) : s.linkPacket n besides false l = (s.packetFailed n besides l).linkDown n :=
  if_pos hf

theorem packetFailed_link {n besides : Nat} (hl : s.links[n]? = some l) :
    (s.packetFailed n besides l).links[n]? = some { l with packets := l.packets + besides + 1, failures := l.failures + 1 } :=
  getElem?_modify_same hl

theorem linkReport_links (s : State) (n : Nat) (up : Bool) (packid : Nat) : (s.linkReport n up packid).links = s.links := by
  unfold State.linkReport State.postEvent
  dsimp only
  split <;> rfl

theorem linkDown_link {n : Nat} (hl : s.links[n]? = some l) : (s.linkDown n).links[n]? = some { l with up := false, reach := [], peers := [] } := by
  rw [State.linkDown, linkReport_links]
  exact getElem?_modify_same hl

/-- A packet with a bad tag is resent, and the eighth failure in a row takes the link down. -/
theorem linkPacket_failed {n besides : Nat} (hl : s.links[n]? = some l) (hu : l.up = true) : ∃ l', (s.linkPacket n besides false l).links[n]? = some l'
    ∧ l'.up = decide (l.failures < 7) ∧ l'.failures = l.failures + 1 := by
  by_cases hf : l.failures < 7
  · refine ⟨{ l with packets := l.packets + besides + 1, failures := l.failures + 1 }, ?_, hu.trans (decide_eq_true hf).symm, rfl⟩
    rw [linkPacket_resent hf]
    exact packetFailed_link hl
  · refine ⟨{ l with up := false, reach := [], peers := [], packets := l.packets + besides + 1, failures := l.failures + 1 }, ?_,
      (decide_eq_false hf).symm, rfl⟩
    rw [linkPacket_down (Nat.le_of_not_lt hf)]
    exact linkDown_link (packetFailed_link hl)

theorem linkKeyUpdate_eq (hl : s.links[s.subject.a]? = some l) (hu : l.up = true) (hp : 2 ^ 32 ≤ l.packets) : exec .linkKeyUpdate s
    = .next (s.modLink s.subject.a (fun l => { l with packets := l.packets - 2 ^ 32, keyGen := l.keyGen + 1 })) := by
  change execLinkKeyUpdate s = _
  unfold execLinkKeyUpdate
  dsimp only
  rw [hl]
  dsimp only
  rw [if_pos ⟨hu, hp⟩]

end

/-! ### Accesses of peers (R451) -/

/-- The atomic that a peer's access names. -/
def peerAtom (u : Subject) : Atomic :=
  { op := u.t.handle % 8, typ := u.t.kern % 6, scope := u.g.slot % 8, order := u.t.idx % 4, addr := 0, space := 0,
    value := leAt u.bytes 0 8, cmp := leAt u.bytes 8 8, dst := none }

/-- The bytes that an access of a peer takes. -/
def peerBytes (u : Subject) (acc : Nat) : Nat := if acc = 0 then u.d else if acc = 1 then u.bytes.length else (peerAtom u).bytes

/-- An access of a peer comes over a link that is up and carries a session with it, within one block. -/
def State.PeerMay (s : State) (acc n : Nat) : Prop :=
  acc = (if s.subject.g.grp ≠ 0 then 2 else b2n s.subject.ok) ∧ n = peerBytes s.subject acc ∧ n ≠ 0 ∧ s.subject.c % 64 + n ≤ 64
    ∧ ∃ l ∈ s.links, l.up = true ∧ l.peers.contains s.subject.a = true

section
variable {s : State} {acc n : Nat}

theorem peerAccess_eq (h : s.PeerMay acc n) : exec .peerAccess s
    = .next (s.peerAccess s.subject.a s.subject.b s.subject.c acc s.subject.d s.subject.bytes (peerAtom s.subject)) := by
  obtain ⟨rfl, rfl, hn, hblock, l, hl, hup, hpeer⟩ := h
  have hlink : s.links.any (fun l => l.up && l.peers.contains s.subject.a) = true :=
    List.any_eq_true.mpr ⟨l, hl, by rw [hup, hpeer]; rfl⟩
  refine if_neg fun hor => ?_
  rcases hor with h0 | h64 | hno
  · exact hn h0
  · exact Nat.not_lt.mpr hblock h64
  · rw [hlink] at hno
    cases hno

/-- The access by which a peer reaches the window exported to it. -/
def State.peerWindowAccess (s : State) (w : ExportWindow) (acc : Nat) : Access :=
  { core := 0, who := asks 7 s.subject.a s.subject.b, ctx := w.ctx, va := w.va + s.subject.c, acc := acc,
    keyperm := ((s.ctx? w.ctx).getD {}).keyperm }

/-- An access that the window and the tables admit is performed. -/
theorem peerAccess_admitted {w : ExportWindow} {key : Nat} {leaf : DWord} {t : State} (h : s.PeerMay acc n)
    (hw : s.exports.find? (fun w => w.pack == s.subject.a && w.ictx == s.subject.b) = some w) (hlen : s.subject.c + n ≤ w.len)
    (hc : (s.ctx? w.ctx).isSome = true) (ht : s.translatePeer (s.peerWindowAccess w acc) = (.ok key leaf, t)) :
    exec .peerAccess s = .next (t.performPeer s.subject.a key acc s.subject.d s.subject.bytes (peerAtom s.subject)) := by
  have hn := h.2.1
  rw [peerAccess_eq h]
  unfold State.peerAccess
  rw [hw]
  dsimp only
  have hfits : ¬(w.len < s.subject.c + (if acc = 0 then s.subject.d else if acc = 1 then s.subject.bytes.length else (peerAtom s.subject).bytes)
      ∨ (s.ctx? w.ctx).isNone = true) := by
    rintro (hlt | hnone)
    · rw [hn, peerBytes] at hlen
      omega
    · rw [Option.isNone_iff_eq_none.mp hnone] at hc
      cases hc
  rw [if_neg hfits]
  change Host.Outcome.next (match s.translatePeer (s.peerWindowAccess w acc) with
      | (.ok key _, s) => _ | (.wait _, s) => _ | (.fail 134 tier, s) => _ | (.fail c _, s) => _) = _
  rw [ht]

end

/-- What a notification of waits on a bind table leaves: it only names what happens next. -/
theorem notifyBinds_frame {α : Type} (p : State → α) (hp : ∀ s i u, p (s.raiseTurn i u) = p s) (s : State) (key : Nat) :
    p (s.notifyBinds key) = p s := by
  unfold State.notifyBinds
  refine List.foldlRecOn s.ctxs _ (motive := fun t => p t = p s) rfl fun t ht c _ => ?_
  refine List.foldlRecOn c.2.objects _ (motive := fun u => p u = p s) ht fun u hu o _ => ?_
  split
  · rw [hp, hu]
  · exact hu

/-- A state in which an atomic of a peer has written its result, and its release has tagged the block. -/
theorem performPeer_atomic {t : State} {pack key n : Nat} {bytes : List Byte} {a : Atomic} (hp : t.poisonAt key a.bytes = none) :
    let u := t.performPeer pack key 2 n bytes a
    u.mem = t.mem.writeLE key a.bytes (a.result (t.mem.readLE key a.bytes))
      ∧ u.out = t.out ++ [⟨1, pack, toBytesLE 2 0 ++ [0#8] ++ toBytesLE a.bytes (t.mem.readLE key a.bytes)⟩]
      ∧ (a.order = 2 ∨ a.order = 3 → u.tagAt key = some ⟨a.scope, 4096 * (pack + 1), 0, 0, 0, 1⟩) := by
  unfold State.performPeer
  rw [hp]
  dsimp only
  by_cases ho : a.order = 2 ∨ a.order = 3
  · rw [if_pos ho]
    refine ⟨notifyBinds_frame State.mem (fun _ _ _ => rfl) _ _, ?_, fun _ => ?_⟩
    · exact congrArg (· ++ _) (notifyBinds_frame State.out (fun _ _ _ => rfl) _ _)
    · refine (notifyBinds_frame (fun t => t.tagAt key) (fun _ _ _ => rfl) _ _).trans ?_
      exact tget_tput_same _ _ _
  · rw [if_neg ho]
    exact ⟨rfl, rfl, fun h => absurd h ho⟩

/-- Settles O38: links and their packets are what they are told, and a peer's access that its window admits is performed at its home. -/
theorem fabricEvents : Obligations.FabricEvents := by
  refine ⟨fun s l => linkChange_turned, fun s l => linkChange_sessions, fun s l hl hu hok hc => ?_, fun s l hl hu hok hc hpeer => ?_,
    fun s l hl hu hok => ?_, fun s l => linkKeyUpdate_eq, fun s acc n => peerAccess_eq, fun s w key leaf t => peerAccess_admitted (acc := 0),
    fun s w key leaf t => peerAccess_admitted (acc := 1), fun s w key leaf t h hw hlen hc ht hp => ⟨_, peerAccess_admitted (acc := 2) h hw hlen hc ht, performPeer_atomic hp⟩⟩
  · rw [linkPacketReceive_eq hl hu, if_neg (by simp [hc]), hok, linkPacket_good]
    exact congrArg _ (modLink_congr hl rfl)
  · rw [linkPacketReceive_eq hl hu, if_pos ⟨hok, hc, hpeer⟩, hok, linkPacket_good]
    exact ⟨_, rfl, rfl, rfl, rfl⟩
  · rw [linkPacketReceive_eq hl hu, if_neg (by simp [hok]), hok]
    obtain ⟨l', hl', hup, hfail⟩ := linkPacket_failed (besides := s.subject.b) hl hu
    exact ⟨_, l', rfl, hl', hup, hfail, fun hf => by rw [linkPacket_resent hf]⟩

end Sys2Proof.Machine
end

section

/-! Pulls of ports and successor work (O34). -/

namespace Sys2Proof.Machine

/-! ### Ports (R344) -/

section
variable {s t : State} {g : GRef} {tm : Team} {tq : TaskQueue} {q p : Nat} {segs : List Seg}

/-- A pull whose record is reached and read puts it at TAIL. -/
theorem pull_reached (hr : s.translateRange (s.pullAccess g tm tq q p) 64 3 0 [] = (.ok segs, t)) (hl : t.loadFault (segForm segs) true segs = none) :
    s.pull g tm tq q p = t.pulled g tm tq q p segs := by
  unfold State.pull
  dsimp only
  rw [hr]
  dsimp only
  rw [hl]

theorem portPull_eq (ht : s.team? s.subject.g.core s.subject.g.slot = some tm) (hq : tget tm.queues s.subject.a = some tq)
    (h : (nth tq.ports s.subject.b ⟨0, 0⟩).slots ≠ 0 ∧ (tget tq.stopped s.subject.b).isNone ∧ !tm.ending ∧ s.enginesRun tm.ctx
      ∧ s.tq s.subject.g.core s.subject.g.slot s.subject.a (0x40 + 0x20 * s.subject.b + 4)
          ≠ s.tq s.subject.g.core s.subject.g.slot s.subject.a (0x40 + 0x20 * s.subject.b)
      ∧ s.tqRoom s.subject.g.core s.subject.g.slot s.subject.a ≠ 0) :
    exec .portPull s = .next (s.pull s.subject.g tm tq s.subject.a s.subject.b) := by
  change execPortPull s = _
  unfold execPortPull
  dsimp only
  rw [ht]
  dsimp only
  rw [hq]
  exact if_pos h

end

/-! ### Successor work (R350) -/

section
variable {s t : State} {w : Successor} {bs : List Byte} {tm : Team} {core i key : Nat}

/-- A counter whose home is not poisoned has one taken from it, with release at PACK. -/
theorem takeOne_sound (h : s.poisonAt key 4 = none) : s.takeOne core i w key
    = let v := (s.mem.readLE key 4 + 2 ^ 32 - 1) % 2 ^ 32
      let u := ((s.atomicWrite key 4 v).tag key ⟨5, core, 0, 0, 0, 1⟩).notifyBinds key
      if v = 0 ∧ w.record ≠ 0 then u.modSucc core i (fun w => { w with decremented := true, zero := true }) else u.succDone core i w := by
  unfold State.takeOne
  rw [h]

/-- The access to the counter of a piece of successor work of the subject's core. -/
def State.counterAccess (s : State) (w : Successor) : Access :=
  { core := s.subject.g.core, who := asks 4 w.slot w.grp, ctx := w.ctx, va := opValue w.counter, acc := 2, keyperm := s.keypermOf w.ctx }

/-- Successor work whose counter is still to be taken may go on. -/
theorem successorDecrement_goes (hw : (s.core s.subject.g.core).succs[s.subject.a]? = some w) (hd : w.decremented = false)
    (hp : w.parkedPage = none) (hr : s.enginesRun w.ctx = true) (hv : w.counter % 4 = 0) :
    (opSpace w.counter = 2 → s.sliceCounter (opValue w.counter) = .ok (some key) →
      exec .successorDecrement s = .next (s.takeOne s.subject.g.core s.subject.a w key))
    ∧ ∀ leaf, opSpace w.counter = 0 → s.translate (s.counterAccess w) = (.ok key leaf, t) →
      exec .successorDecrement s = .next (t.takeOne s.subject.g.core s.subject.a w key) := by
  have hgo : ¬(w.decremented || w.parkedPage.isSome || !s.enginesRun w.ctx) = true := by simp [hd, hp, hr]
  change (_ → _ → execSuccessorDecrement s = _) ∧ ∀ leaf, _ → _ → execSuccessorDecrement s = _
  unfold execSuccessorDecrement
  dsimp only
  rw [hw]
  dsimp only
  rw [if_neg hgo]
  refine ⟨fun ho hk => ?_, fun leaf ho hk => ?_⟩
  · rw [if_pos ho, if_neg (not_not.mpr hv), hk]
  · rw [State.counterAccess] at hk
    rw [if_neg (by simp [ho]), if_neg (not_not.mpr ho), if_neg (not_not.mpr hv), hk]

/-- A record of successor work that has been read is appended. -/
theorem successorAppend_read (hw : (s.core s.subject.g.core).succs[s.subject.a]? = some w) (hz : w.zero = true) (hp : w.parkedPage = none)
    (hr : s.enginesRun w.ctx = true) (hb : w.bytes = some bs) :
    exec .successorAppend s = .next (s.succAppend s.subject.g.core s.subject.a w bs) := by
  change execSuccessorAppend s = _
  unfold execSuccessorAppend
  dsimp only
  rw [hw]
  dsimp only
  rw [if_neg (by simp [hz, hp, hr]), hb]

theorem succAppend_team (ht : s.team? core w.slot = some tm) (he : tm.ending = false) (hn : w.queue ≠ 16)
    (hq : (tget tm.queues w.queue).isSome = true) (hroom : s.tqRoom core w.slot w.queue ≠ 0) :
    s.succAppend core i w bs = (s.tqAppend core w.slot w.queue bs).succDone core i w := by
  have hthere : ¬(tget tm.queues w.queue).isNone = true := by
    rw [Option.isNone_iff_eq_none]
    exact fun h => by rw [h] at hq; cases hq
  unfold State.succAppend
  rw [ht]
  dsimp only
  rw [if_neg hn, if_neg (by simp [he]), if_neg hthere, if_neg hroom]

theorem succAppend_hardware {x : HwQueue} {leaf : DWord} (ht : s.team? core w.slot = some tm) (hn : w.queue = 16) (hx : tget s.queues tm.lqueue = some x)
    (hroom : (x.tail + 2 ^ 32 - x.head) % 2 ^ 32 < x.slots)
    (hk : s.translateBytes { core := core, who := asks 4 w.slot w.grp, ctx := w.ctx, va := x.slotVa x.tail, acc := 1, keyperm := s.keypermOf w.ctx } 64
      = (.ok key leaf, t)) :
    s.succAppend core i w bs = ((t.store key bs).modQueue tm.lqueue (fun x => { x with tail := (x.tail + 1) % 2 ^ 32 })).succDone core i w := by
  unfold State.succAppend
  rw [ht]
  dsimp only
  rw [if_pos hn, State.succPublish, hx]
  dsimp only
  rw [if_neg (Nat.not_le.mpr hroom), hk]

end

/-- Settles O34: each event does its work where every check that it makes passes. -/
theorem taskEvents : Obligations.TaskEvents := by
  refine ⟨fun s tm ht tq hq hslots hstop hend hrun hring hroom segs t hr hl => ?_, fun s w hw hd hp hr ho hv key hk hpoison => ?_,
    fun s w hw hd hp hr ho hv key leaf t hk hpoison => ?_, fun s w hw hz hp hr bs tm hb ht he hn hq hroom => ?_,
    fun s w hw hz hp hr bs tm x hb ht hn hx hroom key leaf t hk => ?_⟩
  · rw [portPull_eq ht hq ⟨hslots, by rw [hstop]; rfl, by rw [hend]; rfl, hrun, hring, hroom⟩, pull_reached hr hl]
  · exact ((successorDecrement_goes (t := s) hw hd hp hr hv).1 ho hk).trans (congrArg _ (takeOne_sound hpoison))
  · exact ((successorDecrement_goes hw hd hp hr hv).2 leaf ho hk).trans (congrArg _ (takeOne_sound hpoison))
  · rw [successorAppend_read hw hz hp hr hb, succAppend_team ht he hn hq hroom]
  · rw [successorAppend_read hw hz hp hr hb, succAppend_hardware ht hn hx hroom hk]

end Sys2Proof.Machine
end

section

/-! Quanta, buckets, pre-emption and restoration (O35). -/

namespace Sys2Proof.Machine

/-! ### Pre-emption (R382) -/

/-- Post the pre-emption of a context to one die's Gutter. -/
def State.postGutter (s : State) (ctx d : Nat) : State :=
  let cores := ((s.teamsOf ctx).filter (fun p => dieOf p.1 == d)).map (·.1)
  let jobs := s.openJobs d ctx
  let nmv := (jobs.filter (fun j => (cardOf j.2.card).kind == 7 && j.2.state == .running && !j.2.absent)).map (fun j => 4096 + j.1)
  if cores.isEmpty && jobs.isEmpty then s
  else s.modDie d (fun x => { x with gutter := x.gutter.filter (fun g => g.ctx != ctx) ++ [{ ctx := ctx, due := cores.eraseDups ++ nmv, done := false }] })

theorem preempt_eq (s : State) (ctx : Nat) :
    s.preempt ctx = (upto 4).foldl (fun s d => s.postGutter ctx d) (s.modCtx ctx (fun c => { c with preempted := true })) := rfl

/-- Posting to a die changes that die alone. -/
theorem postGutter_frame {α : Type} (p : State → α) (hp : ∀ s d f, p (s.modDie d f) = p s) (s : State) (ctx d : Nat) :
    p (s.postGutter ctx d) = p s := by
  unfold State.postGutter
  dsimp only
  split
  · rfl
  · exact hp _ _ _

theorem preempt_frame {α : Type} (p : State → α) (hp : ∀ s d f, p (s.modDie d f) = p s) (s : State) (ctx : Nat) :
    p (s.preempt ctx) = p (s.modCtx ctx (fun c => { c with preempted := true })) := by
  rw [preempt_eq]
  exact List.foldlRecOn (motive := fun t => p t = p (s.modCtx ctx (fun c => { c with preempted := true }))) _ _ rfl
    (fun t ht d _ => (postGutter_frame p hp t ctx d).trans ht)

theorem preempt_ctx {s : State} {ctx : Nat} {c : Ctx} (h : s.ctx? ctx = some c) : (s.preempt ctx).ctx? ctx = some { c with preempted := true } :=
  (preempt_frame (fun t => t.ctx? ctx) (fun _ _ _ => rfl) s ctx).trans (State.modCtx_ctx_same s ctx _ c h)

@[simp] theorem preempt_mem (s : State) (ctx : Nat) : (s.preempt ctx).mem = s.mem :=
  (preempt_frame State.mem (fun _ _ _ => rfl) s ctx).trans (State.modCtx_mem s ctx _)

theorem preempt_cores (s : State) (ctx : Nat) : (s.preempt ctx).cores = s.cores :=
  (preempt_frame State.cores (fun _ _ _ => rfl) s ctx).trans (State.modCtx_cores s ctx _)

theorem teamsOf_of_cores {s t : State} (h : t.cores = s.cores) (ctx : Nat) : t.teamsOf ctx = s.teamsOf ctx := by
  simp only [State.teamsOf, State.residents, State.team?, State.core, h]

/-- A pre-emption of a context is posted to a die for a core. -/
def State.Posted (s : State) (ctx d core : Nat) : Prop := ∃ g ∈ (s.die d).gutter, g.ctx = ctx ∧ core ∈ g.due ∧ g.done = false

theorem postGutter_posts {s : State} {ctx core slot : Nat} (h : (core, slot) ∈ s.teamsOf ctx) : (s.postGutter ctx (dieOf core)).Posted ctx (dieOf core) core := by
  have hcore : core ∈ ((s.teamsOf ctx).filter (fun p => dieOf p.1 == dieOf core)).map (·.1) :=
    List.mem_map.mpr ⟨(core, slot), List.mem_filter.mpr ⟨h, by simp⟩, rfl⟩
  unfold State.postGutter
  dsimp only
  rw [if_neg (by rw [List.isEmpty_eq_false_iff.mpr (List.ne_nil_of_mem hcore)]; exact Bool.false_ne_true), State.Posted, State.modDie_die_same]
  exact ⟨_, List.mem_append_right _ (List.mem_singleton_self _), rfl, List.mem_append_left _ (List.mem_eraseDups.mpr hcore), rfl⟩

theorem postGutter_die_ne {s : State} {ctx d e : Nat} (h : e ≠ d) : (s.postGutter ctx d).die e = s.die e := by
  unfold State.postGutter
  dsimp only
  split
  · rfl
  · exact State.modDie_die_ne s d e _ h

/-- Posting to dies posts to that of every core that holds a team of the context. -/
theorem foldl_postGutter_posts {ctx core slot : Nat} (ds : List Nat) (s : State) (h : (core, slot) ∈ s.teamsOf ctx)
    (hd : dieOf core ∈ ds ∨ s.Posted ctx (dieOf core) core) :
    (ds.foldl (fun s d => s.postGutter ctx d) s).Posted ctx (dieOf core) core := by
  induction ds generalizing s with
  | nil => exact hd.resolve_left List.not_mem_nil
  | cons d ds ih =>
    have hteam : (core, slot) ∈ (s.postGutter ctx d).teamsOf ctx := by
      rwa [teamsOf_of_cores (postGutter_frame State.cores (fun _ _ _ => rfl) s ctx d)]
    refine ih _ hteam ?_
    by_cases heq : dieOf core = d
    · exact .inr (heq ▸ postGutter_posts h)
    · rcases hd with hmem | hposted
      · exact .inl ((List.mem_cons.mp hmem).resolve_left heq)
      · exact .inr (by rw [State.Posted, postGutter_die_ne heq]; exact hposted)

theorem preempt_posts {s : State} {ctx core slot : Nat} (h : (core, slot) ∈ s.teamsOf ctx) (hd : dieOf core < 4) :
    (s.preempt ctx).Posted ctx (dieOf core) core := by
  rw [preempt_eq]
  refine foldl_postGutter_posts (slot := slot) _ _ ?_ (.inl (List.mem_range.mpr hd))
  rwa [teamsOf_of_cores (State.modCtx_cores s ctx _)]

theorem preempt_exec {s : State} {c : Ctx} (hc : s.ctx? s.subject.a = some c) (hp : c.preempted = false) :
    exec .preempt s = .next (s.preempt s.subject.a) := by
  change execPreempt s = _
  unfold execPreempt
  dsimp only
  rw [hc]
  exact if_neg (by simp [hp])

/-! ### Quanta (R334) -/

theorem quantumExpiry_alone {s : State} (h : s.runList.length < 2) (hr : s.runList = [] ∨ s.runList.contains s.runNext = true) :
    exec .quantumExpiry s = .next s :=
  if_pos ⟨h, hr⟩

/-- A queue once the turn has gone from the process `last` to the process `next`. -/
def HwQueue.turned (q : HwQueue) (next last : Nat) : HwQueue :=
  { q with mapped := if q.ctx = next then true else if q.ctx = last then false else q.mapped }

/-- The machine once the turn has gone from the running process to the next one. -/
def State.turned (s : State) (next : Nat) : State :=
  { s with runNext := next, queues := s.queues.map (fun q => (q.1, q.2.turned next s.runNext)) }

theorem turned_queue (s : State) (n k : Nat) : tget (s.turned n).queues k = (tget s.queues k).map (fun q => q.turned n s.runNext) :=
  tget_map (fun q => HwQueue.turned q n s.runNext) s.queues k

theorem quantumExpiry_turns {s : State} {n : Nat} (h : 2 ≤ s.runList.length)
    (hn : ((s.runList.find? (fun c => decide (s.runNext < c))).or s.runList.head?) = some n) (hne : n ≠ s.runNext) :
    exec .quantumExpiry s = .next (match (s.turned n).ctx? s.runNext with
      | some c => if c.preempted then s.turned n else (s.turned n).preempt s.runNext
      | none => s.turned n) := by
  change execQuantumExpiry s = _
  unfold execQuantumExpiry
  dsimp only
  rw [if_neg (by omega), hn, Option.getD_some, if_neg hne]
  rfl

/-- What a turn and the pre-emption of the last process leave. -/
theorem quantumExpiry_frame {α : Type} (p : State → α) (hctx : ∀ s c f, p (s.modCtx c f) = p s) (hdie : ∀ s d f, p (s.modDie d f) = p s)
    (t : State) (o : Option Ctx) (n : Nat) :
    p (match o with | some c => if c.preempted then t else t.preempt n | none => t) = p t := by
  split
  · split
    · rfl
    · exact (preempt_frame p hdie t n).trans (hctx _ _ _)
  · rfl

/-! ### Buckets (R356) -/

/-- A bucket after a refill. -/
def Bucket.filled (b : Bucket) : Bucket := if b.cap = 0 then b else { b with level := min (b.level + b.rate) b.cap }

/-- A context after a refill of its buckets. -/
def Ctx.refilled (c : Ctx) : Ctx :=
  { c with
    buckets := c.buckets.map Bucket.filled
    descheduled := c.descheduled && !(c.buckets.map Bucket.filled).all (fun b => b.cap == 0 || decide (b.resume ≤ b.level)) }

theorem bucketRefill_eq (s : State) : exec .bucketRefill s = .next { s with ctxs := s.ctxs.map (fun c => (c.1, c.2.refilled)) } := rfl

/-- A bucket after a charge to the one numbered `k`, of the subject's amount or, for bucket 1, of what is due. -/
def Bucket.charged (b : Bucket) (k n amount : Nat) : Bucket :=
  if b.cap = 0 then { b with due := if n = k then 0 else b.due }
  else if n = k then { b with level := b.level - (if n = 1 then b.due else amount), due := if n = 1 then 0 else b.due } else b

/-- The context after a charge to one of its buckets. -/
def Ctx.charged (c : Ctx) (k amount : Nat) : Ctx :=
  { c with
    buckets := c.buckets.mapIdx (fun n b => b.charged k n amount)
    descheduled := c.descheduled || (c.buckets.mapIdx (fun n b => b.charged k n amount)).any (fun b => b.cap != 0 && decide (b.level ≤ 0)) }

/-- Whether a context has an enabled bucket at or below 0. -/
def Ctx.empty (c : Ctx) : Bool := c.buckets.any (fun b => b.cap != 0 && decide (b.level ≤ 0))

/-- A context is changed by its own value alone. -/
theorem modCtx_congr {s : State} {n : Nat} {c : Ctx} {f h : Ctx → Ctx} (hc : s.ctx? n = some c) (hf : f c = h c) : s.modCtx n f = s.modCtx n h := by
  have hat : tget s.ctxs n = some c := hc
  rw [State.modCtx, State.modCtx, hat]
  dsimp only
  rw [hf]

/-- The machine after a charge to a bucket of a context. -/
def State.charged (s : State) (c : Ctx) : State := s.modCtx s.subject.a (fun _ => c.charged s.subject.b s.subject.c)

theorem bucketCharge_eq {s : State} {c : Ctx} (h : s.ctx? s.subject.a = some c) : exec .bucketCharge s
    = .next (if (c.charged s.subject.b s.subject.c).empty ∧ !c.descheduled
        then (if c.preempted then s.charged c else (s.charged c).preempt s.subject.a).raisePlien 0 5 else s.charged c) := by
  have hcharged : s.modCtx s.subject.a (fun x => { x with
      buckets := (c.charged s.subject.b s.subject.c).buckets, descheduled := x.descheduled || (c.charged s.subject.b s.subject.c).empty }) = s.charged c :=
    modCtx_congr h rfl
  change execBucketCharge s = _
  unfold execBucketCharge
  dsimp only
  rw [h, ← hcharged]
  exact (apply_ite Host.Outcome.next _ _ _).symm

theorem charged_ctx {s : State} {c : Ctx} (h : s.ctx? s.subject.a = some c) :
    (s.charged c).ctx? s.subject.a = some (c.charged s.subject.b s.subject.c) :=
  State.modCtx_ctx_same s _ _ c h

theorem raisePlien_ctx (s : State) (d k n : Nat) : (s.raisePlien d k).ctx? n = s.ctx? n := rfl

/-- What a charge does to its context: the bucket is charged, and a context that has run out is descheduled and pre-empted. -/
theorem bucketCharge_ctx {s : State} {c : Ctx} (h : s.ctx? s.subject.a = some c) : ∃ t p, exec .bucketCharge s = .next t ∧ t.mem = s.mem
    ∧ t.ctx? s.subject.a = some { c.charged s.subject.b s.subject.c with preempted := p }
    ∧ ((c.charged s.subject.b s.subject.c).empty = true → c.descheduled = false → p = true) := by
  have hmem : (s.charged c).mem = s.mem := State.modCtx_mem _ _ _
  refine ⟨_, if (c.charged s.subject.b s.subject.c).empty ∧ !c.descheduled then true else c.preempted, bucketCharge_eq h, ?_⟩
  by_cases hout : (c.charged s.subject.b s.subject.c).empty ∧ !c.descheduled
  · rw [if_pos hout, if_pos hout]
    rw [State.raisePlien_mem, raisePlien_ctx]
    by_cases hp : c.preempted = true
    · rw [if_pos hp]
      exact ⟨hmem, (charged_ctx h).trans (by rw [← hp]; rfl), fun _ _ => rfl⟩
    · rw [if_neg hp, preempt_mem, preempt_ctx (charged_ctx h)]
      exact ⟨hmem, rfl, fun _ _ => rfl⟩
  · rw [if_neg hout, if_neg hout]
    exact ⟨hmem, charged_ctx h, fun he hd => absurd ⟨he, by rw [hd]; rfl⟩ hout⟩

theorem charged_bucket {c : Ctx} {k amount : Nat} {b : Bucket} (h : c.buckets[k]? = some b) (hcap : b.cap ≠ 0) :
    (c.charged k amount).buckets[k]? = some { b with level := b.level - (if k = 1 then b.due else amount), due := if k = 1 then 0 else b.due } := by
  simp only [Ctx.charged, List.getElem?_mapIdx, h, Option.map_some, Bucket.charged, if_neg hcap, if_true]

/-! ### Completion, handlers and restoration (R381 to R388) -/

theorem preemptComplete_eq {s : State} {g : Gutter} (hg : (s.die s.subject.a).gutter.find? (fun g => g.ctx == s.subject.b) = some g)
    (hd : ∀ x ∈ g.due, x < 4096 ∧ s.coreStopped s.subject.b x = true) : exec .preemptComplete s
    = .next (((((s.teamsOf s.subject.b).filter (fun p => dieOf p.1 == s.subject.a)).foldl (fun s p => s.saveTeam p.1 p.2) s).modDie
      s.subject.a (fun d => { d with gutter := d.gutter.filter (fun x => x.ctx != s.subject.b) })).fileSaveArea s.subject.b) := by
  have hall : g.due.all (fun x => decide (x < 4096) && s.coreStopped s.subject.b x) = true :=
    List.all_eq_true.mpr fun x hx => by rw [decide_eq_true (hd x hx).1, (hd x hx).2]; rfl
  change execPreemptComplete s = _
  unfold execPreemptComplete
  dsimp only
  rw [hg]
  exact if_pos hall

theorem nmvPreemptStop_due (s : State) : ∀ g ∈ ((s.modDie s.subject.a (fun d => { d with gutter := d.gutter.map (fun g =>
    { g with due := g.due.filter (fun x => x != 4096 + s.subject.b) }) })).die s.subject.a).gutter, 4096 + s.subject.b ∉ g.due := by
  rw [State.modDie_die_same]
  refine List.forall_mem_map.mpr fun g _ hdue => ?_
  simpa using (List.mem_filter.mp hdue).2

/-- Poison of results in the TRS is no part of a group. -/
theorem modTrs_group (s : State) (g h : GRef) (f : RegPoison → Option RegPoison) : (s.modTrs g f).group? h = s.group? h := by
  unfold State.modTrs
  split <;> rfl

theorem dropTrapped_group {s : State} {g : GRef} {grp : Group} (h : s.group? g = some grp) :
    (s.dropTrapped g).group? g = some { grp with trapped := none } := by
  unfold State.dropTrapped
  rw [h]
  dsimp only [Option.bind_some]
  cases hx : grp.trapped with
  | none => rw [h, ← hx]
  | some x =>
    dsimp only
    refine Eq.trans (State.modTeam_group _ g _ (fun t => Team.release_groups t _ _ _)) ?_
    refine State.modGroup_group_same _ g _ grp ?_
    rw [modTrs_group]
    split
    · exact Eq.trans (State.modTeam_group s g _ (fun t => rfl)) h
    · exact h

/-- The trapped execution of a handler whose time is up is dropped. -/
theorem handlerTimeout_eq {s : State} {tm : Team} {grp : Group} (ht : s.team? s.subject.g.core s.subject.g.slot = some tm)
    (hg : s.group? s.subject.g = some grp) (hm : grp.hm = true) (hd : grp.timedOut = false) (hc : ∃ c, s.ctx? tm.ctx = some c ∧ c.preempted = true) :
    ∃ t, exec .handlerTimeout s = .next t ∧ t.group? s.subject.g = some { grp with trapped := none, timedOut := true } := by
  obtain ⟨c, hctx, hp⟩ := hc
  change ∃ t, execHandlerTimeout s = .next t ∧ _
  unfold execHandlerTimeout
  dsimp only
  rw [ht, hg]
  dsimp only
  rw [if_pos ⟨hm, by rw [hd]; rfl, by rw [hctx]; exact hp⟩]
  refine ⟨_, rfl, ?_⟩
  refine Eq.trans (State.modGroup_group_same _ _ _ _ (dropTrapped_group ((State.writeTrapTile_group s _ _ _ _).trans hg))) rfl

/-- A context whose turn it is to be restored goes on with its next saved team. -/
theorem contextRestore_eq {s : State} {c : Ctx} (hc : s.ctx? s.subject.a = some c) (hp : c.preempted = true) (hd : c.descheduled = false)
    (hs : c.stopped = none) (hg : ∀ d, d < 4 → ∀ g ∈ (s.die d).gutter, g.ctx ≠ s.subject.a) (hq : ∀ q ∈ s.queues, q.2.ctx = s.subject.a → q.2.mapped = true) :
    exec .contextRestore s = .next (s.restoreNext s.subject.a c s.subject.c) := by
  have hidle : (upto 4).any (fun d => (s.die d).gutter.any (fun g => g.ctx == s.subject.a)) = false := by
    refine List.any_eq_false.mpr fun d hmem => ?_
    rw [Bool.not_eq_true]
    exact List.any_eq_false.mpr fun g hgm => by simpa using hg d (List.mem_range.mp hmem) g hgm
  have hturn : s.queues.all (fun q => q.2.ctx != s.subject.a || q.2.mapped) = true := by
    refine List.all_eq_true.mpr fun q hmem => ?_
    by_cases heq : q.2.ctx = s.subject.a
    · rw [hq q hmem heq, Bool.or_true]
    · rw [bne_iff_ne.mpr heq, Bool.true_or]
  change execContextRestore s = _
  unfold execContextRestore
  dsimp only
  rw [hc]
  exact if_pos ⟨hp, by rw [hd]; rfl, by rw [hs]; rfl, by rw [hidle]; rfl, hturn⟩

theorem restoreNext_done {s : State} {c : Ctx} {n k : Nat} (h : c.saved = []) : s.restoreNext n c k = s.endRestore n c.movedFrom := by
  unfold State.restoreNext
  rw [h]

/-- The next saved team goes back to the core that it left, where that may take it. -/
theorem restoreNext_home {s : State} {c : Ctx} {n k : Nat} {v : SavedTeam} {rest : List SavedTeam} (h : c.saved = v :: rest)
    (hon : s.coreEnabled v.core = true) (hr : s.restorable v v.core = true) :
    s.restoreNext n c k
      = let u := (s.modCtx n (fun c => { c with saved := rest, movedFrom := c.movedFrom })).placeTeam v v.core v.slot v.team.window v.team.trapt v.team.storage
        if rest = [] then u.endRestore n c.movedFrom else u := by
  unfold State.restoreNext
  rw [h]
  simp only [hon, hr, Bool.true_or, Bool.not_true, Bool.false_eq_true, if_false, if_true, List.isEmpty_iff]

/-- Settles O35: each event of the scheduler does what its condition lets it do. -/
theorem preemptionEvents : Obligations.PreemptionEvents := by
  refine ⟨fun s => quantumExpiry_alone, fun s n h hn hne => ?_, fun s n c k b hc hb hcap => ?_, fun s c b hc hb hcap => ?_, fun s c hc hp => ?_,
    fun s g => preemptComplete_eq, fun s => ⟨_, rfl, nmvPreemptStop_due s, rfl⟩, fun s tm grp ht hg hm hd hc => ?_,
    fun s c v rest hc hp hd hs hg hq hv hon hr => ?_, fun s c hc hp hd hs hg hq hv => ?_⟩
  · refine ⟨_, quantumExpiry_turns h hn hne, ?_, ?_, fun k q hq => ⟨_, ?_, rfl⟩⟩
    · exact quantumExpiry_frame State.runNext (by simp) (fun _ _ _ => rfl) _ _ _
    · exact quantumExpiry_frame State.mem (by simp) (fun _ _ _ => rfl) _ _ _
    · rw [quantumExpiry_frame State.queues (by simp) (fun _ _ _ => rfl), turned_queue, hq]
      rfl
  · have hbucket : (c.buckets.map Bucket.filled)[k]? = some b.filled := by rw [List.getElem?_map, hb]; rfl
    have hlevel : b.filled.level = min (b.level + b.rate) b.cap := by rw [Bucket.filled, if_neg hcap]
    exact ⟨_, c.refilled, b.filled, bucketRefill_eq s, (tget_map Ctx.refilled s.ctxs n).trans (by rw [hc]; rfl), hbucket, hlevel, rfl⟩
  · obtain ⟨t, p, he, hmem, hctx, hp⟩ := bucketCharge_ctx hc
    refine ⟨t, _, _, he, hctx, charged_bucket hb hcap, hmem, rfl, fun h1 => if_pos h1, rfl, fun hd hd' => hp ?_ hd⟩
    have hor : (c.descheduled || (c.charged s.subject.b s.subject.c).empty) = true := hd'
    rwa [hd, Bool.false_or] at hor
  · exact ⟨_, _, preempt_exec hc hp, preempt_ctx hc, rfl, preempt_mem s _, preempt_cores s _, fun core slot hmem hd => preempt_posts hmem hd⟩
  · obtain ⟨t, he, hy⟩ := handlerTimeout_eq ht hg hm hd hc
    exact ⟨t, _, he, hy, rfl, rfl, rfl, rfl⟩
  · rw [contextRestore_eq hc hp hd hs hg hq, restoreNext_home hv hon hr]
  · rw [contextRestore_eq hc hp hd hs hg hq, restoreNext_done hv]

end Sys2Proof.Machine
end

section

/-! Queues and their packets (O32). -/

namespace Sys2Proof.Machine

theorem modQueue_queue {s : State} {n : Nat} {f : HwQueue → HwQueue} {x : HwQueue} (h : tget s.queues n = some x) :
    tget (s.modQueue n f).queues n = some (f x) := by
  unfold State.modQueue
  rw [h]
  exact tget_tput_same _ _ _

theorem modQueue_mem (s : State) (n : Nat) (f : HwQueue → HwQueue) : (s.modQueue n f).mem = s.mem := by
  unfold State.modQueue
  split <;> rfl

/-- A doorbell that moves TAIL forward within the queue's slots. -/
theorem doorbell_eq {s : State} {x : HwQueue} (hx : tget s.queues s.subject.a = some x) (hv : s.subject.b < 2 ^ 32)
    (hforward : (s.subject.b + 2 ^ 32 - x.tail) % 2 ^ 32 < 2 ^ 31) (hslots : (s.subject.b + 2 ^ 32 - x.head) % 2 ^ 32 ≤ x.slots) :
    exec .doorbell s = .next (s.modQueue s.subject.a (fun x => { x with tail := s.subject.b })) := by
  change execDoorbell s = _
  unfold execDoorbell
  dsimp only
  rw [hx, Nat.mod_eq_of_lt hv]
  dsimp only
  rw [if_neg (Nat.not_le.mpr hforward), if_neg (Nat.not_lt.mpr hslots)]

/-! ### Claims (R331 to R333, R357) -/

section
variable {s t : State} {x : HwQueue} {q core key : Nat}

/-- The state in which the next slot of a queue has been claimed for the agent of a core. -/
def State.slotClaimed (s : State) (q core : Nat) : State :=
  (s.modDie (dieOf core) (fun d => { d with fbLast := q })).modQueue q (fun x => { x with
    next := (x.next + 1) % 2 ^ 32, packets := x.packets ++ [{ idx := x.next, bytes := [], die := dieOf core }] })

theorem claim_reached (hx : tget s.queues q = some x) (hp : ∀ p ∈ x.packets, p.bytes ≠ []) (hn : x.next ≠ x.tail) (hs : s.queueServes x = true)
    (hm : s.mayClaim core q = true) (hr : (s.slotClaimed q core).reach q x.next core x.ctx (x.slotVa x.next) 64 0 0xFE20 = (.ok key, t)) :
    s.claim q core = t.modPacket q x.next (fun p => { p with bytes := t.mem.readBytes key 64 }) := by
  have hread : x.packets.find? (fun p => p.bytes.isEmpty) = none := List.find?_eq_none.mpr fun p hmem => by simpa using hp p hmem
  rw [State.slotClaimed] at hr
  unfold State.claim
  rw [hx]
  dsimp only
  rw [hread]
  dsimp only
  rw [if_neg (by simp [hn, hs, hm]), hr]

theorem packetClaim_claims (hx : tget s.queues s.subject.a = some x) (hk : x.kind = 1) (hp : ∀ p ∈ x.packets, headerBad p.bytes = false) :
    exec .packetClaim s = .next (s.claim s.subject.a s.subject.g.core) := by
  have hsound : x.packets.find? (fun p => !p.bytes.isEmpty && !p.started && p.status == 0 && headerBad p.bytes && s.queueServes x
      && x.mayStart p (bit (leAt p.bytes 1 1) 0)) = none := List.find?_eq_none.mpr fun p hmem => by simp [hp p hmem]
  change execPacketClaim s = _
  unfold execPacketClaim
  dsimp only
  rw [hx]
  dsimp only
  rw [if_neg (not_not.mpr hk), hsound]

end

/-! ### Starts (R329 to R335) -/

section
variable {s t : State} {x : HwQueue} {p : Packet} {kind : Nat}

/-- A packet of a kind may start: it has been read, its queue serves, and its turn has come. -/
def State.MayStart (s : State) (x : HwQueue) (p : Packet) (kind : Nat) : Prop :=
  p.started = false ∧ p.bytes ≠ [] ∧ leAt p.bytes 0 1 = kind ∧ s.queueServes x = true ∧ x.mayStart p (bit (leAt p.bytes 1 1) 0) = true

/-- What a LAUNCH that may start comes to, from its fault. -/
def State.launched (s : State) (p : Packet) : Nat → State
  | 0 => { s.modPacket s.subject.a s.subject.b (fun q => { q with
      teams := (launchExtents p.bytes).1 * (launchExtents p.bytes).2.1 * (launchExtents p.bytes).2.2, since := s.waits }) with waits := s.waits + 1 }
  | k => s.modPacket s.subject.a s.subject.b (fun q => { q with started := true, status := k })

theorem launch_eq (hp : s.packet? s.subject.a s.subject.b = some (x, p)) (hm : s.MayStart x p 1) (hs : p.status = 0) (ht : p.teams = 0)
    (ha : s.agentServes (512 * p.die) p.bytes = true) : exec .launch s = .next (s.launched p (s.launchFault x.ctx p.bytes)) := by
  obtain ⟨hstarted, hbytes, hkind, hserves, hmay⟩ := hm
  change execLaunch s = _
  unfold execLaunch
  dsimp only
  rw [hp]
  dsimp only
  rw [if_neg (by simp [hstarted, hbytes, hkind, hserves, hmay, hs, ht, ha])]
  cases s.launchFault x.ctx p.bytes <;> rfl

theorem launched_fault {k : Nat} (h : k ≠ 0) :
    s.launched p k = s.modPacket s.subject.a s.subject.b (fun q => { q with started := true, status := k }) := by
  cases k with
  | zero => exact absurd rfl h
  | succ k => rfl

theorem feed_eq (hp : s.packet? s.subject.a s.subject.b = some (x, p)) (hm : s.MayStart x p 2) (hs : p.status = 0) (ht : p.teams = 0)
    (hzero : zeroBytes p.bytes [(13, 3), (18, 2), (32, 16)] = true) (hq : leAt p.bytes 12 1 < 16) (hn : leAt p.bytes 4 4 ≠ 0)
    (hmax : leAt p.bytes 4 4 ≤ 65536) (hva : leAt p.bytes 24 8 % 64 = 0) (hg : s.feedGrid x.ctx p.bytes ≠ none) :
    exec .feed s = .next (s.modPacket s.subject.a s.subject.b (fun q => { q with teams := 1 })) := by
  obtain ⟨hstarted, hbytes, hkind, hserves, hmay⟩ := hm
  obtain ⟨l, hl⟩ := Option.ne_none_iff_exists'.mp hg
  change execFeed s = _
  unfold execFeed
  dsimp only
  rw [hp]
  dsimp only
  rw [if_neg (by simp [hstarted, hbytes, hkind, hserves, hmay, hs, ht]), if_neg (by simp [hzero, hq, hn, hmax, hva]), hl]

theorem feedAppend_eq {core slot key : Nat} (hp : s.packet? s.subject.a s.subject.b = some (x, p)) (ht : p.teams ≠ 0) (hs : p.status = 0)
    (hpage : p.page = none) (hk : leAt p.bytes 0 1 = 2) (hserves : s.packetServes x p = true)
    (hteam : s.resolveTeam x.ctx (leAt p.bytes 16 2) (leAt p.bytes 20 4) (0, 0) false (leAt p.bytes 8 4) = .here core slot)
    (hroom : s.tqRoom core slot (leAt p.bytes 12 1) ≠ 0)
    (hr : s.reach s.subject.a s.subject.b s.subject.g.core x.ctx (leAt p.bytes 24 8 + 64 * p.appended) 64 0 0xFE20 = (.ok key, t)) :
    exec .feedAppend s = .next ((t.tqAppend core slot (leAt p.bytes 12 1) (t.mem.readBytes key 64)).modPacket s.subject.a s.subject.b (fun q =>
      { q with started := true, appended := q.appended + 1, status := if q.appended + 1 = leAt p.bytes 4 4 then 1 else 0 })) := by
  change execFeedAppend s = _
  unfold execFeedAppend
  dsimp only
  rw [hp]
  dsimp only
  rw [if_neg (by simp [ht, hs, hpage, hk, hserves]), hteam]
  dsimp only
  rw [if_neg hroom, hr]

theorem nopPacket_eq (hp : s.packet? s.subject.a s.subject.b = some (x, p)) (hm : s.MayStart x p 3) : exec .nopPacket s
    = .next (s.modPacket s.subject.a s.subject.b (fun q => { q with started := true, status := if zeroBytes q.bytes [(4, 44)] = true then 1 else 2 })) := by
  obtain ⟨hstarted, hbytes, hkind, hserves, hmay⟩ := hm
  change execNopPacket s = _
  unfold execNopPacket
  dsimp only
  rw [hp]
  dsimp only
  rw [if_neg (by simp [hstarted, hbytes, hkind, hserves, hmay])]

end

/-! ### Completion (R331, R346) -/

section
variable {s t u : State} {x : HwQueue} {p : Packet} {k : Nat}

/-- A packet that has ended with a STATUS and waits for no page is to be completed. -/
def State.Ended (s : State) (x : HwQueue) (p : Packet) (k : Nat) : Prop :=
  s.packet? s.subject.a s.subject.b = some (x, p) ∧ s.packetDone s.subject.a x p = some k ∧ p.completed = false ∧ p.page = none ∧ p.failed = false

theorem packetComplete_task (h : s.Ended x p k) (hk : x.kind = 2) : exec .packetComplete s = .next (s.packetEnds s.subject.a s.subject.b) := by
  obtain ⟨hp, hdone, hcompleted, hpage, hfailed⟩ := h
  change execPacketComplete s = _
  unfold execPacketComplete
  dsimp only
  rw [hp]
  dsimp only
  rw [hdone]
  dsimp only
  rw [if_neg (by simp [hcompleted, hpage, hfailed]), if_pos hk]

/-- A packet without a SIGNAL has its STATUS written. -/
theorem packetComplete_status {key : Nat} (h : s.Ended x p k) (hk : x.kind ≠ 2) (hsig : leAt p.bytes 56 8 = 0)
    (hr : s.reach s.subject.a s.subject.b s.subject.g.core x.ctx (x.slotVa s.subject.b + 48) 8 1 0xFE20 = (.ok key, t)) :
    exec .packetComplete s = .next ((t.storeLE key 8 k).packetEnds s.subject.a s.subject.b) := by
  obtain ⟨hp, hdone, hcompleted, hpage, hfailed⟩ := h
  change execPacketComplete s = _
  unfold execPacketComplete
  dsimp only
  rw [hp]
  dsimp only
  rw [hdone]
  dsimp only
  rw [if_neg (by simp [hcompleted, hpage, hfailed]), if_neg hk, if_pos (.inl hsig)]
  dsimp only
  rw [hr]
  dsimp only
  rw [if_pos (.inl hsig)]

/-- A packet with a SIGNAL has its STATUS written and its counter added to. -/
theorem packetComplete_signal {at_ key : Nat} (h : s.Ended x p k) (hk : x.kind ≠ 2) (hsig : leAt p.bytes 56 8 ≠ 0) (huns : p.unsignalled = false)
    (hs : s.signalKey s.subject.a s.subject.b s.subject.g.core x.ctx (leAt p.bytes 56 8) = (.ok at_, u))
    (hr : u.reach s.subject.a s.subject.b s.subject.g.core x.ctx (x.slotVa s.subject.b + 48) 8 1 0xFE20 = (.ok key, t)) :
    exec .packetComplete s = .next (((t.storeLE key 8 k).counterAdd at_ 7 s.subject.g.core 0 none 1 false).packetEnds s.subject.a s.subject.b) := by
  obtain ⟨hp, hdone, hcompleted, hpage, hfailed⟩ := h
  have hnot : ¬(leAt p.bytes 56 8 = 0 ∨ p.unsignalled = true) := by simp [hsig, huns]
  change execPacketComplete s = _
  unfold execPacketComplete
  dsimp only
  rw [hp]
  dsimp only
  rw [hdone]
  dsimp only
  rw [if_neg (by simp [hcompleted, hpage, hfailed]), if_neg hk, if_neg hnot, hs]
  dsimp only
  rw [hr]
  dsimp only
  rw [if_neg hnot]

/-- A counter whose home is not poisoned has one added to it, with release. -/
theorem counterAdd_sound {key scope core slot engine : Nat} {grp : Option Nat} {region : Bool} (h : s.poisonAt key 8 = none) :
    s.counterAdd key scope core slot grp engine region
      = ((s.atomicWrite key 8 ((s.mem.readLE key 8 + 1) % 2 ^ 64)).tag key ⟨scope, core, 0, 0, 0, engine⟩).notifyBinds key := by
  rw [State.counterAdd, h]

end

/-- Settles O32: a doorbell, a claim, a start and a completion each do what their checks let them do. -/
theorem queueEvents : Obligations.QueueEvents := by
  refine ⟨fun s x hx hv hf hs => ⟨_, doorbell_eq hx hv hf hs, modQueue_queue hx, modQueue_mem _ _ _⟩,
    fun s x hx hk hp hn hs hm key t hr => ?_, fun s x p hp hm hs ht ha hf => ?_,
    fun s x p hp hm hs ht ha hf => (launch_eq hp hm hs ht ha).trans (congrArg _ (launched_fault hf)), fun s x p => feed_eq,
    fun s x p hp ht hs hpage hk hserves core slot key t => feedAppend_eq hp ht hs hpage hk hserves, fun s x p => nopPacket_eq,
    fun s x p hp k hd hc hpage hf hk => packetComplete_task ⟨hp, hd, hc, hpage, hf⟩ hk,
    fun s x p hp k hd hc hpage hf hk hsig key t hr => packetComplete_status ⟨hp, hd, hc, hpage, hf⟩ hk hsig hr,
    fun s x p hp k hd hc hpage hf hk hsig huns at_ u key t hs hr hpoison => ?_⟩
  · rw [packetClaim_claims hx hk (fun p hmem => (hp p hmem).2), claim_reached hx (fun p hmem => (hp p hmem).1) hn hs hm hr]
  · rw [launch_eq hp hm hs ht ha, hf]
    rfl
  · rw [packetComplete_signal ⟨hp, hd, hc, hpage, hf⟩ hk hsig huns hs hr, counterAdd_sound hpoison]
    rfl

end Sys2Proof.Machine
end

section

/-! Migration, parked stages, folds and spreads (O31). -/

namespace Sys2Proof.Machine

/-! ### What leaves the cores alone -/

theorem store_cores (s : State) (a : Nat) (bs : List Byte) : (s.store a bs).cores = s.cores := rfl

theorem foldl_cores {α : Type} {f : State → α → State} (hf : ∀ s a, (f s a).cores = s.cores) (l : List α) (s : State) :
    (l.foldl f s).cores = s.cores :=
  List.foldlRecOn (motive := fun t => t.cores = s.cores) l f rfl fun t ht a _ => (hf t a).trans ht

theorem ite_cores {c : Prop} [Decidable c] {s t u : State} (ht : t.cores = s.cores) (hu : u.cores = s.cores) : (if c then t else u).cores = s.cores := by
  split
  · exact ht
  · exact hu

theorem scatterBytes_cores (s : State) (l : List Seg) (bs : List Byte) : (s.scatterBytes l bs).cores = s.cores := by
  induction l generalizing s bs with
  | nil => rfl
  | cons g l ih => exact (ih _ _).trans (store_cores _ _ _)

theorem writeSegs_cores (s : State) (l : List Seg) (read : List (Nat × Nat)) (bs : List Byte) : (s.writeSegs l read bs).cores = s.cores := by
  unfold State.writeSegs
  split
  · exact scatterBytes_cores _ _ _
  · exact scatterBytes_cores _ _ _

theorem clearSpares_cores (s : State) (g : Seg) : (s.clearSpares g).cores = s.cores := by
  unfold State.clearSpares
  split
  · refine foldl_cores (fun t x => ?_) _ _
    dsimp only
    split
    · exact store_cores _ _ _
    · rfl
  · rfl

theorem scatterPoison_cores (s : State) (l : List Seg) (n : Nat) (ps : List (Nat × Nat × Nat)) : (s.scatterPoison l n ps).cores = s.cores := by
  induction l generalizing s n with
  | nil => rfl
  | cons g l ih =>
    refine (ih _ _).trans (foldl_cores (fun t x => ?_) _ _)
    dsimp only
    split
    · exact foldl_cores (f := fun s k => s.setPoison _ _ _) (fun _ _ => rfl) _ _
    · rfl

theorem copySegs_cores (s : State) (src dst : List Seg) (read : List (Nat × Nat)) : (s.copySegs src dst read).cores = s.cores := by
  unfold State.copySegs
  rw [scatterPoison_cores, foldl_cores clearSpares_cores, writeSegs_cores]

theorem putItems_cores (s : State) (c : Chan) (n : Nat) (l : List Nat) : (s.putItems c n l).cores = s.cores := by
  induction l generalizing s n with
  | nil => rfl
  | cons v l ih => exact (ih _ _).trans (store_cores _ _ _)

theorem writeTrapTile_cores (s : State) (g : GRef) (n : Nat) (bs : List Byte) : (s.writeTrapTile g n bs).cores = s.cores := by
  rw [State.writeTrapTile_eq]

theorem pick_cores (s : State) (n : Nat) : (s.pick n).2.cores = s.cores := by
  unfold State.pick
  split <;> rfl

theorem placeRanges_cores {s t : State} {units : Nat} {taken : List (Nat × Nat)} {ns rs : List Nat} (h : s.placeRanges units taken ns = some (rs, t)) :
    t.cores = s.cores := by
  induction ns generalizing s taken rs with
  | nil => cases h; rfl
  | cons n ns ih =>
    unfold State.placeRanges at h
    split at h
    · obtain ⟨r, hr, heq⟩ := Option.map_eq_some_iff.mp h
      obtain ⟨-, rfl⟩ := Prod.mk.inj heq
      exact ih hr
    · split at h
      · cases h
      · obtain ⟨r, hr, heq⟩ := Option.map_eq_some_iff.mp h
        obtain ⟨-, rfl⟩ := Prod.mk.inj heq
        exact (ih hr).trans (pick_cores _ _)

theorem placeTeamRanges_cores {s t : State} {core wlen traps storage : Nat} {r : Nat × Nat × Nat}
    (h : s.placeTeamRanges core wlen traps storage = some (r, t)) : t.cores = s.cores := by
  unfold State.placeTeamRanges at h
  split at h
  next hr =>
    obtain ⟨-, rfl⟩ := Prod.mk.inj (Option.some.inj h)
    exact placeRanges_cores hr
  · cases h

theorem team_of_cores {s t : State} (h : t.cores = s.cores) (c n : Nat) : t.team? c n = s.team? c n := by
  rw [State.team?, State.team?, State.core, State.core, h]

/-! ### Teams whose channels are re-pointed -/

/-- A team whose entries that are REMOTE to queues that have moved name their new places. -/
def Team.repoint (t : Team) (moves : List QueueMove) : Team :=
  { t with chans := t.chans.map (fun q => (q.1, moves.foldl (fun c m => m.repoint c) q.2)) }

theorem team_repoint {s t : State} {moves : List QueueMove} (h : t.cores = s.cores.map (fun k => (k.1, k.2.repoint moves))) (c n : Nat) :
    t.team? c n = (s.team? c n).map (fun x => x.repoint moves) := by
  rw [State.team?, State.team?, State.core, State.core, h, tget_map (fun k => Core.repoint k moves)]
  cases tget s.cores c with
  | none => rfl
  | some k => exact tget_map (fun x => Team.repoint x moves) k.teams n

/-! ### The end of a team -/

theorem noteOneEnded_team_ne {s : State} {core slot c n : Nat} (h : c ≠ core ∨ n ≠ slot) : (s.noteOneEnded core slot).team? c n = s.team? c n := by
  unfold State.noteOneEnded
  dsimp only
  split
  · exact State.modTeam_team_ne s core slot c n _ h
  · split
    · refine Eq.trans (State.team_modCore _ c n core _ fun k => ?_) ?_
      · split <;> rfl
      · exact (State.modTeam_team_ne _ core slot c n _ h).trans (State.modTeam_team_ne s core slot c n _ h)
    · exact State.modTeam_team_ne s core slot c n _ h

theorem noteOneEnded_folded {s : State} {core slot : Nat} {t : Team} (ht : s.team? core slot = some t) :
    ∃ t', (s.noteOneEnded core slot).team? core slot = some t' ∧ t'.folded = t.folded := by
  unfold State.noteOneEnded
  dsimp only
  rw [State.modTeam_team_same s core slot _ t ht]
  dsimp only
  split
  · refine ⟨_, Eq.trans (State.team_modCore _ core slot core _ fun k => ?_)
      (State.modTeam_team_same _ core slot _ _ (State.modTeam_team_same s core slot _ t ht)), rfl⟩
    split <;> rfl
  · exact ⟨_, State.modTeam_team_same s core slot _ t ht, rfl⟩

/-- The end of a team that is not folded touches no other team. -/
theorem noteEnded_team_ne {s : State} {core slot c n : Nat} {t : Team} (ht : s.team? core slot = some t) (hf : t.folded = false)
    (h : c ≠ core ∨ n ≠ slot) : (s.noteEnded core slot).team? c n = s.team? c n := by
  obtain ⟨t', ht', hf'⟩ := noteOneEnded_folded ht
  unfold State.noteEnded
  dsimp only
  rw [ht']
  dsimp only
  rw [if_neg (by simp [hf', hf])]
  exact noteOneEnded_team_ne h

/-! ### The move (R294) -/

theorem movedRegs_keeps (grp : Group) (ps : List (Loc × Loc)) (same : Bool) (room : Nat) :
    (movedRegs grp ps same room).lanes = grp.lanes ∧ (movedRegs grp ps same room).width = grp.width ∧ (movedRegs grp ps same room).exec = grp.exec := by
  unfold movedRegs
  split <;> exact ⟨rfl, rfl, rfl⟩

/-- A lane that has moved is pending at ep, held by nothing, where it lives. -/
def Lane.movedTo (l : Lane) (ep : TRef) (now : Nat) : Lane :=
  if l.live then { l with tr := ep, since := now, held := none, bindCall := none, acquires := [] } else l

theorem lane_movedTo {grp : Group} {ls : List Lane} {ep : TRef} {now l : Nat} (hls : ls = grp.lanes) (hl : l ∈ grp.live) :
    (nth (ls.map (fun x => Lane.movedTo x ep now)) l {}).tr = ep ∧ (nth (ls.map (fun x => Lane.movedTo x ep now)) l {}).live = true
      ∧ (nth (ls.map (fun x => Lane.movedTo x ep now)) l {}).held = none := by
  have hlive : (nth grp.lanes l {}).live = true := (List.mem_filter.mp hl).2
  rw [hls, nth, List.getElem?_map]
  cases hat : grp.lanes[l]? with
  | none => rw [nth, hat] at hlive; cases hlive
  | some x =>
    have hx : x.live = true := by rw [nth, hat] at hlive; exact hlive
    rw [Option.map_some, Option.getD_some, Lane.movedTo, if_pos hx]
    exact ⟨rfl, hx, rfl⟩

/-- The team made at the target stays there, but for its channels, when the old team is left. -/
theorem team_of_move {s t : State} {g : GRef} {tm new : Team} {c slot : Nat} {moves : List QueueMove} {f : Team → Team}
    (ht : s.team? g.core g.slot = some tm) (hf : tm.folded = false) (hne : c ≠ g.core ∨ slot ≠ g.slot) (hff : ∀ t, (f t).folded = t.folded)
    (hcores : t.cores = (s.setTeam c slot new).cores.map (fun k => (k.1, k.2.repoint moves))) :
    ((t.modTeam g.core g.slot f).noteEnded g.core g.slot).team? c slot = some (new.repoint moves) := by
  have hold : t.team? g.core g.slot = some (tm.repoint moves) := by
    rw [team_repoint hcores, State.setTeam_team_ne s c slot g.core g.slot new (hne.imp Ne.symm Ne.symm), ht]
    rfl
  rw [noteEnded_team_ne (State.modTeam_team_same t g.core g.slot f _ hold) ((hff _).trans hf) hne,
    State.modTeam_team_ne t g.core g.slot c slot f hne, team_repoint hcores, State.setTeam_team_same]
  rfl

theorem freeTeamSlot_free {s : State} {c slot : Nat} (h : s.freeTeamSlot c = some slot) : s.team? c slot = none :=
  Option.isNone_iff_eq_none.mp (List.find?_some (p := fun n => (s.team? c n).isNone) h)

theorem moveReady_exec {s : State} {g : GRef} {tm : Team} {grp : Group} {n : Needs} (h : s.moveReady g tm grp n = true) : grp.exec = none := by
  unfold State.moveReady at h
  simp only [Bool.and_eq_true, Option.isNone_iff_eq_none] at h
  exact h.1.1.1.1.1.1.1.1

theorem migrationMove_eq {s : State} {tm : Team} {grp : Group} {p : Park} {c : Nat} (ht : s.team? s.subject.g.core s.subject.g.slot = some tm)
    (hg : s.group? s.subject.g = some grp) (hp : grp.park = some p)
    (hr : s.moveReady s.subject.g tm grp (s.parkNeeds s.subject.g tm grp p) = true) (hc : s.parkTarget s.subject.g tm grp p = some c) :
    exec .migrationMove s = .next (s.moveGroup s.subject.g tm grp p c) := by
  change execMigrationMove s = _
  unfold execMigrationMove
  dsimp only
  rw [ht, hg]
  dsimp only
  rw [hp]
  dsimp only
  rw [if_pos hr, hc]

/-- A group that moves stands at its target in a team of its own, its live lanes pending at ep. -/
theorem moveGroup_team {s u : State} {g : GRef} {tm : Team} {grp : Group} {p : Park} {c slot w tr st : Nat} (ht : s.team? g.core g.slot = some tm)
    (hx : grp.exec = none) (hf : tm.folded = false) (hslot : s.freeTeamSlot c = some slot)
    (hplace : s.placeTeamRanges c (s.parkNeeds g tm grp p).window (trapBytes grp.width / 256) ((s.parkNeeds g tm grp p).storage tm grp.num)
      = some ((w, tr, st), u)) :
    ∃ new, (s.moveGroup g tm grp p c).team? c slot = some new ∧ new.ctx = tm.ctx ∧ new.migrated = true ∧ new.window = w ∧ ∃ y, new.groups = [y]
      ∧ y.park = none ∧ y.exec = none ∧ y.width = grp.width ∧ ∀ l ∈ grp.live, (y.lane l).tr = p.ep ∧ (y.lane l).live = true ∧ (y.lane l).held = none := by
  have hne : c ≠ g.core ∨ slot ≠ g.slot := by
    by_contra hsame
    obtain ⟨rfl, rfl⟩ : c = g.core ∧ slot = g.slot := by tauto
    rw [freeTeamSlot_free hslot] at ht
    cases ht
  have hu : u.team? g.core g.slot = some tm := (team_of_cores (placeTeamRanges_cores hplace) _ _).trans ht
  obtain ⟨hlanes, hwidth, hexec⟩ := movedRegs_keeps grp (s.parkPairs g tm p) (isLcore g.core == p.lcore)
    ((s.parkNeeds g tm grp p).regs / max 1 grp.width)
  unfold State.moveGroup
  dsimp only
  rw [hslot, hplace]
  dsimp only
  refine ⟨_, team_of_move (s := { u with nextAtomic := u.nextAtomic + 1 }) hu hf hne (fun _ => rfl) (congrArg (List.map _)
    ((foldl_cores (fun t x => ite_cores (putItems_cores t _ _ _) rfl) _ _).trans
      ((ite_cores (writeTrapTile_cores _ _ _ _) rfl).trans (foldl_cores (fun t x => ite_cores rfl (copySegs_cores t _ _ _)) _ _)))), ?_⟩
  exact ⟨rfl, rfl, rfl, _, rfl, rfl, hexec.trans hx, hwidth, fun l hl => lane_movedTo hlanes hl⟩

/-! ### Park limits, parked stages, folds and spreads (R293, R319 to R323) -/

section
variable {s : State} {tm : Team} {grp : Group}

theorem parkLimit_eq {p : Park} (ht : s.team? s.subject.g.core s.subject.g.slot = some tm) (hg : s.group? s.subject.g = some grp) (hp : grp.park = some p)
    (hm : bits ((s.ctx? tm.ctx).getD {}).migpol.toNat 26 22 ≠ 31) (hc : s.parkTarget s.subject.g tm grp p = none) : exec .parkLimit s
      = .next ((s.modGroup s.subject.g (fun x => { x.pendAt x.live p.alt (s.core s.subject.g.core).cycles with
        park := none
        migref := 6
        stays := if p.ep = p.alt then some p.alt else none })).raisePlien (dieOf s.subject.g.core) 10) := by
  change execParkLimit s = _
  unfold execParkLimit
  dsimp only
  rw [ht, hg]
  dsimp only
  rw [hp]
  dsimp only
  exact if_neg (fun h => h.elim hm (fun hs => by rw [hc] at hs; cases hs))

theorem stagePark_eq (ht : s.team? s.subject.g.core s.subject.g.slot = some tm) (hg : s.group? s.subject.g = some grp)
    (hp : s.stageParks s.subject.g tm grp = true) : exec .stagePark s
      = .next (s.modChain s.subject.g.core s.subject.g.slot (fun t => { t with parkedStages := t.stageOf grp.num :: t.parkedStages })) := by
  change execStagePark s = _
  unfold execStagePark
  dsimp only
  rw [ht, hg]
  exact if_pos hp

/-- A chain all of whose stages have parked, ended or stopped folds, or is refused. -/
theorem chainFoldPerform_eq (ht : s.team? s.subject.g.core s.subject.g.slot = some tm) (hl : tm.foldLatched = true) (hf : tm.folded = false)
    (hd : s.chainPutsDone s.subject.g.core s.subject.g.slot tm = true)
    (hp : ∀ x ∈ s.chainGroups s.subject.g.core s.subject.g.slot tm,
      tm.parkedStages.contains (tm.stageOf x.2.num) = true ∨ x.2.frame = true ∨ x.2.hm = true ∨ x.2.park.isSome = true) :
    exec .chainFoldPerform s = .next (s.foldChain s.subject.g tm) := by
  have hall : (s.chainGroups s.subject.g.core s.subject.g.slot tm).all
      (fun a => tm.parkedStages.contains (tm.stageOf a.2.num) || a.2.frame || a.2.hm || a.2.park.isSome) = true :=
    List.all_eq_true.mpr fun x hx => by simpa only [Bool.or_eq_true, or_assoc] using hp x hx
  change execChainFoldPerform s = _
  unfold execChainFoldPerform
  dsimp only
  rw [ht]
  exact if_pos (by rw [hl, hf, hd, hall]; rfl)

theorem foldChain_folds {g : GRef} {a : GRef × Group} {act : List (GRef × Group)} (ha : s.chainGroups g.core g.slot tm = a :: act)
    (hr : s.foldRefusal g.core g.slot tm (a :: act) = 0) : s.foldChain g tm = s.foldInto g tm a (a :: act) := by
  unfold State.foldChain
  dsimp only
  rw [ha, hr]
  rfl

theorem foldChain_refused {g : GRef} {k : Nat} (hr : s.foldRefusal g.core g.slot tm (s.chainGroups g.core g.slot tm) = k + 1) :
    s.foldChain g tm = s.modChain g.core g.slot (fun t => { t with foldLatched := false, parkedStages := [], chref := k + 1 }) := by
  unfold State.foldChain
  dsimp only
  rw [hr]
  rfl

theorem chainSpreadPerform_eq {fo : Fold} {th : Group} (ht : s.team? s.subject.g.core s.subject.g.slot = some tm) (hfo : tm.fold = some fo)
    (hf : tm.folded = true) (hl : tm.spreadLatched = true) (hth : tm.groups[tm.threadPlace fo]? = some th)
    (hs : s.spreadable s.subject.g tm fo th = true) : exec .chainSpreadPerform s = .next (s.spreadChain s.subject.g tm fo) := by
  change execChainSpreadPerform s = _
  unfold execChainSpreadPerform
  dsimp only
  rw [ht]
  dsimp only
  rw [hfo]
  dsimp only
  rw [hth, hf, hl]
  exact if_pos hs

theorem Fold.switch_thread (fo : Fold) (g : Group) (st : Nat) : (fo.switch g st).1.thread = fo.thread := by
  unfold Fold.switch
  split <;> rfl

/-- The chain's record after a switch names the thread that it named. -/
theorem switchStage_thread {core slot st : Nat} {tm' : Team} {fo fo' : Fold} {th : Group} (ht : s.team? core slot = some tm)
    (hfo : tm.fold = some fo) (hth : tm.groups[tm.threadPlace fo]? = some th)
    (ht' : (s.switchStage core slot st).team? core slot = some tm') (hfo' : tm'.fold = some fo') : fo'.thread = fo.thread := by
  unfold State.switchStage at ht'
  rw [ht] at ht'
  dsimp only at ht'
  rw [hfo] at ht'
  dsimp only at ht'
  rw [hth] at ht'
  dsimp only at ht'
  split at ht'
  · rw [ht, Option.some.injEq] at ht'
    rw [← ht', hfo, Option.some.injEq] at hfo'
    rw [hfo']
  · rw [State.setTeam_team_same, Option.some.injEq] at ht'
    rw [← ht', Option.some.injEq] at hfo'
    rw [← hfo', Fold.switch_thread]

theorem Team.threadPlace_congr {t : Team} {fo fo' : Fold} (h : fo'.thread = fo.thread) : t.threadPlace fo' = t.threadPlace fo := by
  unfold Team.threadPlace
  rw [h]

theorem spreadChain_spreads {g : GRef} {tm' : Team} {fo fo' : Fold} {th th' : Group} (htm : s.team? g.core g.slot = some tm)
    (hf : tm.fold = some fo) (hth : tm.groups[tm.threadPlace fo]? = some th)
    (hq : ∀ q ∈ tm.chans, q.2.mode = 2 → (fo.items th.width q.1).length ≤ q.2.depth)
    (ht : (s.switchStage g.core g.slot (tm.stageOf fo.thread)).team? g.core g.slot = some tm') (hfo : tm'.fold = some fo')
    (hth' : tm'.groups[tm'.threadPlace fo']? = some th') :
    s.spreadChain g tm fo = (s.switchStage g.core g.slot (tm.stageOf fo.thread)).spreadOut g tm' fo' th' := by
  have hroom : ¬tm.chans.any (fun q => q.2.mode == 2 && decide (q.2.depth < (fo.items th.width q.1).length)) = true := by
    rw [Bool.not_eq_true]
    refine List.any_eq_false.mpr fun q hmem => ?_
    by_cases hm : q.2.mode = 2
    · simp [hm, hq q hmem hm]
    · simp [hm]
  rw [Team.threadPlace_congr (switchStage_thread htm hf hth ht hfo)] at hth'
  unfold State.spreadChain
  rw [hth]
  dsimp only
  rw [if_neg hroom, ht]
  dsimp only
  rw [hfo, hth']

theorem schedulerChainLatch_eq (ht : s.team? s.subject.g.core s.subject.g.slot = some tm) (hs : tm.stages ≠ []) : exec .schedulerChainLatch s
    = .next (s.modChain s.subject.g.core s.subject.g.slot (fun u => u.latch (s.foldable s.subject.g.core s.subject.g.slot tm) s.subject.ok)) := by
  change execSchedulerChainLatch s = _
  unfold execSchedulerChainLatch State.latchChain
  dsimp only
  rw [ht]
  exact if_neg (by simpa using hs)

end

/-- Settles O31: the group that moves stands in its team of its own; the others are what their checks let them be. -/
theorem migrationAndChainEvents : Obligations.MigrationAndChainEvents := by
  refine ⟨fun s tm grp ht hg p c slot w tr st u hp hf hr hc hslot hplace => ?_, fun s tm grp ht hg p => parkLimit_eq ht hg,
    fun s tm grp => stagePark_eq, fun s tm ht hl hf hd hp a act ha hr => ?_, fun s tm ht hl hf hd hp k hr => ?_,
    fun s tm ht fo th hfo hf hl hth hs hq tm' fo' th' ht' hfo' hth' => ?_, fun s tm => schedulerChainLatch_eq⟩
  · obtain ⟨new, ht', hctx, hmig, hw, y, hy⟩ := moveGroup_team ht (moveReady_exec hr) hf hslot hplace
    exact ⟨_, new, y, migrationMove_eq ht hg hp hr hc, ht', hctx, hmig, hw, hy⟩
  · rw [chainFoldPerform_eq ht hl hf hd hp, foldChain_folds ha hr]
  · rw [chainFoldPerform_eq ht hl hf hd hp, foldChain_refused hr]
  · rw [chainSpreadPerform_eq ht hfo hf hl hth hs, spreadChain_spreads ht hfo hth hq ht' hfo' hth']

end Sys2Proof.Machine
end

section

/-! The entries of the matrix sequencer (O29). -/

namespace Sys2Proof.Machine

/-- The sequencer stands at an entry of a kind that it can read in its chain tile. -/
def Mx.At (m : Mx) (s : State) (kind : Nat) : Prop :=
  s.mxEntry s.subject.g.core = some m ∧ m.chain.state ≠ .undef ∧ m.chain.readable = true
    ∧ m.i < m.entries ∧ m.fld 7 0 = kind ∧ m.poisonIn m.chain (m.q.off + 16 * m.i) 16 = none

/-- The sequencer goes on to an entry and waits for nothing. -/
def Mx.goesTo (m : Mx) (t : State) (n : Nat) : State := t.modSeq m.core (fun q => { q with
  entry := n
  waitsFor := 0
  state := if q.state = .idle then .idle else if n = m.i then .waiting else .running })

section
variable {s t : State} {m : Mx} {kind n : Nat} {f : Mx → MxStep}

/-- An entry with an effect is performed, and the sequencer goes on to the entry that it names. -/
theorem runEntry_done (hm : m.At s kind) (hk : kind ≠ 0) (hk' : kind ≤ 10) (hf : f m = .done t n) : s.runEntry kind f = m.goesTo t n := by
  obtain ⟨hentry, hdef, hread, hi, hkind, hpoison⟩ := hm
  unfold State.runEntry
  rw [hentry]
  dsimp only
  rw [if_neg hdef, hread, if_neg (by decide), if_neg (Nat.not_le.mpr hi), hkind, if_neg (by omega), if_neg (not_not_intro rfl), hpoison]
  dsimp only
  rw [hf]
  rfl

theorem mxMul_done (h : m.mulStop.isNone = true) : mxMul m = .done (m.setAcc m.s (m.fld 9 8) m.product) (m.i + 1) := by
  rw [mxMul, Option.isNone_iff_eq_none.mp h, Option.getD_none]

theorem mxLoop_done (h : m.loopFault = none) : mxLoop m = .done (m.s.modSeq m.core (fun q => { q with loops := m.loops }))
    (if (tget m.q.loops m.i).getD 0 + 1 < m.fld 51 20 then m.i - m.fld 19 8 else m.i + 1) := by
  rw [mxLoop, h]

theorem mxCond_done (h : m.condStop.isNone = true) :
    mxCond m = .done m.s (if condTest (m.fld 14 12) m.tested (m.fld 95 64) then m.target.toNat else m.i + 1) := by
  rw [mxCond, Option.isNone_iff_eq_none.mp h, Option.getD_none]

theorem mxScalea_done (h : m.scaleaStop.isNone = true) :
    mxScalea m = .done (m.s.modSeq m.core (fun q => { q with ascale := m.scales })) (m.i + 1) := by
  rw [mxScalea, Option.isNone_iff_eq_none.mp h, Option.getD_none]

theorem mxDrain_done {fmt : Format} (h : m.drainStop.isNone = true) (hfmt : fmtFormat m.drainTile.fmt.toNat = some fmt) :
    mxDrain m = .done ((m.drainWrite fmt).modSeq m.core (fun q => { q with srstate := (m.drained fmt).2 })) (m.i + 1) := by
  unfold mxDrain
  rw [Option.isNone_iff_eq_none.mp h, hfmt]
  rfl

theorem mxBypass_done (h : m.bypassStop.isNone = true) :
    mxBypass m = .done ((if bit m.w 16 then m.setAcc m.s (m.fld 9 8) [] else m.s).modSeq m.core m.fillBypass) (m.i + 1) := by
  rw [mxBypass, Option.isNone_iff_eq_none.mp h, Option.getD_none]

/-- A ZERO of accumulators in the allotment, with no reserved bit set, has no fault. -/
theorem mxZero_done (hr : m.reserved = false) (ha : ∀ a ∈ m.zeroed, m.accBad a = false) :
    mxZero m = .done (m.zeroed.foldl (fun s a => m.setAcc s a []) m.s) (m.i + 1) := by
  have hin : m.zeroed.any m.accBad = false := List.any_eq_false.mpr fun a h => by simp [ha a h]
  unfold mxZero
  rw [hr, hin]
  rfl

/-- A RINGWAIT whose channel has nothing for it stays where it is. -/
theorem mxRingwait_waits {tm : Team} (h : m.ringFault = none) (hr : m.ringReady = some t) (ht : t.team? m.core m.slot = some tm)
    (hc : (tm.chan (m.fld 23 20)).frozen = true ∨ (tm.chan (m.fld 23 20)).count = 0) : mxRingwait m = .done t m.i := by
  unfold mxRingwait
  rw [h]
  dsimp only
  rw [hr]
  dsimp only
  rw [ht]
  exact if_pos hc

/-- The state in which a RINGWAIT has taken the next item of its channel, and holds the slot of its turn. -/
def Mx.ringTaken (m : Mx) (t : State) : State :=
  (t.removeItems m.core m.slot (m.fld 23 20) [0]).modSeq m.core (fun q => { q with
    rings := q.rings.modify (m.fld 9 8) (fun x => { x with c := ((m.ring (m.fld 9 8)).c + 1) % 2 ^ 32, holds := true, slot := m.ringSlot })
    held := m.ringSlot :: q.held })

theorem mxRingwait_takes {tm : Team} (h : m.ringFault = none) (hr : m.ringReady = some t) (ht : t.team? m.core m.slot = some tm)
    (hf : (tm.chan (m.fld 23 20)).frozen = false) (hc : (tm.chan (m.fld 23 20)).count ≠ 0) : mxRingwait m = .done (m.ringTaken t) (m.i + 1) := by
  unfold mxRingwait
  rw [h]
  dsimp only
  rw [hr]
  dsimp only
  rw [ht]
  exact if_neg (fun hor => hor.elim (by rw [hf]; exact Bool.false_ne_true) hc)

theorem mxSignal_counter {key : Nat} (h : m.signalFault = none) (ha : m.fld 9 8 = 1)
    (hkey : m.s.sliceCounter (opValue (m.fld 127 64)) = .ok (some key)) (hp : m.s.poisonAt key 8 = none) :
    mxSignal m = .done (((m.s.atomicWrite key 8 ((m.s.mem.readLE key 8 + 1) % 2 ^ 64)).tag key ⟨m.fld 12 10, m.core, 0, 0, 0, 1⟩).notifyBinds key)
      (m.i + 1) := by
  unfold mxSignal
  rw [h]
  dsimp only
  rw [if_pos ha, hkey]
  dsimp only
  rw [hp]
  dsimp only
  rw [counterAdd_sound hp]

theorem mxSignal_channel (h : m.signalFault = none) (ha : m.fld 9 8 ≠ 1) (hc : (m.tm.chan (m.fld 16 13)).room ≠ 0) :
    mxSignal m = .done (m.s.appendItem m.core m.slot (m.fld 16 13) (if (m.tm.chan (m.fld 16 13)).size = 3 then m.fld 37 32 else m.fld 63 32))
      (m.i + 1) := by
  unfold mxSignal
  rw [h]
  dsimp only
  rw [if_neg ha, if_neg hc]

/-- The state in which a chain has ended, its rings' slots released, and is counted. -/
def Mx.ended (m : Mx) (t : State) : State :=
  (t.modSeq m.core (fun q => { q with state := .idle, held := [], waitsFor := 0 })).modTeam m.core m.slot
    (fun t => { t with mxChains := (t.mxChains + 1) % 256 })

theorem mxEnd_done (hr : m.reserved = false) (ht : m.s.releaseRings m.core m.slot = some t) : mxEnd m = .done (m.ended t) m.i := by
  unfold mxEnd
  rw [hr, if_neg Bool.false_ne_true, ht]
  rfl

theorem mxStopPoint_stops {slot : Nat} (ho : (s.core s.subject.g.core).seqr.owner = some slot)
    (hs : (s.core s.subject.g.core).seqr.state = .stopping) (ht : s.releaseRings s.subject.g.core slot = some t) :
    exec .mxStopPoint s = .next (t.modSeq s.subject.g.core (fun q => { q with state := .stopped, held := [], waitsFor := 0 })) := by
  change Host.Outcome.next (s.stopSequencer s.subject.g.core) = _
  unfold State.stopSequencer
  dsimp only
  rw [ho]
  dsimp only
  rw [if_neg (not_not_intro hs), ht]

end

/-- The outcome of an event that performs the sequencer's entry of a kind. -/
theorem next_runEntry {s t : State} {m : Mx} {kind n : Nat} {f : Mx → MxStep} (hm : m.At s kind) (hk : kind ≠ 0 ∧ kind ≤ 10)
    (hf : f m = .done t n) : (.next (s.runEntry kind f) : Host.Outcome State Fault Refusal) = .next (m.goesTo t n) :=
  congrArg _ (runEntry_done hm hk.1 hk.2 hf)

/-- Settles O29: each entry's effect, and the entry that the sequencer goes on to. -/
theorem matrixSequencerEvents : Obligations.MatrixSequencerEvents :=
  ⟨fun _ _ hm h => next_runEntry hm (by decide) (mxMul_done h),
    fun _ _ hm h => next_runEntry hm (by decide) (mxLoop_done h),
    fun _ _ hm h => next_runEntry hm (by decide) (mxCond_done h),
    fun _ _ hm h _ _ hr ht hc => next_runEntry hm (by decide) (mxRingwait_waits h hr ht hc),
    fun _ _ hm h _ _ hr ht hf hc => next_runEntry hm (by decide) (mxRingwait_takes h hr ht hf hc),
    fun _ _ hm hr ha => next_runEntry hm (by decide) (mxZero_done hr ha),
    fun _ _ hm h => next_runEntry hm (by decide) (mxScalea_done h),
    fun _ _ _ hm h hf => next_runEntry hm (by decide) (mxDrain_done h hf),
    fun _ _ hm h => next_runEntry hm (by decide) (mxBypass_done h),
    fun _ _ hm h ha _ hk hp => next_runEntry hm (by decide) (mxSignal_counter h ha hk hp),
    fun _ _ hm h ha hc => next_runEntry hm (by decide) (mxSignal_channel h ha hc),
    fun _ _ _ hm hr ht => next_runEntry hm (by decide) (mxEnd_done hr ht),
    fun _ _ _ => mxStopPoint_stops⟩

end Sys2Proof.Machine
end

section

/-! The admission of teams and gangs, and their end (O33). -/

namespace Sys2Proof.Machine

section
variable {s : State} {x : HwQueue} {p : Packet} {n : Spec}

/-- The state in which a team stands in a slot and at places of its core's slice, and is counted in its packet. -/
def State.teamPlaced (s : State) (n : Spec) (core slot w tr st : Nat) : State :=
  ((s.createTeam n core slot w tr st).modPacket n.queue n.idx (fun r => { r with started := true, created := r.created + 1 })).flushHeld

theorem admitTeam_eq {u : State} {core slot w tr st : Nat} (hslot : s.freeTeamSlot core = some slot)
    (hplace : s.placeSpec n core = some ((w, tr, st), u)) : s.admitTeam n core = u.teamPlaced n core slot w tr st := by
  unfold State.admitTeam
  rw [hslot, hplace]
  rfl

theorem teamAdmit_eq (hp : s.packet? s.subject.a s.subject.b = some (x, p)) (hn : s.launchSpec s.subject.a x p p.created = some n)
    (hl : s.launching x p false = true) (ha : s.admits n s.subject.c none = true) :
    exec .teamAdmit s = .next (s.admitTeam n s.subject.c) := by
  change execTeamAdmit s = _
  unfold execTeamAdmit
  dsimp only
  rw [hp]
  dsimp only
  rw [hn]
  dsimp only
  rw [hl, ha]
  rfl

/-- The record of a TASK queue that its agent takes next, and may start. -/
def State.Takes (s : State) (x : HwQueue) (p : Packet) : Prop :=
  tget s.queues s.subject.a = some x ∧ x.kind = 2 ∧ (s.die (dieOf s.subject.g.core)).fallback = false
    ∧ x.packets.find? (fun p => !p.started && !p.bytes.isEmpty) = some p ∧ s.queueServes x = true
    ∧ x.mayStart p (bit (leAt p.bytes 22 2) 0) = true

theorem taskRecordCreate_creates (ht : s.Takes x p) (hn : s.recordSpec s.subject.a x p = some n) (ha : s.admits n s.subject.c none = true) :
    exec .taskRecordCreate s = .next (s.admitTeam n s.subject.c) := by
  obtain ⟨hx, hk, hf, hp, hs, hm⟩ := ht
  change execTaskRecordCreate s = _
  unfold execTaskRecordCreate
  dsimp only
  rw [hx]
  dsimp only
  rw [if_neg (by simp [hk, hf]), hp]
  dsimp only
  rw [hs, hm, hn]
  dsimp only
  rw [ha]
  rfl

theorem taskRecordCreate_drops (ht : s.Takes x p) (hn : s.recordSpec s.subject.a x p = none) :
    exec .taskRecordCreate s = .next ((s.modPacket s.subject.a p.idx (fun p => { p with started := true, status := 1 })).postRecord
      (dieOf s.subject.g.core) { cause := engCause s.subject.g.core 13, ctx := x.ctx, va := x.slotVa p.idx, elem := 0xFE20, core := s.subject.g.core }) := by
  obtain ⟨hx, hk, hf, hp, hs, hm⟩ := ht
  change execTaskRecordCreate s = _
  unfold execTaskRecordCreate
  dsimp only
  rw [hx]
  dsimp only
  rw [if_neg (by simp [hk, hf]), hp]
  dsimp only
  rw [hs, hm, hn]
  rfl

/-! ### Gangs (R336, R337) -/

/-- A die without the reservation of a gang. -/
def Die.unreserved (key : Nat) (d : Die) : Die :=
  match d.reserved with
  | some v => if v.1 = key then { d with reserved := none } else d
  | none => d

theorem Die.unreserved_reserved {key : Nat} {d : Die} {v : Nat × List Nat} (h : (d.unreserved key).reserved = some v) : v.1 ≠ key := by
  unfold Die.unreserved at h
  split at h
  case h_1 w hw =>
    split at h
    · cases h
    · rename_i hne
      rw [hw, Option.some.injEq] at h
      exact h ▸ hne
  case h_2 hnone => exact absurd (hnone.symm.trans h) nofun

/-- The state in which the packet of a gang waits behind those that wait, and no die holds its reservation. -/
def State.gangLetGo (s : State) (a b : Nat) : State :=
  { s.modPacket a b (fun p => { p with since := s.waits }) with
    waits := s.waits + 1, dies := s.dies.map (fun d => (d.1, d.2.unreserved (gangKey a b))) }

theorem modPacket_cores (s : State) (a b : Nat) (f : Packet → Packet) : (s.modPacket a b f).cores = s.cores := by
  unfold State.modPacket State.modQueue
  split <;> rfl

theorem gangLetGo_cores (s : State) (a b : Nat) : (s.gangLetGo a b).cores = s.cores := modPacket_cores s a b _

theorem gangLetGo_reserved {a b d : Nat} {v : Nat × List Nat} (h : ((s.gangLetGo a b).die d).reserved = some v) : v.1 ≠ gangKey a b := by
  have hdie : (s.gangLetGo a b).die d = ((tget s.dies d).map (Die.unreserved (gangKey a b))).getD {} :=
    congrArg (fun x : Option Die => x.getD {}) (tget_map (Die.unreserved (gangKey a b)) s.dies d)
  rw [hdie] at h
  cases hd : tget s.dies d with
  | none => rw [hd] at h; cases h
  | some x =>
    rw [hd] at h
    exact Die.unreserved_reserved h

theorem gangAdmit_eq {r : List Nat} (hp : s.packet? s.subject.a s.subject.b = some (x, p)) (hl : s.launching x p true = true)
    (hs : s.agentServes (512 * p.die) p.bytes = true) (hr : s.bestOf (s.gangRects s.subject.a x p) = some r) :
    exec .gangAdmit s
      = .next ((((s.gangSpecs s.subject.a x p).zip r).foldl (fun s y => s.admitTeam y.1 y.2) s).gangLetGo s.subject.a s.subject.b) := by
  change execGangAdmit s = _
  unfold execGangAdmit
  dsimp only
  rw [hp]
  dsimp only
  rw [hl, hs, hr]
  rfl

theorem gangReserve_eq (hp : s.packet? s.subject.a s.subject.b = some (x, p)) (hw : s.gangWaits x p = true)
    (hres : s.reservable s.subject.c p = true) (ha : s.gangAhead s.subject.a x p = false) (he : s.gangRects s.subject.a x p = [])
    (hd : s.subject.c < 4) {r : List Nat}
    (hr : s.bestOf ((rectangles s.subject.c (gangShape p).1 (gangShape p).2 (!(((s.launchKernel x.ctx p.bytes).map (·.d9)).getD false))).filter
      (fun r => r.all s.coreEnabled)) = some r) :
    exec .gangReserve s = .next (s.modDie s.subject.c (fun d => { d with reserved := some (gangKey s.subject.a s.subject.b, r) })) := by
  change execGangReserve s = _
  unfold execGangReserve
  dsimp only
  rw [hp]
  dsimp only
  rw [hw, hres, ha, he, decide_eq_false (Nat.not_le.mpr hd), if_neg (by decide), hr]

theorem gangStarved_eq (hp : s.packet? s.subject.a s.subject.b = some (x, p)) {r : Nat × List Nat}
    (hr : (s.die s.subject.c).reserved = some r) (hk : r.1 = gangKey s.subject.a s.subject.b) (he : s.gangRects s.subject.a x p = []) :
    exec .gangStarved s = .next (s.raisePlien s.subject.c 0) := by
  change execGangStarved s = _
  unfold execGangStarved
  dsimp only
  rw [hp, hr]
  exact if_pos ⟨hk, by rw [he]; rfl⟩

/-! ### Grants and ends (R105, R106) -/

theorem acquireGrant_eq {slot : Nat} {tm : Team} {k : Kernel}
    (ha : leastBy (fun (t : Nat × Team) => t.2.grantAsked.getD 0)
      ((s.coreTeams s.subject.g.core).filter (fun t => t.2.grantAsked.isSome && !t.2.granted)) = some (slot, tm))
    (hk : s.teamKernel? tm = some k)
    (hregs : s.usedRegs s.subject.g.core + (s.shortfall s.subject.g.core tm).1 ≤ fileRegs s.subject.g.core)
    (haccs : (s.shortfall s.subject.g.core tm).2 = 0 ∨ s.usedAccs s.subject.g.core + (s.shortfall s.subject.g.core tm).2 ≤ 4) :
    exec .acquireGrant s = .next (s.modTeam s.subject.g.core slot (fun t => t.grant k s.subject.g.core)) := by
  change execAcquireGrant s = _
  unfold execAcquireGrant
  dsimp only
  rw [ha]
  dsimp only
  rw [hk]
  exact if_pos ⟨hregs, haccs⟩

theorem teamEnd_eq {tm : Team} (ht : s.team? s.subject.g.core s.subject.g.slot = some tm)
    (hd : s.teamDone s.subject.g.core s.subject.g.slot tm = true) :
    exec .teamEnd s = .next (s.endTeam s.subject.g.core s.subject.g.slot tm) := by
  change execTeamEnd s = _
  unfold execTeamEnd
  dsimp only
  rw [ht]
  exact if_pos hd

end

/-- Settles O33: each admission creates the teams that its checks let it, at the places that the core has for them. -/
theorem admissionEvents : Obligations.AdmissionEvents := by
  refine ⟨fun s x p hp n hn hl ha slot w tr st u hslot hplace =>
      (teamAdmit_eq hp hn hl ha).trans (congrArg _ (admitTeam_eq hslot hplace)),
    fun s x p hp hl hs r hr => ⟨_, gangAdmit_eq hp hl hs hr, gangLetGo_cores _ _ _, fun d v => gangLetGo_reserved⟩,
    fun s x p hp hl hs n c hr hn slot w tr st u hslot hplace => ⟨_, gangAdmit_eq hp hl hs hr, ?_⟩,
    fun s x p hp hw hres ha he hd r => gangReserve_eq hp hw hres ha he hd, fun s x p hp r => gangStarved_eq hp,
    fun s slot tm k => acquireGrant_eq, fun s tm => teamEnd_eq,
    fun s x p n hx hk hf hp hs hm hn ha slot w tr st u hslot hplace =>
      (taskRecordCreate_creates ⟨hx, hk, hf, hp, hs, hm⟩ hn ha).trans (congrArg _ (admitTeam_eq hslot hplace)),
    fun s x p hx hk hf hp hs hm => taskRecordCreate_drops ⟨hx, hk, hf, hp, hs, hm⟩⟩
  rw [gangLetGo_cores, hn]
  exact congrArg State.cores (admitTeam_eq hslot hplace)

end Sys2Proof.Machine
end

section

/-! Fetches, dispatches and the release of held lanes (O25). -/

namespace Sys2Proof.Machine

/-! ### Groups and lanes under a team's change -/

theorem modTeam_group_any {s : State} {c n : Nat} {f : Team → Team} (hf : ∀ t, (f t).groups = t.groups) (g : GRef) :
    (s.modTeam c n f).group? g = s.group? g := by
  by_cases h : g.core = c ∧ g.slot = n
  · obtain ⟨rfl, rfl⟩ := h
    exact State.modTeam_group s g f hf
  · unfold State.group?
    rw [State.modTeam_team_ne _ _ _ _ _ _ (not_and_or.mp h)]

theorem modGroup_group_ne {s : State} {g h : GRef} {f : Group → Group} (hne : h ≠ g) : (s.modGroup g f).group? h = s.group? h := by
  by_cases hteam : h.core = g.core ∧ h.slot = g.slot
  · have hgrp : g.grp ≠ h.grp := fun e => hne (by cases g; cases h; simp_all)
    unfold State.group? State.modGroup
    rw [hteam.1, hteam.2]
    cases ht : s.team? g.core g.slot with
    | none => rw [State.modTeam_team_none _ _ _ _ ht, ht]
    | some t =>
      rw [State.modTeam_team_same _ _ _ _ t ht]
      exact (List.getElem?_modify _ _ _ _).trans (by simp [hgrp])
  · unfold State.group? State.modGroup
    rw [State.modTeam_team_ne _ _ _ _ _ _ (not_and_or.mp hteam)]

theorem modGroup_teamCtx (s : State) (g : GRef) (f : Group → Group) (c n : Nat) :
    ((s.modGroup g f).team? c n).map (·.ctx) = (s.team? c n).map (·.ctx) := by
  unfold State.modGroup
  by_cases h : c = g.core ∧ n = g.slot
  · obtain ⟨rfl, rfl⟩ := h
    cases ht : s.team? g.core g.slot with
    | none => rw [State.modTeam_team_none _ _ _ _ ht, ht]
    | some t => rw [State.modTeam_team_same _ _ _ _ t ht]; rfl
  · rw [State.modTeam_team_ne _ _ _ _ _ _ (not_and_or.mp h)]

theorem modTeam_teamCtx {s : State} {c n : Nat} {f : Team → Team} (hf : ∀ t, (f t).ctx = t.ctx) (d m : Nat) :
    ((s.modTeam c n f).team? d m).map (·.ctx) = (s.team? d m).map (·.ctx) := by
  by_cases h : d = c ∧ m = n
  · obtain ⟨rfl, rfl⟩ := h
    cases ht : s.team? d m with
    | none => rw [State.modTeam_team_none _ _ _ _ ht, ht]
    | some t => rw [State.modTeam_team_same _ _ _ _ t ht]; exact congrArg some (hf t)
  · rw [State.modTeam_team_ne _ _ _ _ _ _ (not_and_or.mp h)]

theorem Group.lane_mapIdx (g : Group) (f : Nat → Lane → Lane) {l : Nat} (hl : l < g.lanes.length) :
    ({ g with lanes := g.lanes.mapIdx f } : Group).lane l = f l (g.lane l) := by
  simp [Group.lane, nth, hl]

/-- A group's lanes after a change of one of them. -/
theorem Group.lane_modify (g : Group) (f : Lane → Lane) {a : Nat} (ha : a < g.lanes.length) (l : Nat) :
    ({ g with lanes := g.lanes.modify a f } : Group).lane l = if l = a then f (g.lane l) else g.lane l := by
  unfold Group.lane nth
  rw [List.getElem?_modify]
  by_cases h : a = l
  · subst h
    simp [ha]
  · simp [h, Ne.symm h]

section
variable {s : State} {g : GRef} {f : Nat → Lane → Lane}

theorem mapLanes_group {grp : Group} (h : s.group? g = some grp) :
    (s.mapLanes g f).group? g = some { grp with lanes := grp.lanes.mapIdx f } := by
  unfold State.mapLanes
  refine Eq.trans (State.modTeam_group _ g _ ?_) (State.modGroup_group_same s g _ grp h)
  exact fun _ => rfl

theorem mapLanes_group_ne {h : GRef} (hne : h ≠ g) : (s.mapLanes g f).group? h = s.group? h := by
  unfold State.mapLanes
  refine Eq.trans (modTeam_group_any ?_ h) (modGroup_group_ne hne)
  exact fun _ => rfl

theorem mapLanes_teamCtx (s : State) (g : GRef) (f : Nat → Lane → Lane) (c n : Nat) :
    ((s.mapLanes g f).team? c n).map (·.ctx) = (s.team? c n).map (·.ctx) := by
  unfold State.mapLanes
  refine Eq.trans (modTeam_teamCtx ?_ c n) (modGroup_teamCtx s g _ c n)
  exact fun _ => rfl

theorem mapLanes_dies (s : State) (g : GRef) (f : Nat → Lane → Lane) : (s.mapLanes g f).dies = s.dies := by
  unfold State.mapLanes
  rw [State.modTeam_dies, State.modGroup_dies]

end

/-! ### Fetch (R38) -/

section
variable {s u : State} {tm : Team} {grp : Group}

/-- A trace fetched whole, at the front of a group's trace buffer. -/
def Group.fetched (tm : Team) (f : Fetched) (x : Group) : Group :=
  { x with buffers := f :: x.buffers.filter (fun b => b.tr != f.tr && (x.counted.any (fun l => decide ((x.lane l).tr = b.tr))
      || (tm.banked x.num).any (fun p => p.2.live && decide (p.2.tr = b.tr)))) }

theorem Group.fetched_buffer (tm : Team) (f : Fetched) (x : Group) : (x.fetched tm f).buffer f.tr = some f :=
  List.find?_cons_of_pos (decide_eq_true rfl)

theorem traceFetch_eq (ht : s.team? s.subject.g.core s.subject.g.slot = some tm) (hg : s.group? s.subject.g = some grp)
    (hr : s.mayRun s.subject.g tm grp = true) (hp : grp.pending s.subject.t ≠ []) (hb : grp.buffer s.subject.t = none)
    (he : s.traceExists tm.ctx s.subject.t = true) {h : Header} {ws : List DWord}
    (hf : s.fetchLines (s.traceEnc s.subject.g.core tm.ctx s.subject.t) s.subject.g.core (asks 0 (s.subject.g.slot * 16 + s.subject.g.grp) 0) tm.ctx
      (s.traceVa tm.ctx (s.traceEnc s.subject.g.core tm.ctx s.subject.t) s.subject.t) 32 [] none = (.ok h ws, u))
    (hm : h.malformed (s.traceEnc s.subject.g.core tm.ctx s.subject.t) = false) :
    exec .traceFetch s = .next (u.modGroup s.subject.g (Group.fetched tm ⟨s.subject.t, h, ws⟩)) := by
  change execTraceFetch s = _
  unfold execTraceFetch
  dsimp only
  rw [ht, hg]
  dsimp only
  rw [hr, hb, he, if_pos (by decide), if_neg (by simpa using hp)]
  unfold State.fetchTrace
  dsimp only
  rw [hf]
  dsimp only
  rw [hm]
  rfl

/-! ### The start of a trace (R251, R342) -/

/-- A group that keeps its lanes, registers, predicates and stochastic states. -/
def Group.DataKept (grp y : Group) : Prop := y.lanes = grp.lanes ∧ y.regs = grp.regs ∧ y.preds = grp.preds ∧ y.sr = grp.sr

theorem setTq_cores (s : State) (core slot q off v : Nat) : (s.setTq core slot q off v).cores = s.cores := by
  unfold State.setTq
  split
  · split <;> rfl
  · rfl

theorem cleanRegs_cores (s : State) (g : GRef) (ps : List Place) : (s.cleanRegs g ps).cores = s.cores := by
  unfold State.cleanRegs
  split <;> rfl

/-- What a TASK head takes leaves the group's lanes, registers, predicates and stochastic states. -/
theorem takeTask_group {g : GRef} {y : Group} {q : Nat} (h : s.group? g = some y) :
    ∃ z, (s.takeTask g grp q).2.group? g = some z ∧ y.DataKept z := by
  have hkept : ∀ z, z.lanes = y.lanes → z.regs = y.regs → z.preds = y.preds → z.sr = y.sr → y.DataKept z :=
    fun z h1 h2 h3 h4 => ⟨h1, h2, h3, h4⟩
  have hwoken : (s.modTeam g.core g.slot (fun t => match tget t.queues q with
      | some x => { t with queues := tput t.queues q { x with woken := x.woken.filter (fun n => n != g.grp) } }
      | none => t)).group? g = some y :=
    Eq.trans (State.modTeam_group s g _ fun t => by split <;> rfl) h
  unfold State.takeTask
  dsimp only
  generalize (s.modTeam g.core g.slot _) = w at hwoken ⊢
  have hclean : (w.cleanRegs g ((upto 16).map (fun n => ⟨0, .k n⟩))).group? g = some y :=
    (State.group_of_cores (cleanRegs_cores _ _ _) g).trans hwoken
  generalize w.cleanRegs g _ = v at hclean ⊢
  split
  · exact ⟨_, State.modGroup_group_same v g _ y hclean, hkept _ rfl rfl rfl rfl⟩
  · split
    · exact ⟨y, hclean, hkept _ rfl rfl rfl rfl⟩
    · split
      · exact ⟨_, State.modGroup_group_same _ g _ y ((State.group_of_cores (setTq_cores _ _ _ _ _ _) g).trans hclean),
          hkept _ rfl rfl rfl rfl⟩
      · exact ⟨_, State.modGroup_group_same v g _ y hclean, hkept _ rfl rfl rfl rfl⟩

/-- A group whose barrier of a wait, or of its BAR head, has turned. -/
def Group.turnedFor (tm : Team) (h : Header) (x : Group) : Group :=
  let turn (x : Group) (n : Nat) : Group := { x with epb := x.epb.set n (tm.bar n).ph }
  let x := match x.wait with | some n => { turn x n with wait := none } | none => x
  if h.head = 1 then turn x (h.arg % 16) else x

theorem Group.turnedFor_kept (tm : Team) (h : Header) (x : Group) : x.DataKept (x.turnedFor tm h) ∧ (x.turnedFor tm h).uregs = x.uregs := by
  unfold Group.turnedFor
  dsimp only
  split <;> split <;> exact ⟨⟨rfl, rfl, rfl, rfl⟩, rfl⟩

/-- What the head of a trace takes at its start. -/
def State.headTaken (s : State) (g : GRef) (tm : Team) (grp : Group) (h : Header) : Bool × State :=
  if h.head = 3 then (s.modGroup g (Group.turnedFor tm h)).takeTask g grp h.arg else (false, s.modGroup g (Group.turnedFor tm h))

theorem headTaken_group {g : GRef} (h : Header) (hg : s.group? g = some grp) :
    ∃ y, (s.headTaken g tm grp h).2.group? g = some y ∧ grp.DataKept y ∧ (h.head ≠ 3 → y.uregs = grp.uregs) := by
  have hturn := State.modGroup_group_same s g (Group.turnedFor tm h) grp hg
  obtain ⟨⟨hlanes, hregs, hpreds, hsr⟩, huregs⟩ := Group.turnedFor_kept tm h grp
  by_cases h3 : h.head = 3
  · obtain ⟨z, hz, hzl, hzr, hzp, hzs⟩ := takeTask_group (grp := grp) (q := h.arg) hturn
    rw [State.headTaken, if_pos h3]
    exact ⟨z, hz, ⟨hzl.trans hlanes, hzr.trans hregs, hzp.trans hpreds, hzs.trans hsr⟩, fun hne => absurd h3 hne⟩
  · rw [State.headTaken, if_neg h3]
    exact ⟨_, hturn, ⟨hlanes, hregs, hpreds, hsr⟩, fun _ => huregs⟩

theorem headTaken_mem {g : GRef} {h : Header} (h3 : h.head ≠ 3) : (s.headTaken g tm grp h).2.mem = s.mem := by
  rw [State.headTaken, if_neg h3]
  exact State.modGroup_mem _ _ _

theorem Team.hold_groups (t : Team) (hm : Bool) (keep mask : Nat) : (t.hold hm keep mask).groups = t.groups := by
  unfold Team.hold
  generalize upto 64 = l
  induction l generalizing t with
  | nil => rfl
  | cons n ns ih =>
    refine (ih _).trans ?_
    rw [apply_ite Team.groups]
    exact ite_self _

/-- An execution as it starts: every lane that is ready there, nothing issued or buffered. -/
def Exec.Starts (x : Exec) (b : Fetched) (lanes : List Nat) : Prop :=
  x.tr = b.tr ∧ x.hdr = b.hdr ∧ x.words = b.words ∧ x.started = lanes ∧ x.here = lanes ∧ x.off = 0 ∧ x.issued = [] ∧ x.buf = []
    ∧ x.run = 0 ∧ x.closing = false

/-- A trace starts in an execution of the group, which keeps its lanes and registers. -/
theorem startTrace_group {g : GRef} {b : Fetched} (ht : s.team? g.core g.slot = some tm) (hg : s.group? g = some grp) :
    ∃ y x, (s.startTrace g b).group? g = some y ∧ y.exec = some x ∧ x.Starts b (grp.pending b.tr) ∧ grp.DataKept y
      ∧ (b.hdr.head ≠ 3 → y.uregs = grp.uregs) ∧ (b.hdr.head ≠ 3 → (s.startTrace g b).mem = s.mem) := by
  obtain ⟨y, hy, hkept, huregs⟩ := headTaken_group (tm := tm) b.hdr hg
  have hmem := headTaken_mem (s := s) (tm := tm) (grp := grp) (g := g) (h := b.hdr)
  unfold State.startTrace
  rw [ht, hg]
  dsimp only
  change ∃ y' x, (match s.headTaken g tm grp b.hdr with | (got, s') => _ : State).group? g = some y' ∧ _
  obtain ⟨got, u⟩ := s.headTaken g tm grp b.hdr
  dsimp only
  refine ⟨_, _, State.modGroup_group_same _ g _ y (Eq.trans (State.modTeam_group _ g _ ?_) hy), rfl,
    ⟨rfl, rfl, rfl, rfl, rfl, rfl, rfl, rfl, rfl, rfl⟩, hkept, huregs, fun h3 => ?_⟩
  · intro t
    split <;> exact Team.hold_groups _ _ _ _
  · rw [State.modGroup_mem, State.modTeam_mem]
    exact hmem h3

/-! ### Dispatch (R251) -/

/-- A group with no ACQUIRE head asks for no grant. -/
theorem askGrant_eq {g : GRef} (h : ∀ t b, grp.buffer t = some b → b.hdr.head ≠ 4) : s.askGrant g grp = s := by
  have hnone : grp.candidates.any (fun t => match grp.buffer t with | some b => b.hdr.head == 4 | none => false) = false := by
    refine List.any_eq_false.mpr fun t _ => ?_
    cases hb : grp.buffer t with
    | none => exact Bool.false_ne_true
    | some b => simpa using h t b hb
  exact if_neg fun hask => Bool.false_ne_true (hnone.symm.trans hask)

theorem switchStage_of_noFold {c n st : Nat} (ht : s.team? c n = some tm) (hf : tm.fold = none) : s.switchStage c n st = s := by
  unfold State.switchStage
  rw [ht]
  dsimp only
  rw [hf]

/-- The dispatch of a group of a team that is no chain starts the trace that it chooses. -/
theorem traceDispatch_starts {b : Fetched} (ht : s.team? s.subject.g.core s.subject.g.slot = some tm) (hg : s.group? s.subject.g = some grp)
    (hr : s.mayRun s.subject.g tm grp = true) (hx : grp.exec = none) (hh : grp.haltAsked = false)
    (hb : ∀ l ∈ grp.ready, (grp.lane l).bindCall = none) (hfolded : tm.folded = false) (hf : tm.fold = none)
    (ha : ∀ t b, grp.buffer t = some b → b.hdr.head ≠ 4) (hc : s.choose s.subject.g tm grp = .start b 0) :
    exec .traceDispatch s = .next (s.startTrace s.subject.g b) := by
  have hcalls : grp.ready.any (fun l => (grp.lane l).bindCall.isSome) = false := List.any_eq_false.mpr fun l hl => by simp [hb l hl]
  have hstages : stagesToTry tm grp = [0] := by rw [stagesToTry, hfolded]
  change Host.Outcome.next (s.dispatch s.subject.g) = _
  unfold State.dispatch
  rw [ht, hg]
  dsimp only
  rw [hx, if_neg (by decide), hh, if_neg (fun h => Bool.false_ne_true h.1), hr, hf, if_neg (by decide), if_neg (by decide), hcalls,
    if_neg (by decide), hstages, askGrant_eq ha]
  dsimp only [List.headD, List.length]
  unfold State.tryStages
  dsimp only
  rw [switchStage_of_noFold ht hf, ht, hg]
  dsimp only
  rw [hc]
  rfl

theorem schedMigrate_eq {t : TRef} {lcore : Bool} (ht : s.team? s.subject.g.core s.subject.g.slot = some tm) (hg : s.group? s.subject.g = some grp)
    (hr : s.mayRun s.subject.g tm grp = true) (hc : s.choose s.subject.g tm grp = .migrate t lcore) :
    exec .schedMigrate s = .next (s.parkGroup s.subject.g t lcore) := by
  change execSchedMigrate s = _
  unfold execSchedMigrate
  dsimp only
  rw [ht, hg]
  dsimp only
  rw [hr, hc]
  rfl

theorem priorityAging_eq (hg : s.group? s.subject.g = some grp)
    (hw : (∃ x, grp.exec = some x ∧ x.run = 0 ∧ x.closing = false) ∨ (grp.exec = none ∧ grp.candidates ≠ [])) :
    exec .priorityAging s = .next (s.modGroup s.subject.g (fun x => { x with waited := min 3 (x.waited + 1) })) := by
  change execPriorityAging s = _
  unfold execPriorityAging
  rw [hg]
  dsimp only
  rcases hw with ⟨x, hx, hrun, hclosing⟩ | ⟨hx, hc⟩
  · rw [hx]
    exact if_pos (show (x.run == 0 && !x.closing) = true by rw [hrun, hclosing]; rfl)
  · rw [hx]
    exact if_pos (by simpa using hc)

/-! ### Releases (R256) -/

theorem requeueRelease_eq (ht : s.team? s.subject.g.core s.subject.g.slot = some tm) (hg : s.group? s.subject.g = some grp) (hh : grp.halt = .none) :
    exec .requeueRelease s = .next (s.mapLanes s.subject.g (fun n l => match l.held with
      | some h => if s.cleared s.subject.g tm n h then l.release (s.core s.subject.g.core).cycles else l
      | none => l)) := by
  have hhalted : s.halted s.subject.g = false := by rw [State.halted, hg]; dsimp only; rw [hh]; rfl
  change Host.Outcome.next (s.releaseCleared s.subject.g) = _
  unfold State.releaseCleared
  rw [ht]
  dsimp only
  rw [hhalted]
  rfl

theorem stageLane_of_notBanked {g : GRef} {st l : Nat} (hb : s.inBank g st = false) (hg : s.group? g = some grp) :
    s.stageLane g st l = grp.lane l := by
  rw [State.stageLane, hb, hg]
  rfl

theorem releaseStage_of_notBanked {g : GRef} {st l : Nat} (hb : s.inBank g st = false) :
    s.releaseStage g st l = s.modGroup g (fun x => { x with lanes := x.lanes.modify l (Lane.release (s.core g.core).cycles) }) := by
  rw [State.releaseStage, hb]
  rfl

/-- The release of one lane of a group leaves its others. -/
theorem releaseStage_group {g : GRef} {st a : Nat} (hb : s.inBank g st = false) (hg : s.group? g = some grp) (ha : a < grp.lanes.length) :
    ∃ y, (s.releaseStage g st a).group? g = some y ∧ y.regs = grp.regs
      ∧ ∀ l, y.lane l = if l = a then (grp.lane l).release (s.core g.core).cycles else grp.lane l := by
  rw [releaseStage_of_notBanked hb]
  exact ⟨_, State.modGroup_group_same _ _ _ grp hg, rfl, Group.lane_modify grp _ ha⟩

theorem requeueTimer_eq {h : Held} (hg : s.group? s.subject.g = some grp) (hh : grp.halt = .none)
    (hl : (s.stageLane s.subject.g s.subject.b s.subject.a).held = some h) (hc : h.cause = 3 ∨ h.cause = 7) :
    exec .requeueTimer s = .next ((s.releaseStage s.subject.g s.subject.b s.subject.a).raisePlien (dieOf s.subject.g.core) 9) := by
  change execRequeueTimer s = _
  unfold execRequeueTimer
  dsimp only
  rw [hg, hl]
  dsimp only
  have hdue : (grp.halt == Halt.none && (h.cause == 3 || h.cause == 7)) = true := by rw [hh]; rcases hc with hc | hc <;> rw [hc] <;> rfl
  exact congrArg _ (if_pos hdue)

theorem bindRetryTimer_eq {h : Held} (hl : (s.stageLane s.subject.g s.subject.b s.subject.a).held = some h) (hc : h.cause = 17) :
    exec .bindRetryTimer s = .next (s.releaseStage s.subject.g s.subject.b s.subject.a) := by
  change execBindRetryTimer s = _
  unfold execBindRetryTimer
  dsimp only
  rw [hl]
  exact if_pos hc

/-- A chain's record after the release of one continuation of a banked stage. -/
def Fold.released (st a now : Nat) (fo : Fold) : Fold :=
  { fo with cont := fo.cont.map (fun p => (p.1, if p.1 = st * 128 + a then p.2.release now else p.2)) }

theorem releaseStage_of_banked {g : GRef} {st a : Nat} (hb : s.inBank g st = true) :
    s.releaseStage g st a
      = s.modTeam g.core g.slot (fun t => { t with fold := t.fold.map (Fold.released st a (s.core g.core).cycles) }) := by
  rw [State.releaseStage, hb]
  rfl

/-- The release of a banked continuation leaves the team's groups. -/
theorem releaseStage_banked {g : GRef} {st a : Nat} {fo : Fold} (hb : s.inBank g st = true) (ht : s.team? g.core g.slot = some tm)
    (hg : s.group? g = some grp) (hf : tm.fold = some fo) :
    ∃ tm', (s.releaseStage g st a).team? g.core g.slot = some tm' ∧ (s.releaseStage g st a).group? g = some grp
      ∧ tm'.fold = some (fo.released st a (s.core g.core).cycles) := by
  rw [releaseStage_of_banked hb]
  refine ⟨_, State.modTeam_team_same _ _ _ _ tm ht, Eq.trans (State.modTeam_group s g _ ?_) hg, ?_⟩
  · exact fun _ => rfl
  · exact congrArg (Option.map _) hf

theorem stageLane_of_banked {g : GRef} {st a : Nat} {fo : Fold} {l : Lane} (ht : s.team? g.core g.slot = some tm) (hf : tm.fold = some fo)
    (hb : s.inBank g st = true) (hl : tget fo.cont (st * 128 + a) = some l) : s.stageLane g st a = l := by
  rw [State.stageLane, hb, if_pos rfl, ht]
  dsimp only [Option.bind]
  rw [hf]
  dsimp only
  rw [hl]
  rfl

end

/-! ### Waits on an entry of a bind table (R42) -/

section
variable {s : State}

/-- Whether a wait is on an entry of an object in a context. -/
def State.waitsOn (s : State) (ctx handle entry : Nat) (w : BindWait) : Bool :=
  w.handle == handle && w.entry == entry && (match s.team? w.g.core w.g.slot with | some t => t.ctx == ctx | none => false)

/-- A lane held by a wait on the entry is released. -/
def BindWait.lets (w : BindWait) (now n : Nat) (l : Lane) : Lane := if n = w.lane ∧ l.held = some ⟨16, w.entry⟩ then l.release now else l

/-- The lanes of some waits are released. -/
def State.letGo (s : State) (ws : List BindWait) : State :=
  ws.foldl (fun s w => s.mapLanes w.g (w.lets (s.core w.g.core).cycles)) s

/-- A die's waits on an entry are taken out, and their lanes released. -/
def State.notifyDie (ctx handle entry : Nat) (s : State) (d : Nat) : State :=
  (s.letGo ((s.die d).bindWait.filter (s.waitsOn ctx handle entry))).modDie d (fun x => { x with
    bindWait := x.bindWait.filter (fun w => !((s.die d).bindWait.filter (s.waitsOn ctx handle entry)).contains w) })

theorem bindNotify_eq : exec .bindNotify s = .next ((upto 4).foldl (State.notifyDie s.subject.a s.subject.b s.subject.c) s) := rfl

theorem waitsOn_congr {t : State} (h : ∀ c n, (t.team? c n).map (·.ctx) = (s.team? c n).map (·.ctx)) (ctx handle entry : Nat) :
    t.waitsOn ctx handle entry = s.waitsOn ctx handle entry := by
  have hctx (u : State) (w : BindWait) : (match u.team? w.g.core w.g.slot with | some t => t.ctx == ctx | none => false)
      = (((u.team? w.g.core w.g.slot).map (·.ctx)).map (· == ctx)).getD false := by
    cases u.team? w.g.core w.g.slot <;> rfl
  funext w
  rw [State.waitsOn, State.waitsOn, hctx, hctx, h]

theorem letGo_teamCtx (ws : List BindWait) (s : State) (c n : Nat) : ((s.letGo ws).team? c n).map (·.ctx) = (s.team? c n).map (·.ctx) := by
  induction ws generalizing s with
  | nil => rfl
  | cons w ws ih => exact (ih _).trans (mapLanes_teamCtx _ _ _ c n)

theorem letGo_dies (ws : List BindWait) (s : State) : (s.letGo ws).dies = s.dies := by
  induction ws generalizing s with
  | nil => rfl
  | cons w ws ih => exact (ih _).trans (mapLanes_dies _ _ _)

theorem letGo_mem (ws : List BindWait) (s : State) : (s.letGo ws).mem = s.mem := by
  induction ws generalizing s with
  | nil => rfl
  | cons w ws ih => exact (ih _).trans (State.mapLanes_mem _ _ _)

theorem letGo_die (ws : List BindWait) (s : State) (d : Nat) : (s.letGo ws).die d = s.die d := by
  rw [State.die, State.die, letGo_dies]

/-- A lane that nothing holds, or that waits on an entry. -/
def State.LaneHeld (s : State) (g : GRef) (n : Nat) (P : Option Held → Prop) : Prop :=
  ∃ x, s.group? g = some x ∧ n < x.lanes.length ∧ P (x.lane n).held

/-- What holds of a lane's hold under every release of a wait holds after releases of waits. -/
theorem mapLanes_laneHeld {g h : GRef} {f : Nat → Lane → Lane} {n : Nat} {P : Option Held → Prop} (hl : s.LaneHeld g n P)
    (hf : ∀ l, P l.held → P (f n l).held) : (s.mapLanes h f).LaneHeld g n P := by
  obtain ⟨x, hx, hn, hp⟩ := hl
  by_cases hg : g = h
  · subst hg
    exact ⟨_, mapLanes_group hx, by simpa using hn, by rw [Group.lane_mapIdx x f hn]; exact hf _ hp⟩
  · exact ⟨x, (mapLanes_group_ne hg).trans hx, hn, hp⟩

theorem lets_held {w : BindWait} {now n : Nat} {l : Lane} : (w.lets now n l).held = none ∨ (w.lets now n l).held = l.held := by
  unfold BindWait.lets
  split
  · exact Or.inl rfl
  · exact Or.inr rfl

/-- A hold that a release takes away or leaves. -/
def Waiting (e : Nat) (h : Option Held) : Prop := h = none ∨ h = some ⟨16, e⟩

theorem letGo_laneHeld {g : GRef} {n : Nat} {P : Option Held → Prop} (h0 : P none) (ws : List BindWait) (s : State)
    (h : s.LaneHeld g n P) : (s.letGo ws).LaneHeld g n P := by
  induction ws generalizing s with
  | nil => exact h
  | cons w ws ih =>
    refine ih _ (mapLanes_laneHeld h fun l hp => ?_)
    rcases lets_held (w := w) (now := (s.core w.g.core).cycles) (n := n) (l := l) with e | e <;> rw [e]
    · exact h0
    · exact hp

/-- The lane of a wait that is let go is held by nothing. -/
theorem letGo_frees {w : BindWait} {ws : List BindWait} (hw : w ∈ ws) (s : State) (h : s.LaneHeld w.g w.lane (Waiting w.entry)) :
    (s.letGo ws).LaneHeld w.g w.lane (· = none) := by
  induction ws generalizing s with
  | nil => cases hw
  | cons v ws ih =>
    rcases List.mem_cons.mp hw with rfl | hmem
    · refine letGo_laneHeld (P := (· = none)) rfl ws _ ?_
      obtain ⟨x, hx, hn, hp⟩ := h
      refine ⟨_, mapLanes_group hx, by simpa using hn, ?_⟩
      rw [Group.lane_mapIdx x _ hn]
      unfold BindWait.lets
      split
      · rfl
      · rcases hp with hp | hp
        · exact hp
        · rename_i hnot
          exact absurd ⟨rfl, hp⟩ hnot
    · exact ih hmem _ (letGo_laneHeld (Or.inl rfl) [v] s h)

section
variable (ctx handle entry : Nat)

theorem notifyDie_teamCtx (s : State) (d c n : Nat) :
    ((s.notifyDie ctx handle entry d).team? c n).map (·.ctx) = (s.team? c n).map (·.ctx) := by
  unfold State.notifyDie
  rw [team_of_cores (State.modDie_cores _ _ _)]
  exact letGo_teamCtx _ _ c n

theorem notifyDie_waitsOn (s : State) (d : Nat) : (s.notifyDie ctx handle entry d).waitsOn ctx handle entry = s.waitsOn ctx handle entry :=
  waitsOn_congr (notifyDie_teamCtx ctx handle entry s d) ctx handle entry

theorem notifyDie_mem (s : State) (d : Nat) : (s.notifyDie ctx handle entry d).mem = s.mem :=
  Eq.trans (State.modDie_mem _ _ _) (letGo_mem _ _)

/-- The die's waits on the entry are gone, and no others. -/
theorem notifyDie_same (s : State) (d : Nat) : ((s.notifyDie ctx handle entry d).die d).bindWait
    = (s.die d).bindWait.filter (fun w => !s.waitsOn ctx handle entry w) := by
  rw [State.notifyDie, State.modDie_die_same, letGo_die]
  refine List.filter_congr fun w hw => congrArg _ (Bool.eq_iff_iff.mpr ?_)
  rw [List.contains_iff_mem, List.mem_filter]
  exact ⟨fun h => h.2, fun h => ⟨hw, h⟩⟩

theorem notifyDie_ne (s : State) {d e : Nat} (h : e ≠ d) : (s.notifyDie ctx handle entry d).die e = s.die e := by
  rw [State.notifyDie, State.modDie_die_ne _ _ _ _ h, letGo_die]

theorem laneHeld_of_cores {t : State} {g : GRef} {n : Nat} {P : Option Held → Prop} (hc : t.cores = s.cores) (h : s.LaneHeld g n P) :
    t.LaneHeld g n P := by
  obtain ⟨x, hx, hrest⟩ := h
  exact ⟨x, (State.group_of_cores hc g).trans hx, hrest⟩

theorem notifyDie_laneHeld {g : GRef} {n : Nat} {P : Option Held → Prop} (h0 : P none) (s : State) (d : Nat) (h : s.LaneHeld g n P) :
    (s.notifyDie ctx handle entry d).LaneHeld g n P :=
  laneHeld_of_cores (State.modDie_cores _ _ _) (letGo_laneHeld h0 _ s h)

theorem notifyDie_frees (s : State) {d : Nat} {w : BindWait} (hw : w ∈ (s.die d).bindWait) (hm : s.waitsOn ctx handle entry w = true)
    (h : s.LaneHeld w.g w.lane (Waiting w.entry)) : (s.notifyDie ctx handle entry d).LaneHeld w.g w.lane (· = none) :=
  laneHeld_of_cores (State.modDie_cores _ _ _) (letGo_frees (List.mem_filter.mpr ⟨hw, hm⟩) s h)

/-! ### Every die in turn -/

theorem notify_mem (ds : List Nat) (s : State) : (ds.foldl (State.notifyDie ctx handle entry) s).mem = s.mem := by
  induction ds generalizing s with
  | nil => rfl
  | cons d ds ih => exact (ih _).trans (notifyDie_mem ctx handle entry s d)

theorem notify_laneHeld {g : GRef} {n : Nat} {P : Option Held → Prop} (h0 : P none) (ds : List Nat) (s : State) (h : s.LaneHeld g n P) :
    (ds.foldl (State.notifyDie ctx handle entry) s).LaneHeld g n P := by
  induction ds generalizing s with
  | nil => exact h
  | cons d ds ih => exact ih _ (notifyDie_laneHeld ctx handle entry h0 s d h)

theorem notify_bindWait (ds : List Nat) (s : State) (d : Nat) : ((ds.foldl (State.notifyDie ctx handle entry) s).die d).bindWait
    = if d ∈ ds then (s.die d).bindWait.filter (fun w => !s.waitsOn ctx handle entry w) else (s.die d).bindWait := by
  induction ds generalizing s with
  | nil => rfl
  | cons e ds ih =>
    rw [List.foldl_cons, ih, notifyDie_waitsOn]
    by_cases hd : d = e
    · subst hd
      rw [notifyDie_same, List.filter_filter]
      simp
    · rw [notifyDie_ne ctx handle entry s hd]
      simp [hd]

/-- The lane of a wait on the entry, in whichever die it stands, is held by nothing once each die has been told. -/
theorem notify_frees (ds : List Nat) (s : State) {d : Nat} {w : BindWait} (hd : d ∈ ds) (hw : w ∈ (s.die d).bindWait)
    (hm : s.waitsOn ctx handle entry w = true) (h : s.LaneHeld w.g w.lane (Waiting w.entry)) :
    (ds.foldl (State.notifyDie ctx handle entry) s).LaneHeld w.g w.lane (· = none) := by
  induction ds generalizing s with
  | nil => cases hd
  | cons e ds ih =>
    by_cases he : d = e
    · subst he
      exact notify_laneHeld (P := (· = none)) ctx handle entry rfl ds _ (notifyDie_frees ctx handle entry s hw hm h)
    · refine ih _ (List.mem_of_ne_of_mem he hd) ?_ ?_ (notifyDie_laneHeld ctx handle entry (Or.inl rfl) s e h)
      · rw [notifyDie_ne ctx handle entry s he]
        exact hw
      · rw [notifyDie_waitsOn]
        exact hm

end

end

/-- Settles O25: what a fetch, a dispatch, a release and a notification leave of the group's lanes and registers. -/
theorem traceAndHoldEvents : Obligations.TraceAndHoldEvents := by
  refine ⟨fun s tm grp ht hg hr hp hb he h ws u hf hm => ⟨_, traceFetch_eq ht hg hr hp hb he hf hm, State.modGroup_mem _ _ _, fun x hx =>
      ⟨_, State.modGroup_group_same _ _ _ x hx, Group.fetched_buffer _ _ x, rfl⟩⟩,
    fun s tm grp ht hg hr hx hh hbind hfolded hf ha b hc => ?_,
    fun s tm grp ht hg hr t lcore hc => ⟨_, _, schedMigrate_eq ht hg hr hc, State.modGroup_group_same _ _ _ grp hg, rfl, State.modGroup_mem _ _ _⟩,
    fun s grp hg hw => ⟨_, _, priorityAging_eq hg hw, State.modGroup_group_same _ _ _ grp hg, rfl, State.modGroup_mem _ _ _⟩,
    fun s tm grp ht hg hf hh => ⟨_, _, requeueRelease_eq ht hg hh, mapLanes_group hg, State.mapLanes_mem _ _ _, rfl, rfl, fun l hl =>
      Group.lane_mapIdx grp _ hl⟩,
    fun s grp h hg hb ha hh hl hc => ?_, fun s tm grp ht hg fo l h hf hb hh hl hheld hc => ?_, fun s grp h hg hb ha hl hc => ?_,
    fun s => ⟨_, bindNotify_eq, notify_mem _ _ _ _ _, fun d hd => (notify_bindWait _ _ _ _ s d).trans (if_pos (List.mem_range.mpr hd)),
      fun d hd w hw hm grp hg hlen hheld => ?_⟩⟩
  · obtain ⟨y, x, hy, hyx, ⟨htr, hhdr, hwords, hstarted, hhere, hoff, hissued, hbuf, hrun, hclosing⟩, ⟨hlanes, hregs, hpreds, hsr⟩, huregs, hmem⟩ :=
      startTrace_group (b := b) ht hg
    exact ⟨_, y, x, traceDispatch_starts ht hg hr hx hh hbind hfolded hf ha hc, hy, hyx, htr, hhdr, hwords, hstarted, hhere, hoff, hissued, hbuf,
      hrun, hclosing, hlanes, hregs, hpreds, hsr, fun h3 => ⟨huregs h3, hmem h3⟩⟩
  · obtain ⟨y, hy, hregs, hlanes⟩ := releaseStage_group hb hg ha
    exact ⟨_, y, requeueTimer_eq hg hh ((congrArg Lane.held (stageLane_of_notBanked hb hg)).trans hl) hc, hy, State.releaseStage_mem _ _ _ _, hregs, hlanes⟩
  · obtain ⟨tm', htm, hgrp, hfold⟩ := releaseStage_banked (a := s.subject.a) hb ht hg hf
    exact ⟨_, tm', requeueTimer_eq hg hh ((congrArg Lane.held (stageLane_of_banked ht hf hb hl)).trans hheld) hc, htm, hgrp,
      State.releaseStage_mem _ _ _ _, hfold⟩
  · obtain ⟨y, hy, hregs, hlanes⟩ := releaseStage_group hb hg ha
    exact ⟨_, y, bindRetryTimer_eq ((congrArg Lane.held (stageLane_of_notBanked hb hg)).trans hl) hc, hy, State.releaseStage_mem _ _ _ _, hregs, hlanes⟩
  · obtain ⟨y, hy, _, hfree⟩ := notify_frees s.subject.a s.subject.b s.subject.c (upto 4) s (List.mem_range.mpr hd) hw hm ⟨grp, hg, hlen, Or.inr hheld⟩
    exact ⟨y, hy, hfree⟩

end Sys2Proof.Machine
end

section

/-! Atomics, boundaries, barriers, channels and shadows (O26). -/

namespace Sys2Proof.Machine

/-! ### Atomics at their homes (R169, R170) -/

section
variable {s : State} {p : SentAtomic} {id : Nat}

theorem charge_cores (s : State) (ctx key n : Nat) : (s.charge ctx key n).cores = s.cores := by
  unfold State.charge
  split
  · rfl
  · exact State.modCtx_cores _ _ _

theorem charge_sent (s : State) (ctx key n : Nat) : (s.charge ctx key n).sent = s.sent := by
  unfold State.charge
  split
  · rfl
  · exact State.modCtx_sent _ _ _

theorem charge_poisonAt (s : State) (ctx key n a k : Nat) : (s.charge ctx key n).poisonAt a k = s.poisonAt a k := by
  unfold State.charge
  split
  · rfl
  · unfold State.poisonAt
    rw [State.modCtx_poison]

theorem noteCross_mem (s : State) (b : Bool) (p : SentAtomic) : (s.noteCross b p).mem = s.mem := by
  unfold State.noteCross
  split
  · exact State.modTeam_mem _ _ _ _
  · exact State.modCtx_mem _ _ _

theorem noteCross_sent (s : State) (b : Bool) (p : SentAtomic) : (s.noteCross b p).sent = s.sent := by
  unfold State.noteCross
  split
  · exact State.modTeam_sent _ _ _ _
  · exact State.modCtx_sent _ _ _

theorem noteCross_group (s : State) (b : Bool) (p : SentAtomic) : (s.noteCross b p).group? p.g = s.group? p.g := by
  unfold State.noteCross
  split
  · exact State.modTeam_group s p.g _ fun _ => rfl
  · exact State.group_of_cores (State.modCtx_cores _ _ _) p.g

/-- A return that waits for an atomic gets its value. -/
def Return.given (id : Nat) (v : DWord) (r : Return) : Return := if r.id = id ∧ r.value.isNone then { r with value := some v } else r

theorem setReturn_group {g : GRef} {v : DWord} {grp : Group} (h : s.group? g = some grp) :
    (s.setReturn g id v).group? g = some { grp with returns := grp.returns.map (Return.given id v) } :=
  State.modGroup_group_same s g _ grp h

theorem setReturn_sent (s : State) (g : GRef) (id : Nat) (v : DWord) : (s.setReturn g id v).sent = s.sent := State.modGroup_sent _ _ _

theorem setReturn_tags (s : State) (g : GRef) (id : Nat) (v : DWord) : (s.setReturn g id v).tags = s.tags := State.modGroup_tags _ _ _

/-- Whether an atomic meets a release from outside its scope. -/
def State.crosses (s : State) (p : SentAtomic) : Bool :=
  match s.tagAt p.home with
  | some t => !(insideScope t.scope t p.tag && insideScope p.a.scope p.tag t)
  | none => false

/-- An atomic's write at its home, with what an acquire from outside the scope of the block's release notes. -/
def State.homeWritten (s : State) (mine : Bool) (p : SentAtomic) : State :=
  let w := s.atomicWrite p.home p.a.bytes (p.a.result (s.mem.readLE p.home p.a.bytes))
  let acq : Bool := p.a.order == 1 || p.a.order == 3
  if acq ∧ s.crosses p then w.noteCross mine p else w

theorem homeWritten_mem (s : State) (mine : Bool) (p : SentAtomic) :
    (s.homeWritten mine p).mem = s.mem.writeLE p.home p.a.bytes (p.a.result (s.mem.readLE p.home p.a.bytes)) := by
  unfold State.homeWritten
  dsimp only
  split
  · exact noteCross_mem _ _ _
  · rfl

theorem homeWritten_sent (s : State) (mine : Bool) (p : SentAtomic) : (s.homeWritten mine p).sent = s.sent := by
  unfold State.homeWritten
  dsimp only
  split
  · exact noteCross_sent _ _ _
  · rfl

theorem homeWritten_group (s : State) (mine : Bool) (p : SentAtomic) : (s.homeWritten mine p).group? p.g = s.group? p.g := by
  unfold State.homeWritten
  dsimp only
  split
  · exact noteCross_group _ _ _
  · rfl

/-- The state in which an atomic has been performed, before what waited for it goes on. -/
def State.homePerformed (s : State) (id : Nat) (mine : Bool) (p : SentAtomic) : State :=
  let rel : Bool := p.a.order == 2 || p.a.order == 3
  let w := s.homeWritten mine p
  let v := (if rel then w.tag p.home p.tag else w).setReturn p.g id (BitVec.ofNat 64 (s.mem.readLE p.home p.a.bytes))
  if rel then v.notifyBinds p.home else v

/-- What an atomic leaves: its result at its home, the tag of a release, the old value with its return. -/
theorem homePerformed_leaves (s : State) (id : Nat) (mine : Bool) (p : SentAtomic) :
    (s.homePerformed id mine p).mem = s.mem.writeLE p.home p.a.bytes (p.a.result (s.mem.readLE p.home p.a.bytes))
      ∧ (s.homePerformed id mine p).sent = s.sent
      ∧ (p.a.order = 2 ∨ p.a.order = 3 → (s.homePerformed id mine p).tagAt p.home = some p.tag)
      ∧ ∀ grp, s.group? p.g = some grp → (s.homePerformed id mine p).group? p.g
          = some { grp with returns := grp.returns.map (Return.given id (BitVec.ofNat 64 (s.mem.readLE p.home p.a.bytes))) } := by
  have hgroup := fun grp (h : s.group? p.g = some grp) => (homeWritten_group s mine p).trans h
  unfold State.homePerformed
  dsimp only
  by_cases ho : p.a.order = 2 ∨ p.a.order = 3
  · have hrel : (p.a.order == 2 || p.a.order == 3) = true := by simpa using ho
    rw [if_pos hrel, if_pos hrel]
    refine ⟨?_, ?_, fun _ => ?_, fun grp h => ?_⟩
    · exact ((notifyBinds_frame State.mem (fun _ _ _ => rfl) _ _).trans (State.setReturn_mem _ _ _ _)).trans (homeWritten_mem s mine p)
    · exact ((notifyBinds_frame State.sent (fun _ _ _ => rfl) _ _).trans (setReturn_sent _ _ _ _)).trans (homeWritten_sent s mine p)
    · refine (notifyBinds_frame (fun t => t.tagAt p.home) (fun _ _ _ => rfl) _ _).trans ?_
      unfold State.tagAt
      rw [setReturn_tags]
      exact tget_tput_same _ _ _
    · exact Eq.trans (notifyBinds_frame (fun t => t.group? p.g) (fun _ _ _ => rfl) _ _) (setReturn_group (hgroup grp h))
  · have hrel : ¬(p.a.order == 2 || p.a.order == 3) = true := by simpa using ho
    rw [if_neg hrel, if_neg hrel]
    exact ⟨(State.setReturn_mem _ _ _ _).trans (homeWritten_mem s mine p), (setReturn_sent _ _ _ _).trans (homeWritten_sent s mine p),
      fun h => absurd h ho, fun grp h => setReturn_group (hgroup grp h)⟩

/-- Whether an atomic's group still stands in a team of its context. -/
def State.owns (s : State) (p : SentAtomic) : Bool := ((s.team? p.g.core p.g.slot).map (·.ctx)) == some p.ctx

theorem atomicPerform_eq (hp : tget s.sent s.subject.a = some p) (ha : ∀ a ∈ p.after, tget s.sent a = none)
    (hpoison : s.poisonAt p.home p.a.bytes = none) : exec .atomicPerform s
      = .next (((s.charge p.ctx p.home p.a.bytes).homePerformed s.subject.a (s.owns p) p).atomicDone s.subject.a p) := by
  have hafter : p.after.all (fun a => (tget s.sent a).isNone) = true := List.all_eq_true.mpr fun a h => by rw [ha a h]; rfl
  change execAtomicPerform s = _
  unfold execAtomicPerform
  rw [hp]
  dsimp only
  rw [hafter, if_pos rfl]
  unfold State.performAtomic
  dsimp only
  rw [charge_poisonAt, hpoison]
  rfl

/-! ### Returns and acquires (R169, R170) -/

/-- A lane's registers after a returned value, of one or two words. -/
def Return.into (r : Return) (lane : Nat) (v : DWord) (regs : SMap 32) : SMap 32 :=
  let m := sput regs (lane * 256 + r.dst) (loWord v)
  if r.wide then sput m (lane * 256 + (r.dst + 1)) (hiWord v) else m

theorem atomicReturn_eq {grp : Group} {n : Nat} {r : Return} {v : DWord} (hg : s.group? s.subject.g = some grp)
    (hn : grp.nextReturn s.subject.a = some n) (hr : grp.returns[n]? = some r) (hv : r.value = some v)
    (hl : s.laneLives s.subject.g s.subject.a = true) :
    ∃ t, exec .atomicReturn s = .next t ∧ t.mem = s.mem ∧ t.group? s.subject.g
      = some { grp with regs := r.into s.subject.a v grp.regs, returns := grp.returns.eraseIdx n } := by
  refine ⟨_, rfl, ?_⟩
  unfold State.applyReturn
  rw [hg]
  dsimp only
  rw [hn]
  dsimp only
  rw [hr]
  dsimp only
  rw [hv]
  dsimp only
  rw [hl]
  exact ⟨State.modGroup_mem _ _ _, State.modGroup_group_same s s.subject.g _ grp hg⟩

/-- A lane's oldest return that no frozen trace holds, where no execution has the lane. -/
theorem nextReturn_eq {grp : Group} {lane : Nat} (hx : ∀ x, grp.exec = some x → x.here.contains lane = false) :
    grp.nextReturn lane = grp.returns.findIdx? (fun r => r.lane == lane
      && (r.inHandler || (match grp.trapped with | some e => !e.here.contains r.lane | none => true))) := by
  have hfrozen (r : Return) : (!grp.frozenFor r) = (r.inHandler || (match grp.trapped with | some e => !e.here.contains r.lane | none => true)) := by
    unfold Group.frozenFor
    cases grp.trapped <;> cases r.inHandler <;> rfl
  unfold Group.nextReturn
  rw [if_neg]
  · simp only [hfrozen]
  · cases he : grp.exec with
    | none => exact Bool.false_ne_true
    | some x => rw [Bool.not_eq_true]; exact hx x he

/-- A lane without the acquires that have been performed. -/
def Lane.acquired (s : State) (now : Nat) (l : Lane) : Lane :=
  let left := l.acquires.filter (fun a => (tget s.sent a).isSome)
  if l.acquires.isEmpty then l else { l with acquires := left, since := if left.isEmpty then now else l.since }

theorem Lane.acquired_acquires {l : Lane} {now : Nat} (h : ∀ a ∈ l.acquires, tget s.sent a = none) : (l.acquired s now).acquires = [] := by
  have hleft : l.acquires.filter (fun a => (tget s.sent a).isSome) = [] := List.filter_eq_nil_iff.mpr fun a ha => by rw [h a ha]; exact Bool.false_ne_true
  unfold Lane.acquired
  dsimp only
  split
  · rename_i he
    exact List.isEmpty_iff.mp he
  · exact hleft

theorem acquireComplete_eq : exec .acquireComplete s = .next (s.mapLanes s.subject.g
    (fun n l => if n = s.subject.a then l.acquired s (s.core s.subject.g.core).cycles else l)) := rfl

theorem Group.lane_mapIdx_ne (g : Group) (f : Lane → Lane) {a l : Nat} (h : l ≠ a) :
    ({ g with lanes := g.lanes.mapIdx (fun n x => if n = a then f x else x) } : Group).lane l = g.lane l := by
  simp [Group.lane, nth, h]

/-! ### Phase boundaries and barriers (R273, R284) -/

section
variable {tm : Team} {grp : Group} {b : Boundary}

/-- A team's tiles after a boundary's publication. -/
def Team.published (b : Boundary) (grp : Group) (t : Team) : Team :=
  { t with tiles := t.tiles.map (fun p => (p.1, p.2.publish b.scope (grp.keptHold p.1))) }

/-- A group past its boundary. -/
def Group.passes (b : Boundary) (x : Group) : Group :=
  { x with boundary := none, passed := if b.rel then x.passed else some (max b.scope (x.passed.getD 0)) }

theorem tryBoundary_completes {g : GRef} (hg : s.group? g = some grp) (hb : grp.boundary = some b) (hw : ∀ a ∈ b.waits, tget s.sent a = none)
    (hp : b.publishes = true → ∀ t, (if b.publishes then s.modTeam g.core g.slot (Team.published b grp) else s).team? g.core g.slot = some t →
      ∀ p ∈ t.tiles, p.2.post = false) :
    s.tryBoundary g = (if b.publishes then s.modTeam g.core g.slot (Team.published b grp) else s).modGroup g (Group.passes b) := by
  have hsent : (if b.publishes then s.modTeam g.core g.slot (Team.published b grp) else s).sent = s.sent := by
    split
    · exact State.modTeam_sent _ _ _ _
    · rfl
  have hwaits : b.waits.any (fun a => (tget s.sent a).isSome) = false := List.any_eq_false.mpr fun a h => by rw [hw a h]; exact Bool.false_ne_true
  unfold State.tryBoundary
  rw [hg]
  dsimp only
  rw [hb]
  dsimp only
  change (let u := if b.publishes then s.modTeam g.core g.slot (Team.published b grp) else s
    if b.waits.any (fun a => (tget u.sent a).isSome) || (b.publishes && (match u.team? g.core g.slot with | some t => t.tiles.any (fun p => p.2.post) | none => false)) then u
    else u.modGroup g (Group.passes b)) = _
  dsimp only
  rw [hsent, hwaits]
  refine if_neg ?_
  rw [Bool.false_or, Bool.and_eq_true, not_and]
  intro hpub
  cases ht : (if b.publishes then s.modTeam g.core g.slot (Team.published b grp) else s).team? g.core g.slot with
  | none => exact Bool.false_ne_true
  | some t =>
    rw [Bool.not_eq_true]
    exact List.any_eq_false.mpr fun q hq => by rw [hp hpub t ht q hq]; exact Bool.false_ne_true

/-- A boundary with nothing left to wait for ends: its team's marked tiles are published, and its group goes past it. -/
theorem tryBoundary_leaves {g : GRef} (ht : s.team? g.core g.slot = some tm) (hg : s.group? g = some grp) (hb : grp.boundary = some b)
    (hw : ∀ a ∈ b.waits, tget s.sent a = none)
    (hp : b.publishes = true → ∀ p ∈ tm.tiles, (p.2.publish b.scope (grp.keptHold p.1)).post = false) :
    ∃ tm', (s.tryBoundary g).team? g.core g.slot = some tm' ∧ (s.tryBoundary g).group? g = some (grp.passes b) ∧ (s.tryBoundary g).mem = s.mem
      ∧ tm'.tiles = if b.publishes then (tm.published b grp).tiles else tm.tiles := by
  cases hpub : b.publishes with
  | false =>
    rw [tryBoundary_completes hg hb hw (fun h => absurd (hpub.symm.trans h) Bool.false_ne_true), hpub]
    exact ⟨_, State.modTeam_team_same _ _ _ _ tm ht, State.modGroup_group_same _ _ _ grp hg, State.modGroup_mem _ _ _, rfl⟩
  | true =>
    have hteam := State.modTeam_team_same s g.core g.slot (Team.published b grp) tm ht
    rw [tryBoundary_completes hg hb hw (fun _ t h => ?_), hpub, if_pos rfl]
    · refine ⟨_, State.modTeam_team_same _ _ _ _ _ hteam, State.modGroup_group_same _ _ _ grp (Eq.trans (State.modTeam_group s g _ fun _ => rfl) hg), ?_, rfl⟩
      exact (State.modGroup_mem _ _ _).trans (State.modTeam_mem _ _ _ _)
    · rw [hpub, if_pos rfl, hteam, Option.some.injEq] at h
      rw [← h]
      intro q hq
      obtain ⟨p, hmem, rfl⟩ := List.mem_map.mp hq
      exact hp hpub p hmem

theorem barrierTurn_eq (ht : s.team? s.subject.g.core s.subject.g.slot = some tm) (htp : (tm.bar s.subject.a).tp = true)
    (hw : ∀ a ∈ (tm.bar s.subject.a).turnWaits, tget s.sent a = none) : exec .barrierTurn s
      = .next (s.modTeam s.subject.g.core s.subject.g.slot (fun t => { t with bars := tput t.bars s.subject.a (t.bar s.subject.a).turn })) := by
  have hwaits : (tm.bar s.subject.a).turnWaits.all (fun a => (tget s.sent a).isNone) = true := List.all_eq_true.mpr fun a h => by rw [hw a h]; rfl
  change execBarrierTurn s = _
  unfold execBarrierTurn
  dsimp only
  rw [ht]
  exact if_pos (by rw [htp, hwaits]; rfl)

theorem Team.bar_tput (t : Team) (n : Nat) (b : Barrier) : ({ t with bars := tput t.bars n b } : Team).bar n = b := by
  unfold Team.bar
  rw [tget_tput_same]
  rfl

/-! ### Channels (R280, R303, R305) -/

theorem putItems_count (s : State) (c : Chan) (k pos : Nat) (l : List Nat) : s.putItems { c with count := k } pos l = s.putItems c pos l := by
  induction l generalizing s pos with
  | nil => rfl
  | cons v l ih => exact ih _ _

theorem store_mem_congr {t u : State} (h : t.mem = u.mem) (a : Nat) (bs : List Byte) : (t.store a bs).mem = (u.store a bs).mem :=
  congrArg (fun m : Memory => m.writeBytes a bs) h

theorem putItems_mem_congr {t u : State} (h : t.mem = u.mem) (c : Chan) (pos : Nat) (l : List Nat) :
    (t.putItems c pos l).mem = (u.putItems c pos l).mem := by
  induction l generalizing t u pos with
  | nil => exact h
  | cons v l ih => exact ih (store_mem_congr h _ _) _

theorem Team.chan_modChan (t : Team) (n : Nat) (f : Chan → Chan) : (t.modChan n f).chan n = f (t.chan n) := by
  unfold Team.modChan Team.chan
  rw [tget_tput_same]
  rfl

/-- A team whose channel holds a number of items more. -/
def Team.counted (q k : Nat) (t : Team) : Team := t.modChan q (fun c => { c with count := c.count + k })

theorem Team.counted_counted (q i k : Nat) (t : Team) : ((t.counted q i).counted q k).chan q = (t.counted q (i + k)).chan q := by
  unfold Team.counted
  rw [Team.chan_modChan, Team.chan_modChan, Team.chan_modChan, Nat.add_assoc]

theorem appendItem_own {core slot q v : Nat} (ht : s.team? core slot = some tm) (hr : (tm.chan q).remote = false) (he : tm.ending = false) :
    s.appendItem core slot q v = (s.putItems (tm.chan q) (tm.chan q).count [v]).modTeam core slot (Team.counted q 1) := by
  unfold State.appendItem
  rw [ht]
  dsimp only
  rw [hr, he]
  rfl

/-- A queue of a team after items are put into it: their bytes stand behind those that it held. -/
theorem appendItems_own {core slot q : Nat} (vs : List Nat) (s : State) (tm : Team) (ht : s.team? core slot = some tm)
    (hr : (tm.chan q).remote = false) (he : tm.ending = false) :
    ∃ tm', (vs.foldl (fun s v => s.appendItem core slot q v) s).team? core slot = some tm' ∧ tm'.puts = tm.puts
      ∧ (tm'.chan q).count = (tm.chan q).count + vs.length
      ∧ (vs.foldl (fun s v => s.appendItem core slot q v) s).mem = (s.putItems (tm.chan q) (tm.chan q).count vs).mem := by
  induction vs generalizing s tm with
  | nil => exact ⟨tm, ht, rfl, rfl, rfl⟩
  | cons v vs ih =>
    have hput : (s.putItems (tm.chan q) (tm.chan q).count [v]).team? core slot = some tm := (team_of_cores (putItems_cores _ _ _ _) core slot).trans ht
    have hchan : (tm.counted q 1).chan q = { tm.chan q with count := (tm.chan q).count + 1 } := Team.chan_modChan _ _ _
    obtain ⟨tm', htm, hputs, hcount, hmem⟩ := ih (s.appendItem core slot q v) (tm.counted q 1)
      (by rw [appendItem_own ht hr he]; exact State.modTeam_team_same _ _ _ _ tm hput) (by rw [hchan]; exact hr) he
    refine ⟨tm', htm, hputs, ?_, hmem.trans ?_⟩
    · rw [hcount, hchan, List.length_cons]
      exact Nat.add_right_comm _ _ _
    · rw [hchan, putItems_count, appendItem_own ht hr he]
      exact putItems_mem_congr (State.modTeam_mem _ _ _ _) _ _ _

/-- The team without its put at a place. -/
def Team.putGone (n : Nat) (t : Team) : Team := { t with puts := t.puts.eraseIdx n }

theorem channelPutPerform_eq {n : Nat} {p : PendingPut} (ht : s.team? s.subject.g.core s.subject.g.slot = some tm)
    (hn : tm.puts.findIdx? (fun p => p.chan == s.subject.a) = some n) (hp : tm.puts[n]? = some p) (hw : ∀ a ∈ p.waits, tget s.sent a = none)
    (hf : (tm.chan s.subject.a).frozen = false) : exec .channelPutPerform s
      = .next ((s.modTeam s.subject.g.core s.subject.g.slot (Team.putGone n)).performPut s.subject.g.core s.subject.g.slot p) := by
  have hwaits : p.waits.all (fun a => (tget s.sent a).isNone) = true := List.all_eq_true.mpr fun a h => by rw [hw a h]; rfl
  change execChannelPutPerform s = _
  unfold execChannelPutPerform
  dsimp only
  rw [ht]
  dsimp only
  rw [hn]
  dsimp only
  rw [hp]
  exact if_pos (by rw [hwaits, hf]; rfl)

theorem put_chan {n : Nat} {p : PendingPut} {a : Nat} (hn : tm.puts.findIdx? (fun p => p.chan == a) = some n) (hp : tm.puts[n]? = some p) :
    p.chan = a := by
  obtain ⟨hlt, hchan, _⟩ := List.findIdx?_eq_some_iff_getElem.mp hn
  rw [List.getElem?_eq_getElem hlt, Option.some.injEq] at hp
  rw [hp] at hchan
  exact eq_of_beq hchan

/-- A put into a queue of the team's own. -/
theorem performPut_own {core slot : Nat} {p : PendingPut} (ht : s.team? core slot = some tm) (hm : (tm.chan p.chan).mode ≠ 2)
    (hr : (tm.chan p.chan).remote = false) (he : tm.ending = false) :
    ∃ tm', (s.performPut core slot p).team? core slot = some tm' ∧ tm'.puts = tm.puts
      ∧ (tm'.chan p.chan).count = (tm.chan p.chan).count + p.items.length
      ∧ (s.performPut core slot p).mem = (s.putItems (tm.chan p.chan) (tm.chan p.chan).count (p.items.map (·.2))).mem := by
  have heq : s.performPut core slot p = (p.items.map (·.2)).foldl (fun s v => s.appendItem core slot p.chan v) s := by
    unfold State.performPut
    rw [ht]
    dsimp only
    rw [if_neg hm, List.foldl_map]
  obtain ⟨tm', htm, hputs, hcount, hmem⟩ := appendItems_own (p.items.map (·.2)) s tm ht hr he
  rw [heq]
  exact ⟨tm', htm, hputs, by rw [hcount, List.length_map], hmem⟩

/-- A chain's record with items in the slots of their lanes. -/
def Fold.filled (p : PendingPut) (fo : Fold) : Fold :=
  p.items.foldl (fun fo (i : Nat × Nat) =>
    { fo with slots := sput fo.slots (slotKey i.1 p.chan) (BitVec.ofNat 128 i.2), full := sput fo.full (slotKey i.1 p.chan) 1#1 }) fo

theorem performPut_folded {core slot : Nat} {p : PendingPut} (ht : s.team? core slot = some tm) (hm : (tm.chan p.chan).mode = 2) :
    s.performPut core slot p = s.modTeam core slot (fun t => { t with fold := t.fold.map (Fold.filled p) }) := by
  unfold State.performPut
  rw [ht]
  exact if_pos hm

/-- The state in which a channel owes a credit less. -/
def State.creditPaid (s : State) : State :=
  s.modTeam s.subject.g.core s.subject.g.slot (fun t => t.modChan s.subject.a (fun c => { c with owed := c.owed - 1 }))

theorem creditReturn_near (ht : s.team? s.subject.g.core s.subject.g.slot = some tm) (ho : 0 < (tm.chan s.subject.a).owed)
    (hr : s.remoteProducer s.subject.g.core s.subject.g.slot s.subject.a = none) : exec .creditReturn s = .next s.creditPaid := by
  change execCreditReturn s = _
  unfold execCreditReturn
  dsimp only
  rw [ht]
  dsimp only
  rw [if_neg (Nat.ne_of_gt ho), hr]
  rfl

theorem creditReturn_remote {c sl q : Nat} (ht : s.team? s.subject.g.core s.subject.g.slot = some tm) (ho : 0 < (tm.chan s.subject.a).owed)
    (hr : s.remoteProducer s.subject.g.core s.subject.g.slot s.subject.a = some (c, sl, q)) :
    exec .creditReturn s = .next (s.creditPaid.modTeam c sl (fun t => t.modChan q (fun c => { c with credit := c.credit + 1 }))) := by
  change execCreditReturn s = _
  unfold execCreditReturn
  dsimp only
  rw [ht]
  dsimp only
  rw [if_neg (Nat.ne_of_gt ho), hr]
  rfl

/-! ### Shadows (R406 to R409) -/

/-- A shadowed group with both its executions. -/
def State.Paired (s : State) (tm : Team) (grp : Group) (x y : Exec) : Prop :=
  s.team? s.subject.g.core s.subject.g.slot = some tm ∧ s.group? s.subject.g = some grp ∧ grp.exec = some x ∧ grp.trail = some y ∧ grp.shadow = true

section
variable {x y z : Exec}

/-- The state in which a shadow has taken what its instruction loads from the load-value queue. -/
def State.loadServed (s : State) (y : Exec) : State :=
  s.modCore s.subject.g.core (fun k => { k with ldq := (
    if (match wordOf (decodeWord (s.encOf s.subject.g) y.word) with | some (op, _) => loadsValue op.toNat | none => false) then
      dropFirst s.subject.g k.ldq
    else k.ldq) })

theorem shadowCompare_follows (h : s.Paired tm grp x y) (hok : s.subject.ok = true) (hoff : y.off < x.off)
    (hz : s.follow s.subject.g tm grp y = some z) :
    exec .shadowCompare s = .next ((s.loadServed y).modGroup s.subject.g (fun v => { v with trail := some z })) := by
  obtain ⟨ht, hg, hx, hy, hs⟩ := h
  change execShadowCompare s = _
  unfold execShadowCompare
  dsimp only
  rw [ht, hg]
  dsimp only
  rw [hx, hy]
  dsimp only
  rw [hs, hok, if_neg (by decide), if_neg (by decide), if_pos hoff, hz]
  rfl

theorem loadServed_group (s : State) (y : Exec) : (s.loadServed y).group? s.subject.g = s.group? s.subject.g := by
  refine State.group_modCore s s.subject.g _ _ ?_
  exact fun _ => rfl

theorem shadowCompare_agrees (h : s.Paired tm grp x y) (hok : s.subject.ok = true) (hoff : x.off ≤ y.off) (hc : x.closing = true)
    (hcmp : x.compared = false) (hsig : s.signatureAt s.subject.g tm grp x = s.signatureAt s.subject.g tm grp y) : exec .shadowCompare s
      = .next (s.modGroup s.subject.g (fun v => { v with exec := some { x with compared := true }, reruns := 0 })) := by
  obtain ⟨ht, hg, hx, hy, hs⟩ := h
  change execShadowCompare s = _
  unfold execShadowCompare
  dsimp only
  rw [ht, hg]
  dsimp only
  rw [hx, hy]
  dsimp only
  rw [hs, hok, if_neg (by decide), if_neg (by decide), if_neg (Nat.not_lt.mpr hoff), if_neg (by rw [hc, hcmp]; decide), if_pos hsig]

theorem shadowCompare_differs (h : s.Paired tm grp x y) (hok : s.subject.ok = false) :
    exec .shadowCompare s = .next (s.mismatch s.subject.g grp x) := by
  obtain ⟨ht, hg, hx, hy, hs⟩ := h
  change execShadowCompare s = _
  unfold execShadowCompare
  dsimp only
  rw [ht, hg]
  dsimp only
  rw [hx, hy]
  dsimp only
  rw [hs, hok]
  rfl

/-- A first mismatch discards both executions and is counted. -/
theorem mismatch_first {g : GRef} (hg : s.group? g = some grp) (hx : grp.exec = some x) (hr : grp.reruns = 0) :
    ∃ v, (s.mismatch g grp x).group? g = some v ∧ v.exec = none ∧ v.trail = none ∧ v.reruns = 1 ∧ v.regs = grp.regs ∧ v.preds = grp.preds := by
  rw [State.mismatch, if_pos hr]
  refine ⟨_, State.modGroup_group_same _ g _ _ (State.modGroup_group_same _ g _ _ (State.dropExec_group _ g grp ?_ x hx)), rfl, rfl, rfl, rfl, rfl⟩
  exact hg

end

end

end

/-- Settles O26: what each event performs, and what it leaves of the group that it is about. -/
theorem synchronisationEvents : Obligations.SynchronisationEvents := by
  refine ⟨fun s p hp ha hpoison => ?_, fun s grp n r v hg hn hr hv hx hl => ?_, fun s grp hg ha hacq => ?_, fun s tm grp ht hg b hb hw hpub => ?_,
    fun s tm ht htp hw => ⟨_, _, barrierTurn_eq ht htp hw, State.modTeam_team_same _ _ _ _ tm ht, ?_, ?_, State.modTeam_mem _ _ _ _⟩,
    fun s tm ht n p hn hp hw hf hm hr he => ?_, fun s tm ht n p fo hn hp hw hf hm _ => ?_, fun s tm => creditReturn_near,
    fun s tm ht ho c sl q => creditReturn_remote ht ho,
    fun s tm grp ht hg x y hx hy hs hok hoff z hz => ⟨_, shadowCompare_follows ⟨ht, hg, hx, hy, hs⟩ hok hoff hz,
      State.modGroup_group_same _ _ _ grp ((loadServed_group s y).trans hg), (State.modGroup_mem _ _ _).trans (State.modCore_mem _ _ _)⟩,
    fun s tm grp ht hg x y hx hy hs hok hoff hc hcmp hsig => ⟨_, shadowCompare_agrees ⟨ht, hg, hx, hy, hs⟩ hok hoff hc hcmp hsig,
      State.modGroup_group_same _ _ _ grp hg, State.modGroup_mem _ _ _⟩,
    fun s tm grp ht hg x y hx hy hs hok hr => ?_⟩
  · obtain ⟨hmem, hsent, htag, hgroup⟩ := homePerformed_leaves (s.charge p.ctx p.home p.a.bytes) s.subject.a (s.owns p) p
    rw [State.charge_mem] at hmem hgroup
    exact ⟨_, atomicPerform_eq hp ha hpoison, hmem, hsent.trans (charge_sent _ _ _ _), htag, fun grp hg =>
      ⟨_, hgroup grp ((State.group_of_cores (charge_cores _ _ _ _) p.g).trans hg), rfl, rfl⟩⟩
  · obtain ⟨t, heq, hmem, hgroup⟩ := atomicReturn_eq hg ((nextReturn_eq hx).trans hn) hr hv hl
    exact ⟨t, _, heq, hgroup, hmem, rfl⟩
  · refine ⟨_, _, acquireComplete_eq, mapLanes_group hg, ?_, State.mapLanes_mem _ _ _, fun l => Group.lane_mapIdx_ne grp _⟩
    rw [Group.lane_mapIdx grp _ ha, if_pos rfl]
    exact Lane.acquired_acquires hacq
  · obtain ⟨tm', htm, hgrp, hmem, htiles⟩ := tryBoundary_leaves ht hg hb hw hpub
    exact ⟨_, tm', _, rfl, htm, hgrp, hmem, rfl, htiles⟩
  · exact congrArg Barrier.ph (Team.bar_tput _ _ _)
  · exact congrArg Barrier.tp (Team.bar_tput _ _ _)
  · have ha := put_chan hn hp
    obtain ⟨tm', htm, hputs, hcount, hmem⟩ := performPut_own (p := p)
      (State.modTeam_team_same s s.subject.g.core s.subject.g.slot (Team.putGone n) tm ht) (by rw [ha]; exact hm) (by rw [ha]; exact hr) he
    rw [ha] at hcount hmem
    exact ⟨_, tm', channelPutPerform_eq ht hn hp hw hf, htm, hputs, hcount, hmem.trans (putItems_mem_congr (State.modTeam_mem _ _ _ _) _ _ _)⟩
  · refine (channelPutPerform_eq ht hn hp hw hf).trans (congrArg _ (performPut_folded
      (State.modTeam_team_same s s.subject.g.core s.subject.g.slot (Team.putGone n) tm ht) ?_))
    rw [put_chan hn hp]
    exact hm
  · obtain ⟨v, hv, hrest⟩ := mismatch_first hg hx hr
    exact ⟨_, v, shadowCompare_differs ⟨ht, hg, hx, hy, hs⟩ hok, hv, hrest⟩

end Sys2Proof.Machine
end

section

/-! Walks, invalidations, the host's translations and page requests, and retried pages (O28). -/

namespace Sys2Proof.Machine

/-! ### Walks (R25, R31) -/

section
variable {s : State}

/-- A walk leaves its die's pending translations. -/
theorem dieWalk_frame (s : State) (d ctx va : Nat) :
    ((s.dieWalk d ctx va).2.die d).ptt = (s.die d).ptt ∧ (s.dieWalk d ctx va).2.mem = s.mem := by
  unfold State.dieWalk
  split
  · exact ⟨rfl, rfl⟩
  · split
    · exact ⟨by rw [State.modDie_die_same]; rfl, State.modDie_mem _ _ _⟩
    · exact ⟨by rw [State.modDie_die_same]; rfl, State.modDie_mem _ _ _⟩

/-- The access that a walk is for. -/
def State.walkAccess (s : State) : Access :=
  { core := s.subject.g.core, who := s.subject.d, ctx := s.subject.a, va := s.subject.b, acc := 0, keyperm := 0#64 }

/-- A walk in flight, of one requester. -/
def State.walkEntry (s : State) : PendingWalk :=
  { ctx := s.subject.a, page := s.subject.b / 4096, requesters := [s.walkAccess.asker],
    result := (s.dieWalk (dieOf s.subject.g.core) s.subject.a s.subject.b).1 }

theorem translationWalk_eq (hva : s.subject.b < 2 ^ 49) (hcore : cached s.walkAccess (s.core s.subject.g.core).tlb = none)
    (hdie : cached s.walkAccess (s.die (dieOf s.subject.g.core)).tlb = none)
    (hptt : ∀ p ∈ (s.die (dieOf s.subject.g.core)).ptt, ¬(p.ctx = s.subject.a ∧ p.page = s.subject.b / 4096))
    (hats : s.atsWaits.any (fun t => t.matches_ s.walkAccess && t.open_) = false) (hroom : s.pending (dieOf s.subject.g.core) < 256) :
    exec .translationWalk s = .next ((s.dieWalk (dieOf s.subject.g.core) s.subject.a s.subject.b).2.modDie (dieOf s.subject.g.core) (fun d =>
      { d with ptt := d.ptt ++ [s.walkEntry] })) := by
  have hnone : (s.die (dieOf s.subject.g.core)).ptt.any (fun p => p.ctx == s.subject.a && p.page == s.subject.b / 4096) = false :=
    List.any_eq_false.mpr fun p h => by simpa using hptt p h
  have hmiss : ¬(2 ^ 49 ≤ s.subject.b ∨ (cached s.walkAccess (s.core s.subject.g.core).tlb).isSome = true
      ∨ (cached s.walkAccess (s.die (dieOf s.subject.g.core)).tlb).isSome = true) := by
    rw [hcore, hdie]
    rintro (h | h | h)
    · exact absurd hva (Nat.not_lt.mpr h)
    · cases h
    · cases h
  change execTranslationWalk s = _
  unfold execTranslationWalk
  dsimp only
  refine (if_neg hmiss).trans ((if_neg ?_).trans ((if_neg (Nat.not_le.mpr hroom)).trans rfl))
  rw [hnone]
  rintro (h | h)
  · cases h
  · exact Bool.false_ne_true (hats.symm.trans h)

/-- A die after a walk has returned: its requesters have the result, and a translation stands in its cache. -/
def Die.walkDone (p : PendingWalk) (r : WalkResult) (d : Die) : Die :=
  { d with ptt := d.ptt.filter (fun x => x != p), walked := d.walked ++ p.requesters.map (fun c => ⟨c, p.ctx, p.page, r⟩),
           tlb := if r.1 = 0 then cachePut 16384 ⟨p.ctx, r.2.2.2.1, r.2.2.2.2, r.2.1, r.2.2.1⟩ d.tlb else d.tlb }

/-- The request for the host page that a walk's result names. -/
def PendingWalk.request (p : PendingWalk) (d page : Nat) : AtsWait := { die := d, ctx := p.ctx, frame := p.page, page := page, requesters := p.requesters }

/-- The state in which a walk has returned: a host page is asked for. -/
def State.walkReturned (s : State) (d : Nat) (p : PendingWalk) : State :=
  match s.hostPageOf d p (s.walkResult d p) with
  | some page => (s.modDie d (Die.walkDone p (s.walkResult d p))).sendAts (p.request d page)
  | none => s.modDie d (Die.walkDone p (s.walkResult d p))

theorem walkComplete_eq {p : PendingWalk} (h : (s.die s.subject.a).ptt.find? (fun p => p.ctx == s.subject.b && p.page == s.subject.c) = some p) :
    exec .walkComplete s = .next (s.walkReturned s.subject.a p) := by
  change execWalkComplete s = _
  unfold execWalkComplete
  dsimp only
  rw [h]
  rfl

theorem walkReturned_die (s : State) (d : Nat) (p : PendingWalk) :
    (s.walkReturned d p).die d = (s.die d).walkDone p (s.walkResult d p) := by
  unfold State.walkReturned
  split
  · exact State.modDie_die_same s d (Die.walkDone p (s.walkResult d p))
  · exact State.modDie_die_same s d (Die.walkDone p (s.walkResult d p))

theorem walkReturned_mem (s : State) (d : Nat) (p : PendingWalk) : (s.walkReturned d p).mem = s.mem := by
  unfold State.walkReturned
  split
  · exact State.modDie_mem s d (Die.walkDone p (s.walkResult d p))
  · exact State.modDie_mem s d (Die.walkDone p (s.walkResult d p))

theorem walkReturned_asks {d page : Nat} {p : PendingWalk} (h : s.hostPageOf d p (s.walkResult d p) = some page) :
    p.request d page ∈ (s.walkReturned d p).atsWaits := by
  rw [State.walkReturned, h]
  exact List.mem_append_right _ List.mem_cons_self

/-! ### Invalidations (R29, R32) -/

theorem translationInvalidate_eq (h : s.inFlight s.subject.a s.subject.b s.subject.c = false) :
    exec .translationInvalidate s = .next (s.invalidate s.subject.a s.subject.b s.subject.c) := by
  refine congrArg Host.Outcome.next (if_neg ?_)
  rw [h]
  exact Bool.false_ne_true

/-- The state without the host's translations of a range of pages. -/
def State.hostDropped (s : State) (ctx page n : Nat) : State :=
  { s with ats := s.ats.filter (fun e => !(e.ctx == ctx && decide (page ≤ e.page) && decide (e.page < page + n))) }

theorem hostDropped_ats (s : State) (ctx page n : Nat) (e : AtsEntry) :
    e ∈ (s.hostDropped ctx page n).ats ↔ e ∈ s.ats ∧ ¬(e.ctx = ctx ∧ page ≤ e.page ∧ e.page < page + n) := by
  refine List.mem_filter.trans (and_congr Iff.rfl ?_)
  simp [imp_iff_not_or, or_assoc]

theorem atsInvalidation_eq (h : s.atsInvs.find? (fun i => i.ctx == s.subject.a && i.page == s.subject.b && i.pages == s.subject.c) = none) :
    exec .atsInvalidation s = .next ((s.hostDropped s.subject.a s.subject.b s.subject.c).atsDropped
      ⟨s.subject.a, s.subject.b, s.subject.c, s.hostUses s.subject.a s.subject.b s.subject.c⟩) := by
  change execAtsInvalidation s = _
  unfold execAtsInvalidation
  dsimp only
  rw [h]
  rfl

theorem atsDropped_frame (s : State) (i : AtsInvalidation) : (s.atsDropped i).mem = s.mem ∧ (s.atsDropped i).ats = s.ats := by
  unfold State.atsDropped
  dsimp only
  split <;> exact ⟨rfl, rfl⟩

theorem atsDropped_answers {i : AtsInvalidation} (h : i.uses = []) :
    (s.atsDropped i).out = s.out ++ [⟨0, 1, toBytesLE 2 i.ctx ++ toBytesLE 8 i.page ++ toBytesLE 8 i.pages⟩] := by
  unfold State.atsDropped
  dsimp only
  rw [h]
  rfl

theorem atsDropped_waits {i : AtsInvalidation} (h : ∃ k ∈ i.uses, (tget s.sent k).isSome = true) :
    (s.atsDropped i).out = s.out ∧ i ∈ (s.atsDropped i).atsInvs := by
  unfold State.atsDropped
  dsimp only
  rw [if_pos (List.any_eq_true.mpr h)]
  exact ⟨rfl, List.mem_append_right _ List.mem_cons_self⟩

/-! ### Answers of the host (R31 to R33) -/

theorem atsTranslationCompletion_eq {w : AtsWait} (hw : w ∈ s.atsWaits) (ha : w.asked s.subject = true) (hok : s.subject.ok = true)
    (he : s.atsEnabled = true) : exec .atsTranslationCompletion s = .next { s with
      atsWaits := s.atsWaits.filter (fun w => !w.asked s.subject),
      ats := atsPut ⟨ioDie s.subject.d, s.subject.a, s.subject.b, bit s.subject.c 0, bit s.subject.c 1⟩ s.ats } := by
  have hany : s.atsWaits.any (fun w => w.asked s.subject) = true := List.any_eq_true.mpr ⟨w, hw, ha⟩
  change execAtsTranslationCompletion s = _
  unfold execAtsTranslationCompletion
  dsimp only
  rw [hany, if_neg (by decide), if_pos ⟨hok, he⟩]

/-- A request as its time passes. -/
def AtsWait.timed (u : Subject) (w : AtsWait) : AtsWait := if w.asked u then { w with cause := 158 } else w

theorem atsTimeout_eq : exec .atsTimeout s = .next { s with atsWaits := s.atsWaits.map (AtsWait.timed s.subject) } := rfl

/-- The state after the host has answered its only page request. -/
def State.priAnswered (s : State) : State :=
  { s with priOut := [], ats := s.ats.filter (fun e => !(e.ctx == s.subject.a && e.page == s.subject.b)) }

theorem priResponse_eq {p : PriRequest} (hp : s.priOut = [p]) (hctx : p.ctx = s.subject.a) (hpage : p.page = s.subject.b) (hc : s.subject.c = 0) :
    exec .priResponse s = .next (s.priAnswered.cured p.die p.record) := by
  have hhit : (p.ctx == s.subject.a && p.page == s.subject.b) = true := by simp [hctx, hpage]
  have hsent : [p].zipIdx.filter (fun x => priSent [p] x.2 x.1) = [(p, 0)] := rfl
  have hasked : [(p, 0)].filter (fun x => x.1.ctx == s.subject.a && x.1.page == s.subject.b) = [(p, 0)] := List.filter_cons_of_pos hhit
  have hleft : [p].zipIdx.filter (fun x => !((x.1.ctx == s.subject.a && x.1.page == s.subject.b) && [(p, 0)].contains x)) = [] :=
    List.filter_cons_of_neg (by simp [hhit])
  change execPriResponse s = _
  unfold execPriResponse
  dsimp only
  rw [hp, hc, hsent, hasked, hleft, if_neg (fun h => h.1 rfl)]
  rfl

end

/-! ### A page is tried again (R359) -/

section
variable {s : State}

/-- A lane that is held on a page becomes pending again. -/
def Lane.retried (page now : Nat) (l : Lane) : Lane :=
  match l.held with
  | some h => if (h.cause = 3 ∨ h.cause = 7) ∧ h.obj = page then l.release now else l
  | none => l

/-- A hold on a page, or none. -/
def OnPage (page : Nat) (h : Option Held) : Prop := ∀ x, h = some x → (x.cause = 3 ∨ x.cause = 7) ∧ x.obj = page

theorem Lane.retried_held (page now : Nat) (l : Lane) : (l.retried page now).held = none ∨ (l.retried page now).held = l.held := by
  unfold Lane.retried
  split
  · split
    · exact Or.inl rfl
    · exact Or.inr rfl
  · exact Or.inr rfl

theorem Lane.retried_frees {page : Nat} (now : Nat) {l : Lane} (h : OnPage page l.held) : (l.retried page now).held = none := by
  unfold Lane.retried
  split
  · rename_i x hx
    rw [if_pos (h x hx)]
    rfl
  · assumption

/-- The lanes of a group that a page holds are released, unless the group is halted. -/
def State.retryGroup (page now : Nat) (s : State) (g : GRef) : State :=
  if s.halted g then s else s.mapLanes g (fun _ => Lane.retried page now)

/-- The lanes and ports of a team that a page holds try it again. -/
def State.retryTeam (page : Nat) (s : State) (p : Nat × Nat) : State :=
  State.modTeam ((upto (((s.team? p.1 p.2).map (fun t => t.groups.length)).getD 0)).foldl
      (fun u g => u.retryGroup page (s.core p.1).cycles ⟨p.1, p.2, g⟩) s) p.1 p.2 (fun t => { t with queues := t.queues.map (fun q =>
    (q.1, { q.2 with stopped := q.2.stopped.filter (fun x => x.2 != page) })) })

/-- A core of a die, whose successor work tries a page again. -/
def Core.retried (d ctx page c : Nat) (k : Core) : Core :=
  if dieOf c = d then
    { k with succs := k.succs.map (fun w => if w.ctx = ctx ∧ w.parkedPage = some page then { w with parkedPage := none } else w) }
  else k

theorem Core.retried_teams (d ctx page c : Nat) (k : Core) : (k.retried d ctx page c).teams = k.teams := by
  unfold Core.retried
  split <;> rfl

/-- The state in which what is no lane tries a page again. -/
def State.retryRest (d ctx page : Nat) (s : State) : State :=
  { s with
    comms := s.comms.map (fun c => if c.ctx = ctx then { c with op := c.op.map (fun o => if o.parked = some page then { o with parked := none } else o) } else c),
    cores := s.cores.map (fun c => (c.1, c.2.retried d ctx page c.1)),
    queues := s.queues.map (fun (q : Nat × HwQueue) => (q.1, if q.2.ctx = ctx then { q.2 with packets := q.2.packets.map (fun p =>
      if p.die = d ∧ p.page = some page then { p with page := none } else p) } else q.2)) }

theorem retryPage_eq (s : State) (d ctx page : Nat) : s.retryPage d ctx page
    = (((s.teamsOf ctx).filter (fun p => dieOf p.1 == d)).foldl (State.retryTeam page) s).retryRest d ctx page := rfl

theorem tget_mapKey {α β : Type} (φ : Nat → α → β) (t : Table α) (n : Nat) : tget (t.map (fun p => (p.1, φ p.1 p.2))) n = (tget t n).map (φ n) := by
  induction t with
  | nil => rfl
  | cons p t ih =>
    simp only [List.map_cons, tget, ih]
    by_cases h : p.1 = n
    · rw [if_pos h, if_pos h, h]
      rfl
    · rw [if_neg h, if_neg h]
      split <;> rfl

theorem retryRest_group (s : State) (d ctx page : Nat) (g : GRef) : (s.retryRest d ctx page).group? g = s.group? g := by
  have hteams (c : Nat) : ((s.retryRest d ctx page).core c).teams = (s.core c).teams := by
    unfold State.core
    rw [show tget (s.retryRest d ctx page).cores c = (tget s.cores c).map (Core.retried d ctx page c) from
      tget_mapKey (Core.retried d ctx page) s.cores c]
    cases tget s.cores c with
    | none => rfl
    | some k => exact Core.retried_teams d ctx page c k
  unfold State.group? State.team?
  rw [hteams]

/-- A group that is not halted, with a lane whose hold is of a kind. -/
def State.Waits (s : State) (g : GRef) (n : Nat) (P : Option Held → Prop) : Prop :=
  ∃ x, s.group? g = some x ∧ x.halt = .none ∧ n < x.lanes.length ∧ P (x.lane n).held

section
variable {g : GRef} {n page : Nat} {P : Option Held → Prop}

theorem retryGroup_waits (h0 : P none) (now : Nat) (h : GRef) (hw : s.Waits g n P) : (s.retryGroup page now h).Waits g n P := by
  obtain ⟨x, hx, hhalt, hn, hp⟩ := hw
  unfold State.retryGroup
  split
  · exact ⟨x, hx, hhalt, hn, hp⟩
  · by_cases hg : g = h
    · subst hg
      refine ⟨_, mapLanes_group hx, hhalt, by simpa using hn, ?_⟩
      rw [Group.lane_mapIdx x _ hn]
      rcases Lane.retried_held page now (x.lane n) with e | e <;> rw [e]
      · exact h0
      · exact hp
    · exact ⟨x, (mapLanes_group_ne hg).trans hx, hhalt, hn, hp⟩

theorem retryGroup_frees (now : Nat) (hw : s.Waits g n (OnPage page)) : (s.retryGroup page now g).Waits g n (· = none) := by
  obtain ⟨x, hx, hhalt, hn, hp⟩ := hw
  have hawake : s.halted g = false := by rw [State.halted, hx]; dsimp only; rw [hhalt]; rfl
  unfold State.retryGroup
  rw [hawake]
  refine ⟨_, mapLanes_group hx, hhalt, by simpa using hn, ?_⟩
  rw [Group.lane_mapIdx x _ hn]
  exact Lane.retried_frees now hp

theorem waits_of_group {t : State} (hg : t.group? g = s.group? g) (hw : s.Waits g n P) : t.Waits g n P := by
  obtain ⟨x, hx, hrest⟩ := hw
  exact ⟨x, hg.trans hx, hrest⟩

/-- What each step of a list keeps and one of them brings about holds at its end. -/
theorem foldl_brings {α : Type} {f : State → α → State} {I J : State → Prop} (hI : ∀ s a, I s → I (f s a)) (hJ : ∀ s a, J s → J (f s a)) {a : α}
    (hb : ∀ s, I s → J (f s a)) {l : List α} (ha : a ∈ l) (s : State) (hs : I s) : J (l.foldl f s) := by
  induction l generalizing s with
  | nil => cases ha
  | cons b l ih =>
    rcases List.mem_cons.mp ha with rfl | hmem
    · exact List.foldlRecOn l f (motive := J) (hb s hs) fun t ht b _ => hJ t b ht
    · exact ih hmem _ (hI s b hs)

theorem retryTeam_waits (h0 : P none) (p : Nat × Nat) (hw : s.Waits g n P) : (s.retryTeam page p).Waits g n P := by
  refine waits_of_group (modTeam_group_any ?_ g) ?_
  · exact fun _ => rfl
  · exact List.foldlRecOn _ _ (motive := fun t : State => t.Waits g n P) hw fun t ht i _ => retryGroup_waits h0 _ _ ht

theorem onPage_none : OnPage page none := fun _ h => by cases h

theorem retryTeam_frees (hw : s.Waits g n (OnPage page)) : (s.retryTeam page (g.core, g.slot)).Waits g n (· = none) := by
  have hplace : g.grp < ((s.team? g.core g.slot).map (fun t => t.groups.length)).getD 0 := by
    obtain ⟨x, hx, _⟩ := hw
    unfold State.group? at hx
    cases ht : s.team? g.core g.slot with
    | none => rw [ht] at hx; cases hx
    | some t =>
      rw [ht] at hx
      exact (List.getElem?_eq_some_iff.mp hx).1
  refine waits_of_group (modTeam_group_any ?_ g) ?_
  · exact fun _ => rfl
  · exact foldl_brings (f := fun u i => u.retryGroup page (s.core g.core).cycles ⟨g.core, g.slot, i⟩) (a := g.grp)
      (I := fun t => t.Waits g n (OnPage page)) (J := fun t => t.Waits g n (· = none)) (fun t i => retryGroup_waits onPage_none _ _) (fun t i => retryGroup_waits (P := (· = none)) rfl _ _) (fun t => retryGroup_frees _)
      (List.mem_range.mpr hplace) s hw

/-- A lane of a team of a context that is held on a page is pending once its die tries the page again. -/
theorem retryPage_frees {d ctx : Nat} {tm : Team} (hr : (g.core, g.slot) ∈ s.residents) (ht : s.team? g.core g.slot = some tm) (hc : tm.ctx = ctx)
    (hd : dieOf g.core = d) (hw : s.Waits g n (OnPage page)) : (s.retryPage d ctx page).Waits g n (· = none) := by
  have hmem : (g.core, g.slot) ∈ (s.teamsOf ctx).filter (fun p => dieOf p.1 == d) :=
    List.mem_filter.mpr ⟨List.mem_filter.mpr ⟨hr, by rw [ht]; simpa using hc⟩, by simpa using hd⟩
  rw [retryPage_eq]
  exact waits_of_group (retryRest_group _ _ _ _ _) (foldl_brings (I := fun t => t.Waits g n (OnPage page)) (J := fun t => t.Waits g n (· = none))
    (fun t p => retryTeam_waits onPage_none p) (fun t p => retryTeam_waits (P := (· = none)) rfl p) (fun t => retryTeam_frees) hmem s hw)

end

/-! ### Records cured (R77, R359) -/

theorem cured_page {d : Nat} {r : FaultRecord} (h : r.job = 0) : s.cured d r = s.retryPage d r.ctx (r.va / 4096) := if_pos h

/-- A job that replays: its unfinished elements are to be attempted again. -/
def Job.replays (ready : Nat) (j : Job) : Job :=
  { j with state := .running, tried := j.mask, records := 0, ready := ready, passes := j.passes.filter (fun p => decide (p.2 < 8)) }

theorem modJob_truss {d n : Nat} {j : Job} {f : Job → Job} (h : tget (s.die d).truss n = some j) :
    tget ((s.modJob d n f).die d).truss n = some (f j) := by
  unfold State.modJob
  rw [State.modDie_die_same, h]
  exact tget_tput_same _ _ _

theorem modJob_mem (s : State) (d n : Nat) (f : Job → Job) : (s.modJob d n f).mem = s.mem := State.modDie_mem _ _ _

theorem replay_runs {d n : Nat} {j k : Job} (hj : tget (s.die d).truss n = some k) (hs : j.state = .partialDone) (hf : j.full = false) :
    (s.replay d n j).mem = s.mem ∧ (s.replay d n j).priOut = s.priOut
      ∧ tget ((s.replay d n j).die d).truss n = some (k.replays (s.die d).readied) := by
  unfold State.replay
  rw [if_neg (not_not_intro hs), hf, if_neg Bool.false_ne_true]
  refine ⟨(State.modDie_mem _ _ _).trans (modJob_mem _ _ _ _), (State.modDie_priOut _ _ _).trans (State.modDie_priOut _ _ _), ?_⟩
  rw [State.modDie_die_same]
  exact modJob_truss hj

/-- A job whose last record is cured is replayed. -/
theorem cured_job {d jd n : Nat} {j : Job} {r : FaultRecord} (hr : r.job ≠ 0) (hj : s.job? r.ctx r.job = some (jd, n, j)) (hn : j.records = 1) :
    s.cured d r = (s.modJob jd n (fun _ => { j with records := 0 })).replay jd n { j with records := 0 } := by
  unfold State.cured
  rw [if_neg hr, hj]
  dsimp only
  rw [hn]
  rfl

theorem job_truss {ctx h d n : Nat} {j : Job} (hj : s.job? ctx h = some (d, n, j)) : tget (s.die d).truss n = some j := by
  unfold State.job? at hj
  dsimp only at hj
  split at hj
  · rename_i k hk
    split at hj
    · cases hj
      exact hk
    · cases hj
  · cases hj

/-! ### Answers of Plien (R359) -/

/-- The state in which the oldest record of a die is taken. -/
def State.recordTaken (s : State) (d : Nat) (rest : List FaultRecord) : State := s.modDie d (fun x => { x with frq := rest })

theorem faultRecordAnswer_maps {t : State} {r : FaultRecord} {rest : List FaultRecord} (hq : (s.die s.subject.a).frq = r :: rest) (hb : s.subject.b = 0)
    (hm : s.mapFor r.ctx r.va s.subject.c s.subject.d = some t) (hc : r.cause ∉ [143, 155, 158]) :
    exec .faultRecordAnswer s = .next ((t.recordTaken s.subject.a rest).cured s.subject.a r) := by
  simp only [List.mem_cons, List.not_mem_nil, or_false, not_or] at hc
  obtain ⟨h143, h155, h158⟩ := hc
  change execFaultRecordAnswer s = _
  unfold execFaultRecordAnswer
  dsimp only
  rw [hq]
  dsimp only
  rw [if_neg (fun h => h.elim h143 h158), if_pos hb, hm]
  dsimp only
  rw [if_neg (fun h => h155 h.1)]
  rfl

theorem faultRecordAnswer_asks {r : FaultRecord} {rest : List FaultRecord} (hq : (s.die s.subject.a).frq = r :: rest)
    (hc : r.cause = 143 ∨ r.cause = 158) :
    exec .faultRecordAnswer s = .next ((s.recordTaken s.subject.a rest).askPage s.subject.a r) := by
  change execFaultRecordAnswer s = _
  unfold execFaultRecordAnswer
  dsimp only
  rw [hq]
  exact if_pos hc

/-- The page request of a record. -/
def State.pageAsked (s : State) (d : Nat) (r : FaultRecord) : PriRequest :=
  { ctx := r.ctx, page := placeIn (s.walk r.ctx r.va).2.1 (s.walk r.ctx r.va).2.2.2.1 r.va / 4096, die := d, record := r }

theorem raisePlien_frq (s : State) (d k e : Nat) : ((s.raisePlien d k).die e).frq = (s.die e).frq := by
  unfold State.raisePlien
  by_cases h : e = d
  · subst h
    rw [State.modDie_die_same]
  · rw [State.modDie_die_ne _ _ _ _ h]

theorem askPage_leaves (s : State) (d : Nat) (r : FaultRecord) :
    (s.askPage d r).priOut = s.priOut ++ [s.pageAsked d r] ∧ ∀ e, ((s.askPage d r).die e).frq = (s.die e).frq := by
  have hraised (t : State) (ht : t.priOut = s.priOut ++ [s.pageAsked d r] ∧ ∀ e, (t.die e).frq = (s.die e).frq) :
      (t.raisePlien (ioDie d) 8).priOut = s.priOut ++ [s.pageAsked d r] ∧ ∀ e, ((t.raisePlien (ioDie d) 8).die e).frq = (s.die e).frq :=
    ⟨ht.1, fun e => (raisePlien_frq t _ _ e).trans (ht.2 e)⟩
  unfold State.askPage
  dsimp only
  split
  · refine hraised _ ?_
    split <;> exact ⟨rfl, fun _ => rfl⟩
  · split <;> exact ⟨rfl, fun _ => rfl⟩

end

/-- Settles O28: each event's table entry, cache, message and lanes. -/
theorem translationEvents : Obligations.TranslationEvents := by
  refine ⟨fun s hva hcore hdie hptt hats hroom => ?_, fun s p hp => ?_, fun s => translationInvalidate_eq, fun s hi => ?_,
    fun s w hw ha hok he => ⟨_, atsTranslationCompletion_eq hw ha hok he, rfl, fun v hv => ?_, rfl⟩,
    fun s w hw ha => ⟨_, atsTimeout_eq, List.mem_map.mpr ⟨w, hw, if_pos ha⟩, rfl⟩,
    fun s p hp hctx hpage hc hj => (priResponse_eq hp hctx hpage hc).trans (congrArg _ (cured_page hj)),
    fun s p d n j hp hctx hpage hc hr hj hn hs hf => ?_, fun s => rfl, fun s d ctx page core slot n l tm grp h hr ht htc hd hg hhalt hl hheld hcause hobj => ?_,
    fun s r rest t hq hb hm hc hj => (faultRecordAnswer_maps hq hb hm hc).trans (congrArg _ (cured_page hj)), fun s r rest hq hc => ?_⟩
  · obtain ⟨hwalk, hmem⟩ := dieWalk_frame s (dieOf s.subject.g.core) s.subject.a s.subject.b
    refine ⟨_, s.walkEntry, translationWalk_eq hva hcore hdie hptt hats hroom, ?_, rfl, rfl, rfl, rfl, (State.modDie_mem _ _ _).trans hmem⟩
    rw [State.modDie_die_same]
    exact congrArg (· ++ [s.walkEntry]) hwalk
  · have hdie := walkReturned_die s s.subject.a p
    refine ⟨_, walkComplete_eq hp, ?_, fun c hmem => ?_, ?_, fun page hpage => ⟨_, walkReturned_asks hpage, rfl, rfl, rfl, rfl, rfl⟩, walkReturned_mem _ _ _⟩
    · rw [hdie]
      exact fun h => by simpa using (List.mem_filter.mp h).2
    · rw [hdie]
      exact List.mem_append_right _ (List.mem_map.mpr ⟨c, hmem, rfl⟩)
    · rw [hdie]
      rfl
  · obtain ⟨hmem, hats⟩ := atsDropped_frame (s.hostDropped s.subject.a s.subject.b s.subject.c)
      ⟨s.subject.a, s.subject.b, s.subject.c, s.hostUses s.subject.a s.subject.b s.subject.c⟩
    exact ⟨_, atsInvalidation_eq hi, hmem, fun e => by rw [hats]; exact hostDropped_ats _ _ _ _ e, fun h => atsDropped_answers h, fun h => atsDropped_waits h⟩
  · simpa using (List.mem_filter.mp hv).2
  · have htruss : tget (s.priAnswered.die d).truss n = some j := job_truss hj
    obtain ⟨hmem, hpri, hjob⟩ := replay_runs (j := { j with records := 0 }) (modJob_truss (f := fun _ => { j with records := 0 }) htruss) hs hf
    have hcured := cured_job (s := s.priAnswered) (d := p.die) hr hj hn
    exact ⟨_, _, (priResponse_eq hp hctx hpage hc).trans (congrArg _ hcured), hpri.trans (State.modDie_priOut _ _ _),
      hmem.trans (modJob_mem _ _ _ _), hjob, rfl, rfl, rfl, rfl⟩
  · obtain ⟨y, hy, _, _, hfree⟩ := retryPage_frees (g := ⟨core, slot, n⟩) (n := l) (page := page) hr ht htc hd
      ⟨grp, hg, hhalt, hl, fun x hx => by rw [hheld, Option.some.injEq] at hx; rw [← hx]; exact ⟨hcause, hobj⟩⟩
    exact ⟨y, hy, hfree⟩
  · obtain ⟨hpri, hfrq⟩ := askPage_leaves (s.recordTaken s.subject.a rest) s.subject.a r
    refine ⟨_, _, faultRecordAnswer_asks hq hc, ?_, hpri.trans (congrArg (· ++ _) (State.modDie_priOut _ _ _)), rfl, rfl, rfl⟩
    rw [hfrq, State.recordTaken, State.modDie_die_same]

end Sys2Proof.Machine
end

section

/-! Jobs: acceptance, start, elements, completion and replay (O27). -/

namespace Sys2Proof.Machine

section
variable {s : State} {d n : Nat} {j : Job}

theorem modDie_congr {d : Nat} {f g : Die → Die} (h : f (s.die d) = g (s.die d)) : s.modDie d f = s.modDie d g := by
  unfold State.modDie
  rw [h]

theorem subjectJob_truss (h : s.subjectJob = some (d, n, j)) : tget (s.die d).truss n = some j := by
  obtain ⟨k, hk, heq⟩ := Option.map_eq_some_iff.mp h
  cases heq
  exact hk

/-! ### Acceptance and start (R73, R91) -/

theorem acceptJob_eq (h : tget (s.die d).truss n = some j) : s.acceptJob d n = s.modDie d (fun x => { x with
    truss := tput x.truss n (Job.readied { j with accepted := true, edges := if j.absent then [] else trussEdges x.truss j.ctx (cardOf j.card) } x.readied)
    readied := x.readied + 1 }) := by
  refine modDie_congr ?_
  rw [h]

theorem trussAccept_eq (h : s.subjectJob = some (d, n, j)) (hs : j.state = .waiting) (ha : j.accepted = false)
    (ho : ∀ p ∈ (s.die d).truss, p.2.core = j.core → p.2.accepted = false → p.2.state = .waiting → j.order ≤ p.2.order) :
    exec .trussAccept s = .next (s.acceptJob d n) := by
  have hfirst : (s.die d).truss.any (fun p => p.2.core == j.core && !p.2.accepted && p.2.state == .waiting && decide (p.2.order < j.order)) = false := by
    refine List.any_eq_false.mpr fun p hp hbad => ?_
    simp only [Bool.and_eq_true, beq_iff_eq, Bool.not_eq_true', decide_eq_true_eq] at hbad
    obtain ⟨⟨⟨hcore, hacc⟩, hstate⟩, hlt⟩ := hbad
    exact absurd hlt (Nat.not_lt.mpr (ho p hp hcore hacc hstate))
  change execTrussAccept s = _
  unfold execTrussAccept
  rw [h]
  exact if_pos ⟨hs, by rw [ha]; rfl, by rw [hfirst]; rfl⟩

theorem jobStart_eq (h : s.subjectJob = some (d, n, j)) (hs : j.state = .running) (hr : s.enginesRun j.ctx = true) (hst : j.started = false)
    (ha : j.absent = false) (he : j.edges = []) (ht : s.mayTake d j = true) : exec .jobStart s = .next (s.startJob d n j) := by
  change execJobStart s = _
  unfold execJobStart
  rw [h]
  exact if_pos ⟨hs, by rw [hst]; rfl, by rw [ha]; rfl, by rw [he]; rfl, hr, ht⟩

/-! ### Elements (R76) -/

/-- The subject's job runs on its engine and has the subject's element still to do. -/
def State.Due (s : State) (j : Job) (kind : Nat) : Prop :=
  j.state = .running ∧ j.started = true ∧ (cardOf j.card).kind = kind ∧ s.subject.c < j.elems
    ∧ bit (j.mask ||| j.tried) s.subject.c = false ∧ s.enginesRun j.ctx = true ∧ s.amongEight j = true

section
variable {tm : Team} {kind : Nat} {f : State → Nat → Nat → Job → Team → Card → Nat → State}

/-- An element that is due is run by its kind's meaning. -/
theorem runElement_due (h : s.subjectJob = some (d, n, j)) (ht : s.team? j.core j.slot = some tm) (hd : s.Due j kind) :
    s.runElement kind f = f s d n j tm (cardOf j.card) s.subject.c := by
  obtain ⟨hs, hst, hk, he, hm, hr, h8⟩ := hd
  unfold State.runElement
  rw [h]
  dsimp only
  rw [ht]
  exact if_pos ⟨hs, hst, hk, he, by rw [hm]; rfl, hr, h8⟩

/-- An element that meets no fault moves its bytes. -/
theorem moveElement_moves {e src dst soff doff len : Nat} {first : Bool} {source dest : List Seg} {t : State}
    (hm : s.Moves j tm e src dst soff doff len first source dest t) :
    s.moveElement d n j tm (cardOf j.card) e src dst soff doff len first = t.moved d n j tm e source dest := by
  obtain ⟨hreads, hwrites, ⟨u, hsrc, hdst⟩, hload, hstore⟩ := hm
  have hbad : (if opSpace src = 1 then none else t.loadFault (t.refFormat j src (segForm source)) first source) = none := by
    split
    · rfl
    · next hne => exact hload.resolve_left hne
  unfold State.moveElement
  dsimp only
  rw [hreads]
  dsimp only
  rw [hwrites]
  dsimp only
  rw [hsrc]
  dsimp only
  rw [hdst]
  dsimp only
  rw [hbad]
  dsimp only
  rw [hstore]
  rfl

/-- A linear element whose part of the card meets no fault. -/
theorem runElement_linear {source dest : List Seg} {t : State} (h : s.subjectJob = some (d, n, j)) (ht : s.team? j.core j.slot = some tm)
    (hd : s.Due j kind) (hm : s.Moves j tm s.subject.c (cardOf j.card).src (cardOf j.card).dst (elementSpan (cardOf j.card) s.subject.c).1
      (elementSpan (cardOf j.card) s.subject.c).1 (elementSpan (cardOf j.card) s.subject.c).2
      ((elementSpan (cardOf j.card) s.subject.c).1 == 0) source dest t) :
    s.runElement kind State.linearElement = t.moved d n j tm s.subject.c source dest :=
  (runElement_due h ht hd).trans (moveElement_moves hm)

theorem gatherElement_moves {e : Nat} {source dest : List Seg} {t : State} (hi : s.indexFault j.core (s.indexField j tm (cardOf j.card) e) = none)
    (hm : s.Moves j tm e (s.indexField j tm (cardOf j.card) e) (cardOf j.card).dst 0 (e * eszBytes (cardOf j.card).esz) (eszBytes (cardOf j.card).esz)
      true source dest t) : s.gatherElement d n j tm (cardOf j.card) e = t.moved d n j tm e source dest := by
  unfold State.gatherElement
  dsimp only
  rw [hi]
  exact moveElement_moves hm

theorem scatterElement_moves {e : Nat} {source dest : List Seg} {t : State} (hi : s.indexFault j.core (s.indexField j tm (cardOf j.card) e) = none)
    (hm : s.Moves j tm e (cardOf j.card).src (s.indexField j tm (cardOf j.card) e) ((cardOf j.card).count * 8 + e * eszBytes (cardOf j.card).esz) 0
      (eszBytes (cardOf j.card).esz) true source dest t) : s.scatterElement d n j tm (cardOf j.card) e = t.moved d n j tm e source dest := by
  unfold State.scatterElement
  dsimp only
  rw [hi]
  exact moveElement_moves hm

/-- An element of an NMV whose operands are reached and sound writes its outputs. -/
theorem nmvElement_writes {e : Nat} {l : List Seg} {t : State} (hb : s.nmvB j (cardOf j.card) e = (.ok l, t))
    (hg : (tm.tile (opValue (cardOf j.card).src % 64)).geom = 0#4) (hf : (tm.tile (opValue (cardOf j.card).src % 64)).fmt.toNat ∈ [2, 4, 5])
    (hbf : nmvBFault j (cardOf j.card) l = none) (hs : t.nmvSpoilt (cardOf j.card) l e (segForm l).1 (segForm l).2 = false)
    (hp : t.nmvPoison j tm (cardOf j.card) l e (segForm l).1 (segForm l).2 = none) :
    s.nmvElement d n j tm (cardOf j.card) e = ((t.nmvWrite j tm (cardOf j.card) l e (segForm l).1 (segForm l).2).charge j.ctx 0
      (nmvColumns (cardOf j.card) e * nmvDepth (cardOf j.card) * fmtWidth (segForm l).1 / 8)).elementDone d n e (pagesOfSegs l) none := by
  have hform : ¬((tm.tile (opValue (cardOf j.card).src % 64)).geom ≠ 0
      ∨ (!([2, 4, 5].contains (tm.tile (opValue (cardOf j.card).src % 64)).fmt.toNat)) = true) := by
    rw [List.contains_iff_mem.mpr hf]
    exact fun h => h.elim (fun hne => hne hg) Bool.false_ne_true
  unfold State.nmvElement
  dsimp only
  rw [hb]
  dsimp only
  rw [if_neg hform, hbf]
  dsimp only
  rw [hs, if_neg Bool.false_ne_true, hp]

end

/-! ### Completion (R80) -/

/-- A job whose tiles have moved. -/
def Job.tilesMoved (j : Job) : Job := { j with moved := true, claimed := [], counted := [] }

/-- The state in which a job's tiles have moved, once. -/
def State.tilesEnded (s : State) (d n : Nat) (j : Job) : State := if j.moved then s else (s.endTiles j).modJob d n Job.tilesMoved

/-- The state in which a job has ended as it must. -/
def State.jobEnds (s : State) (d n : Nat) (j : Job) : State := s.endJob d n j (if j.absent then .absent else .done)

theorem jobComplete_eq (h : s.subjectJob = some (d, n, j)) (hs : j.state = .running) (hr : s.enginesRun j.ctx = true)
    (hf : j.absent = true ∨ (j.started = true ∧ j.full = true)) (hp : j.putWaits = false) (hc : j.cancelled = false) :
    exec .jobComplete s = .next ((s.tilesEnded d n j).completionAction d n j.tilesMoved) := by
  change execJobComplete s = _
  unfold execJobComplete
  rw [h]
  refine (if_pos ⟨hs, hf, by rw [hp]; rfl, hr⟩).trans (congrArg _ ?_)
  unfold State.completeJob
  rw [hc]
  rfl

section
variable {u : State}

theorem completionAction_none (h1 : (cardOf j.card).ca ≠ 1) (h2 : (cardOf j.card).ca ≠ 2) : u.completionAction d n j = u.closeJob d n j := by
  unfold State.completionAction
  dsimp only
  split
  · exact absurd ‹_› h1
  · exact absurd ‹_› h2
  · rfl

/-- The completion action that adds to a counter in a slice. -/
theorem completionAction_slice {key : Nat} (h1 : (cardOf j.card).ca = 1) (hsp : opSpace (cardOf j.card).catgt = 2)
    (hk : u.sliceCounter (opValue (cardOf j.card).catgt) = .ok (some key)) (hp : u.poisonAt key 8 = none) :
    u.completionAction d n j = State.closeJob (((u.atomicWrite key 8 ((u.mem.readLE key 8 + 1) % 2 ^ 64)).tag key
      ⟨(cardOf j.card).scope, j.core, 0, 0, 0, j.engine⟩).notifyBinds key) d n j := by
  unfold State.completionAction
  dsimp only
  rw [h1]
  rw [if_pos hsp, hk]
  dsimp only
  rw [counterAdd_sound hp]
  rfl

/-- The completion action that adds to a counter in memory. -/
theorem completionAction_memory {key : Nat} {leaf : DWord} {v : State} (h1 : (cardOf j.card).ca = 1) (hsp : opSpace (cardOf j.card).catgt ≠ 2)
    (ht : u.translate (j.access 65535 (opValue (cardOf j.card).catgt) 2) = (.ok key leaf, v)) (hp : v.poisonAt key 8 = none) :
    u.completionAction d n j = State.closeJob (((v.atomicWrite key 8 ((v.mem.readLE key 8 + 1) % 2 ^ 64)).tag key
      ⟨(cardOf j.card).scope, j.core, 0, 0, 0, j.engine⟩).notifyBinds key) d n j := by
  unfold State.completionAction
  dsimp only
  rw [h1]
  rw [if_neg hsp, ht]
  dsimp only
  rw [counterAdd_sound hp]
  rfl

/-- The completion action that puts the job's handle into a channel with room. -/
theorem completionAction_put {tm : Team} (h2 : (cardOf j.card).ca = 2) (ht : u.team? j.core j.slot = some tm)
    (hroom : (tm.chan (bits (cardOf j.card).catgt 3 0)).room ≠ 0) :
    u.completionAction d n j = (u.appendItem j.core j.slot (bits (cardOf j.card).catgt 3 0) (handleOf d n j.gen)).closeJob d n j := by
  unfold State.completionAction
  dsimp only
  rw [h2]
  rw [ht]
  refine if_neg fun hfull => hroom ?_
  rw [Bool.and_eq_true] at hfull
  exact eq_of_beq hfull.2

end

theorem completionPutWait_eq (h : s.subjectJob = some (d, n, j)) (hs : j.state = .running) (hr : s.enginesRun j.ctx = true) (hp : j.putWaits = true) :
    exec .completionPutWait s = .next (s.completionAction d n j) := by
  change execCompletionPutWait s = _
  unfold execCompletionPutWait
  rw [h]
  exact if_pos ⟨hs, hp, hr⟩

/-! ### Replay, faults and deferred moves (R78, R79, R89) -/

theorem replayCommand_eq (h : s.subjectJob = some (d, n, j)) (hr : s.enginesRun j.ctx = true) (hn : j.records = 0) :
    exec .replayCommand s = .next (s.replay d n j) := by
  change execReplayCommand s = _
  unfold execReplayCommand
  rw [h]
  exact if_pos (by rw [hr, hn]; rfl)

theorem jobFaultComplete_eq {g : Nat} (h : s.subjectJob = some (d, n, j)) (hs : j.state = .partialDone) (hr : s.enginesRun j.ctx = true)
    (hg : j.grp = some g) : exec .jobFaultComplete s
      = .next ((((s.endOp d n).endJob d n j .faulted).modTeam j.core j.slot (fun t => t.setSticky .jfault)).owe ⟨j.core, j.slot, g⟩
        ⟨106, [], handleOf d n j.gen, j.firstCause⟩) := by
  change execJobFaultComplete s = _
  unfold execJobFaultComplete
  rw [h]
  refine (if_pos hr).trans (congrArg _ ?_)
  unfold State.faultJob
  rw [if_neg (not_not_intro hs), hg]

/-- A FILLING tile that nothing holds and whose fill is done is emptied. -/
theorem tileDeferredEmpty_empties {tm : Team} {x : Tile} (ht : s.team? s.subject.g.core s.subject.g.slot = some tm)
    (hx : tget tm.tiles s.subject.a = some x) (hh : x.held = 0) (hs : x.state = .filling) (hd : x.doneFill = true) :
    ∃ t tm', exec .tileDeferredEmpty s = .next t ∧ t.team? s.subject.g.core s.subject.g.slot = some tm'
      ∧ tget tm'.tiles s.subject.a = some x.toEmpty ∧ t.mem = s.mem := by
  refine ⟨_, _, rfl, State.modTeam_team_same _ _ _ _ tm ht, ?_, State.modTeam_mem _ _ _ _⟩
  have htile : tm.tile s.subject.a = x := by rw [Team.tile, hx]; rfl
  rw [hx, if_pos (Option.isSome_some), Team.modTile, tget_tput_same, htile, Tile.deferred, if_pos ⟨hh, hs, hd⟩]

end

/-- Settles O27: each event of a job, from its acceptance to its end. -/
theorem jobEvents : Obligations.JobEvents :=
  ⟨fun _ _ _ _ h hs ha ho => (trussAccept_eq h hs ha ho).trans (congrArg _ (acceptJob_eq (subjectJob_truss h))),
    fun _ _ _ _ h hs hr hst ha he ht hb => (jobStart_eq h hs hr hst ha he ht).trans (congrArg _ (if_neg (by rw [hb]; exact Bool.false_ne_true))),
    fun _ _ _ _ h _ ht hd _ _ _ hm => congrArg Host.Outcome.next (runElement_linear h ht hd hm),
    fun _ _ _ _ h _ ht hd _ _ _ hm => congrArg Host.Outcome.next (runElement_linear h ht hd hm),
    fun _ _ _ _ h _ ht hd _ _ _ hm => congrArg Host.Outcome.next (runElement_linear h ht hd hm),
    fun _ _ _ _ h _ ht hd _ _ _ hm => congrArg Host.Outcome.next (runElement_linear h ht hd hm),
    fun _ _ _ _ h _ ht hd hi _ _ _ hm => congrArg Host.Outcome.next ((runElement_due h ht hd).trans (gatherElement_moves hi hm)),
    fun _ _ _ _ h _ ht hd hi _ _ _ hm => congrArg Host.Outcome.next ((runElement_due h ht hd).trans (scatterElement_moves hi hm)),
    fun _ _ _ _ h _ ht hd _ _ hb hg hf hbf hs hp => congrArg Host.Outcome.next ((runElement_due h ht hd).trans (nmvElement_writes hb hg hf hbf hs hp)),
    fun _ _ _ _ h hs hr hf hp hc h1 h2 => (jobComplete_eq h hs hr hf hp hc).trans (congrArg _ (completionAction_none h1 h2)),
    fun _ _ _ _ h hs hr hf hp hc h1 hsp _ hk hpo => (jobComplete_eq h hs hr hf hp hc).trans (congrArg _ (completionAction_slice h1 hsp hk hpo)),
    fun _ _ _ _ h hs hr hf hp hc h1 hsp _ _ _ ht hpo => (jobComplete_eq h hs hr hf hp hc).trans (congrArg _ (completionAction_memory h1 hsp ht hpo)),
    fun _ _ _ _ h hs hr hf hp hc h2 _ ht hroom => (jobComplete_eq h hs hr hf hp hc).trans (congrArg _ (completionAction_put h2 ht hroom)),
    fun _ _ _ _ h hs hr hp h2 _ ht hroom => (completionPutWait_eq h hs hr hp).trans (congrArg _ (completionAction_put h2 ht hroom)),
    fun _ _ _ _ h hs hr hn hf =>
      have ⟨hmem, _, hjob⟩ := replay_runs (subjectJob_truss h) hs hf
      ⟨_, replayCommand_eq h hr hn, hmem, hjob⟩,
    fun _ _ _ _ h hs hr _ hg => jobFaultComplete_eq h hs hr hg, fun _ _ ht _ => tileDeferredEmpty_empties ht⟩

end Sys2Proof.Machine
end

section

/-! Collectives: operations, their chunks and their end, and membership (O30). -/

namespace Sys2Proof.Machine

section
variable {s : State} {c : Comm}

/-! ### COLL (R421, R422) -/

section
variable {j : Job} {tm : Team} {l : List Seg} {t u : State} {d n : Nat} {desc : List Byte}

/-- The job of the subject is a COLL whose descriptor is read, in the state `t`, as `desc`, and names the communicator `c`, which is idle and
may carry it out. -/
def State.CollReads (s : State) (j : Job) (tm : Team) (t : State) (c : Comm) (desc : List Byte) : Prop :=
  s.collJob s.subject.a s.subject.b = some (j, tm) ∧ s.reachFault j (cardOf j.card) (cardOf j.card).src 0 128 true = none
    ∧ (∃ l, s.collReach s.subject.a s.subject.b j tm (cardOf j.card).src 0 128 0 = (some l, t) ∧ t.gatherBytes l = desc)
    ∧ t.comm? (leAt desc 2 2) = some c ∧ c.ctx = j.ctx ∧ c.eng = (cardOf j.card).count ∧ descBad j.core c.nmemb desc = false
    ∧ (c.members desc).contains c.rank = true ∧ c.op = none

theorem coll_eq (h : s.CollReads j tm t c desc) (hclaim : t.collClaim s.subject.a s.subject.b j tm c desc = some u) :
    exec .coll s = .next (u.collStart s.subject.a s.subject.b j tm c desc) := by
  obtain ⟨hjob, hfault, ⟨l, hreach, rfl⟩, hcomm, hctx, heng, hbad, hmember, hidle⟩ := h
  have hgood : ¬(c.ctx ≠ j.ctx ∨ c.eng ≠ (cardOf j.card).count ∨ descBad j.core c.nmemb (t.gatherBytes l) = true) := by
    rw [hctx, heng, hbad]
    simp
  have hfree : ¬(c.op.bind (fun o => o.job) = some (s.subject.a, s.subject.b) ∧ (!c.live.contains c.rank) = true) := by
    rw [hidle]
    exact fun hown => Option.some_ne_none _ hown.1.symm
  change execColl s = _
  unfold execColl
  dsimp only
  rw [hjob]
  dsimp only
  rw [hfault]
  dsimp only
  rw [hreach]
  dsimp only
  rw [hcomm]
  dsimp only
  rw [if_neg hgood, if_neg hfree, hmember, Bool.not_true, if_neg Bool.false_ne_true, hidle, Option.isSome_none, if_neg Bool.false_ne_true, hclaim]

/-- A broadcast of another rank begins with nothing of its own. -/
theorem collStart_broadcast (h5 : opOf desc = 5) (hroot : leAt desc 40 4 ≠ c.rank) :
    u.collStart d n j tm c desc = u.modComm c.num (fun c => c.begins d n desc [] [] []) := by
  unfold State.collStart
  dsimp only
  rw [h5, beq_false_of_ne hroot]
  rfl

/-- Any other operation begins with its contribution, which is sound. -/
theorem collStart_contributes (h5 : opOf desc ≠ 5) (hreach : u.collReach d n j tm (leAt desc 16 8) 0 (contribBytes desc) 0 = (some l, t))
    (hload : t.loadFault (segForm l) true l = none) (hp : t.gatherPoison l 0 = []) :
    u.collStart d n j tm c desc = (l.foldl (fun s g => s.charge j.ctx g.key g.n) t).modComm c.num
      (fun c => c.begins d n desc ((l.foldl (fun s g => s.charge j.ctx g.key g.n) t).gatherBytes l) (l.map (fun g => (g.key, g.key + g.n))) []) := by
  have hop : (opOf desc != 5) = true := bne_iff_ne.mpr h5
  unfold State.collStart
  dsimp only
  rw [hop, Bool.true_or, Bool.not_true, if_neg Bool.false_ne_true, hreach]
  dsimp only
  rw [hload, hp]
  dsimp only
  rw [List.isEmpty_nil, Bool.not_true, Bool.and_false, if_neg Bool.false_ne_true]

end

/-! ### Sending (R420, R423) -/

section
variable {r : Nat} {b t : List Byte}

/-- Over a plane that is up and carries a session with the member. -/
theorem sendChunk_plane (hpath : leAt (c.member r) 0 1 = 0) (hup : s.links.any (fun l => l.up && l.peers.contains (leAt (c.member r) 2 2)) = true) :
    s.sendChunk c r b t = { s with out := s.out ++ [⟨1, leAt (c.member r) 2 2, b ++ t⟩] } := by
  unfold State.sendChunk
  dsimp only
  rw [if_pos hpath, if_pos hup]

/-- A member's SENDQ with the chunk in its next slot. -/
def State.ringPut (s : State) (q tail slots : Nat) (b t : List Byte) : State :=
  ((s.store (hostKey (ringSlot q slots tail)) b).store (hostKey (ringSlot q slots tail + 0x40000)) t).storeLE (hostKey q) 4 ((tail + 1) % 2 ^ 32)

/-- Through a SENDQ that has room. -/
theorem sendChunk_queue {tail head slots : Nat} (hpath : leAt (c.member r) 0 1 ≠ 0) (hring : s.ring (leAt (c.member r) 8 8) = some (tail, head, slots))
    (hroom : (tail + 2 ^ 32 - head) % 2 ^ 32 < slots) :
    s.sendChunk c r b t = { s.ringPut (leAt (c.member r) 8 8) tail slots b t with
      out := (s.ringPut (leAt (c.member r) 8 8) tail slots b t).out ++ [⟨2, leAt (c.member r) 24 8, toBytesLE 4 ((tail + 1) % 2 ^ 32)⟩] } := by
  unfold State.sendChunk
  dsimp only
  rw [if_neg hpath, hring]
  dsimp only
  rw [if_neg (Nat.not_le.mpr hroom)]
  rfl

end

/-! ### Chunks (R423 to R425) -/

section
variable {o p : CollOp} {b : List Byte} {k : Checksum}

/-- The operation `o` of communicator `c` runs, and the subject names another member of it. -/
def State.OpWith (s : State) (c : Comm) (o : CollOp) : Prop :=
  s.comm? s.subject.a = some c ∧ c.op = some o ∧ s.commRuns c = true ∧ (c.members o.desc).contains s.subject.b = true ∧ s.subject.b ≠ c.rank

/-- The operation whose chunk a member sends: one asked for a second time is without its sender's contribution. -/
def State.sentOp (s : State) (c : Comm) (o : CollOp) : CollOp := if s.subject.g.grp = 1 then c.leaveOut o else o

theorem sentOp_desc : (s.sentOp c o).desc = o.desc := by
  unfold State.sentOp
  split
  · rfl
  · rfl

theorem sentOp_first (h : s.subject.g.grp ≠ 1) : s.sentOp c o = o := if_neg h

theorem sentOp_again (h : s.subject.g.grp = 1) : s.sentOp c o = c.leaveOut o := if_pos h

/-- What COLL_CHUNK_SEND has to send. -/
def State.chunkToSend (s : State) (c : Comm) (o : CollOp) : Option (List Byte × Checksum) :=
  if s.subject.ok ∨ !reduces o.desc then
    (c.resultChunk o (if reduces o.desc then 0 else s.subject.d) s.subject.c).map (fun b => (b, c.resultSum o s.subject.c b))
  else o.partialChunk c.rank s.subject.c

theorem collChunkSend_eq (h : s.OpWith c o) (hidx : s.subject.c < chunksOf o.desc) (hchunk : s.chunkToSend c (s.sentOp c o) = some (b, k)) :
    exec .collChunkSend s = .next ((s.modOp c.num (fun _ => s.sentOp c o)).sendChunk c s.subject.b b
      (trailerOf c.num s.subject.c c.epoch (seqOf o.desc) k)) := by
  obtain ⟨hcomm, hop, hruns, hmember, hother⟩ := h
  have hguard : ¬((!s.commRuns c) = true ∨ (!(c.members o.desc).contains s.subject.b) = true ∨ s.subject.b = c.rank ∨ chunksOf o.desc ≤ s.subject.c) := by
    rw [hruns, hmember]
    exact fun hbad => hbad.elim Bool.false_ne_true (Or.rec Bool.false_ne_true (Or.rec hother (Nat.not_le.mpr hidx)))
  rw [← sentOp_desc (s := s) (c := c)]
  change execCollChunkSend s = _
  unfold execCollChunkSend
  dsimp only
  rw [hcomm]
  dsimp only
  rw [hop]
  dsimp only
  rw [if_neg hguard]
  change (match s.chunkToSend c (s.sentOp c o) with | none => _ | some (b, k) => _) = _
  rw [hchunk]
  rfl

theorem chunkToSend_partial (hok : s.subject.ok = false) (hred : reduces o.desc = true) :
    s.chunkToSend c o = o.partialChunk c.rank s.subject.c := by
  unfold State.chunkToSend
  rw [hok, hred]
  rfl

/-- The trailer of a sum's result carries the sums that the hops have added up. -/
theorem chunkToSend_sum {t : List Byte} (hok : s.subject.ok = true) (h0 : opOf o.desc = 0) (hchunk : c.resultChunk o 0 s.subject.c = some b)
    (hsum : tget o.sums s.subject.c = some t) : s.chunkToSend c o = some (b, checksumIn t) := by
  have hred : reduces o.desc = true := by
    unfold reduces
    rw [h0]
    rfl
  unfold State.chunkToSend
  rw [if_pos (Or.inl hok), hred, if_pos rfl, hchunk]
  unfold Comm.resultSum
  dsimp only [Option.map_some]
  rw [if_pos (Or.inl h0), hsum]

theorem collChunkSend_partial (h : s.OpWith c o) (hidx : s.subject.c < chunksOf o.desc) (hok : s.subject.ok = false) (hred : reduces o.desc = true)
    (hchunk : (s.sentOp c o).partialChunk c.rank s.subject.c = some (b, k)) :
    exec .collChunkSend s = .next ((s.modOp c.num (fun _ => s.sentOp c o)).sendChunk c s.subject.b b
      (trailerOf c.num s.subject.c c.epoch (seqOf o.desc) k)) :=
  collChunkSend_eq h hidx ((chunkToSend_partial hok (by rw [sentOp_desc, hred])).trans hchunk)

end

/-! ### Receiving (R424, R425) -/

section
variable {o : CollOp} {r whole : Nat} {b t : List Byte}

/-- Bytes of the payload, the payload and the trailer of the chunk that the subject holds. -/
def State.payloadBytes (s : State) : Nat := s.subject.bytes.length - 64
def State.payload (s : State) : List Byte := s.subject.bytes.take s.payloadBytes
def State.trailer (s : State) : List Byte := s.subject.bytes.drop s.payloadBytes

/-- Whether the chunk that the subject holds is bad. -/
def State.chunkBad (s : State) (o : CollOp) : Bool :=
  s.subject.ok || s.payloadBytes != min chunkBytes (contribBytes o.desc - leAt s.trailer 2 2 * chunkBytes)
    || !chunkPasses (collFmt o.desc) s.payload (checksumIn s.trailer)

/-- How often the chunk of a rank has been asked for again. -/
def CollOp.asked (o : CollOp) (r idx : Nat) : Nat := (o.retried.filter (fun x => x == (r, idx))).length

theorem maskRanks_zero (n : Nat) : maskRanks n 0 = [] := by
  unfold maskRanks
  refine List.filter_eq_nil_iff.mpr fun r _ => ?_
  simp [bit]

/-- A chunk of the operation's sequence whose sender has left no rank out. -/
theorem collChunkReceive_eq (h : s.OpWith c o) (hd : s.subject.d = 0) (hnum : leAt s.trailer 0 2 = c.num) (hseq : leAt s.trailer 8 8 = seqOf o.desc)
    (hidx : leAt s.trailer 2 2 < chunksOf o.desc) :
    exec .collChunkReceive s = .next (if s.chunkBad o ∧ o.asked s.subject.b (leAt s.trailer 2 2) < 2
      then (s.modOp c.num (fun _ => o.receive s.subject.b (c.contributors o).length (s.chunkBad o) s.payload s.trailer)).tellMember c s.subject.b
        (s.trailer.take 16 ++ [BitVec.ofNat 8 (o.asked s.subject.b (leAt s.trailer 2 2))])
      else s.modOp c.num (fun _ => o.receive s.subject.b (c.contributors o).length (s.chunkBad o) s.payload s.trailer)) := by
  obtain ⟨hcomm, hop, hruns, hmember, hother⟩ := h
  have hguard : ¬((!s.commRuns c) = true ∨ (!(c.members o.desc).contains s.subject.b) = true ∨ s.subject.b = c.rank ∨ leAt s.trailer 0 2 ≠ c.num
      ∨ leAt s.trailer 8 8 ≠ seqOf o.desc ∨ chunksOf o.desc ≤ leAt s.trailer 2 2) := by
    rw [hruns, hmember]
    exact fun hbad => hbad.elim Bool.false_ne_true
      (Or.rec Bool.false_ne_true (Or.rec hother (Or.rec (· hnum) (Or.rec (· hseq) (Nat.not_le.mpr hidx)))))
  change execCollChunkReceive s = _
  unfold execCollChunkReceive
  dsimp only
  rw [hcomm]
  dsimp only
  rw [hop]
  refine (if_neg hguard).trans ?_
  rw [hd, maskRanks_zero, List.filter_nil, List.append_nil]
  rfl

theorem drop_excludes : r ∈ (o.drop r).excluded := by
  unfold CollOp.drop
  split
  · next h => exact List.contains_iff_mem.mp h
  · exact List.mem_append_right _ (List.mem_singleton_self r)

theorem drop_received (h : r ∉ o.excluded) : ∀ x ∈ (o.drop r).received, x.1 ≠ r := by
  unfold CollOp.drop
  rw [if_neg (fun hc => h (List.contains_iff_mem.mp hc))]
  exact fun x hx => bne_iff_ne.mp (List.mem_filter.mp hx).2

theorem drop_keeps : (o.drop r).retried = o.retried ∧ (o.drop r).desc = o.desc ∧ (o.drop r).own = o.own := by
  unfold CollOp.drop
  split
  · exact ⟨rfl, rfl, rfl⟩
  · exact ⟨rfl, rfl, rfl⟩

/-- An operation that asks for a chunk again. -/
def CollOp.askedAgain (o : CollOp) (r idx : Nat) : CollOp := { o with retried := o.retried ++ [(r, idx)] }

theorem asked_askedAgain (idx : Nat) : (o.askedAgain r idx).asked r idx = o.asked r idx + 1 := by
  unfold CollOp.asked CollOp.askedAgain
  rw [List.filter_append, List.length_append, List.filter_cons_of_pos (p := (· == (r, idx))) (beq_self_eq_true _)]
  rfl

/-- A bad chunk is asked for again; the second time its sender is left out. -/
theorem receive_bad : o.receive r whole true b t
    = if o.asked r (leAt t 2 2) = 1 then (o.askedAgain r (leAt t 2 2)).drop r else o.askedAgain r (leAt t 2 2) := by
  change (if (o.askedAgain r (leAt t 2 2)).asked r (leAt t 2 2) = 2 then (o.askedAgain r (leAt t 2 2)).drop r else o.askedAgain r (leAt t 2 2)) = _
  rw [asked_askedAgain]
  exact ite_congr (propext Nat.succ_inj) (fun _ => rfl) (fun _ => rfl)

theorem receive_bad_keeps : (o.receive r whole true b t).retried = o.retried ++ [(r, leAt t 2 2)] ∧ (o.receive r whole true b t).desc = o.desc
    ∧ (o.receive r whole true b t).own = o.own := by
  rw [receive_bad]
  split
  · exact drop_keeps
  · exact ⟨rfl, rfl, rfl⟩

theorem receive_bad_second (h : o.asked r (leAt t 2 2) = 1) : r ∈ (o.receive r whole true b t).excluded
    ∧ (r ∉ o.excluded → ∀ x ∈ (o.receive r whole true b t).received, x.1 ≠ r) := by
  rw [receive_bad, if_pos h]
  exact ⟨drop_excludes, drop_received (o := o.askedAgain r (leAt t 2 2))⟩

theorem receive_bad_other (h : o.asked r (leAt t 2 2) ≠ 1) : (o.receive r whole true b t).excluded = o.excluded
    ∧ (o.receive r whole true b t).received = o.received ∧ (o.receive r whole true b t).results = o.results := by
  rw [receive_bad, if_neg h]
  exact ⟨rfl, rfl, rfl⟩

theorem chunkBad_good (hok : s.subject.ok = false)
    (hn : s.payloadBytes = min chunkBytes (contribBytes o.desc - leAt s.trailer 2 2 * chunkBytes))
    (hp : chunkPasses (collFmt o.desc) s.payload (checksumIn s.trailer) = true) : s.chunkBad o = false := by
  unfold State.chunkBad
  rw [hok, hp, ← hn, bne_self_eq_false]
  rfl

theorem chunkBad_poisoned (hok : s.subject.ok = true) : s.chunkBad o = true := by
  unfold State.chunkBad
  rw [hok]
  rfl

theorem collChunkReceive_good (h : s.OpWith c o) (hd : s.subject.d = 0) (hnum : leAt s.trailer 0 2 = c.num) (hseq : leAt s.trailer 8 8 = seqOf o.desc)
    (hidx : leAt s.trailer 2 2 < chunksOf o.desc) (hgood : s.chunkBad o = false) :
    exec .collChunkReceive s = .next (s.modOp c.num (fun _ => o.receive s.subject.b (c.contributors o).length false s.payload s.trailer)) := by
  rw [collChunkReceive_eq h hd hnum hseq hidx, hgood]
  exact congrArg _ (if_neg fun hbad => Bool.false_ne_true hbad.1)

theorem collChunkReceive_bad (h : s.OpWith c o) (hd : s.subject.d = 0) (hnum : leAt s.trailer 0 2 = c.num) (hseq : leAt s.trailer 8 8 = seqOf o.desc)
    (hidx : leAt s.trailer 2 2 < chunksOf o.desc) (hbad : s.chunkBad o = true) :
    exec .collChunkReceive s = .next (if o.asked s.subject.b (leAt s.trailer 2 2) < 2
      then (s.modOp c.num (fun _ => o.receive s.subject.b (c.contributors o).length true s.payload s.trailer)).tellMember c s.subject.b
        (s.trailer.take 16 ++ [BitVec.ofNat 8 (o.asked s.subject.b (leAt s.trailer 2 2))])
      else s.modOp c.num (fun _ => o.receive s.subject.b (c.contributors o).length true s.payload s.trailer)) := by
  rw [collChunkReceive_eq h hd hnum hseq hidx, hbad]
  exact congrArg _ (ite_congr (propext (and_iff_right rfl)) (fun _ => rfl) (fun _ => rfl))

end

/-! ### Receive queues (R420) -/

/-- The engine of the communicator runs and the member is read through a ring. -/
theorem recvq_polled {r : Nat} (hruns : s.commRuns c = true) (hpath : leAt (c.member r) 0 1 = 1) :
    ¬((!s.commRuns c) = true ∨ leAt (c.member r) 0 1 ≠ 1) := by
  rw [hruns]
  exact fun hbad => hbad.elim Bool.false_ne_true (· hpath)

theorem recvqPoll_empty {h n : Nat} (hcomm : s.comm? s.subject.a = some c) (hruns : s.commRuns c = true) (hpath : leAt (c.member s.subject.b) 0 1 = 1)
    (hring : s.ring (leAt (c.member s.subject.b) 16 8) = some (h, h, n)) : exec .recvqPoll s = .next s := by
  change execRecvqPoll s = _
  unfold execRecvqPoll
  dsimp only
  rw [hcomm]
  dsimp only
  rw [if_neg (recvq_polled hruns hpath), hring]
  exact if_pos rfl

/-- Bytes of the chunk in a slot of a receive queue. -/
def State.slotBytes (s : State) (o : CollOp) (p : Nat) : Nat :=
  min chunkBytes (contribBytes o.desc - leAt (s.mem.readBytes (hostKey (p + 0x40000)) 64) 2 2 * chunkBytes)

theorem recvqPoll_next {o : CollOp} {tail head slots : Nat} (hcomm : s.comm? s.subject.a = some c) (hop : c.op = some o) (hruns : s.commRuns c = true)
    (hpath : leAt (c.member s.subject.b) 0 1 = 1) (hring : s.ring (leAt (c.member s.subject.b) 16 8) = some (tail, head, slots)) (hne : tail ≠ head)
    (hpay : s.poisonAt (hostKey (ringSlot (leAt (c.member s.subject.b) 16 8) slots head))
      (s.slotBytes o (ringSlot (leAt (c.member s.subject.b) 16 8) slots head)) = none)
    (htr : s.poisonAt (hostKey (ringSlot (leAt (c.member s.subject.b) 16 8) slots head + 0x40000)) 64 = none) :
    exec .recvqPoll s = .next ((s.storeLE (hostKey (leAt (c.member s.subject.b) 16 8 + 4)) 4 ((head + 1) % 2 ^ 32)).raiseTurn .collChunkReceive
      { a := s.subject.a, b := s.subject.b, ok := false,
        bytes := s.mem.readBytes (hostKey (ringSlot (leAt (c.member s.subject.b) 16 8) slots head))
            (s.slotBytes o (ringSlot (leAt (c.member s.subject.b) 16 8) slots head))
          ++ s.mem.readBytes (hostKey (ringSlot (leAt (c.member s.subject.b) 16 8) slots head + 0x40000)) 64 }) := by
  unfold State.slotBytes at hpay
  change execRecvqPoll s = _
  unfold execRecvqPoll
  dsimp only
  rw [hcomm]
  dsimp only
  rw [if_neg (recvq_polled hruns hpath), hring]
  dsimp only
  rw [if_neg hne, hop]
  dsimp only [Option.map_some, Option.getD_some]
  rw [hpay, htr]
  rfl

/-! ### The end of an operation (R422, R428) -/

section
variable {o : CollOp} {res : List (Nat × List Byte)} {d n : Nat} {j k : Job} {tm : Team} {u v w : State}

/-- The engine's job with the operation over and its one element done. -/
def State.opDone (s : State) (c : Comm) (d n : Nat) : State := (s.modComm c.num (fun c => { c with op := none })).elementDone d n 0 [] none

theorem collFinish_eq (hres : s.collResults d n j tm (leAt o.desc 24 8) (collFmt o.desc) o.read res = (true, u))
    (hmask : (if o.own.isEmpty then u else u.carryOwn j tm c o).collWrite d n j tm (leAt o.desc 32 8) 0 (maskBytes c.nmemb (c.contributors o)) o.read
      = (true, v))
    (hstatus : v.collWrite d n j tm (cardOf j.card).src 64 (toBytesLE 1 (if o.excluded.isEmpty then 1 else 2) ++ List.replicate 3 0#8
      ++ toBytesLE 4 (c.contributors o).length ++ toBytesLE 4 c.epoch) [] = (true, w))
    (hk : tget ((w.opDone c d n).die d).truss n = some k) : s.collFinish d n j tm c o res = (w.opDone c d n).completeJob d n k := by
  unfold State.opDone at hk
  unfold State.collFinish
  dsimp only
  rw [hres]
  dsimp only
  rw [hmask]
  dsimp only
  rw [hstatus]
  dsimp only
  rw [hk]
  rfl

/-- A job without a completion action ends. -/
theorem completeJob_plain (ha : (cardOf k.card).ca = 0) (hc : k.cancelled = false) (hp : k.absent = false) :
    s.completeJob d n k = (s.tilesEnded d n k).endJob d n k.tilesMoved .done := by
  unfold State.completeJob
  rw [hc, if_neg Bool.false_ne_true]
  refine (completionAction_none (j := k.tilesMoved) (by rw [Job.tilesMoved, ha]; decide) (by rw [Job.tilesMoved, ha]; decide)).trans ?_
  unfold State.closeJob
  rw [show k.tilesMoved.absent = false from hp]
  rfl

theorem collComplete_job (hcomm : s.comm? s.subject.a = some c) (hop : c.op = some o) (hruns : s.commRuns c = true) (hres : c.result o = some res)
    (hjob : o.job = some (d, n)) (hcoll : s.collJob d n = some (j, tm)) : exec .collComplete s = .next (s.collFinish d n j tm c o res) := by
  change execCollComplete s = _
  unfold execCollComplete
  rw [hcomm]
  dsimp only
  rw [hop]
  dsimp only
  rw [hruns, Bool.not_true, if_neg Bool.false_ne_true, hres]
  dsimp only
  rw [hjob]
  dsimp only
  rw [hcoll]

theorem collComplete_spare (hcomm : s.comm? s.subject.a = some c) (hop : c.op = some o) (hruns : s.commRuns c = true) (hres : c.result o = some res)
    (hjob : o.job = none) (hparked : o.parked = none) (hputs : s.sparePuts c (collFmt o.desc) (leAt o.desc 24 8) res = (true, u)) :
    exec .collComplete s = .next (u.modComm c.num (fun c => { c with op := none })) := by
  change execCollComplete s = _
  unfold execCollComplete
  rw [hcomm]
  dsimp only
  rw [hop]
  dsimp only
  rw [hruns, Bool.not_true, if_neg Bool.false_ne_true, hres]
  dsimp only
  rw [hjob]
  dsimp only [State.replayFinish]
  rw [hparked, Option.isSome_none, if_neg Bool.false_ne_true, hputs]

end

/-! ### Membership and spares (R427, R428) -/

theorem keepaliveSend_eq (hcomm : s.comm? s.subject.a = some c) :
    exec .keepaliveSend s = .next ((c.live.filter (fun r => r != c.rank && leAt (c.member r) 0 1 == 0)).foldl
      (fun s r => s.tellMember c r (toBytesLE 2 c.num)) s) := by
  change execKeepaliveSend s = _
  unfold execKeepaliveSend
  rw [hcomm]

/-- A communicator that suspects a further rank. -/
def Comm.suspects (c : Comm) (r : Nat) : Comm := { c with suspected := c.suspected ++ [r] }

/-- A member that is not the root reports the rank to the root. -/
theorem memberSuspect_reports (hcomm : s.comm? s.subject.a = some c) (hlive : c.live.contains s.subject.b = true) (hother : s.subject.b ≠ c.rank)
    (hself : c.live.contains c.rank = true) (hnew : c.suspected.contains s.subject.b = false) (hroot : c.actingRoot ≠ c.rank)
    (hsame : (c.suspects s.subject.b).actingRoot = c.actingRoot) :
    exec .memberSuspect s = .next ((s.modComm c.num (fun _ => c.suspects s.subject.b)).tellMember (c.suspects s.subject.b) c.actingRoot
      (toBytesLE 2 c.num ++ toBytesLE 4 s.subject.b)) := by
  have hguard : ¬((!c.live.contains s.subject.b) = true ∨ s.subject.b = c.rank ∨ (!c.live.contains c.rank) = true) := by
    rw [hlive, hself]
    exact fun hbad => hbad.elim Bool.false_ne_true (Or.rec hother Bool.false_ne_true)
  have hnotroot : (c.suspects s.subject.b).actingRoot ≠ (c.suspects s.subject.b).rank := fun h => hroot (hsame.symm.trans h)
  rw [← hsame]
  change execMemberSuspect s = _
  unfold execMemberSuspect
  dsimp only
  rw [hcomm]
  dsimp only
  rw [if_neg hguard, hnew, if_neg Bool.false_ne_true]
  exact if_neg hnotroot

/-- The ranks of a mask that a member of it hears do not exclude it. -/
theorem applyMask_member {epoch effseq root : Nat} {live : List Nat} (h : live.contains c.rank = true) :
    s.applyMask c epoch effseq root live = (s.modComm c.num (fun _ => { c with
      epoch := epoch
      effseq := effseq
      root := root
      live := live
      before := c.live
      suspected := c.suspected.filter (fun r => live.contains r)
      op := c.op.map (fun o => { o with
        excluded := (o.excluded ++ (c.live.filter (fun r => !live.contains r)).filter
          (fun r => !o.excluded.contains r && (c.members o.desc).contains r)) }) })).raisePlien (engineDie c.eng) 14 := by
  refine if_neg fun hgone => ?_
  have hout := (List.mem_filter.mp (List.contains_iff_mem.mp hgone)).2
  rw [h] at hout
  exact Bool.false_ne_true hout

theorem membershipBroadcast_heard (hcomm : s.comm? s.subject.a = some c) (hok : s.subject.ok = false) (hepoch : c.epoch < s.subject.b) :
    exec .membershipBroadcast s
      = .next (s.applyMask c s.subject.b s.subject.d s.subject.g.core (maskRanks c.nmemb s.subject.c)) := by
  have hhigher : ¬(s.subject.b < c.epoch ∨ (s.subject.b = c.epoch ∧ c.root ≤ s.subject.g.core)) :=
    fun h => h.elim (Nat.not_lt.mpr hepoch.le) (fun heq => hepoch.ne' heq.1)
  change execMembershipBroadcast s = _
  unfold execMembershipBroadcast
  dsimp only
  rw [hcomm]
  dsimp only
  rw [hok, if_neg Bool.false_ne_true, if_neg hhigher]

/-- A spare asks its neighbour to join. -/
theorem spareJoin_asks (hcomm : s.comm? s.subject.a = some c) (hspare : c.live.contains c.rank = false) (hc : s.subject.c = 0)
    (hlive : c.live.contains s.subject.b = true) :
    exec .spareJoin s = .next (s.tellMember c s.subject.b (toBytesLE 2 c.num ++ toBytesLE 4 c.rank)) := by
  change execSpareJoin s = _
  unfold execSpareJoin
  dsimp only
  rw [hcomm]
  dsimp only
  rw [hc, if_neg (by decide), hspare, if_neg Bool.false_ne_true, if_pos rfl, hlive, if_pos rfl]

end

/-- Settles O30: each event of a collective, from its beginning to its end, and of the membership. -/
theorem collectiveEvents : Obligations.CollectiveEvents :=
  ⟨fun _ _ _ _ _ _ hjob hfault hreach hcomm hctx heng hbad hmember hidle _ hclaim h5 hroot =>
      (coll_eq ⟨hjob, hfault, ⟨_, hreach, rfl⟩, hcomm, hctx, heng, hbad, hmember, hidle⟩ hclaim).trans (congrArg _ (collStart_broadcast h5 hroot)),
    fun _ _ _ _ _ _ hjob hfault hreach hcomm hctx heng hbad hmember hidle _ hclaim h5 _ _ hown hload hp =>
      (coll_eq ⟨hjob, hfault, ⟨_, hreach, rfl⟩, hcomm, hctx, heng, hbad, hmember, hidle⟩ hclaim).trans
        (congrArg _ (collStart_contributes h5 hown hload hp)),
    fun _ _ _ hcomm hop hruns hmember hother hidx hok hred hfirst _ _ hchunk hpath hup => by
      refine (collChunkSend_partial ⟨hcomm, hop, hruns, hmember, hother⟩ hidx hok hred (by rw [sentOp_first hfirst]; exact hchunk)).trans ?_
      rw [sentOp_first hfirst]
      exact congrArg _ (sendChunk_plane hpath hup),
    fun _ _ _ hcomm hop hruns hmember hother hidx hok hred hfirst _ _ hchunk hpath _ _ _ hring hroom => by
      refine (collChunkSend_partial ⟨hcomm, hop, hruns, hmember, hother⟩ hidx hok hred (by rw [sentOp_first hfirst]; exact hchunk)).trans ?_
      rw [sentOp_first hfirst]
      exact congrArg _ (sendChunk_queue hpath hring hroom),
    fun _ _ _ hcomm hop hruns hmember hother hidx hok hred hagain _ _ hchunk => by
      refine (collChunkSend_partial ⟨hcomm, hop, hruns, hmember, hother⟩ hidx hok hred (by rw [sentOp_again hagain]; exact hchunk)).trans ?_
      rw [sentOp_again hagain]
      rfl,
    fun _ _ _ hcomm hop hruns hmember hother hidx hok h0 hfirst _ _ hchunk hsum => by
      refine (collChunkSend_eq ⟨hcomm, hop, hruns, hmember, hother⟩ hidx (by rw [sentOp_first hfirst]; exact chunkToSend_sum hok h0 hchunk hsum)).trans ?_
      rw [sentOp_first hfirst],
    fun _ _ _ hcomm hop hruns hmember hother hok hd hnum hseq hidx hn hp =>
      collChunkReceive_good ⟨hcomm, hop, hruns, hmember, hother⟩ hd hnum hseq hidx (chunkBad_good hok hn hp),
    fun _ _ _ hcomm hop hruns hmember hother hok hd hnum hseq hidx =>
      have ⟨hretried, hdesc, hown⟩ := receive_bad_keeps
      ⟨_, collChunkReceive_bad ⟨hcomm, hop, hruns, hmember, hother⟩ hd hnum hseq hidx (chunkBad_poisoned hok), hretried, hdesc, hown,
        receive_bad_second, receive_bad_other⟩,
    fun _ _ _ hcomm hop hruns _ _ _ _ _ hres hjob hcoll _ _ _ _ _ hresults hmask hstatus hk ha hc hp =>
      (collComplete_job hcomm hop hruns hres hjob hcoll).trans
        (congrArg _ ((collFinish_eq hresults hmask hstatus hk).trans (completeJob_plain ha hc hp))),
    fun _ _ _ hcomm hop hruns _ _ hres hjob hparked hputs => collComplete_spare hcomm hop hruns hres hjob hparked hputs,
    fun _ _ _ _ hcomm hruns hpath hring => recvqPoll_empty hcomm hruns hpath hring,
    fun _ _ _ hcomm hop hruns hpath _ _ _ hring hne hpay htr => recvqPoll_next hcomm hop hruns hpath hring hne hpay htr,
    fun _ _ hcomm => keepaliveSend_eq hcomm,
    fun _ _ hcomm hlive hother hself hnew hroot hsame => memberSuspect_reports hcomm hlive hother hself hnew hroot hsame,
    fun _ _ hcomm hok hepoch hself => (membershipBroadcast_heard hcomm hok hepoch).trans (congrArg _ (applyMask_member hself)),
    fun _ _ hcomm hspare hc hlive => spareJoin_asks hcomm hspare hc hlive⟩

end Sys2Proof.Machine
end
